-- ==== Sys2Proof/Word.lean ====
section
/-! DEFINITION. Bit-vector names the whole model uses: bytes and the 32- and 64-bit words of registers and fields. -/

namespace Sys2Proof

/-- One byte of memory (R7: byte 0 of a value holds bits [7:0]). -/
abbrev Byte := BitVec 8
/-- A 32-bit register word or FP32 value. -/
abbrev W32 := BitVec 32
/-- A 64-bit field (tags, step identifiers, serial numbers). -/
abbrev W64 := BitVec 64

end Sys2Proof
end

