-- ==== Sys2Proof/Syntax.lean ====
section
/-! DEFINITION. The commands the block takes: one constructor of `Instr` for each row of spec/opcode_table.json,
with the operands the spec gives the event, and the records those operands are made of. -/

namespace Sys2Proof

/-- A host port (R382): A on IO0, B on IO2. -/
inductive Port where
  | a | b
deriving DecidableEq, Repr

/-- The four masters that reach the registers (18, "Masters and access"; `WHO` of GLB_MASTER). -/
inductive Master where
  | portA | portB | sideband | easel
deriving DecidableEq, Repr

/-- Where a command came from: a ring or the mailbox of a port, with the tag and the entry index (R398, R403). -/
structure Src where
  port : Port
  mailbox : Bool
  tag : W64
  fence : Bool
  sqIndex : Nat
deriving DecidableEq, Repr

/-- A barrier or commit token (Table 09-4), without the kind, which the row names. `status` is the step status that a
failing member reports with KILL_REQ and the master hands on with KILL: R240 and Table 09-7 have the status travel, and the
64 bytes have no field for it (log entry 30). -/
structure Token where
  tag : Nat            -- slice tag of the packet that carries it (Table 15-2)
  stepId : Nat
  run : Nat
  barrier : Nat
  member : Nat
  cause : Nat
  status : Nat
  batchDigest : Nat
  sliceDigest : List Byte
deriving DecidableEq, Repr

/-- One 4-byte COMMIT body entry with its path record (R226). -/
structure CommitEntry where
  nAcc : Nat
  discard : Bool
  path : List Nat
deriving DecidableEq, Repr

/-- A slice message (Table 15-4), without the kind, which the row names. -/
structure SliceMsg where
  tag : Nat
  member : Nat
  coord : Nat
  causeCoord : Nat
  cause : Nat
  serial : W64
  digest : List Byte
deriving DecidableEq, Repr

/-- The 16-byte envelope of a Distributary message (R201). -/
structure Envelope where
  stepId : Nat
  run : Nat
  layer : Nat
  gsn : Nat
  pgen : Nat
deriving DecidableEq, Repr

/-- One candidate of a candidate list (Table 10-3). -/
structure Cand where
  token : Nat
  logit : W32
deriving DecidableEq, Repr

/-- A candidate list of one row from one SAMPLE tile (Table 10-3), with the step and run it belongs to. -/
structure CandList where
  stepId : Nat
  run : Nat
  member : Nat
  tile : Nat
  entry : Nat
  node : Nat
  head : Nat
  shards : Nat
  cands : List Cand
deriving DecidableEq, Repr

/-- IDENT contents (Table 14-5). -/
structure Ident where
  coord : Nat
  link : Nat
  bkind : Nat
  bdim : Nat
  foldMask : Nat
  rack : Nat
  serial : W64
deriving DecidableEq, Repr

/-- The route header at the head of a packet (Table 15-2). -/
structure RouteHdr where
  dst : Nat
  src : Nat
  bank : Nat
  xt : Bool
  srcGsn : Nat
  dstGdn : Nat
  hops : Nat
  tag : Nat
  len : Nat
  pseq : Nat
deriving DecidableEq, Repr

/-- What a packet on a link carries; optical ports take replica traffic only (R360). -/
inductive PktKind where
  | dist | token | slice | still | kv | tileReq | tileData | other
deriving DecidableEq, Repr

/-- A packet: its header, traffic class (0 CONTROL, 1 TILE, 2 BULK), kind and bytes. -/
structure Packet where
  hdr : RouteHdr
  cls : Nat
  kind : PktKind
  bytes : List Byte
deriving DecidableEq, Repr

/-- A DATA flit (Table 14-2): it carries piece `part`, counted from 0, of the 256-byte pieces of its packet. -/
structure Flit where
  seq : Nat
  ack : Nat
  cls : Nat
  part : Nat
  pkt : Packet
deriving DecidableEq, Repr

/-- Where a flit without a packet arrived, and its ACK field (Table 14-2). -/
structure RxHead where
  link : Nat
  ack : Nat
deriving DecidableEq, Repr

/-- Cell job parameters (Table 03-6); the two scale streams' addresses are operands of the model (R66 keeps scales in a separate stream). -/
structure CellJob where
  wide : Bool
  aFmt : Nat
  bFmt : Nat
  rows : Nat
  k : Nat
  n : Nat
  aSrc : Nat
  aScale : Nat
  bSrc : Nat
  bScale : Nat
  outDst : Nat
  segK : Nat
  bCoded : Bool
  chunk : Nat          -- with `bCoded`: the chunk of the tile at `bSrc` that the B stream starts at (R89)
  outFmt : Nat
  fwd : Bool
deriving DecidableEq, Repr

/-- Vector instructions (Table 04-3): register numbers are 0 to 63. -/
inductive VecOp where
  | fadd (d a b : Nat) | fsub (d a b : Nat) | fmul (d a b : Nat) | fma (d a b c : Nat)
  | fmin (d a b : Nat) | fmax (d a b : Nat) | fcmp (d a b : Nat)
  | fdiv (d a b : Nat) | fsqrt (d a : Nat)
  | fexp (d a : Nat) | frecip (d a : Nat) | frsqrt (d a : Nat)
  | iadd (d a b : Nat) | isub (d a b : Nat) | icmp (d a b : Nat)
  | ishl (d a b : Nat) | ishr (d a b : Nat) | iand (d a b : Nat) | ior (d a b : Nat) | ixor (d a b : Nat)
  | sel (d c a b : Nat)
  | cvtTo (fmt d a : Nat) | cvtFrom (fmt d a : Nat)
  | mxPack (fmt d a : Nat) | mxUnpack (fmt d a : Nat)
  | redSum (d a : Nat) | redMax (d a : Nat) | redMin (d a : Nat) | redArgmax (d a : Nat)
  | load (d addr : Nat) | store (a addr : Nat)
deriving DecidableEq, Repr

/-- A DMA transfer (R100): runs of 64-byte lines, `runs` of `lines` lines at the given strides, or with `tile` a whole tile of
a weight object at the directory's offset and size; `add` marks the FP32 atomic adds into a die pool of R107. -/
structure Dma where
  toStore : Bool
  storeAddr : Nat
  modAddr : Nat
  lines : Nat
  runs : Nat
  storeStride : Nat
  modStride : Nat
  tile : Option (Nat × Nat)
  add : Bool
deriving DecidableEq, Repr

/-- A cell job, for the core's running tile or for the second one that it has claimed (R128). -/
structure TileJob where
  second : Bool
  job : CellJob
deriving DecidableEq, Repr

/-- A transfer, for the core's running tile or for the second one that it has claimed (R101, R128). -/
structure TileDma where
  second : Bool
  d : Dma
deriving DecidableEq, Repr

/-- The end of a ground-truth tile (R76, R78): whether its first beat came after the cell's last operand beat, and the results that
the check accumulators hold. -/
structure GtResult where
  after : Bool
  checks : List W32
deriving DecidableEq, Repr

/-- A configuration write of a function (R389, R391, R547). -/
inductive CfgReq where
  | memEnable (on : Bool)
  | bar4Size (log2 : Nat)
deriving DecidableEq, Repr

/-- Which rail of Table 20-2. -/
inductive Rail where
  | compute (k : Nat) | io (m : Nat) | lpddr (q : Nat) | aux (q : Nat)
deriving DecidableEq, Repr

/-- A die-to-die port of Table 01-2, by its index 0 to 21 in that table's order. -/
abbrev D2dPort := Nat

/-- SQ registers (class SQ of R11). -/
inductive SqReg where
  | pci (p : Port) | lnk (i : Nat) | rte | fls | spill | hlt | pwr | mon | cd (k : Nat) | clk | sec
deriving DecidableEq, Repr

/-- The posted-write blocks of Table 18-1. -/
inductive PwBlk where
  | mon | clk | pci (p : Port) | lnk (i : Nat) | rte | fls
deriving DecidableEq, Repr

/-- BAR of a register access. -/
inductive Bar where
  | bar0 | bar2
deriving DecidableEq, Repr

/-- The ways other than PERST and FLR in which one port is reset (R386). -/
inductive PortReset where
  | hotReset | linkDisable
deriving DecidableEq, Repr

/-- The commands: one constructor per row of spec/opcode_table.json, in the table's order. -/
inductive Instr where
  -- ring and mailbox commands: source, and the 112 body bytes of Table 17-1
  | devInfo (src : Src) (body : List Byte)
  | resetScope (src : Src) (body : List Byte)
  | resetScopeDelayExpire
  | ringSetup (src : Src) (body : List Byte)
  | ringSetupTakeover (src : Src) (body : List Byte)
  | objCreate (src : Src) (body : List Byte)
  | objLoadHost (src : Src) (body : List Byte)
  | objStageFlash (src : Src) (body : List Byte)
  | objPromote (src : Src) (body : List Byte)
  | objEvict (src : Src) (body : List Byte)
  | objPin (src : Src) (body : List Byte)
  | objUnpin (src : Src) (body : List Byte)
  | objQuery (src : Src) (body : List Byte)
  | modelBind (src : Src) (body : List Byte)
  | viewSwitch (src : Src) (body : List Byte)
  | layerSwap (src : Src) (body : List Byte)
  | modelRelease (src : Src) (body : List Byte)
  | sliceJoin (src : Src) (body : List Byte)
  | sliceLeave (src : Src) (body : List Byte)
  | routeLoad (src : Src) (body : List Byte)
  | bundleSet (src : Src) (body : List Byte)
  | stepSubmit (src : Src) (body : List Byte)
  | stepKill (src : Src) (body : List Byte)
  | seqOpen (src : Src) (body : List Byte)
  | seqClose (src : Src) (body : List Byte)
  | pageShare (src : Src) (body : List Byte)
  | pageShareAct (slot : Nat)
  | prefetchSched (src : Src) (body : List Byte)
  | spillPolicy (src : Src) (body : List Byte)
  | paletteLoad (src : Src) (body : List Byte)
  | paletteRemove (src : Src) (body : List Byte)
  | stateDump (src : Src) (body : List Byte)
  | snapRead (src : Src) (body : List Byte)
  | fwUpdate (src : Src) (body : List Byte)
  | attest (src : Src) (body : List Byte)
  | powerPolicy (src : Src) (body : List Byte)
  -- mailbox, doorbells and fetch
  | mbGo (p : Port)
  | sqTailWrite (p : Port) (v : W32)
  | cqHeadWrite (p : Port) (v : W32)
  | commandFetch
  | fencedCommandExecute (slot : Nat)
  | coalTimerExpire (p : Port)
  -- registers
  | cfgCommitGo (m : Master)
  | cfgCommitDiscard (m : Master)
  | generationApply (m : Master)
  | bfWrite (m : Master) (off : Nat) (v : W32)
  | pwWrite (m : Master) (off : Nat) (v : W32)
  | pwWriteLand (m : Master) (blk : PwBlk)
  | accDropClear (m : Master) (blk : PwBlk)
  | sqEventRead (m : Master) (r : SqReg)
  | sqEventClear (m : Master) (r : SqReg) (v : W32)
  | lockSet (m : Master) (off : Nat)
  | timeLoRead (m : Master)
  | rackCapWrite (m : Master) (v : W32)
  | hostCapWrite (m : Master) (v : W32)
  | rteCoordWrite (m : Master) (v : W32)
  | lnkRetrain (m : Master) (link : Nat)
  | lnkEnableWrite (m : Master) (link : Nat) (en : Bool)
  | snapTrig (m : Master)
  | snapRearm (m : Master)
  | svnCommit (m : Master)
  | keyRevoke (m : Master) (slot : Nat)
  | allowlistAdd (m : Master) (manifest : Bool)
  | allowlistRemove (m : Master) (manifest : Bool)
  | allowlistClear (m : Master) (manifest : Bool)
  | registerWrite (m : Master) (bar : Bar) (off size : Nat) (v : W32)
  | bar4Read (p : Port) (off n : Nat)
  | bar4Write (p : Port) (off : Nat) (bytes : List Byte)
  -- host ports
  | perstAssert (p : Port)
  | perstDeassert (p : Port)
  | pcieHotReset (p : Port) (how : PortReset)
  | pcieFlr (p : Port)
  | pcieLinkUp (p : Port) (rate width : Nat) (flit reversed bestRate : Bool)
  | pcieLinkDown (p : Port)
  | d3hotEntry (p : Port)
  | d3hotExit (p : Port)
  | ideFail (p : Port) (stream : Nat)
  | ideKeyProgram (p : Port) (stream : Nat)
  | spdmRequest (p : Port) (nonce : List Byte)
  -- step protocol
  | arrive (t : Token)
  | release (t : Token)
  | preparedSend (slice stepId : Nat)
  | prepared (t : Token) (flags : BitVec 5) (ovfPairs ovfRounds : Nat)
  | commitPoint (slice stepId : Nat)
  | commit (t : Token) (body : List CommitEntry)
  | committed (t : Token)
  | killReq (t : Token)
  | kill (t : Token)
  | killed (t : Token)
  | startWaitExpire (slice stepId : Nat)
  | barrierWaitExpire (slice stepId barrier : Nat)
  | quantumExpire
  | candidateList (tag : Nat) (c : CandList)
  -- layer program and tile list
  | progTile (die slot : Nat)
  | appendStallResume (die slot : Nat)
  | progCounter (die slot : Nat)
  | progMoeCtx (die slot : Nat)
  | moeCtxDeferredOpen (die slot : Nat)
  | progMerge (die slot : Nat)
  | progBarrier (die slot : Nat)
  | progPoolmask (die slot : Nat)
  | progReduce (die slot : Nat)
  | progSend (die slot : Nat)
  | sendMessage (die slot idx : Nat)
  | tileClaim (die core : Nat)
  | claimGrant (die : Nat)
  | tileComplete (die core entry tileSeq attempt : Nat) (flags : BitVec 5)
  | tileFail (die core entry tileSeq : Nat) (status : Nat) (wrote : Bool)
  | failedTileDecide (die entry : Nat)
  | nopTileComplete (die entry : Nat)
  | reduceGroupReset (die group : Nat)
  | abandonConfirm (die core entry : Nat)
  | heartbeat (die core : Nat)
  | coreLost (die core : Nat)
  | seqWatchdog (die core : Nat)
  -- inside a core; `second`: for the core's second claimed tile; `after`: the tile's first beat issued after the cell's last
  -- operand beat (R78); `checks`: the sixteen check accumulators
  | cellJobStart (die core engine : Nat) (x : TileJob)
  | cellJobDone (die core engine cell : Nat)
  | vectorInstruction (die core : Nat) (op : VecOp)
  | dmaTransfer (die core : Nat) (x : TileDma)
  | dmaComplete (die core ctx : Nat) (srcError : Bool)
  | fence (die core : Nat)
  | paletteSlotLoadDone (die core : Nat)
  | gtTileDone (die core engine cell : Nat) (x : GtResult)
  | gtForceTimer (die core engine cell : Nat)
  | cellParityError (die core engine cell : Nat)
  | bufferEccError (die core engine : Nat) (double : Bool)
  | coreStoreEccError (die core : Nat) (double : Bool)
  | unpackError (die core entry : Nat)
  | unpackRereadDone (die entry : Nat)
  -- Distributary messages and pages
  | count (die : Nat) (e : Envelope) (counts : List Nat)
  | grant (die : Nat) (e : Envelope) (round : Nat) (grants : List (Nat × Nat))
  | row (die : Nat) (e : Envelope) (slotNo : Nat) (bytes : List Byte)
  | returnMsg (die : Nat) (e : Envelope) (addr ctr : Nat) (bytes : List Byte)
  | record (die : Nat) (e : Envelope) (mergeEntry part : Nat) (bytes : List Byte)
  | qrow (die : Nat) (e : Envelope) (addr ctr : Nat) (bytes : List Byte)
  | kvrow (die : Nat) (e : Envelope) (addr ctr : Nat) (bytes : List Byte)
  | nextRound (die slot layer : Nat)
  | tailCopyDone (slot seq : Nat)
  | spillStart (pool : Nat)
  | spillWriteDone (pool page : Nat)
  | pageReturnStart (pool page : Nat)
  | pageReturnDone (pool page : Nat) (readOk : Bool)
  -- objects, memory and flash
  | tileLand (obj tile : Nat) (bytes : List Byte)
  | departWriteoutDone (obj : Nat)
  | departRelease (obj : Nat)
  | flashCopyDurable (obj : Nat)
  | stageCopyWrite (die obj tile : Nat)
  | coldTileLand (die obj tile : Nat)
  | swapWriteStart (model : Nat)
  | tileRepair (obj tile : Nat)
  | memReadUncorrectable (addr : Nat)
  | channelFail (ch : Nat)
  | patrolScrubMismatch (group stripe : Nat) (persists : Bool) (unit : Option Nat)
  | nandOpDone (die : Nat)
  | nandProgramFail (die block : Nat)
  | nandDieFail (die : Nat)
  | nandRebuildDone (die : Nat) (complete : Bool)
  | readDisturbDue (die block reads : Nat)
  | thermalAgeTick (minutes : Nat)
  | relocationDone (die block : Nat)
  | nandOvertemp (pkg : Nat)
  | nandTempOk (pkg : Nat)
  | flashScrubPass (die block corrected : Nat)
  -- Chanex
  | linkTrainDone (link good pol : Nat) (reversed : Bool)
  | linkTrainTimeout (link : Nat)
  | identReceived (rx : RxHead) (i : Ident)
  | miswireRecheck (link : Nat)
  | dataFlitReceived (link : Nat) (f : Flit) (intact : Bool)
  | nakReceived (rx : RxHead) (nakSeq : Nat)
  | creditReceived (rx : RxHead) (c0 c1 c2 : Nat)
  | ackTimeout (link : Nat)
  | creditTimer (link : Nat)
  | laneFault (link lane : Nat)
  | linkFail (link : Nat)
  | linkRetryTimer (link : Nat)
  | linkRestore (link : Nat)
  | packetRoute (p : Packet)
  | transitWindow
  | twinTileRequest (obj tile : Nat)
  | join (m : SliceMsg)
  | joinAck (m : SliceMsg)
  | joinFail (m : SliceMsg)
  | joinWaitExpire (slice : Nat)
  | stop (m : SliceMsg)
  | stillToken (tag origin capNo : Nat)
  | stillInFall (highNs : Nat)
  | stillOutPulseEnd
  -- faults and health
  | d2dCrcError (port : D2dPort)
  | nodCrcError (die : Nat)
  | dieAgentWatchdog (die : Nat)
  | diePoolUncorrectable (die off : Nat)
  | dieLost (die : Nat)
  | lockstepMismatch
  | easelSramError
  | ceSample
  | registerScrub
  | healthMessage
  | healthRepeatTimer
  | healthAck (aseq : Nat)
  | faultPulseEnd
  | sidebandHeartbeat
  | orphanTimeout
  | sidebandBusStuck
  | recoveryImageMessage (last : Bool) (bytes : List Byte)
  | sidebandAttestRequest (nonce : List Byte)
  -- power, thermal and coolant
  | weirNAssert
  | weirNRelease
  | voltageStageSettle
  | heldExit
  | millpondTick (p1ms p10ms v1ms : Nat) (coresFull : Bool)
  | inputSag
  | sagCapTimer
  | sagHoldTimer
  | inputRecover
  | inputOvervoltage
  | powerOff
  | phaseFail (r : Rail)
  | railShort (r : Rail)
  | thermalSample (readings : List (Nat × Int))
  | thermtrip (sensor : Nat)
  | coolantEstimate (inA inB outA outB : Int) (p1s : Nat)
  | droopTrip (die : Nat)
  -- clocks, reset and boot
  | refClockLoss
  | refHoldoverExpire
  | pllUnlock (die : Nat)
  | powerOn
  | modRstNAssert
  | moduleResetEnd
  | bootStageDone
  | memoryTrainingDone (failed : List Nat)
  | ftlReady
  | dieResetDone (die : Nat)
  | flashResetDone
  | configurationRequest (p : Port) (r : CfgReq)
  | refClockReturn
  | quotaReturn (pool : Nat)
  | vectorParityError (die core : Nat)
  | sequencerEccError (die core : Nat)
  | sidebandLinesHigh
  | dynamicAddressAssign (addr : Nat)
  | dynamicAddressReset
  | tapInstruction (ir : Nat)
  | noSourceAnswer (obj : Nat)
  | reportSigned
  | updateDone
deriving DecidableEq, Repr

end Sys2Proof
end

