-- ==== Sys2Proof/Decode.lean ====
section
/-! DEFINITION. The command that a word spells. The opcode table of this block gives bits to none of its rows. -/

namespace Sys2Proof

/-- No row of spec/opcode_table.json carries bits, so no word spells a command. -/
def decodeTableWord (_nbits _w : Nat) : Option Instr := none

end Sys2Proof
end

