-- ==== Sys2Proof/Config.lean ====
section
/-! DEFINITION. What the spec leaves open: opaque constants with no body, so that a claim holds whatever they are. -/

namespace Sys2Proof.Config

/-- Free natural numbers: value `n` of the module's open choices and unstated values; the step reads the counter
`State.fresh` and advances it. -/
opaque freeNat : Nat → Nat

/-- Which of the results within its bound exp returns for an input (R55: a fixed function of its input, value unstated). -/
opaque expPick : BitVec 32 → Nat

/-- As `expPick`, for 1/x. -/
opaque recipPick : BitVec 32 → Nat

/-- As `expPick`, for 1/√x. -/
opaque rsqrtPick : BitVec 32 → Nat

/-- The cosine or sine that the ROPE routines of a palette version return for position, pair index, COLS and PARAM (R545: fixed
for each PAL_VER, value unstated within 2^-22 of the exact one). -/
opaque ropePick : Nat → Bool → BitVec 32 → Nat → Nat → BitVec 32 → BitVec 32

/-- Page of its range at which sub-range `i` + 1 of an ATTN tile begins, by the tile's arguments: how the palette divides the range is
its own (R151), and the same on every run (R45). -/
opaque attnCut : List (BitVec 8) → Nat → Nat

/-- Element codes of a ground-truth tile in a feeder's ROM: tile, unit, A (false) or B operand, element (R76 gives no patterns). -/
opaque gtElem : Nat → Nat → Bool → Nat → Nat

/-- Scale codes of a ground-truth tile: tile, unit, operand. -/
opaque gtScale : Nat → Nat → Bool → Nat

/-- The 32-bit result of a comparison in the vector unit, by relation (0 less, 1 equal, 2 greater, 3 unordered): Table 04-3
names the operation and no encoding of its result. -/
opaque cmpCode : Nat → BitVec 32

/-- The 32-bit result of an integer comparison: Table 04-3 gives neither its signedness nor its encoding. -/
opaque icmpCode : BitVec 32 → BitVec 32 → BitVec 32

/-- Whether a select takes its first operand for a condition word: the spec gives no encoding of the condition. -/
opaque selTrue : BitVec 32 → Bool

/-- A 32-bit shift by 32 places or more: the spec states no result. -/
opaque shiftOut : BitVec 32 → BitVec 32 → BitVec 32

/-- SLH-DSA-SHAKE-256s verification of a message under a public key (R510, R522); FIPS 205 is outside the spec. -/
opaque slhVerify : List Byte → List Byte → List Byte → Bool

/-- The signing engine's SLH-DSA-SHAKE-256f signature with the device identity key (R509), 49,856 bytes (R519). -/
opaque slhSign : List Byte → List Byte

/-- Xodrel's IANA enterprise number (Table 21-5), which the spec does not state. -/
opaque iana : BitVec 32

/-- Bytes that the SPDM responder frames around a report (R521): the SPDM standard is outside the spec. -/
opaque spdmFrame : List Byte → List Byte

end Sys2Proof.Config
end

