-- ==== Sys2Proof/Machine/Flags.lean ====
section
/-! DEFINITION. The five sticky arithmetic flags of R56, in the bit order of the tile-list entry's `FLAGS` field. -/

namespace Sys2Proof.Machine

open Sys2Proof

/-- Arithmetic flags: `NV`, `OF`, `SAT`, `NANIN`, `INFOUT` in bits [0] to [4]. -/
abbrev Fl := BitVec 5

/-- Invalid operation. -/
def flNV : Fl := 1
/-- Overflow to infinity. -/
def flOF : Fl := 2
/-- Saturating conversion. -/
def flSAT : Fl := 4
/-- A NaN element, a NaN scale or a NaN FP32 operand was consumed. -/
def flNANIN : Fl := 8
/-- An infinity was written to an output. -/
def flINFOUT : Fl := 16

/-- A flag that is set only when `b` holds. -/
def flIf (b : Bool) (f : Fl) : Fl := if b then f else 0

/-- The OR of a list of flag words (R56). -/
def flOr (l : List Fl) : Fl := l.foldl (· ||| ·) 0

end Sys2Proof.Machine
end

