-- ==== Sys2Proof/Machine/Num.lean ====
section
/-! DEFINITION. Number formats and arithmetic (spec/02_number_formats.md): encodings, exact values, the single
roundings, conversions, the vector unit's functions and block packing. Exact values are an integer times a power of
two; every narrowing is explicit. -/

namespace Sys2Proof.Machine

open Sys2Proof

/-- An exact value: NaN, a signed infinity, or (−1)^neg × m × 2^e (zeros keep their sign). -/
inductive Fv where
  | nan
  | inf (neg : Bool)
  | fin (neg : Bool) (m : Nat) (e : Int)
deriving DecidableEq, Repr

/-- A floating format of Table 02-2: exponent and mantissa bits, bias, largest finite magnitude code, and the
magnitude codes of infinity and the canonical NaN where the format has them (R34, R47). -/
structure FFmt where
  eb : Nat
  mb : Nat
  bias : Nat
  maxFin : Nat
  infC : Option Nat
  nanC : Option Nat
deriving DecidableEq, Repr

def fE2M1 : FFmt := ⟨2, 1, 1, 0x7, none, none⟩
def fE2M3 : FFmt := ⟨2, 3, 1, 0x1F, none, none⟩
def fE3M2 : FFmt := ⟨3, 2, 3, 0x1F, none, none⟩
def fE4M3 : FFmt := ⟨4, 3, 7, 0x7E, none, some 0x7F⟩
def fE5M2 : FFmt := ⟨5, 2, 15, 0x7B, some 0x7C, some 0x7E⟩
def fFP16 : FFmt := ⟨5, 10, 15, 0x7BFF, some 0x7C00, some 0x7E00⟩
def fBF16 : FFmt := ⟨8, 7, 127, 0x7F7F, some 0x7F80, some 0x7FC0⟩
def fFP32 : FFmt := ⟨8, 23, 127, 0x7F7FFFFF, some 0x7F800000, some 0x7FC00000⟩

/-- The floating format of a format code (Table 02-1); MXINT8 (0x8) has none. -/
def ffmtOf : Nat → Option FFmt
  | 0 => some fFP32 | 1 => some fBF16 | 2 => some fFP16 | 3 => some fE4M3 | 4 => some fE5M2
  | 5 => some fE2M3 | 6 => some fE3M2 | 7 => some fE2M1 | _ => none

/-- Element bits of a format code (Table 02-1); 0 for a reserved code. -/
def elemBits : Nat → Nat
  | 0 => 32 | 1 => 16 | 2 => 16 | 3 => 8 | 4 => 8 | 5 => 6 | 6 => 6 | 7 => 4 | 8 => 8 | _ => 0

/-- A format with an E8M0 block scale (Table 02-1). -/
def isMx (f : Nat) : Bool := 3 ≤ f && f ≤ 8

/-- Largest power-of-two exponent of an MX element format (02, "Element encodings"). -/
def emaxOf : Nat → Int
  | 3 => 8 | 4 => 15 | 5 => 2 | 6 => 4 | 7 => 2 | _ => 0

/-- The value of an encoded element of a floating format (R34). -/
def FFmt.decode (f : FFmt) (c : Nat) : Fv :=
  let neg := c / 2 ^ (f.eb + f.mb) % 2 = 1
  let mag := c % 2 ^ (f.eb + f.mb)
  let ex := mag / 2 ^ f.mb
  let m := mag % 2 ^ f.mb
  if f.maxFin < mag then
    if f.infC = some mag then .inf neg else .nan
  else if ex = 0 then .fin neg m (1 - f.bias - f.mb)
  else .fin neg (m + 2 ^ f.mb) ((ex : Int) - f.bias - f.mb)

/-- The value of an element code under a format code (R34, R36). -/
def elemVal (fmt c : Nat) : Fv :=
  match ffmtOf fmt with
  | some f => f.decode c
  | none => let i : Int := (BitVec.ofNat 8 c).toInt
            .fin (i < 0) i.natAbs (-6)

/-- Shift right by `d` places, to nearest, ties to even (R48). -/
def rneShift (m d : Nat) : Nat :=
  let q := m / 2 ^ d
  let r := m % 2 ^ d
  if 2 * r < 2 ^ d then q else if 2 ^ d < 2 * r then q + 1 else if q % 2 = 0 then q else q + 1

/-- `m` × 2^`e` as an integer multiple of 2^`q`, narrowed by `sh` when bits fall off. -/
def narrow (sh : Nat → Nat → Nat) (m : Nat) (e q : Int) : Nat :=
  if q ≤ e then m * 2 ^ (e - q).toNat else sh m (q - e).toNat

/-- The magnitude code that a positive value gets when the exponent range has no upper limit; the code of the next
binade follows on from the carry (R50). -/
def FFmt.magWith (f : FFmt) (sh : Nat → Nat → Nat) (m : Nat) (e : Int) : Nat :=
  if m = 0 then 0 else
    let qmin : Int := 1 - f.bias - f.mb
    let q := max qmin (e + Nat.log2 m - f.mb)
    (q - qmin).toNat * 2 ^ f.mb + narrow sh m e q

/-- To nearest even. -/
def FFmt.mag (f : FFmt) (m : Nat) (e : Int) : Nat := f.magWith rneShift m e

/-- Toward zero. -/
def FFmt.magTrunc (f : FFmt) (m : Nat) (e : Int) : Nat := f.magWith (fun m d => m / 2 ^ d) m e

/-- The stochastic rounding of R52: truncate 16 bits below the last place, add `r`, truncate. -/
def stochShift (r m d : Nat) : Nat := (m * 2 ^ 16 / 2 ^ d + r) / 2 ^ 16

/-- The code with its sign bit. -/
def FFmt.signed (f : FFmt) (neg : Bool) (mag : Nat) : Nat := (if neg then 2 ^ (f.eb + f.mb) else 0) + mag

/-- The canonical NaN code (R47); a format without NaN never asks for it. -/
def FFmt.nanCode (f : FFmt) : Nat := f.nanC.getD 0

/-- A magnitude code narrowed into the format: overflow to infinity with `OF` in FP32, BF16 and FP16, saturation with
`SAT` in element formats (R50). -/
def FFmt.close (f : FFmt) (sat neg : Bool) (mag : Nat) : Nat × Fl :=
  if mag ≤ f.maxFin then (f.signed neg mag, 0)
  else if sat then (f.signed neg f.maxFin, flSAT)
  else (f.signed neg (f.infC.getD f.maxFin), flOF)

/-- An exact value rounded into a format (R48, R50). -/
def FFmt.encode (f : FFmt) (sat : Bool) : Fv → Nat × Fl
  | .nan => (f.nanCode, 0)
  | .inf neg => (f.signed neg (f.infC.getD f.maxFin), 0)
  | .fin neg m e => f.close sat neg (f.mag m e)

/-- The value of an FP32 word. -/
def fvOf (x : W32) : Fv := fFP32.decode x.toNat

/-- The canonical FP32 NaN (R47). -/
def nan32 : W32 := 0x7FC00000

/-- An exact value rounded to FP32, with `OF` (R50). -/
def toF32 (v : Fv) : W32 × Fl :=
  let (c, fl) := fFP32.encode false v
  (BitVec.ofNat 32 c, fl)

def Fv.isNan : Fv → Bool
  | .nan => true
  | _ => false

def Fv.isInf : Fv → Bool
  | .inf _ => true
  | _ => false

def Fv.isZero : Fv → Bool
  | .fin _ m _ => m == 0
  | _ => false

def Fv.sign : Fv → Bool
  | .nan => false
  | .inf n => n
  | .fin n _ _ => n

def Fv.neg : Fv → Fv
  | .nan => .nan
  | .inf n => .inf (!n)
  | .fin n m e => .fin (!n) m e

/-- The signed integer of a finite value at scale 2^q, q at most its exponent. -/
def Fv.at (q : Int) : Fv → Int
  | .fin n m e => (if n then -1 else 1) * (m * 2 ^ (e - q).toNat : Nat)
  | _ => 0

def Fv.expo : Fv → Int
  | .fin _ m e => if m = 0 then 0 else e
  | _ => 0

/-- The exact product (Table 02-4): infinity times zero is NaN and invalid. -/
def Fv.mul (a b : Fv) : Fv × Fl :=
  if a.isNan || b.isNan then (.nan, flNANIN)
  else match a, b with
    | .fin n m e, .fin n' m' e' => (.fin (n != n') (m * m') (e + e'), 0)
    | a, b => if a.isZero || b.isZero then (.nan, flNV) else (.inf (a.sign != b.sign), 0)

/-- The exact sum of finite values; an exact zero is +0 unless every term is −0. -/
def sumFin (l : List Fv) : Fv :=
  let q := l.foldl (fun q v => min q v.expo) 0
  let t : Int := l.foldl (fun t v => t + v.at q) 0
  if t = 0 then .fin (l.all Fv.sign) 0 0 else .fin (t < 0) t.natAbs q

/-- The exact sum (Table 02-4): NaN stays NaN, opposite infinities are invalid, an infinity stays. -/
def sumFv (l : List Fv) : Fv × Fl :=
  if l.any Fv.isNan then (.nan, 0)
  else
    let infs := l.filter Fv.isInf
    if infs.any Fv.sign && infs.any (fun v => !v.sign) then (.nan, flNV)
    else match infs with
      | v :: _ => (v, 0)
      | [] => (sumFin l, 0)

/-- A sum with one rounding to FP32 (R42, R43, R54). -/
def sumRound (l : List Fv) : W32 × Fl :=
  let (v, f) := sumFv l
  let (w, g) := toF32 v
  (w, f ||| g)

/-- `NANIN` of FP32 operands consumed (R56). -/
def naninOf (l : List W32) : Fl := flIf (l.any fun x => (fvOf x).isNan) flNANIN

/-! ## Vector unit (R54, R55) -/

def f32Add (a b : W32) : W32 × Fl :=
  let (w, f) := sumRound [fvOf a, fvOf b]
  (w, f ||| naninOf [a, b])

def f32Neg (a : W32) : W32 := a ^^^ 0x80000000

def f32Sub (a b : W32) : W32 × Fl :=
  let (w, f) := sumRound [fvOf a, (fvOf b).neg]
  (w, f ||| naninOf [a, b])

def f32Mul (a b : W32) : W32 × Fl :=
  let (p, f) := (fvOf a).mul (fvOf b)
  let (w, g) := toF32 p
  (w, f ||| g)

/-- a × b + c with one rounding. -/
def f32Fma (a b c : W32) : W32 × Fl :=
  let (p, f) := (fvOf a).mul (fvOf b)
  let (w, g) := sumRound [p, fvOf c]
  (w, f ||| g ||| naninOf [a, b, c])

/-- A quotient of naturals with 64 more bits than the divisor, its last bit sticky. -/
def quotSticky (m d : Nat) : Nat × Int :=
  let k := 64 + Nat.log2 d
  let n := m * 2 ^ k
  (2 * (n / d) + (if n % d = 0 then 0 else 1), -(k : Int) - 1)

def f32Div (a b : W32) : W32 × Fl :=
  let n := (fvOf a).sign != (fvOf b).sign
  match fvOf a, fvOf b with
  | .nan, _ => (nan32, flNANIN)
  | _, .nan => (nan32, flNANIN)
  | .inf _, .inf _ => (nan32, flNV)
  | .inf _, _ => toF32 (.inf n)
  | _, .inf _ => toF32 (.fin n 0 0)
  | .fin _ m e, .fin _ m' e' =>
    if m' = 0 then (if m = 0 then (nan32, flNV) else toF32 (.inf n))
    else let (q, k) := quotSticky m m'
         toF32 (.fin n q (e - e' + k))

/-- Integer square root, bit by bit from bit `k` down. -/
def isqrtGo (n : Nat) : Nat → Nat → Nat
  | 0, r => if (r + 1) * (r + 1) ≤ n then r + 1 else r
  | k + 1, r => let r' := r + 2 ^ (k + 1)
                isqrtGo n k (if r' * r' ≤ n then r' else r)

def isqrt (n : Nat) : Nat := isqrtGo n (Nat.log2 n / 2 + 1) 0

/-- √(m × 2^e), m positive, with a sticky last bit. -/
def sqrtSticky (m : Nat) (e : Int) : Nat × Int :=
  let e' := e - 128
  let odd := e' % 2
  let n := m * 2 ^ 128 * (if odd = 0 then 1 else 2)
  let r := isqrt n
  (2 * r + (if r * r = n then 0 else 1), (e' - odd) / 2 - 1)

def f32Sqrt (a : W32) : W32 × Fl :=
  match fvOf a with
  | .nan => (nan32, flNANIN)
  | .inf n => if n then (nan32, flNV) else (a, 0)
  | .fin n m e =>
    if m = 0 then (a, 0) else if n then (nan32, flNV)
    else let (r, k) := sqrtSticky m e
         toF32 (.fin false r k)

/-- Order of two non-NaN values with −0 below +0 (R54). -/
def fvLt (a b : Fv) : Bool :=
  match a, b with
  | .inf n, .inf n' => n && !n'
  | .inf n, _ => n
  | _, .inf n => !n
  | .fin n m e, .fin n' m' e' =>
    if m = 0 && m' = 0 then n && !n'
    else let q := min e e'
         (Fv.fin n m e).at q < (Fv.fin n' m' e').at q
  | _, _ => false

/-- −0 below +0; NaN loses to every number, and sits below all in this order. -/
def f32Lt (a b : W32) : Bool :=
  if (fvOf b).isNan then false else if (fvOf a).isNan then true else fvLt (fvOf a) (fvOf b)

def f32Canon (a : W32) : W32 := if (fvOf a).isNan then nan32 else a

def f32Max (a b : W32) : W32 × Fl := (f32Canon (if f32Lt a b then b else a), naninOf [a, b])

def f32Min (a b : W32) : W32 × Fl :=
  ((if (fvOf a).isNan then f32Canon b else if (fvOf b).isNan then a else if fvLt (fvOf b) (fvOf a) then b else a),
    naninOf [a, b])

/-- The relation of two values: 0 less, 1 equal, 2 greater, 3 unordered; the two zeros compare equal. -/
def f32Rel (a b : W32) : Nat :=
  if (fvOf a).isNan || (fvOf b).isNan then 3
  else if (fvOf a).isZero && (fvOf b).isZero then 1
  else if fvLt (fvOf a) (fvOf b) then 0 else if fvLt (fvOf b) (fvOf a) then 2 else 1

/-- The result code of a comparison: the spec gives no encoding of it (opaque, a function of the relation). -/
def f32Cmp (a b : W32) : W32 × Fl := (Config.cmpCode (f32Rel a b), naninOf [a, b])

/-- Magnitude and exponent of an FP32 magnitude code, the codes past the largest finite one included. -/
def magVal (c : Nat) : Nat × Int :=
  if c < 2 ^ 23 then (c, -149) else (c % 2 ^ 23 + 2 ^ 23, (c / 2 ^ 23 : Nat) - 150)

/-- A magnitude code within `b` ulp of the exact `m` × 2^`e`, an ulp being the spacing at the exact value: which one the
hardware holds is unstated (R55), so `pick` names one of the codes near it, and the code below it stands for a `pick`
outside the bound. -/
def ulpPick (m : Nat) (e : Int) (b pick : Nat) : Nat :=
  let t := fFP32.magTrunc m e
  let c := t + pick % (4 * b + 2) - 2 * b
  let (mc, ec) := magVal c
  let u := (magVal t).2
  let q := min (min e ec) u
  let d : Int := (mc * 2 ^ (ec - q).toNat : Nat) - (m * 2 ^ (e - q).toNat : Nat)
  if d.natAbs ≤ b * 2 ^ (u - q).toNat then c else t

/-- A magnitude code of a special function closed into FP32 with `OF` beyond the range. -/
def closeF32 (neg : Bool) (mag : Nat) : W32 × Fl :=
  let (c, fl) := fFP32.close false neg mag
  (BitVec.ofNat 32 c, fl)

/-- ln 2 × 2^192, rounded down. -/
def ln2fix : Nat := 4350955369971217654277563090224794165364344896676135745069

/-- Terms of the exponential series of `r` × 2^-192, from term `n`. -/
def expSeries (r : Nat) : Nat → Nat → Nat → Nat
  | 0, _, _ => 0
  | k + 1, n, t => t + expSeries r k (n + 1) (t * r / 2 ^ 192 / n)

/-- exp of a finite x as (mantissa, exponent): x = k ln 2 + r, at 192 fraction bits (below R55's bound). -/
def expFin (n : Bool) (m : Nat) (e : Int) : Nat × Int :=
  let x : Int := (if n then -1 else 1) * (narrow (fun m d => m / 2 ^ d) m e (-192) : Nat)
  let k := x / ln2fix
  let r := (x % ln2fix).toNat
  (expSeries r 64 1 (2 ^ 192), k - 192)

/-- exp(x), within 2 ulp (Table 02-6). -/
def f32Exp (a : W32) : W32 × Fl :=
  match fvOf a with
  | .nan => (nan32, flNANIN)
  | .inf n => (if n then 0 else 0x7F800000, 0)
  | .fin n m e =>
    if m = 0 then (0x3F800000, 0)
    else if (Fv.fin false m e) |> fun v => fvLt (.fin false 256 0) v then
      if n then closeF32 false (ulpPick 1 (-256) 2 (Config.expPick a)) else (0x7F800000, flOF)
    else
      let (y, k) := expFin n m e
      closeF32 false (ulpPick y k 2 (Config.expPick a))

/-- 1/x, within 1 ulp (Table 02-6). -/
def f32Recip (a : W32) : W32 × Fl :=
  match fvOf a with
  | .nan => (nan32, flNANIN)
  | .inf n => toF32 (.fin n 0 0)
  | .fin n m e =>
    if m = 0 then toF32 (.inf n)
    else
      let (q, k) := quotSticky 1 m
      closeF32 n (ulpPick q (k - e) 1 (Config.recipPick a))

/-- 1/√x, within 2 ulp (Table 02-6). -/
def f32Rsqrt (a : W32) : W32 × Fl :=
  match fvOf a with
  | .nan => (nan32, flNANIN)
  | .inf n => if n then (nan32, flNV) else (0, 0)
  | .fin n m e =>
    if m = 0 then toF32 (.inf n) else if n then (nan32, flNV)
    else
      let (r, k) := sqrtSticky m e
      let (q, k') := quotSticky 1 r
      closeF32 false (ulpPick q (k' - k) 2 (Config.rsqrtPick a))

/-- A 32-bit integer as FP32, rounded to nearest even. -/
def f32OfInt (i : Int) : W32 := (toF32 (.fin (i < 0) i.natAbs 0)).1

/-! ## Conversions (R48 to R51) -/

/-- Round a scaled value to an MX element, saturating (R50); `sh` is the rounding. -/
def elemRound (fmt : Nat) (sh : Nat → Nat → Nat) (neg : Bool) (m : Nat) (e : Int) : Nat × Fl :=
  match ffmtOf fmt with
  | some f => f.close true neg (f.magWith sh m e)
  | none =>
    let i := narrow sh m e (-6)
    let j := min i 127
    (if neg then (256 - j) % 256 else j, flIf (127 < i) flSAT)

/-- The largest magnitude of a block of FP32 values as a magnitude code. -/
def amaxCode (l : List W32) : Nat := l.foldl (fun a x => max a (x.toNat % 2 ^ 31)) 0

/-- floor(log2) of a finite nonzero value. -/
def Fv.log2 : Fv → Int
  | .fin _ m e => e + Nat.log2 m
  | _ => 0

/-- R49: scale code and element codes of a block; `sh j` rounds element `j`. -/
def mxBlock (fmt : Nat) (sh : Nat → Nat → Nat → Nat) (xs : List W32) : Nat × List Nat × Fl :=
  if xs.any (fun x => (fvOf x).isNan || (fvOf x).isInf) then
    (0xFF, xs.map fun _ => 0, naninOf xs)
  else if amaxCode xs = 0 then (0, xs.map fun _ => 0, 0)
  else
    let a := fvOf (BitVec.ofNat 32 (amaxCode xs))
    let e := max (-127) (min 127 (a.log2 - emaxOf fmt))
    let r := xs.zipIdx.map fun (x, j) =>
      match fvOf x with
      | .fin n m ex => elemRound fmt (sh j) n m (ex - e)
      | _ => (0, 0)
    ((e + 127).toNat, r.map (·.1), flOr (r.map (·.2)))

/-- An MX element times its block scale as FP32: exact, or ±Inf with `OF` (Table 02-5). -/
def mxDecode (fmt scale c : Nat) : W32 × Fl :=
  if scale = 0xFF then (nan32, flNANIN)
  else match elemVal fmt c with
    | .nan => (nan32, flNANIN)
    | .inf n => toF32 (.inf n)
    | .fin n m e => toF32 (.fin n m (e + scale - 127))

/-- A BF16, FP16 or FP32 element as FP32, exactly. -/
def plainDecode (fmt c : Nat) : W32 × Fl :=
  let v := elemVal fmt c
  if v.isNan then (nan32, flNANIN) else toF32 v

/-- FP32 into BF16, FP16 or FP32 (Table 02-5). -/
def plainEncode (fmt : Nat) (x : W32) : Nat × Fl :=
  match ffmtOf fmt with
  | some f => let (c, fl) := f.encode false (fvOf x)
              (c, fl ||| naninOf [x])
  | none => (0, 0)

/-! ## Block and row layout (R37, R544) -/

/-- `n` bytes of a natural, little-endian (R7). -/
def leBytes : Nat → Nat → List Byte
  | 0, _ => []
  | n + 1, v => BitVec.ofNat 8 v :: leBytes n (v / 256)

/-- The natural that bytes spell, little-endian (R7). -/
def ofLe : List Byte → Nat
  | [] => 0
  | b :: t => b.toNat + 256 * ofLe t

/-- Elements of `w` bits packed into one little-endian value (R37: every element layout is this one). -/
def packNat (w : Nat) : List Nat → Nat
  | [] => 0
  | c :: t => c % 2 ^ w + 2 ^ w * packNat w t

/-- The first `n` elements of `w` bits of a packed value. -/
def unpackNat (w : Nat) : Nat → Nat → List Nat
  | 0, _ => []
  | n + 1, v => v % 2 ^ w :: unpackNat w n (v / 2 ^ w)

/-- Element codes of a format as bytes. -/
def packElems (fmt : Nat) (l : List Nat) : List Byte :=
  leBytes ((l.length * elemBits fmt + 7) / 8) (packNat (elemBits fmt) l)

/-- Element codes from bytes. -/
def unpackElems (fmt n : Nat) (b : List Byte) : List Nat := unpackNat (elemBits fmt) n (ofLe b)

/-- Element bytes of `n` elements; MX elements stand in whole blocks of 32 (R38, R544). -/
def elemBytes (fmt n : Nat) : Nat := ((if isMx fmt then (n + 31) / 32 * 32 else n) * elemBits fmt + 7) / 8

/-- Scale bytes of `n` elements: one per block of 32 in MX formats. -/
def scaleBytes (fmt n : Nat) : Nat := if isMx fmt then (n + 31) / 32 else 0

/-- Row bytes of R544: elements, scales, rounded up to 64. -/
def rowBytes (fmt cols : Nat) : Nat := (elemBytes fmt cols + scaleBytes fmt cols + 63) / 64 * 64

/-- Split into runs of `n`, at most `k` of them. -/
def chunks {α : Type} (n : Nat) : Nat → List α → List (List α)
  | 0, _ => []
  | k + 1, l => if l.isEmpty then [] else l.take n :: chunks n k (l.drop n)

/-- FP32 values of a row under R544 and the flags of decoding it. -/
def rowDecode (fmt cols : Nat) (b : List Byte) : List W32 × Fl :=
  let cs := unpackElems fmt cols (b.take (elemBytes fmt cols))
  let ss := (b.drop (elemBytes fmt cols)).map (·.toNat)
  let r := cs.zipIdx.map fun (c, j) =>
    if isMx fmt then mxDecode fmt (ss.getD (j / 32) 0) c else plainDecode fmt c
  (r.map (·.1), flOr (r.map (·.2)))

/-- Pad a list of values with +0 to a multiple of 32 (R74). -/
def pad32 (l : List W32) : List W32 := l ++ List.replicate ((32 - l.length % 32) % 32) 0

/-- The elements and scales of FP32 values in a format, to nearest even (R48 to R50): element bytes, scale bytes, flags. -/
def valsEncode (fmt : Nat) (vs : List W32) : List Byte × List Byte × Fl :=
  let inf := flIf (vs.any fun x => (fvOf x).isInf) flINFOUT
  if isMx fmt then
    let bs := (chunks 32 (vs.length + 1) (pad32 vs)).map (mxBlock fmt fun _ => rneShift)
    (bs.flatMap (fun (_, es, _) => packElems fmt es), bs.map (fun (s, _, _) => BitVec.ofNat 8 s),
      flOr (bs.map fun (_, _, f) => f))
  else
    let r := vs.map (plainEncode fmt)
    let inf' := flIf (r.any fun (c, _) => (elemVal fmt c).isInf) flINFOUT
    (packElems fmt (r.map (·.1)), [], flOr (r.map (·.2)) ||| inf ||| inf')

/-- A row under R544: elements, scales, zero bytes up to a multiple of 64. -/
def rowEncode (fmt : Nat) (vs : List W32) : List Byte × Fl :=
  let (e, sc, f) := valsEncode fmt vs
  let b := e ++ sc
  (b ++ List.replicate ((64 - b.length % 64) % 64) 0, f)

/-! ## Cell arithmetic (R39 to R46) -/

/-- Operand pairs of Table 02-3. -/
def pairOk (a b : Nat) : Bool :=
  ((3 ≤ a && a ≤ 6) && (3 ≤ b && b ≤ 6)) || (a == 8 && b == 8) || (a == 7 && b == 7) ||
  ((a == 3 || a == 4) && b == 7) || (a == 1 && b == 1) || (a == 2 && b == 2)

/-- Exact products of two element lists, with their flags. -/
def products (af bf : Nat) (as bs : List Nat) : List Fv × Fl :=
  let r := (as.zip bs).map fun (a, b) => (elemVal af a).mul (elemVal bf b)
  (r.map (·.1), flOr (r.map (·.2)))

/-- One MX block into an accumulator: exact block partial, scaled, one rounding (R41, R42, Table 02-4). -/
def cellBlock (af bf : Nat) (acc : W32) (xa xb : Nat) (as bs : List Nat) : W32 × Fl :=
  if xa = 0xFF || xb = 0xFF then (nan32, flNANIN)
  else
    let (ps, f) := products af bf as bs
    let (p, g) := sumFv ps
    let c := match p with
      | .fin n m e => if m = 0 then .fin false 0 0 else .fin n m (e + xa + xb - 254)
      | v => v
    let (w, h) := sumRound [fvOf acc, c]
    (w, f ||| g ||| h)

/-- One beat of two BF16 or FP16 products into an accumulator (R43). -/
def cellBeat (fmt : Nat) (acc : W32) (as bs : List Nat) : W32 × Fl :=
  let (ps, f) := products fmt fmt as bs
  let (w, h) := sumRound (fvOf acc :: ps)
  (w, f ||| h)

/-- An accumulator over blocks in ascending K (R44, R45): operand lists, one scale pair per block of 32. -/
def cellDot (af bf : Nat) (as bs : List Nat) (xas xbs : List Nat) : W32 × Fl :=
  let n := as.length + 1
  if isMx af then
    ((chunks 32 n as).zip (chunks 32 n bs)).zipIdx.foldl
      (fun (acc, f) ((a, b), i) =>
        let (w, g) := cellBlock af bf acc (xas.getD i 0) (xbs.getD i 0) a b
        (w, f ||| g)) (0, 0)
  else
    ((chunks 2 n as).zip (chunks 2 n bs)).foldl
      (fun (acc, f) (a, b) =>
        let (w, g) := cellBeat af acc a b
        (w, f ||| g)) (0, 0)

/-! ## Activation functions of the vendor palettes (R545) -/

/-- Combine a value with the flags gathered so far. -/
def fl1 (f : Fl) (r : W32 × Fl) : W32 × Fl := (r.1, f ||| r.2)

def silu (x : W32) : W32 × Fl :=
  let (t, f) := f32Exp (f32Neg x)
  let (d, g) := f32Add 0x3F800000 t
  let (r, h) := f32Recip d
  fl1 (f ||| g ||| h) (f32Mul x r)

/-- `c₁` = √(2/π) and `c₂` = 0.044715 as the nearest FP32 values. -/
def gelu (x : W32) : W32 × Fl :=
  let (x2, f0) := f32Mul x x
  let (x3, f1) := f32Mul x x2
  let (y, f2) := f32Fma 0x3D372713 x3 x
  let (a, f3) := f32Mul 0x3F4C422A y
  let (e, f4) := f32Exp (f32Mul 0x40000000 a).1
  let (d, f5) := f32Add 0x3F800000 e
  let (r, f6) := f32Recip d
  let (u, f7) := f32Sub 0x3F800000 r
  fl1 (flOr [f0, f1, f2, f3, f4, f5, f6, f7]) (f32Mul x u)

def swiglu (g u : W32) : W32 × Fl :=
  let (s, f) := silu g
  fl1 f (f32Mul s u)

/-- A lane reduction in the fixed tree of R99. -/
def treeSum : Nat → List W32 → W32 × Fl
  | 0, l => (l.headD 0, 0)
  | k + 1, l =>
    let r := (chunks 2 l.length l).map fun p => f32Add (p.getD 0 0) (p.getD 1 0)
    fl1 (flOr (r.map (·.2))) (treeSum k (r.map (·.1)))

end Sys2Proof.Machine
end

