-- ==== Sys2Proof/Machine/Angles.lean ====
section
/-! DEFINITION. The rotation coefficients of ROPE (R108, R545): the exact angle, its exact cosine and sine in fixed point far
below the rule's bound of 2^-22, and the palette's choice within that bound. -/

namespace Sys2Proof.Machine

open Sys2Proof

/-- Fraction bits of every fixed-point value here. -/
def fixBits : Nat := 512

/-- Σ of `p` × z^(2j) ÷ (2j + 1) from `i` = 2j + 1 on, `n` terms; `alt` alternates the signs (atan, else atanh). -/
def oddSeries (alt : Bool) (z2 : Int) : Nat → Int → Int → Int
  | 0, _, _ => 0
  | n + 1, i, p => let q := p * z2 / 2 ^ fixBits
                   p / i + oddSeries alt z2 n (i + 2) (if alt then -q else q)

/-- 2 atanh(a / b), |a / b| at most 1/3. -/
def ln1 (a b : Nat) : Int :=
  let z : Int := (a * 2 ^ fixBits / b : Nat)
  2 * oddSeries false (z * z / 2 ^ fixBits) 170 1 z

/-- ln 2. -/
def fixLn2 : Int := ln1 1 3

/-- ln of m × 2^e, m positive. -/
def fixLn (m : Nat) (e : Int) : Int :=
  let l := Nat.log2 m
  (e + l) * fixLn2 + ln1 (m - 2 ^ l) (m + 2 ^ l)

/-- atan(1 / d). -/
def atanInv (d : Nat) : Int := oddSeries true ((2 ^ fixBits / (d * d) : Nat)) 120 1 ((2 ^ fixBits / d : Nat))

/-- 2π. -/
def fixTwoPi : Int := 32 * atanInv 5 - 8 * atanInv 239

/-- The exponential series of `r`, from term `i`. -/
def fixExpSeries (r : Int) : Nat → Int → Int → Int
  | 0, _, _ => 0
  | n + 1, i, p => p + fixExpSeries r n (i + 1) (p * r / 2 ^ fixBits / i)

/-- exp(y) as a mantissa and the exponent of its last bit. -/
def fixExp (y : Int) : Nat × Int :=
  ((fixExpSeries (y % fixLn2) 110 1 (2 ^ fixBits)).toNat, y / fixLn2 - fixBits)

/-- θ = |p| × PARAM^(−2i ÷ COLS) of a pair (R545), modulo 2π. -/
def ropeAngle (p : Nat) (i cols : Nat) (m : Nat) (e : Int) : Int :=
  let (v, k) := fixExp (-(fixLn m e * (2 * i)) / cols)
  let k := k + fixBits
  (((if k < 0 then p * v / 2 ^ (-k).toNat else p * v * 2 ^ k.toNat : Nat) : Int)) % fixTwoPi

/-- Cosine (`i` = 1 from 1) or sine (`i` = 2 from r) by the alternating series. -/
def turnSeries (r2 : Int) : Nat → Int → Int → Int
  | 0, _, _ => 0
  | n + 1, i, p => p + turnSeries r2 n (i + 2) (-(p * r2 / 2 ^ fixBits / (i * (i + 1))))

/-- The exact cosine or sine of the angle of a position, with the sign of the position. -/
def ropeExact (sine : Bool) (p : BitVec 32) (i cols : Nat) (m : Nat) (e : Int) : Int :=
  let r := ropeAngle p.toInt.natAbs i cols m e
  let r2 := r * r / 2 ^ fixBits
  if sine then (if p.toInt < 0 then -1 else 1) * turnSeries r2 60 2 r else turnSeries r2 60 1 (2 ^ fixBits)

/-- An FP32 value within 2^-22 of a fixed-point one. -/
def nearFix (w : W32) (c : Int) : Bool :=
  match fvOf w with
  | .fin n m e => decide (((if n then -1 else 1) * ((m * 2 ^ (e + fixBits).toNat : Nat) : Int) - c).natAbs ≤ 2 ^ (fixBits - 22))
  | _ => false

/-- The coefficient that the routines of a palette version return (R545): fixed for the version and unstated within 2^-22 of the
exact one; the nearest FP32 value stands for a choice outside the bound. -/
def ropeCoef (ver : Nat) (sine : Bool) (p : BitVec 32) (i cols : Nat) (param : W32) : W32 :=
  match fvOf param with
  | .fin _ m e =>
    let c := ropeExact sine p i cols m e
    let w := Config.ropePick ver sine p i cols param
    if nearFix w c then w else (toF32 (.fin (c < 0) c.natAbs (-fixBits))).1
  | _ => nan32

end Sys2Proof.Machine
end

