-- ==== Sys2Proof/Machine/Hash.lean ====
section
/-! DEFINITION. Published functions that the spec names and does not restate: SHAKE256 (Keccak), CRC-16 of R85,
CRC-32C, and the Threefry-4x32 generator with 20 rounds (R58 to R61). Their definitions are taken from their
publications (PRESUMED, log entry 12). -/

namespace Sys2Proof.Machine

open Sys2Proof

/-! ## SHAKE256 -/

/-- The 1,600-bit state of the permutation. -/
abbrev Sponge := BitVec 1600

/-- The lane at column `x` and row `y`, both taken modulo 5. -/
def Sponge.lane (s : Sponge) (x y : Nat) : BitVec 64 := s.extractLsb' (64 * (x % 5 + 5 * (y % 5))) 64

/-- The state whose lane at (x, y) is `f x y`. -/
def Sponge.ofLanes (f : Nat → Nat → BitVec 64) : Sponge :=
  (List.range 25).foldr (fun i s => (s <<< (64 : Nat)) ||| (f (i % 5) (i / 5)).setWidth 1600) 0

/-- The register of the constant generator after `n` shifts (x⁸ + x⁶ + x⁵ + x⁴ + 1, from 1). -/
def rcReg : Nat → Nat
  | 0 => 1
  | n + 1 => let r := 2 * rcReg n
             if r < 256 then r else r ^^^ 0x171

/-- What round `ir` adds to lane (0, 0): bit 2^j − 1 is output 7 `ir` + j of the generator. -/
def roundConst (ir : Nat) : BitVec 64 :=
  BitVec.ofNat 64 (((List.range 7).map fun j => rcReg (7 * ir + j) % 2 * 2 ^ (2 ^ j - 1)).sum)

/-- The walk (x, y) → (y, 2x + 3y) from (1, 0): its `n`-th lane is rotated by the triangular number of `n` + 1. -/
def laneWalk : Nat → Nat × Nat
  | 0 => (1, 0)
  | n + 1 => let (x, y) := laneWalk n
             (y, (2 * x + 3 * y) % 5)

/-- The rotation of the lane at (x, y); lane (0, 0) is not on the walk and stays. -/
def laneTurn (x y : Nat) : Nat :=
  match (List.range 24).find? fun n => laneWalk n == (x, y) with
  | some n => (n + 1) * (n + 2) / 2 % 64
  | none => 0

/-- Column parities into every lane. -/
def Sponge.spread (s : Sponge) : Sponge :=
  let par := fun x => (List.range 5).foldl (fun p y => p ^^^ s.lane x y) 0
  Sponge.ofLanes fun x y => s.lane x y ^^^ par (x + 4) ^^^ (par (x + 1)).rotateLeft 1

/-- Every lane rotated, and moved to the place its walk goes to: the lane read into (x, y) stood at (x + 3y, x). -/
def Sponge.turn (s : Sponge) : Sponge :=
  Sponge.ofLanes fun x y => (s.lane (x + 3 * y) x).rotateLeft (laneTurn ((x + 3 * y) % 5) x)

/-- The nonlinear map along rows, and the round's constant. -/
def Sponge.mix (s : Sponge) (ir : Nat) : Sponge :=
  Sponge.ofLanes (fun x y => s.lane x y ^^^ (~~~ s.lane (x + 1) y &&& s.lane (x + 2) y)) ^^^
    (roundConst ir).setWidth 1600

/-- The 24 rounds. -/
def Sponge.permute (s : Sponge) : Sponge := (List.range 24).foldl (fun s ir => (s.spread.turn).mix ir) s

/-- A 136-byte block into the state. -/
def Sponge.absorb (s : Sponge) (blk : List Byte) : Sponge := (s ^^^ BitVec.ofNat 1600 (ofLe blk)).permute

/-- Message with SHAKE's padding: 0x1F, zeros, 0x80 in the last byte of a 136-byte block. -/
def shakePad (m : List Byte) : List Byte :=
  let k := 136 - m.length % 136
  if k = 1 then m ++ [0x9F] else m ++ [0x1F] ++ List.replicate (k - 2) 0 ++ [0x80]

/-- SHAKE256 with 32 bytes of output, the digest that every rule uses. -/
def shake256 (m : List Byte) : List Byte :=
  let p := shakePad m
  leBytes 32 ((chunks 136 (p.length / 136) p).foldl Sponge.absorb 0).toNat

/-! ## CRCs -/

/-- CRC-16 of R85: polynomial 0x1021, initial value 0xFFFF, no reflection, no final inversion. -/
def crc16Bit : Nat → Nat → Nat
  | 0, c => c
  | k + 1, c => crc16Bit k (if c / 2 ^ 15 % 2 = 1 then (c * 2 % 2 ^ 16) ^^^ 0x1021 else c * 2)

def crc16 (bs : List Byte) : Nat := bs.foldl (fun c b => crc16Bit 8 (c ^^^ (b.toNat * 256))) 0xFFFF

def crc32cBit : Nat → Nat → Nat
  | 0, c => c
  | k + 1, c => crc32cBit k (if c % 2 = 1 then (c / 2) ^^^ 0x82F63B78 else c / 2)

/-- CRC-32C (Castagnoli) in its usual reflected form. -/
def crc32c (bs : List Byte) : Nat := (bs.foldl (fun c b => crc32cBit 8 (c ^^^ b.toNat)) 0xFFFFFFFF) ^^^ 0xFFFFFFFF

/-! ## Threefry-4x32-20 (R58) -/

/-- Rotation pairs of the eight rounds of one period. -/
def tfRot : List (Nat × Nat) := [(10, 26), (11, 21), (13, 27), (23, 5), (6, 20), (17, 11), (25, 10), (18, 20)]

structure Tf where
  a : W32
  b : W32
  c : W32
  d : W32
deriving DecidableEq, Repr

/-- One round: mix the pairs, then exchange words 1 and 3. -/
def tfRound (r : Nat) (x : Tf) : Tf :=
  let (p, q) := tfRot.getD (r % 8) (0, 0)
  let a := x.a + x.b
  let b := x.b.rotateLeft p ^^^ a
  let c := x.c + x.d
  let d := x.d.rotateLeft q ^^^ c
  ⟨a, d, c, b⟩

/-- Key word i of the extended key schedule, 5 words. -/
def tfKey (k : Tf) (i : Nat) : W32 :=
  match i % 5 with
  | 0 => k.a | 1 => k.b | 2 => k.c | 3 => k.d
  | _ => 0x1BD11BDA ^^^ k.a ^^^ k.b ^^^ k.c ^^^ k.d

/-- Add the key for injection s. -/
def tfInject (k : Tf) (s : Nat) (x : Tf) : Tf :=
  ⟨x.a + tfKey k s, x.b + tfKey k (s + 1), x.c + tfKey k (s + 2), x.d + tfKey k (s + 3) + BitVec.ofNat 32 s⟩

def tfGo (k : Tf) : Nat → Nat → Tf → Tf
  | 0, _, x => x
  | n + 1, r, x =>
    let y := tfRound r x
    tfGo k n (r + 1) (if (r + 1) % 4 = 0 then tfInject k ((r + 1) / 4) y else y)

/-- A draw: counter words in, output words out. -/
def threefry (k ctr : Tf) : Tf := tfGo k 20 0 (tfInject k 0 ctr)

/-- The key words of a 128-bit seed (R58). -/
def tfSeed (seed : Nat) : Tf :=
  ⟨BitVec.ofNat 32 seed, BitVec.ofNat 32 (seed / 2 ^ 32), BitVec.ofNat 32 (seed / 2 ^ 64), BitVec.ofNat 32 (seed / 2 ^ 96)⟩

/-- A uniform number in [0, 1) as a numerator over 2^24 (R61), for stream 0 or 1 (Table 02-7). -/
def drawU (seed stream pos node no : Nat) : Nat :=
  (threefry (tfSeed seed) ⟨BitVec.ofNat 32 pos, BitVec.ofNat 32 (node * 65536 + no), BitVec.ofNat 32 stream, 0⟩).a.toNat / 256

/-- The 16-bit number of KV element `e` at a position and layer (Table 02-7, stream 2; R60). -/
def drawKv (seed pos layer e : Nat) : Nat :=
  let x := threefry (tfSeed seed) ⟨BitVec.ofNat 32 pos, BitVec.ofNat 32 (e / 8), 2, BitVec.ofNat 32 layer⟩
  let w := [x.a, x.b, x.c, x.d].getD (e % 8 / 2) 0
  if e % 2 = 0 then w.toNat % 65536 else w.toNat / 65536

end Sys2Proof.Machine
end

