-- ==== Sys2Proof/Machine/State.lean ====
section
/-! DEFINITION. The state of the module as plain data, every piece of state the spec gives it, the faults and
refusals a command may end in, and the state right after reset. Tables that the spec sizes in thousands are held
sparsely: an entry that is not listed is the empty entry. -/

namespace Sys2Proof.Machine

open Sys2Proof

/-- Why a step stops with a fault. No rule of the spec stops the block: every event is handled in State. -/
inductive Fault where
  /-- Raised by no command: kept so that the type names the one stop a block could have, a queue entry that is no command. Safe. -/
  | noCommand
deriving DecidableEq, Repr

/-- Why a step is refused. -/
inductive Refusal where
  /-- Raised by the dispatch arm of a command that has no meaning yet. Safe: the model stops where the hardware goes on. -/
  | notModelled (mnemonic : String)
deriving DecidableEq, Repr

/-! ## Registers shared by every block -/

/-- An SQ register (R424, R425): events [23:0], sequence number [31:24], and the masters whose last read is still current. -/
structure SqState where
  ev : BitVec 24
  seq : BitVec 8
  perm : List Master
deriving DecidableEq, Repr

/-- A master's posted-write slot in one PW block (R427, Table 18-2). -/
structure AccState where
  busy : Bool
  drop : Bool
  dropN : Nat
  off : Nat
  val : W32
  seqNo : Nat
deriving DecidableEq, Repr

/-- One shadowed write of a BF register (R430). -/
structure ShadowW where
  off : Nat
  val : W32
deriving DecidableEq, Repr

/-- The banked registers and shadows of one master (R420, R430, R431). -/
structure MasterSt where
  shadow : List ShadowW
  taken : Option (List ShadowW)   -- the generation taken at GO, until it applies
  gen : Nat
  pending : Bool
  checked : Bool                  -- the generation has passed its checks and waits for its boundary (R431)
  goSeq : Nat                     -- order of GO writes among posted writes (R431, R434)
  rejected : Bool
  busy : Bool
  scope : Nat
  reason : Nat
  rejOff : Nat
  rejLsb : Nat
  rejValid : Bool
  timeHi : W32
  selLo : List W32
  selHi : List W32
deriving DecidableEq, Repr

/-! ## Host ports, rings and commands -/

/-- A command's way back: its source, opcode and COMMANDS slot (R445). -/
structure Ref where
  src : Src
  opcode : Nat
  slot : Option Nat
deriving DecidableEq, Repr

/-- What a failing step's completion names (R117, R134, R189): a tile, by die, entry, PAL_ID and role, or a page of a pool. -/
inductive Blame where
  | tile (die entry pal role : Nat)
  | page (pool page : Nat)
deriving DecidableEq, Repr

/-- A completion entry (Table 17-2), before `PHASE` is set at posting. -/
structure Cpl where
  tag : W64
  cseq : Nat
  status : Nat
  opcode : Nat
  orig : Port
  held : Bool
  hostLost : Bool
  result : List Byte
  slot : Option Nat
  names : Option Blame      -- R117, R134, R189: named beside the bytes, which have no field for it
deriving DecidableEq, Repr

/-- A port's ring pair (R397, R399, R401, Table 17-4). -/
structure Ring where
  sqAddr : Nat
  cqAddr : Nat
  sqLog2 : Nat
  cqLog2 : Nat
  vec : Nat
  coalUs : Nat
  fetch : Nat
  tail : Nat
  post : Nat
  head : Nat
  phase : Bool
  live : Bool               -- false from the port's going down until RING_SETUP (Table 16-2)
deriving DecidableEq, Repr

/-- State of a fetched command (Table 19-2). -/
inductive CmdState where
  | waiting | executing | held
deriving DecidableEq, Repr

/-- A COMMANDS slot (R445, Table 19-2), with what the Easel keeps to execute the command later. -/
structure CmdSlot where
  idx : Nat
  src : Src
  opcode : Nat
  state : CmdState
  cseq : Nat
  stepId : Nat
  slice : Nat
  status : Nat
  body : List Byte
  postOn : Port
  order : Nat
  shareWait : Bool          -- a PAGE_SHARE that waits under R182
deriving DecidableEq, Repr

/-- One PCIe port (16, 17; PCI_* and MBX_* registers). -/
structure PortSt where
  linkUp : Bool
  rate : Nat
  width : Nat
  flit : Bool
  reversed : Bool
  perst : Bool
  flr : Bool
  cfgReady : Bool
  memEn : Bool
  d3 : Bool
  ide : Nat
  ideKeyed : List Nat                  -- IDE streams that have keys: 0 the link stream, 1 to 4 the selective ones (R385)
  ideFailed : List Nat
  bar4Log2 : Nat
  winBase : Nat
  wrDrop : Nat
  rdOnes : Nat
  ring : Option Ring
  taken : Bool
  nextCseq : Nat
  held : List Cpl
  cplDrop : Nat
  mbCmd : List Byte
  mbCpl : Option Cpl
  mbBusy : Bool
  mbDone : Bool
  mbDropped : Bool
  dbErr : Bool
  coalRun : Bool            -- a COAL_US interval runs (R402)
  msix : List (Nat × W32)   -- words of the MSI-X table (Table 16-3, R386); unlisted words are zero
deriving DecidableEq, Repr

/-! ## Objects, pools and sequences -/

/-- Object kinds (Table 11-2). -/
inductive ObjKind where
  | tileset | kvpool | program | buffer | stage | hostbuf
deriving DecidableEq, Repr

/-- Residency states (Table 11-3 `RES`). -/
inductive Res where
  | absent | arriving | resident | departing
deriving DecidableEq, Repr

/-- A tile directory entry (Table 13-2). -/
structure TileDir where
  off : Nat
  bytes : Nat
  scaleOff : Nat
  scaleBytes : Nat
  k32 : Nat
  n4 : Nat
  fmt : Nat
  coded : Bool
  wide : Bool
  trole : Nat
  layer : Nat
  expert : Nat
  tdigest : List Byte
deriving DecidableEq, Repr

/-- Where an arrival reads its tiles (R294, R337, R410). -/
inductive LoadSrc where
  | host (s0 s1 split : Nat)
  | flash
  | twin
  | flashOf (obj : Nat)
deriving DecidableEq, Repr

/-- A command that waits on an object's movement; `alt` is the status it completes with in place of OK. -/
structure Waiter where
  ref : Ref
  alt : Nat
deriving DecidableEq, Repr

/-- Page states (Table 07-4). -/
inductive PageState where
  | free | staging | live | retiring | spilled | arriving
deriving DecidableEq, Repr

/-- A page descriptor (Table 07-3). `ageC` is the 64-bit commit count behind `AGE` (R169). -/
structure PageDesc where
  frame : Nat
  state : PageState
  perm : Bool
  spillAct : Bool
  pins : Nat
  refcnt : Nat
  fill : Nat
  age : Nat
  ageC : Nat
  spillLoc : Nat
  spillTier : Nat
  spillCrc : Nat
  retried : Bool            -- the returned bytes were read once more (R189)
  lost : Bool               -- KV_LOST reported (R189)
deriving DecidableEq, Repr

/-- What a table slot of a pool holds (R287): the root of a sequence, or its leaf for run `r`. -/
inductive TableUse where
  | root (seq : Nat)
  | leaf (seq r : Nat)
  | staged (seq r : Nat)   -- a leaf taken at step start and not yet in the page table (R176)
deriving DecidableEq, Repr

/-- A KV pool: attributes of Table 07-1, its pages, tables and Spillway (Table 07-6). -/
structure Pool where
  d : Nat
  g : Nat
  fmt : Nat
  sr : Bool
  layers : Nat
  heads : Nat
  layer0 : Nat
  head0 : Nat
  tableBytes : Nat
  frames : Nat
  pageIds : Nat
  pageBytes : Nat
  metaOff : Nat
  metaGroup : Nat
  pages : List (Nat × PageDesc)
  tables : List (Nat × TableUse)
  target : Nat
  hostBuf : Nat
  lowFree : Nat
  highFree : Nat
  idleSteps : Nat
  fallback : Bool
  stalled : Bool
  spilling : Bool
  spillTo : Option (Nat × Nat)  -- tier and place of the copy-out in progress (R186)
  demand : List Nat         -- page returns requested, in order (R188)
deriving DecidableEq, Repr

/-- An object (Table 11-3) and its movement. -/
structure Obj where
  id : Nat
  slotNo : Nat              -- directory slot (aperture 6)
  stagePort : Option Port   -- port of the HOSTBUF that a flash copy in progress is written from (R294)
  kind : ObjKind
  res : Res
  prot : Bool
  lost : Bool
  evp : Bool
  fcopy : Bool
  released : Bool
  dp : Bool
  die : Nat
  groups : Nat
  pins : Nat
  opins : Nat
  tiles : Nat
  landed : List Nat
  size : Nat
  extOff : Nat
  extBytes : Nat
  dir : List TileDir
  setDigest : List Byte
  hostPort : Port
  hostAddr : Nat
  src : Option LoadSrc
  retried : List Nat        -- tiles of this movement that failed their checks once (R293)
  arrive : List Waiter
  evicts : List Waiter
  stageW : List Waiter      -- OBJ_STAGE_FLASH commands waiting for durability
  refetch : List Waiter     -- promotes that wait for ABSENT (Table 11-5)
  refetchSrc : Option LoadSrc
  evictTo : Nat
  writeOut : Bool           -- the departure still has to program its write-out
  readers : Nat             -- tile reads of the object in flight
  trig : Nat                -- the prefetch trigger that promotes it, 0 none (R299)
  destroyAtEnd : Bool       -- R332: destroy when the movement ends
  pool : Option Pool
deriving DecidableEq, Repr

/-- An open (or recently closed, R446) sequence. `map` lists its page-table entries: logical page and PAGE_ID. -/
structure Seq where
  h : Nat
  slice : Nat
  pool : Nat
  spread : Nat
  mlist : List Nat
  prefixLen : Nat
  seed : Nat
  len : Nat
  zeroAcc : Nat
  rootSlot : Nat
  map : List (Nat × Nat)
  step : Nat                -- STEP_ID of the uncommitted step, 0 none
  closeHeld : List Ref
  closing : Bool
  closed : Bool
  closedAt : Nat
  slotNo : Nat
  lastStep : Nat
  lastCommit : Nat          -- 64-bit commit count of the last commit it took part in
  nOut : Nat
  rflags : BitVec 4
  tokValid : Bool
  stamp : Nat
  toks : List Nat
deriving DecidableEq, Repr

/-- A system extent of the module's own metadata and its two copies' groups (R285). -/
structure SysExt where
  owner : Nat               -- 0 directory of an object, 1 view, 2 object directory, 3 prefetch entries
  key : Nat
  bytes : Nat
  g0 : Option Nat
  off0 : Nat
  g1 : Option Nat
  off1 : Nat
deriving DecidableEq, Repr

/-- A prefetch entry (Table 11-7). -/
structure PfEnt where
  kind : Nat
  model : Nat
  layer : Nat
  obj : Nat
  fromLp : Bool
  tile0 : Nat
  nTiles : Nat
  die : Nat
  stageObj : Nat
  stageOff : Nat
  stepId : Nat
  sliceH : Nat
deriving DecidableEq, Repr

/-! ## Models and slices -/

/-- A manifest layer entry (Table 13-4). -/
structure LayerEnt where
  moe : Bool
  topk : Nat
  experts : Nat
  scoreScale : W32
deriving DecidableEq, Repr

/-- A manifest set entry (Table 13-5). -/
structure SetEnt where
  member : Nat
  die : Nat
  layer : Nat
  expert : Nat
  tiles : Nat
  digest : List Byte
deriving DecidableEq, Repr

/-- A manifest (R326) with its digests (R327, R375 item 5). -/
structure Manifest where
  nLayers : Nat
  spec : Nat
  specH : Nat
  hidden : Nat
  vocab : Nat
  members : Nat
  layers : List LayerEnt
  sets : List SetEnt
  digest : List Byte
  hdrDigest : List Byte
deriving DecidableEq, Repr

/-- A view of a model (R329 to R332, Table 19-4). `map` entries: set index, object, skipped. -/
structure View where
  no : Nat
  slot : Nat                -- view slot 0 to 3 (aperture 7)
  man : Manifest
  map : List (Nat × Nat × Bool)
  cold : List Nat
  holders : Nat
  state : Nat               -- Table 19-4 VSTATE
  oldAction : Nat
  lost : Bool               -- both copies of its system extent are lost (R285)
deriving DecidableEq, Repr

/-- One target of a layer swap (R337). -/
structure SwapTgt where
  obj : Nat
  dir : List TileDir
  digest : List Byte
  size : Nat
  src : LoadSrc
deriving DecidableEq, Repr

/-- A layer swap in progress (R338). -/
structure Swap where
  ref : Ref
  layer : Nat
  bound : Nat
  view : Nat
  targets : List SwapTgt
  writing : Bool
  failed : Bool
deriving DecidableEq, Repr

/-- A bound model (R328). -/
structure Model where
  h : Nat
  slotNo : Nat              -- model slot 0 to 15 (aperture 7)
  dead : Bool               -- its last view has retired after a release: kept for the aperture only (Table 19-4)
  member : Nat
  cur : Nat
  nextView : Nat
  views : List View
  releasing : Option Ref
  releaseAction : Nat
  swap : Option Swap
  swaps : List (Nat × Nat)  -- layers whose swap barrier the view holds: (view, layer)
deriving DecidableEq, Repr

/-- A routing table (Table 15-3). -/
structure RTable where
  rgen : Nat
  mask : Nat
  next : List Nat
deriving DecidableEq, Repr

/-- An expert placement entry (Table 08-1). -/
structure PlaceEnt where
  cold : Bool
  copies : List (Nat × Nat × Nat)   -- member, die, local slot
deriving DecidableEq, Repr

/-- A placement table (R195): layer directory (first entry, E, MoE) and entries. -/
structure PTable where
  gen : Nat
  dir : List (Nat × Nat × Bool)
  ents : List PlaceEnt
deriving DecidableEq, Repr

/-- A loaded table that waits for its generation switch (R371). -/
structure GenLoad where
  placement : Bool
  gen : Nat
  atStep : Nat
deriving DecidableEq, Repr

/-- States of a slice handle (RTE_SLC_STS). -/
inductive SliceState where
  | free | joining | joined | stopped
deriving DecidableEq, Repr

/-- A slice handle (15). -/
structure Slice where
  state : SliceState
  tag : Nat
  base0 : Nat
  fix0 : Nat
  union : Bool
  transit : Bool
  base1 : Nat
  fix1 : Nat
  master : Nat
  width : Nat
  model : Nat
  palset : List Nat
  palDig : List (List Byte)
  manHdr : List Byte
  startWait : Nat
  barrierWait : Nat
  joinWait : Nat
  member : Nat
  count : Nat
  rbank : Nat
  pbank : Nat
  rt : List (Option RTable)
  pt : List (Option PTable)
  loads : List GenLoad
  waitLoads : List (Ref × List Byte)  -- ROUTE_LOAD commands waiting for the inactive bank (R371)
  ref : Option Ref
  joins : List SliceMsg
  lastStep : Nat            -- greatest STEP_ID accepted
  stopCause : Nat
  stopCoord : Nat
  joinBody : List Byte                -- body bytes 0 to 43 of SLICE_JOIN (Table 19-5)
  keptSts : Nat                       -- RTE_SLC_STS and RTE_SLC_GEN while the handle is free (R381)
  keptGen : Nat
deriving DecidableEq, Repr

/-! ## Steps -/

/-- A sequence entry of a step (Table 09-2) with the tokens and parents read for it, and L at start. -/
structure SeqEnt where
  seq : Nat
  nTok : Nat
  kind : Nat
  dropLate : Bool
  emit : Bool
  sparam : Nat
  deadline : Nat
  ptRoot : Nat
  tokOff : Nat
  parentOff : Nat
  byte8 : Byte
  len0 : Nat
  toks : List Nat
  parents : List Nat
deriving DecidableEq, Repr

/-- A tail copy of R175. -/
structure TailCopy where
  seq : Nat
  pool : Nat
  src : Nat
  dst : Nat
  n : Nat
  page : Nat
  done : Bool
deriving DecidableEq, Repr

/-- A result record (Table 09-6) before it is written. -/
structure SeqResult where
  seq : Nat
  dropped : Bool
  late : Bool
  stopped : Bool
  spec : Bool
  idleN : Nat               -- IDLE_N of the block, for SPEC_IDLE after the commit (R269)
  nAcc : Nat
  newLen : Nat
  toks : List Nat
  path : List Nat
deriving DecidableEq, Repr

/-- What the slice master keeps for a step (R224 to R240), from its first start ARRIVE or its own start. -/
structure MasterStep where
  slice : Nat
  id : Nat
  run : Nat
  arrived : List (Nat × Nat × Nat)    -- barrier, member, batch digest
  released : List Nat
  prepared : List Nat
  prepFlags : BitVec 5
  ovfPairs : Nat
  ovfRounds : Nat
  committed : List Nat
  killed : List Nat
  expect : List Nat                   -- members known to hold the step, whose KILLED a kill waits for
  cands : List CandList
  decided : Bool                      -- the commit point has passed (R231)
  results : List SeqResult
  killing : Bool
  restart : Bool                      -- the kill under way is followed by a re-run (R240)
  cause : Nat
  endStatus : Nat
  thenKill : Option (Nat × Nat)       -- cause and status of a kill that met a re-run's kill
  startDigs : List (Nat × List Byte)  -- member and slice digest of each start ARRIVE (R227)
  faultKills : Nat
  quantumKills : Nat
deriving DecidableEq, Repr

/-- A step in flight on the member. -/
structure Step where
  slice : Nat
  id : Nat
  run : Nat
  slot : Nat
  model : Nat
  view : Nat
  tenant : Nat
  program : Nat
  seqs : List SeqEnt
  ref : Ref
  spAddr : Nat
  resAddr : Nat
  outAddr : Nat
  digest : Nat
  rbank : Nat
  pbank : Nat
  phase : Nat               -- Table 09-3, from 0
  flags : BitVec 5
  ovfPairs : Nat
  ovfRounds : Nat
  rerun : Bool
  preempts : Nat                      -- quantum kills (R247)
  pinned : List (Nat × Nat)
  alloc : List (Nat × Nat)
  leaves : List (Nat × Nat)
  staged : List (Nat × Nat × Nat)     -- sequence, logical page, PAGE_ID
  copies : List TailCopy
  kvRows : List (Nat × Nat × Nat × List W32)  -- sequence, layer, position and values of the rows that its KVW tiles hold (R166)
  arrivedAt : List (Nat × Nat)        -- barrier reached by a die
  arriveSent : List Nat
  released : List Nat
  prepSent : Bool
  killing : Option Nat
  waitRun : Bool                      -- killed for a re-run that the master has not yet restarted (R240)
  swapHeld : List Nat                 -- layers whose swap barrier an agent has reached (R339)
  status : Nat                        -- status the step ends with, 0 while none
  gtPending : List (Nat × Nat × Nat × Nat)  -- die, core, engine, cell that worked on the step and owe a check (R78)
  sched : List PfEnt                  -- the prefetch schedule in force when it started (R297)
  pfTrig : List (Nat × Nat)           -- layers and dies whose prefetch entries have triggered (R298)
  blame : Option Blame                -- what its failure names, beside the bytes of Table 17-9, which have no place for it
  killRefs : List Ref                 -- STEP_KILL commands of this member's rings that wait for KILLED
  commitNo : Nat                      -- number its commit took, 0 while none
deriving DecidableEq, Repr

/-! ## Compute dies -/

/-- Tile-list entry states (Table 05-1). -/
inductive TState where
  | free | waiting | ready | claimed | done | failed
deriving DecidableEq, Repr

/-- A tile-list entry that is not FREE (Table 05-2). -/
structure Tile where
  idx : Nat
  slot : Nat
  prio : Nat
  pal : Nat
  role : Nat
  reduce : Bool
  nop : Bool
  pool : Nat
  tileSeq : Nat
  wait : Nat
  waitEn : Bool
  sig0 : Nat
  sig0En : Bool
  sig1 : Nat
  sig1En : Bool
  group : Nat
  stepId : Nat
  state : TState
  attempts : Nat
  wrote : Bool
  core : Nat
  status : Nat
  flags : BitVec 5
  readyAt : Nat
  readyNo : Nat
  args : List Byte
  layer : Nat
  fwd : Option (Nat × Nat × Nat × Nat)  -- member, die, merge entry, part (R159)
  palFails : List Nat                    -- cores that failed it with PAL_FAULT or WATCHDOG (R117)
  unpackFails : Nat
  runFlags : BitVec 5                    -- sticky flags of the current run (R56)
  rowBlock : Option (Nat × Nat)          -- MoE row block (local slot, block) whose result rows it writes
  readsObj : Option Nat                  -- weight object that the claimed tile reads from LPDDR5X
  readsStage : Option (Nat × Nat)        -- object tile that it reads from the stage
deriving DecidableEq, Repr

/-- A reduction group (R135). -/
structure RGroup where
  idx : Nat
  slot : Nat
  addr : Nat
  bytes : Nat
  members : Nat
  poisoned : Bool
deriving DecidableEq, Repr

/-- A merge-table entry (Table 06-5). -/
structure MergeEnt where
  idx : Nat
  slot : Nat
  seq : Nat
  qPos0 : Nat
  layer : Nat
  kvHead : Nat
  parts : Nat
  recAddr : Nat
  ctr : Nat
  recBytes : Nat
  arrived : Nat
  order : List Nat
deriving DecidableEq, Repr

/-- A pair chosen by a GATE tile on its source die (R204). -/
structure Pair where
  tok : Nat
  exp : Nat
  rank : Nat
  w : W32
  rowAddr : Nat
  retAddr : Nat
  sent : Bool
deriving DecidableEq, Repr

/-- A row received into a queue slot on the owner (R209, R210). -/
structure QRow where
  qslot : Nat
  lslot : Nat
  srcGsn : Nat
  returned : Bool
deriving DecidableEq, Repr

/-- A row block of an owner's round (R209): its local slot, first queue slot, rows, arrival counter, expert tiles that have
not completed, and whether its results have been sent. -/
structure RowBlk where
  lslot : Nat
  first : Nat
  rows : Nat
  ctr : Nat
  left : Nat
  sent : Bool
deriving DecidableEq, Repr

/-- An open MoE layer context (Table 08-2) with the exchange's state on this die. -/
structure Ctx where
  slot : Nat
  layer : Nat
  topk : Nat
  h : Nat
  inFmt : Nat
  retFmt : Nat
  srcSet : Nat
  gateCtr : Nat
  qBase : Nat
  qBytes : Nat
  retBase : Nat
  retTok0 : Nat
  retRows : Nat
  ctr0 : Nat
  ctrRows : Nat
  pairs : List Pair
  gateDone : Bool                       -- GATE_CTR has reached zero (R205)
  countsSent : Bool
  counts : List (Nat × List Nat)        -- source, pairs per local slot
  rem : List (Nat × List Nat)           -- pairs still to place
  round : Nat
  granted : List Nat                    -- rows granted per local slot this round
  arrivedRows : List QRow
  blocks : List RowBlk
  later : List Tile                     -- expert tiles whose append has stalled (R139)
  srcOpen : Bool
  ownOpen : Bool
deriving DecidableEq, Repr

/-- A SEND record waiting for its local counter (R125, Table 17-10). -/
structure SendRec where
  kind : Nat
  member : Nat
  die : Nat
  dctr : Nat
  lctr : Nat
  layer : Nat
  src : Nat
  dst : Nat
  bytes : Nat
  sent : Bool
deriving DecidableEq, Repr

/-- What a layer context of a slot keeps for COMBINE after it has closed (R199, R211). -/
structure MoePar where
  slot : Nat
  layer : Nat
  h : Nat
  topk : Nat
  retFmt : Nat
deriving DecidableEq, Repr

/-- The die agent's walk of one step's layer program (R417). -/
structure Agent where
  slot : Nat
  cursor : Nat
  stop : Nat
  stalled : Bool
  ctxWait : Bool
  nextSeq : Nat
  quota : Nat
  ctrBase : Nat
  grpBase : Nat
  mrgBase : Nat
  barriers : List (Nat × Nat)           -- barrier, counter named by the program
  sends : List SendRec
  phases : List (Nat × Nat)             -- layer and palette of the phases whose first tile it has appended (R115)
deriving DecidableEq, Repr

/-- A stage-map entry (R300): object tile, place, order of landing, landed. -/
structure StageEnt where
  obj : Nat
  tile : Nat
  stage : Nat
  addr : Nat
  bytes : Nat
  order : Nat
  landed : Bool
  readers : Nat
  cold : Bool
  trig : Nat                            -- the prefetch trigger that asked for it (R299)
deriving DecidableEq, Repr

/-- One running cell job (R72, R81). -/
structure JobRun where
  job : CellJob
  entry : Nat
  bytes : List (Nat × Byte)             -- output bytes to be written at readout (R74)
  flags : BitVec 5
deriving DecidableEq, Repr

/-- What a pass with `FWD` left in a cell's stationary file as the A operand of its next pass (R69): the tile it belongs to,
format, columns and rows; the elements stand in the file, row after row, and the scales in the scale store. -/
structure FwdA where
  entry : Nat
  fmt : Nat
  k : Nat
  rows : Nat
deriving DecidableEq, Repr

/-- A command that a core's sequencer has issued and that waits in order, behind a fence or for a transfer context (R97, R100). -/
inductive SeqCmd where
  | job (engine : Nat) (j : CellJob)
  | vec (op : VecOp)
  | dma (d : Dma)
  | fence
deriving DecidableEq, Repr

/-- A cell with its feeder (R62, R76 to R80, R82). -/
structure Cell where
  engine : Nat
  cell : Nat
  job : Option JobRun
  fwd : Option FwdA
  failed : Bool
  parityAt : Option Nat
  gtIdx : Nat
  gtForced : Bool
  stat : List Byte                      -- stationary file (4,096 bytes) as last loaded; bytes beyond the list read zero
  statSc : List Byte                    -- stationary scale store (256 bytes)
  acc : List W32                        -- the 256 accumulators, as the last output block left them
  parts : List Int                      -- block partials of the sixteen units, in units of 2^-34 (R41)
  check : List W32                      -- check accumulators of the sixteen units (R76)
  feed : List Byte                      -- the feeder's 2 KiB B-operand buffer (R82): the last decoded bytes
deriving DecidableEq, Repr

/-- A logical core (R92, R128, R129). -/
structure Core where
  mask : Nat
  running : Option Nat                  -- tile-list entry
  loaded : Option Nat
  pal0 : Nat
  pal1 : Nat
  active1 : Bool
  loadingPal : Nat
  nextPal : List Nat                    -- palettes that load into the idle slot next (R115, R129)
  prog0 : List Byte                     -- contents of the two 32 KiB program slots (Table 04-1)
  prog1 : List Byte
  dataMem : List Host.Cell              -- the 8 KiB data memory (Table 04-1); an unlisted byte is zero
  closed : Bool                         -- port closed, core quarantined (R133)
  empty : Bool                          -- no physical core mapped (R25)
  lastBeat : Nat
  lastProgress : Nat
  store : List Host.Cell
  vregs : List (Nat × List W32)
  dmas : List (Nat × Nat × Dma)         -- context, tile-list entry, transfer
  cells : List Cell
  tbufs : List (Nat × List Byte)        -- engine, its 64 KiB tile buffer: compressed bytes read ahead (R82)
  jobQ : List (Nat × Nat × CellJob)     -- engine, entry, job: waiting for a free cell (R81)
  seqQ : List (Option Nat × SeqCmd)     -- tile-list entry, command
  flags : BitVec 5                      -- of the running tile (R56)
  flags2 : BitVec 5                     -- of the second tile
  ce : Nat                              -- correctable errors of its core store (R94)
  csErrAt : Option Nat
  vecErrAt : Option Nat
  seqErrAt : Option Nat
  wdAt : Option Nat
deriving DecidableEq, Repr

/-- A physical core (R24, R25, R118): 0 enabled, 1 spare, 2 quarantined. -/
structure Phys where
  state : Nat
  logical : Nat
  cause : Nat
deriving DecidableEq, Repr

/-- A compute die. -/
structure Die where
  lost : Bool
  inReset : Bool
  agentAt : Option Nat                  -- time of the last agent watchdog expiry (R479)
  nodRow : Nat                          -- CRC errors in a row of one network-on-die packet (R478)
  tiles : List Tile
  ctrs : List (Nat × Nat × Nat)         -- index, value, owning step slot
  groups : List RGroup
  merges : List MergeEnt
  ctxs : List Ctx
  moePars : List MoePar
  agents : List Agent
  open_ : List Nat                      -- cores whose claim request is open, in order (R129)
  cores : List Core
  phys : List Phys
  stage : List StageEnt
  early : List (Envelope × List Nat)    -- COUNT messages held before the context opens (R206)
  heldBack : List (Envelope × List Nat) -- COUNT messages that link credit holds back while the early buffer is full (R206)
  readyNo : Nat
  tlStall : Nat
  tlStale : Nat
  tlReclaim : Nat
  distStale : Nat
  ovfPairs : Nat
  corrTile : Nat
  csCe : Nat
  poolCe : Nat
  gtPass : Nat                          -- ground-truth tiles passed; GT_PASS shows thousands
  bufCe : Nat                           -- single-bit errors corrected in tile and feeder buffers (R83); no register shows it
  tlHwErr : Nat
  pulses : Nat                          -- ARITH pulses per 16 (R460)
  point : Nat                           -- operating point (Table 20-4)
  railCap : Nat                         -- lowest pulses its rail's phases allow (R455)
  thermPulses : Nat                     -- pulses the thermal loop allows (R468)
deriving DecidableEq, Repr

/-! ## Memory system, flash and links -/

/-- One LPDDR5X channel (R279, MEM_CH_ERR, MEM_CH_STS). -/
structure Chan where
  trained : Bool
  failed : Bool
  corr : Nat
  rebuilt : Nat
  recent : List Nat                     -- times of reads that needed R278 within 1 s
deriving DecidableEq, Repr

/-- A channel-parity group (GRP_CFG, GRP_STS). -/
structure Grp where
  protGib : Nat
  recon : Bool
  lost : Bool
  outOfService : Bool
  parityErr : Nat
deriving DecidableEq, Repr

/-- A flash copy (R305, R306, R501). -/
structure FCopy where
  obj : Nat
  setDigest : List Byte
  size : Nat
  body : List Host.Cell
  durable : Bool
  claimed : Bool
deriving DecidableEq, Repr

/-- A KV page held in the spill area (R307). -/
structure SpillExt where
  pool : Nat
  page : Nat
  loc : Nat
  n : Nat
  bytes : List Byte
deriving DecidableEq, Repr

/-- A NAND block's history (R311, R312, R316); blocks not listed have none. -/
structure NBlock where
  die : Nat
  block : Nat
  reads : Nat
  age : Nat                             -- equivalent minutes at 40 °C
  erases : Nat
  due : Bool
  urgent : Bool
  used : Bool                           -- programmed since its last erase, or open
  bad : Bool                            -- failed to program or erase (R309)
deriving DecidableEq, Repr

/-- A page of NAND (R301): global die, block, page. -/
structure NPlace where
  die : Nat
  block : Nat
  page : Nat
deriving DecidableEq, Repr

/-- What a page of the log holds (R305, R307): a data page of a map unit of an object, or an extent of a spilled page of a pool. -/
structure PageRef where
  spill : Bool
  obj : Nat
  unit : Nat
  idx : Nat
deriving DecidableEq, Repr

/-- A flash stripe (R304): one page on each of its channels, one of them parity; its data pages in the channels' order. -/
structure Stripe where
  no : Nat
  spill : Bool
  parity : Nat                          -- channel of the parity page
  pages : List NPlace
  data : List (Option PageRef)          -- none: no valid page
deriving DecidableEq, Repr

/-- A map entry (R305): a unit of an object lies in `stripes` stripes from `stripe` on. -/
structure MapEnt where
  obj : Nat
  unit : Nat
  stripe : Nat
  stripes : Nat
  journalled : Bool
deriving DecidableEq, Repr

/-- A block that the log has open on a channel, and its next page. -/
structure LogBlock where
  spill : Bool
  next : NPlace
deriving DecidableEq, Repr

/-- A NAND program or erase that runs on a die (R302, R303). -/
structure NandOp where
  die : Nat
  suspends : Nat
deriving DecidableEq, Repr

/-- The flash tier (12). -/
structure Flash where
  ready : Bool
  readonly : Bool
  rebuild : Bool                        -- a rebuild runs (R309)
  unbuilt : List Nat                    -- failed dies whose stripes are not all rebuilt (R310)
  unitLost : Bool
  spareBlocks : Nat
  failed : List Nat
  progFails : List (Nat × Nat × Nat)    -- die, block, time
  copies : List FCopy
  spills : List SpillExt
  bucket : Nat                          -- in units of 64 KiB / (86,400 × 105,000,000), so that a SLOW cycle adds a whole number
  bucketAt : Nat                        -- counter value the bucket was filled to
  paused : List Nat
  busy : List NandOp                    -- programs and erases that run (R302, R303)
  stripes : List Stripe                 -- the log (R304)
  logNo : Nat                           -- number of the next stripe
  opens : List LogBlock                 -- open log blocks (R316)
  map : List MapEnt                     -- the translation map of IO0 and IO2 (R305)
  blocks : List NBlock
  scrub : List (Nat × Nat)              -- blocks with valid pages that the scrub after boot has still to read (R542)
  temps : List Nat
  spillGib : Nat
  bgPct : Nat
  quota : Nat
deriving DecidableEq, Repr

/-- Link states (Table 14-4). -/
inductive LState where
  | disabled | waitCoord | train | check | up | miswire | failed | retrain
deriving DecidableEq, Repr

/-- A Chanex link (0 to 27) or optical port (28, 29). -/
structure Link where
  en : Bool
  lock : Bool
  state : LState
  narrow : Bool
  reversed : Bool
  peer : Option Ident
  lanes : Nat
  pol : Nat
  bundle : Nat                          -- 0-5 D0-D5, 6 F, 7 optical, 15 NONE
  replays : Nat
  corr : Nat
  uncorr : Nat
  foreignCnt : Nat
  dupCnt : Nat
  txSeq : Nat
  unacked : List Flit
  held : List Packet
  parts : List Nat                      -- flits already sent of each class's first held packet
  share : Nat × Nat                     -- TILE and BULK flits sent since both wait (R23, R350)
  rxNext : Nat
  nakSent : Bool
  inRow : Nat                           -- replays of the first unacknowledged flit in a row
  cred : List Nat                       -- credits left per class
  credSeen : List Nat                   -- last cumulative counts received
  rel : List Nat                        -- cumulative credits released per class
  owed : List Nat
deriving DecidableEq, Repr

/-- The router (R358 duplicates, R370, R374). -/
structure Router where
  maskDrop : Nat
  foreignDrop : Nat
  transit : List (Nat × List Nat)       -- tag, budgets TB[0..5] in GB/s
  used : List (Nat × Nat × Nat)         -- tag, bundle, bytes forwarded in the window
  part : List (Nat × Nat × Nat)         -- tag, bundle, bytes of its first waiting packet that earlier windows carried
  heldT : List (Nat × Packet)           -- transit packets waiting for the next window, with the link they came in on (30: none)
  seen : List (Nat × Nat × Nat × Nat)   -- SRC_GSN, DST_GDN, class, PSEQ of the latest packets delivered (R358)
deriving DecidableEq, Repr

/-- A die-to-die port (R18, R19). -/
structure D2d where
  down : Bool
  replays : Nat
  inRow : Nat
deriving DecidableEq, Repr

/-! ## Power, health, clocks, security, sideband -/

/-- Weir, Millpond and the input (18 PWR, 20). -/
structure Power where
  rackCap : Nat
  hostCap : Nat
  orphanCap : Nat
  hbMs : Nat
  bandLo : Nat
  bandHi : Nat
  slew : Nat
  fill : Bool
  floor : Nat
  balEn : Bool
  orphan : Bool
  brake : Bool
  inletCap : Nat
  flowCap : Nat
  revCap : Nat
  pairCap : Nat
  sag : Nat                             -- 0 none, 1 began, 2 input cap applied, 3 held
  overV : Bool
  held : Bool
  effCap : Nat
  capSrc : Nat
  ceiling : Nat
  pIn : Nat
  vIn : Nat
  p10 : Nat
  trough : Bool
  ballast : Bool
  throttled : Bool
  phasesLost : List (Rail × Nat)
  shorted : List Rail
deriving DecidableEq, Repr

/-- Thermal and coolant monitors (MON). -/
structure Mon where
  sense : List (Nat × Int)              -- readings in 0.125 °C; unlisted sensors read 0
  fail : List Nat
  tj : Bool                             -- the thermal loop throttles now
  inA : Int
  inB : Int
  outA : Int
  outB : Int
  inFailA : Bool
  inFailB : Bool
  outFailA : Bool
  outFailB : Bool
  fluid : Bool
  cMin : Nat
  cEst : Nat
  reversed : Bool
  flowLow : Bool
  flowLoss : Bool
  inletHigh : Bool
  inletLow : Bool
  lowFor : Nat                          -- 100 ms periods of each coolant condition
  lossFor : Nat
  okFor : Nat
  revFor : Nat
  normFor : Nat
  lastIn : Int
  droop : List Nat
  proc : List Nat
deriving DecidableEq, Repr

/-- Health (HLT, 21). -/
structure Health where
  state : Nat
  cause : BitVec 12
  limitedPhase : Bool
  memLost : Bool            -- R484: memory contents were lost since module reset
  faultPulse : Bool
  failed : Bool
  ioLost : List Nat                     -- I/O dies lost (R486)
  easelStop : Bool                      -- the Easel itself has stopped (R27, R481, R486)
  ceClass : BitVec 8
  ceFirst : Nat
  ceUnit : Nat
  ceHist : List (Nat × Nat × List Nat)  -- class, unit, samples of the last 24 h, newest first
  aseq : Nat
  alertEvt : BitVec 24                  -- events since the last acknowledged message (Table 21-5)
  alertNew : BitVec 24                  -- events since the latest message
  alertBody : List Byte                 -- the latest message
  alertDue : Bool
  alertOut : Bool                       -- the latest message is not acknowledged
  spare : List Nat                      -- HLT_SPARE as last mapped (R26)
  serviceN : Bool
  faultN : Bool
  thermtripN : Bool
deriving DecidableEq, Repr

/-- The health record in the serial NOR (R488). -/
structure Nor where
  quar : List (Nat × Nat × Nat)         -- die, physical core, cause
  map : List (Nat × List Nat)           -- spare mapping kept with it: die, logical to physical
  nandFailed : List Nat
  phases : List (Rail × Nat)
  lostDies : List Nat
  d2dRetrain : List (Nat × Nat)         -- port, successive resets that failed retraining
  trips : Nat
  mismatches : Nat
  chFails : List Nat
deriving DecidableEq, Repr

/-- Clocks, reset and boot (CLK, 22). -/
structure Clk where
  pllLock : BitVec 12
  refOk : Bool
  stage : Nat
  image : Bool
  flsRst : Bool
  cause : Nat
  bootT : Nat
  inReset : Bool
  resetDue : Bool                       -- a module-scope RESET_SCOPE has completed (R415)
  refLost : Bool
  noImage : Bool                        -- ROM recovery (R513)
  powered : Bool
deriving DecidableEq, Repr

/-- A firmware image in a NOR slot (Table 23-2): header fields and the image bytes. -/
structure FwImage where
  maj : Nat
  min : Nat
  patch : Nat
  svn : Nat
  keySlot : Nat
  rsvZero : Bool
  keyHash : List Byte                   -- SHAKE256 of VKEY
  digest : List Byte                    -- SHAKE256 of header and body
  hdrDigest : List Byte
  sigOk : Bool                          -- the signature verifies under VKEY
deriving DecidableEq, Repr

/-- A measurement entry (Table 23-3). -/
structure LogEnt where
  index : Nat
  kind : Nat
  time : Nat
  detail : Nat
  digest : List Byte
deriving DecidableEq, Repr

/-- A report request waiting for the signing engine, with the report as it stood at execution (R520). -/
structure RptReq where
  ref : Option Ref                      -- none: sideband or SPDM
  spdm : Bool
  dst : Nat
  unsigned : List Byte
deriving DecidableEq, Repr

/-- A palette of the palette store (R111). -/
structure Palette where
  id : Nat
  role : Nat
  vendor : Bool
  ver : Nat
  digest : List Byte
  code : List Byte                      -- code and constants, as the copy in every die pool holds them (R111)
deriving DecidableEq, Repr

/-- FW_UPDATE in progress (R516). -/
structure Upd where
  ref : Ref
  slotB : Bool
  activate : Bool
  img : FwImage
deriving DecidableEq, Repr

/-- Security (SEC, 23). -/
structure Sec where
  vkeyFw : List (List Byte)             -- fuses VKEY_FW[0..1] (Table 23-1)
  vkeyPal : List (List Byte)            -- fuses VKEY_PAL[0..1]
  serial : W64
  cert : List Byte                      -- certificate chain of R509
  svn : Nat
  revoked : BitVec 4
  imgA : Option FwImage
  imgB : Option FwImage
  bootB : Bool
  running : Option FwImage
  aOk : Bool
  bOk : Bool
  upd : Option Upd
  manEnf : Bool
  lock : Bool
  alData : List W32
  palAl : List (List Byte)
  manAl : List (List Byte)
  full : Bool
  log : List LogEnt
  logCount : Nat
  logLost : Nat
  aggregate : List Byte
  rpts : List RptReq
  recBuf : List Byte                    -- recovery image received so far (R513)
deriving DecidableEq, Repr

/-- Still (SNAP, 19). -/
structure Snap where
  prop : Bool
  armed : Bool
  valid : Bool
  src : BitVec 4
  fclass : BitVec 7
  origin : Nat
  capNo : Nat
  time : Nat
  faultEn : BitVec 7
  missed : Nat
  fwd : Nat
  pairs : List (Nat × Nat)              -- last 64 (origin, CAPNO) pairs seen (R452)
  image : List (Nat × W32)              -- captured registers: BAR0 offset and value
  stillOutLow : Bool
deriving DecidableEq, Repr

/-- The sideband target interface (R534, R535) and its straps; the TAP (R537). -/
structure Side where
  straps : Nat
  dyn : Option Nat
  stuck : Bool
  lastBeat : Nat
  tapIr : Nat
deriving DecidableEq, Repr

/-- The router-level and module-level coordinate registers (RTE_COORD, RTE_RACK). -/
structure Coord where
  coordW : Nat
  coordN : Nat
  dimsW : Nat
  lock : Bool
  rack : Nat
  rackWritten : Bool
  valid : Bool
  coord : Nat
  dims : Nat
  foldMask : Nat
deriving DecidableEq, Repr

/-! ## What the module sends -/

/-- Kinds of barrier and commit tokens (Table 09-4). -/
inductive TokKind where
  | arrive | release | prepared | commit | committed | killReq | kill | killed
deriving DecidableEq, Repr

/-- Kinds of slice messages (Table 15-4). -/
inductive SlcKind where
  | join | joinAck | joinFail | stop
deriving DecidableEq, Repr

/-- The way of a message: its traffic class (0 CONTROL, 1 TILE, 2 BULK), the dies of the package it passes, and the link it leaves on. -/
structure Route where
  cls : Nat
  path : List Nat
  link : Option Nat
deriving DecidableEq, Repr

/-- A Distributary message between two dies of this module that has been sent and has not arrived (R22, R202). -/
structure NocMsg where
  src : Nat
  dst : Nat
  kind : Nat
  env : Envelope
  a : Nat
  b : Nat
  nums : List Nat
  bytes : List Byte
deriving DecidableEq, Repr

/-- Everything the module emits at its boundary, in order. -/
inductive Tx where
  | msix (p : Port) (vec : Nat)
  | token (r : Route) (k : TokKind) (dst : Nat) (t : Token) (body : List CommitEntry) (flags : BitVec 5) (ovfPairs ovfRounds : Nat)
      (wire : List Byte)
  | slice (k : SlcKind) (dst : Nat) (m : SliceMsg) (wire : List Byte)
  | cand (dst : Nat) (tag : Nat) (c : CandList)
  | dist (r : Route) (kind dstMember dstDie : Nat) (e : Envelope) (a b : Nat) (nums : List Nat) (bytes : List Byte)
  | still (coord tag origin capNo : Nat)
  | flit (link : Nat) (f : Flit) (wire : List Byte)
  | credit (link c0 c1 c2 : Nat) (wire : List Byte)
  | nak (link nakSeq : Nat) (wire : List Byte)
  | ident (link : Nat) (i : Ident) (wire : List Byte)
  | deliver (die : Nat) (p : Packet)
  | read (m : Master) (v : W32)
  | bar4 (p : Port) (bytes : List Byte)
  | unsupported (p : Port)
  | tileReq (obj tile : Nat)
  | tileAns (obj tile : Nat) (bytes : List Byte)
  | noSource (obj : Nat)
  | mctp (code : Nat) (body : List Byte)
  | ibi (b : Byte)
  | spdm (bytes : List Byte)
  | tap (v : Nat)
  | console (kind n : Nat)   -- a line of UART_TX (R538): kind 0 boot stage n, 1 health event n
deriving DecidableEq, Repr

/-- The state of the module. -/
structure State where
  /-- commands waiting, first in first out -/
  pending : List Instr
  /-- the model's own counter of free values drawn so far: no state of the hardware -/
  fresh : Nat
  /-- module counter, SLOW cycles since the end of module reset (R439) -/
  now : Nat
  mem : List Host.Cell
  hostA : List Host.Cell
  hostB : List Host.Cell
  pa : PortSt
  pb : PortSt
  cmds : List CmdSlot
  cmdNo : Nat
  lastFetch : Port
  msPortA : MasterSt
  msPortB : MasterSt
  msSide : MasterSt
  msEasel : MasterSt
  accs : List (Master × PwBlk × AccState)
  accNo : Nat
  sq : List (SqReg × SqState)
  seqMiss : Nat
  lkIgnore : Nat
  regFix : Nat
  upsets : List (Nat × W32)
  objs : List Obj
  sysExts : List SysExt
  pfEnts : List PfEnt
  pfNo : Nat                            -- prefetch triggers so far (R299)
  seqs : List Seq
  commitNo : Nat
  commitC : Nat
  applying : Bool
  spillPool : Nat
  models : List Model
  slices : List Slice
  steps : List Step
  mst : List MasterStep
  /-- JOIN messages for a tag that the module does not hold yet (R377) -/
  joinQ : List SliceMsg
  tenQ : List Nat
  tenC : List Nat
  curTenant : Option Nat
  lastTenant : Nat
  turnStart : Option Nat
  turnEnd : Option Nat
  turnSteps : List (Nat × Nat × Nat × Nat)  -- tenant, end of its turn, slice and step not yet KILLED or COMMITTED (R245)
  dies : List Die
  d2d : List D2d
  noc : List NocMsg                     -- Distributary messages on their way between dies (R22, R202)
  pals : List Palette
  chans : List Chan
  grps : List Grp
  flash : Flash
  links : List Link
  /-- BUNDLE_SET commands that wait for the links they changed (R355) -/
  bundleW : List (Ref × List Nat)
  router : Router
  coord : Coord
  power : Power
  mon : Mon
  health : Health
  nor : Nor
  clk : Clk
  sec : Sec
  snap : Snap
  side : Side
  tx : List Tx
deriving DecidableEq, Repr

/-! ## Reset values -/

namespace State

/-- An SQ register at reset. -/
def sq0 : SqState := { ev := 0, seq := 0, perm := [] }

/-- A master's banked registers at reset. -/
def master0 : MasterSt :=
  { shadow := [], taken := none, checked := false, gen := 0, pending := false, goSeq := 0, rejected := false, busy := false, scope := 0,
    reason := 0, rejOff := 0, rejLsb := 0, rejValid := false, timeHi := 0, selLo := List.replicate 16 0,
    selHi := List.replicate 16 0 }

/-- A port at reset: link down, BAR4 16 GiB (Table 16-3), window base from PCI_WIN_HI, `NEXT_CSEQ` 1. -/
def port0 : PortSt :=
  { linkUp := false, rate := 0, width := 0, flit := false, reversed := false, perst := false, flr := false,
    cfgReady := false, memEn := false, d3 := false, ide := 0, ideKeyed := [], ideFailed := [], bar4Log2 := 34,
    winBase := 0x100000000000, wrDrop := 0, rdOnes := 0, ring := none, taken := false, nextCseq := 1, held := [],
    cplDrop := 0, mbCmd := List.replicate 128 0, mbCpl := none, mbBusy := false, mbDone := false, mbDropped := false,
    dbErr := false, coalRun := false, msix := [] }

/-- A core at reset: pool mask 0x01 (R129). -/
def core0 : Core :=
  { mask := 1, running := none, loaded := none, pal0 := 0, pal1 := 0, active1 := false, loadingPal := 0, nextPal := [], prog0 := [], prog1 := [],
    dataMem := [], closed := false, tbufs := [], flags2 := 0, ce := 0,
    empty := false, lastBeat := 0, lastProgress := 0, store := [], vregs := [], dmas := [], cells := [], jobQ := [], seqQ := [], flags := 0,
    csErrAt := none, vecErrAt := none, seqErrAt := none, wdAt := none }

/-- Physical cores of a die as shipped: 120 enabled, 8 spare (R24). -/
def phys0 : List Phys :=
  (List.range 120).map (fun q => { state := 0, logical := q, cause := 0 }) ++
  List.replicate 8 { state := 1, logical := 0, cause := 0 }

/-- A compute die at reset. -/
def die0 : Die :=
  { lost := false, inReset := false, agentAt := none, nodRow := 0, tiles := [], ctrs := [], groups := [], merges := [], ctxs := [], moePars := [],
    agents := [], open_ := [], cores := List.replicate 120 core0, phys := phys0, stage := [], early := [], heldBack := [], readyNo := 0,
    tlStall := 0, tlStale := 0, tlReclaim := 0, distStale := 0, ovfPairs := 0, corrTile := 0, csCe := 0, poolCe := 0,
    gtPass := 0, bufCe := 0, tlHwErr := 0, pulses := 16, point := 16, railCap := 16, thermPulses := 16 }

/-- A slice handle that was never joined. -/
def slice0 : Slice :=
  { state := .free, tag := 0, base0 := 0, fix0 := 0, union := false, transit := false, base1 := 0, fix1 := 0, master := 0,
    width := 0, model := 0, palset := [], palDig := [], manHdr := [], startWait := 100000, barrierWait := 2000000,
    joinWait := 10000000, member := 0, count := 0, rbank := 0, pbank := 0, rt := [none, none], pt := [none, none],
    loads := [], waitLoads := [], ref := none, joins := [], lastStep := 0, stopCause := 0, stopCoord := 0, joinBody := [], keptSts := 0, keptGen := 0 }

/-- A link at reset: enabled, WAIT_COORD, in its default bundle (R16, R355). -/
def link0 (i : Nat) : Link :=
  { en := true, lock := false, state := .waitCoord, narrow := false, reversed := false, peer := none, lanes := 0, pol := 0,
    bundle := if i < 28 then i % 7 else 7, replays := 0, corr := 0, uncorr := 0, foreignCnt := 0, dupCnt := 0, txSeq := 0,
    unacked := [], held := [], parts := [0, 0, 0], share := (0, 0), rxNext := 0, nakSent := false, inRow := 0, cred := [64, 1024, 512], credSeen := [0, 0, 0],
    rel := [0, 0, 0], owed := [0, 0, 0] }

/-- The flash tier at reset: map not loaded; FLS_CFG 0x0005_0000, FLS_QUOTA 0x2000. -/
def flash0 : Flash :=
  { ready := false, readonly := false, rebuild := false, unbuilt := [], unitLost := false, spareBlocks := 23593, failed := [],
    progFails := [], copies := [], spills := [], bucket := 0, bucketAt := 0, paused := [], busy := [], stripes := [], logNo := 0, opens := [], map := [], blocks := [], scrub := [],
    temps := List.replicate 16 0, spillGib := 0, bgPct := 5, quota := 8192 }

/-- Power at reset: the reset values of the PWR registers; no cap but the rack and host caps. -/
def power0 : Power :=
  { rackCap := 4000, hostCap := 4000, orphanCap := 2800, hbMs := 2000, bandLo := 0, bandHi := 4000, slew := 1000,
    fill := true, floor := 0, balEn := false, orphan := false, brake := false, inletCap := 4400,
    flowCap := 4400, revCap := 4400, pairCap := 4400, sag := 0, overV := false, held := false, effCap := 4000, capSrc := 0,
    ceiling := 4000, pIn := 0, vIn := 0, p10 := 0, trough := false, ballast := false, throttled := false,
    phasesLost := [], shorted := [] }

/-- Monitors at reset: MON_COOL_CFG 0x8C00, everything else zero. -/
def mon0 : Mon :=
  { sense := [], fail := [], tj := false, inA := 0, inB := 0, outA := 0, outB := 0, inFailA := false, inFailB := false,
    outFailA := false, outFailB := false, fluid := false, cMin := 140, cEst := 0, reversed := false, flowLow := false,
    flowLoss := false, inletHigh := false, inletLow := false, lowFor := 0, lossFor := 0, okFor := 0, revFor := 0,
    normFor := 0, lastIn := 0, droop := List.replicate 12 0, proc := List.replicate 12 0 }

/-- Health at reset: GOOD, no cause, pins released (HLT_STATE, HLT_CAUSE). -/
def health0 : Health :=
  { state := 0, cause := 0, limitedPhase := false, memLost := false, faultPulse := false, failed := false, ioLost := [], easelStop := false, ceClass := 0, ceFirst := 0,
    ceUnit := 0, ceHist := [], aseq := 0, alertEvt := 0, alertNew := 0, alertBody := [], alertDue := false, alertOut := false, spare := List.replicate 8 0, serviceN := false,
    faultN := false, thermtripN := false }

/-- The health record of a part as shipped: nothing recorded. -/
def nor0 : Nor :=
  { quar := [], map := [], nandFailed := [], phases := [], lostDies := [], d2dRetrain := [], trips := 0, mismatches := 0,
    chFails := [] }

/-- Clocks at reset: stage 0, cause power-on. -/
def clk0 : Clk :=
  { pllLock := 0, refOk := false, stage := 0, image := false, flsRst := false, cause := 0, bootT := 0, inReset := true,
    resetDue := false, refLost := false, noImage := false, powered := true }

/-- The image slot A ships with: version 1.0.0, SVN 0, vouched for by key slot 0 (model's choice: each part has its own). -/
def shippedImage : FwImage :=
  { maj := 1, min := 0, patch := 0, svn := 0, keySlot := 0, rsvZero := true, keyHash := List.replicate 32 0,
    digest := List.replicate 32 0, hdrDigest := List.replicate 32 0, sigOk := true }

/-- Security at reset: empty log and lists, fuses and NOR as the model's part ships. -/
def sec0 : Sec :=
  { vkeyFw := [List.replicate 32 0, List.replicate 32 0], vkeyPal := [List.replicate 32 0, List.replicate 32 0],
    serial := 0, cert := [], svn := 0, revoked := 0, imgA := some shippedImage, imgB := none, bootB := false, running := none, aOk := false, bOk := false,
    upd := none, manEnf := false, lock := false, alData := List.replicate 8 0, palAl := [], manAl := [], full := false,
    log := [], logCount := 0, logLost := 0, aggregate := List.replicate 32 0, rpts := [], recBuf := [] }

/-- Still at reset: SNAP_CTL 4 (PROP), SNAP_STS 1 (ARMED), SNAP_FAULT_EN 0x10. -/
def snap0 : Snap :=
  { prop := true, armed := true, valid := false, src := 0, fclass := 0, origin := 0, capNo := 0, time := 0,
    faultEn := 0x10, missed := 0, fwd := 0, pairs := [], image := [], stillOutLow := false }

/-- Coordinate registers at reset; `FOLD_MASK` 0x3F (R355). -/
def coord0 : Coord :=
  { coordW := 0, coordN := 0, dimsW := 0, lock := false, rack := 0, rackWritten := false, valid := false, coord := 0,
    dims := 0, foldMask := 0x3F }

/-- The module right after power-on: in module reset (R500, Table 22-4), every register at its reset value, stage 0. -/
def reset : State :=
  { pending := [], fresh := 0, now := 0, mem := [], hostA := [], hostB := [], pa := port0, pb := port0, cmds := [],
    cmdNo := 0, lastFetch := .b, msPortA := master0, msPortB := master0, msSide := master0, msEasel := master0, accs := [],
    accNo := 0, sq := [], seqMiss := 0, lkIgnore := 0, regFix := 0, upsets := [], objs := [], sysExts := [],
    pfEnts := [], pfNo := 0, seqs := [], commitNo := 0, commitC := 0, applying := false, spillPool := 0, models := [],
    slices := List.replicate 8 slice0, steps := [], mst := [], joinQ := [], tenQ := List.replicate 64 0, tenC := List.replicate 64 0,
    curTenant := none, lastTenant := 63, turnStart := none, turnEnd := none, turnSteps := [],
    dies := List.replicate 8 die0, d2d := List.replicate 22 { down := false, replays := 0, inRow := 0 }, noc := [], pals := [],
    chans := List.replicate 256 { trained := false, failed := false, corr := 0, rebuilt := 0, recent := [] },
    grps := List.replicate 16 { protGib := 8, recon := false, lost := false, outOfService := false, parityErr := 0 },
    flash := flash0, links := (List.range 30).map link0, bundleW := [],
    router := { maskDrop := 0, foreignDrop := 0, transit := [], used := [], part := [], heldT := [], seen := [] },
    coord := coord0, power := power0, mon := mon0, health := health0, nor := nor0, clk := clk0, sec := sec0, snap := snap0,
    side := { straps := 0, dyn := none, stuck := false, lastBeat := 0, tapIr := 0 }, tx := [] }

end State

end Sys2Proof.Machine
end

