-- ==== Sys2Proof/Machine/Mem.lean ====
section
/-! DEFINITION. Memory as a sparse list of cells in canonical form: addresses strictly rising, no zero byte listed (a
byte that is not listed reads as zero: DESIGN CHOICE, log entry 2), with wide accesses built from bytes (R7). -/

namespace Sys2Proof.Machine

open Sys2Proof

/-- The cells from address `lo` on rise strictly and none is zero. -/
def wfFrom (lo : Nat) : List Host.Cell → Bool
  | [] => true
  | (a, b) :: t => decide (lo ≤ a) && !(b == 0) && wfFrom (a + 1) t

/-- The canonical form of a memory. -/
def Memory.wf (m : List Host.Cell) : Bool := wfFrom 0 m

/-- The byte at an address. -/
def Memory.get : List Host.Cell → Nat → Byte
  | [], _ => 0
  | (k, b) :: t, a => if k = a then b else Memory.get t a

/-- Write one byte, keeping the canonical form. -/
def Memory.put (a : Nat) (b : Byte) : List Host.Cell → List Host.Cell
  | [] => if b == 0 then [] else [(a, b)]
  | (k, c) :: t =>
    if a < k then (if b == 0 then (k, c) :: t else (a, b) :: (k, c) :: t)
    else if k = a then (if b == 0 then t else (a, b) :: t)
    else (k, c) :: Memory.put a b t

/-- Write bytes at consecutive addresses. -/
def Memory.write (m : List Host.Cell) (a : Nat) : List Byte → List Host.Cell
  | [] => m
  | b :: t => Memory.write (Memory.put a b m) (a + 1) t

/-- `n` bytes from an address. -/
def Memory.read (m : List Host.Cell) (a n : Nat) : List Byte := (List.range n).map fun i => Memory.get m (a + i)

/-- A little-endian value of `n` bytes (R7). -/
def Memory.nat (m : List Host.Cell) (a n : Nat) : Nat := ofLe (Memory.read m a n)

/-- Forget the bytes of a range: they read as unlisted bytes do. -/
def Memory.clear (m : List Host.Cell) (a n : Nat) : List Host.Cell := m.filter fun (k, _) => k < a || a + n ≤ k

/-- A little-endian field of a byte list. -/
def fld (b : List Byte) (off n : Nat) : Nat := ofLe ((b.drop off).take n)

/-- Bits [hi:lo] of a natural. -/
def bitsOf (v hi lo : Nat) : Nat := v / 2 ^ lo % 2 ^ (hi + 1 - lo)

/-- One bit of a natural. -/
def bitOf (v i : Nat) : Bool := v / 2 ^ i % 2 == 1

/-- A bit as a number. -/
def boolNat (b : Bool) : Nat := if b then 1 else 0

/-- Every byte of a list that the given (offset, length) fields do not cover is zero (R8, R9). -/
def onlyUses (b : List Byte) (uses : List (Nat × Nat)) : Bool :=
  b.zipIdx.all fun (v, i) => v == 0 || uses.any fun (o, n) => decide (o ≤ i) && decide (i < o + n)

/-- Bytes padded with zeros, or cut, to `n`. -/
def padTo (n : Nat) (b : List Byte) : List Byte := (b ++ List.replicate n 0).take n

end Sys2Proof.Machine
end

