-- ==== Sys2Proof/Machine/Ops.lean ====
section
/-! DEFINITION. Named operations that every family of commands uses: access to the parts of the state, free values,
SQ events, module addresses, host memory, completions and the COMMANDS slots behind them. -/

namespace Sys2Proof.Machine

open Sys2Proof

/-! ## Association lists -/

def assocGet {κ ν : Type} [BEq κ] (l : List (κ × ν)) (k : κ) : Option ν := (l.find? fun p => p.1 == k).map (·.2)

/-- Replace the value of a key, or append it. -/
def assocSet {κ ν : Type} [BEq κ] (l : List (κ × ν)) (k : κ) (v : ν) : List (κ × ν) :=
  if l.any (fun p => p.1 == k) then l.map fun p => if p.1 == k then (k, v) else p else l ++ [(k, v)]

def assocDel {κ ν : Type} [BEq κ] (l : List (κ × ν)) (k : κ) : List (κ × ν) := l.filter fun p => !(p.1 == k)

/-- Add to a list kept without repeats. -/
def addNew {α : Type} [BEq α] (l : List α) (x : α) : List α := if l.contains x then l else l ++ [x]

/-- A counter that saturates at `n` bits (R363, R438). -/
def satAdd (bits v k : Nat) : Nat := min (v + k) (2 ^ bits - 1)

/-! ## Parts of the state -/

def State.port (s : State) : Port → PortSt
  | .a => s.pa
  | .b => s.pb

def State.setPort (s : State) (p : Port) (x : PortSt) : State :=
  match p with
  | .a => { s with pa := x }
  | .b => { s with pb := x }

def State.modPort (s : State) (p : Port) (f : PortSt → PortSt) : State := s.setPort p (f (s.port p))

def State.hostMem (s : State) : Port → List Host.Cell
  | .a => s.hostA
  | .b => s.hostB

def State.setHostMem (s : State) (p : Port) (m : List Host.Cell) : State :=
  match p with
  | .a => { s with hostA := m }
  | .b => { s with hostB := m }

def otherPort : Port → Port
  | .a => .b
  | .b => .a

def portNum : Port → Nat
  | .a => 0
  | .b => 1

def portOf (n : Nat) : Port := if n % 2 = 0 then .a else .b

def State.master (s : State) : Master → MasterSt
  | .portA => s.msPortA
  | .portB => s.msPortB
  | .sideband => s.msSide
  | .easel => s.msEasel

def State.modMaster (s : State) (m : Master) (f : MasterSt → MasterSt) : State :=
  match m with
  | .portA => { s with msPortA := f s.msPortA }
  | .portB => { s with msPortB := f s.msPortB }
  | .sideband => { s with msSide := f s.msSide }
  | .easel => { s with msEasel := f s.msEasel }

/-- `WHO` of GLB_MASTER. -/
def masterNum : Master → Nat
  | .portA => 0
  | .portB => 1
  | .sideband => 2
  | .easel => 3

/-- Privileged masters (18, "Masters and access"). -/
def masterPriv : Master → Bool
  | .sideband | .easel => true
  | .portA | .portB => false

def State.die (s : State) (k : Nat) : Die := s.dies.getD k State.die0

def State.modDie (s : State) (k : Nat) (f : Die → Die) : State := { s with dies := s.dies.modify k f }

def State.modDies (s : State) (f : Die → Die) : State := { s with dies := s.dies.map f }

def State.slc (s : State) (h : Nat) : Slice := s.slices.getD h State.slice0

def State.modSlc (s : State) (h : Nat) (f : Slice → Slice) : State := { s with slices := s.slices.modify h f }

def State.link (s : State) (i : Nat) : Link := s.links.getD i (State.link0 i)

def State.modLink (s : State) (i : Nat) (f : Link → Link) : State := { s with links := s.links.modify i f }

def State.modPower (s : State) (f : Power → Power) : State := { s with power := f s.power }

def State.modMon (s : State) (f : Mon → Mon) : State := { s with mon := f s.mon }

def State.modHealth (s : State) (f : Health → Health) : State := { s with health := f s.health }

def State.modSec (s : State) (f : Sec → Sec) : State := { s with sec := f s.sec }

def State.modSnap (s : State) (f : Snap → Snap) : State := { s with snap := f s.snap }

def State.modFlash (s : State) (f : Flash → Flash) : State := { s with flash := f s.flash }

def State.modClk (s : State) (f : Clk → Clk) : State := { s with clk := f s.clk }

def State.modNor (s : State) (f : Nor → Nor) : State := { s with nor := f s.nor }

def State.obj (s : State) (id : Nat) : Option Obj := s.objs.find? fun o => o.id == id

def State.modObj (s : State) (id : Nat) (f : Obj → Obj) : State :=
  { s with objs := s.objs.map fun o => if o.id == id then f o else o }

def State.pool (s : State) (id : Nat) : Option Pool := (s.obj id).bind (·.pool)

def State.modPool (s : State) (id : Nat) (f : Pool → Pool) : State := s.modObj id fun o => { o with pool := o.pool.map f }

/-- An open sequence of the module, by handle. -/
def State.seqOf (s : State) (h : Nat) : Option Seq := s.seqs.find? fun q => q.h == h && !q.closed

def State.modSeq (s : State) (h : Nat) (f : Seq → Seq) : State :=
  { s with seqs := s.seqs.map fun q => if q.h == h && !q.closed then f q else q }

def State.model (s : State) (h : Nat) : Option Model := s.models.find? fun m => m.h == h && !m.dead

def State.modModel (s : State) (h : Nat) (f : Model → Model) : State :=
  { s with models := s.models.map fun m => if m.h == h && !m.dead then f m else m }

/-- A step in flight, by slice handle and STEP_ID. -/
def State.stepOf (s : State) (slice id : Nat) : Option Step := s.steps.find? fun t => t.slice == slice && t.id == id

def State.modStep (s : State) (slice id : Nat) (f : Step → Step) : State :=
  { s with steps := s.steps.map fun t => if t.slice == slice && t.id == id then f t else t }

/-- The step in flight in a step slot. -/
def State.stepAt (s : State) (slot : Nat) : Option Step := s.steps.find? fun t => t.slot == slot

def State.modStepAt (s : State) (slot : Nat) (f : Step → Step) : State :=
  { s with steps := s.steps.map fun t => if t.slot == slot then f t else t }

def State.emit (s : State) (x : Tx) : State := { s with tx := s.tx ++ [x] }

def State.emits (s : State) (l : List Tx) : State := { s with tx := s.tx ++ l }

/-! ## Free values -/

/-- The next free value and the state that has drawn it. -/
def State.draw (s : State) : Nat × State := (Config.freeNat s.fresh, { s with fresh := s.fresh + 1 })

/-- One of the elements of a list, which one left open; none of an empty list. -/
def State.choose {α : Type} (s : State) (l : List α) : Option α × State :=
  match l with
  | [] => (none, s)
  | x :: _ => (some (l.getD (Config.freeNat s.fresh % l.length) x), { s with fresh := s.fresh + 1 })

/-! ## SQ events (R424) -/

def State.sqGet (s : State) (r : SqReg) : SqState := (assocGet s.sq r).getD State.sq0

/-- Record event bit `b`: when it was 0, set it and raise SEQ in one action; every master's read is then stale (R425). -/
def State.raise (s : State) (r : SqReg) (b : Nat) : State :=
  let q := s.sqGet r
  if q.ev.getLsbD b then s
  else { s with sq := assocSet s.sq r { ev := q.ev ||| (1 <<< b), seq := q.seq + 1, perm := [] } }

/-- Record an event when a condition holds. -/
def State.raiseIf (s : State) (c : Bool) (r : SqReg) (b : Nat) : State := if c then s.raise r b else s

/-! ## Times -/

/-- SLOW cycles in a microsecond (105 MHz). -/
def cyclesUs (us : Nat) : Nat := 105 * us

/-- A time `t` of the module counter lies within `us` microseconds of now. -/
def State.within (s : State) (t us : Nat) : Bool := s.now ≤ t + cyclesUs us

/-- What the step does on an empty queue: one SLOW cycle of the module counter (R439), outside module reset. -/
def idleTick (s : State) : Host.Outcome State Fault Refusal :=
  .next (if s.clk.inReset then s else { s with now := s.now + 1 })

/-! ## Readiness -/

/-- The Easel serves commands: its firmware runs (boot stage 3, R505) and it has not stopped under R27. -/
def State.easelUp (s : State) : Bool := !s.clk.inReset && decide (3 ≤ s.clk.stage) && !s.health.failed

/-- Memory is trained and served (boot stage 5, Table 22-5). -/
def State.memReady (s : State) : Bool := !s.clk.inReset && decide (5 ≤ s.clk.stage)

/-- A port is down (R388). -/
def PortSt.down (x : PortSt) : Bool := !x.linkUp || x.perst || x.flr || x.d3 || x.ide == 2

def State.down (s : State) (p : Port) : Bool := (s.port p).down

/-- How a memory request at a port is handled (Table 16-4). -/
inductive BarAns where
  | absent | discard | unsupported | serve
deriving DecidableEq, Repr

def State.barAns (s : State) (p : Port) : BarAns :=
  let x := s.port p
  if !x.linkUp || x.perst || s.clk.inReset then .absent
  else if x.flr || x.ideFailed.contains 0 then .discard
  else if x.d3 || !x.memEn then .unsupported
  else .serve

/-- The sideband answers: the Easel runs, from stage 3, and the lines are not stuck (Table 22-5, R535). -/
def State.sidebandUp (s : State) : Bool := !s.clk.inReset && decide (3 ≤ s.clk.stage) && !s.health.easelStop && !s.side.stuck

/-- An access by a master reaches BAR0 and BAR2 (Table 16-4, R387). -/
def State.reaches (s : State) (m : Master) : Bool :=
  match m with
  | .portA => s.barAns .a == .serve
  | .portB => s.barAns .b == .serve
  | .sideband => s.sidebandUp
  | .easel => s.easelUp

/-! ## Module addresses (Table 11-1) -/

/-- The die that owns a group: two groups of 16 channels a die (R14). -/
def dieOfGroup (g : Nat) : Nat := g / 2

def gib : Nat := 2 ^ 30

def poolBase (k : Nat) : Nat := 0x000200000000 + k * 0x04000000

def winBase (g : Nat) (prot : Bool) : Nat := 0x100000000000 + g * 0x004000000000 + (if prot then 0 else 0x002000000000)

def State.grp (s : State) (g : Nat) : Grp :=
  s.grps.getD g { protGib := 8, recon := false, lost := false, outOfService := false, parityErr := 0 }

def State.modGrp (s : State) (g : Nat) (f : Grp → Grp) : State := { s with grps := s.grps.modify g f }

/-- Bytes of a group's window (R276). -/
def State.winBytes (s : State) (g : Nat) (prot : Bool) : Nat :=
  let p := (s.grp g).protGib
  if prot then 15 * p * gib else 16 * (8 - p) * gib

/-- What a module address names. -/
inductive Region where
  | unmapped
  | pool (die off : Nat)
  | win (g : Nat) (prot : Bool) (off : Nat)
deriving DecidableEq, Repr

def State.region (s : State) (a : Nat) : Region :=
  if 0x000200000000 ≤ a ∧ a < poolBase 8 then
    .pool ((a - 0x000200000000) / 0x04000000) (a % 0x04000000)
  else if 0x100000000000 ≤ a ∧ a < 0x100000000000 + 16 * 0x004000000000 then
    let g := (a - 0x100000000000) / 0x004000000000
    let o := a % 0x004000000000
    let prot := decide (o < 0x002000000000)
    let r := o % 0x002000000000
    if r < s.winBytes g prot then .win g prot r else .unmapped
  else .unmapped

/-! ## Interleave and parity (R273, R274, R277) -/

/-- Channel of a window offset (R273, R274). -/
def chanOf (g : Nat) (prot : Bool) (r : Nat) : Nat :=
  if prot then
    let st := r / 3840
    let u := r % 3840 / 256
    16 * g + (if u < st % 16 then u else u + 1)
  else 16 * g + r / 256 % 16

/-- Channel byte address of a window offset in a group with `p` GiB protected (R273, R274). -/
def chanByte (p : Nat) (prot : Bool) (r : Nat) : Nat :=
  if prot then r / 3840 * 256 + r % 256 else p * gib + r / 4096 * 256 + r % 256

/-- The window offset that lies at a byte of local channel `i`; none at a parity unit. -/
def winOf (p i b : Nat) : Option (Bool × Nat) :=
  if b < p * gib then
    let st := b / 256
    if i = st % 16 then none else some (true, st * 3840 + (if i < st % 16 then i else i - 1) * 256 + b % 256)
  else some (false, (b - p * gib) / 256 * 4096 + i * 256 + b % 256)

/-- Data unit `u` of a stripe of a group's protected window, as every read gives it: from its channel, or while that channel has failed
as the XOR of the stripe's other 15 units (R274, R280). -/
def State.dataUnit (s : State) (g st u : Nat) : List Byte := Memory.read s.mem (winBase g true + st * 3840 + u * 256) 256

/-- The parity unit of a stripe: the XOR of its data units. Every write keeps it so (R277), a write that a failed channel cannot take
included (R280), so that it is no state beside the data. -/
def State.parityUnit (s : State) (g st : Nat) : List Byte :=
  (List.range 15).foldl (fun x u => List.zipWith (· ^^^ ·) x (s.dataUnit g st u)) (List.replicate 256 0)

/-- A group's division changes: every byte stays where its channel holds it, and reads at the offset that now lies there. DESIGN CHOICE
(log entry 132): what becomes a parity unit is not read again, and a unit that was parity reads as bytes that nothing has written. -/
def State.divide (s : State) (g p : Nat) : State :=
  let p0 := (s.grp g).protGib
  if p = p0 then s
  else
    let inGroup (c : Host.Cell) : Bool := decide (winBase g true ≤ c.1) && decide (c.1 < winBase (g + 1) true)
    let move (c : Host.Cell) : Option Host.Cell :=
      match s.region c.1 with
      | .win _ prot r => (winOf p (chanOf g prot r % 16) (chanByte p0 prot r)).map fun x => (winBase g x.1 + x.2, c.2)
      | _ => none
    let s' := s.modGrp g fun x => { x with protGib := p }
    { s' with mem := ((s.mem.filter inGroup).filterMap move).foldl (fun m c => Memory.put c.1 c.2 m) (s.mem.filter fun c => !inGroup c) }

/-- The groups of a mask, ascending (R275). -/
def groupsOf (mask : Nat) : List Nat := (List.range 16).filter fun g => bitOf mask g

/-- Pages, descriptors and tables of a pool lie in the protected window of its lowest group (R287). -/
def metaBytes (p : Pool) : Nat := (32 * (p.pageIds + 1) + 65535) / 65536 * 65536 + p.tableBytes

def metaBase (p : Pool) : Nat := winBase p.metaGroup true + p.metaOff

/-- Module address of table slot `i` of a pool. -/
def tableAddr (p : Pool) (i : Nat) : Nat := metaBase p + (32 * (p.pageIds + 1) + 65535) / 65536 * 65536 + 4096 * i

/-- The module ranges of an object's extents: (address, bytes). -/
def Obj.extents (o : Obj) : List (Nat × Nat) :=
  if o.kind == .hostbuf then []
  else if o.dp then [(poolBase o.die + o.extOff, o.extBytes)]
  else (groupsOf o.groups).map fun g => (winBase g o.prot + o.extOff, o.extBytes)

/-- An object's extents and a pool's metadata extent. -/
def Obj.ranges (o : Obj) : List (Nat × Nat) :=
  o.extents ++ (match o.pool with
    | some p => [(metaBase p, metaBytes p)]
    | none => [])

/-- The two copies of a system extent as module ranges. -/
def SysExt.ranges (x : SysExt) : List (Nat × Nat) :=
  (match x.g0 with | some g => [(winBase g true + x.off0, x.bytes)] | none => []) ++
  (match x.g1 with | some g => [(winBase g true + x.off1, x.bytes)] | none => [])

def inRange (a : Nat) (r : Nat × Nat) : Bool := decide (r.1 ≤ a) && decide (a < r.1 + r.2)

/-- Ranges `[a, a + n)` and `r` meet. -/
def overlaps (a n : Nat) (r : Nat × Nat) : Bool := decide (a < r.1 + r.2) && decide (r.1 < a + n)

/-! ## Placement and system extents (R275, R285) -/

/-- Round up to 64 KiB. -/
def up64k (n : Nat) : Nat := (n + 65535) / 65536 * 65536

/-- Occupied parts of a window: (offset, bytes). -/
def State.occWin (s : State) (g : Nat) (prot : Bool) : List (Nat × Nat) :=
  let b := winBase g prot
  let all := s.objs.flatMap Obj.ranges ++ s.sysExts.flatMap SysExt.ranges
  (all.filter fun (a, _) => decide (b ≤ a) && decide (a < b + 0x002000000000)).map fun (a, n) => (a - b, n)

/-- Occupied parts of a die pool. -/
def State.occPool (s : State) (k : Nat) : List (Nat × Nat) :=
  ((s.objs.flatMap Obj.ranges).filter fun (a, _) => decide (poolBase k ≤ a) && decide (a < poolBase (k + 1))).map
    fun (a, n) => (a - poolBase k, n)

/-- The lowest offset at or above `lo`, a multiple of 64 KiB, where `n` bytes are free below `lim`: `lo` itself or the
end of an occupied part. -/
def lowOff (occ : List (Nat × Nat)) (lo n lim : Nat) : Option Nat :=
  let ok (o : Nat) : Bool := decide (o + n ≤ lim) && !occ.any fun r => overlaps o n r
  ((lo :: (occ.map fun (a, k) => up64k (a + k)).filter fun o => decide (lo < o)).filter ok).foldl
    (fun b o => match b with
      | none => some o
      | some x => some (min x o)) none

/-- Groups in service whose protected window has room, with the lowest offset there, on dies other than `notDie`. -/
def State.sysRooms (s : State) (n : Nat) (notDie : Option Nat) : List (Nat × Nat) :=
  (List.range 16).filterMap fun g =>
    if (s.grp g).lost || (s.grp g).outOfService || notDie == some (dieOfGroup g) then none
    else (lowOff (s.occWin g true) 0 n (s.winBytes g true)).map fun o => (g, o)

/-- Place both copies on groups of different compute dies; which groups is the module's free choice. -/
def State.placeSys (s : State) (owner key bytes : Nat) : Option State :=
  let n := up64k bytes
  match s.choose ((s.sysRooms n none).filter fun (g, _) => !(s.sysRooms n (some (dieOfGroup g))).isEmpty) with
  | (none, _) => none
  | (some (g, o), s) =>
    match s.choose (s.sysRooms n (some (dieOfGroup g))) with
    | (none, _) => none
    | (some (g', o'), s) =>
      some { s with sysExts := s.sysExts ++ [{ owner := owner, key := key, bytes := n, g0 := some g, off0 := o, g1 := some g', off1 := o' }] }

/-- A system extent with one copy gets its second, on another compute die, when a group in service has room (R285). -/
def State.mendSys (s : State) : State :=
  s.sysExts.foldl (fun s x =>
    match x.g0, x.g1 with
    | some g, none | none, some g =>
      let keep := if x.g0.isSome then x.off0 else x.off1
      match s.choose (s.sysRooms x.bytes (some (dieOfGroup g))) with
      | (none, s) => s
      | (some (g', o'), s) =>
        let put (y : SysExt) : SysExt := if y.owner == x.owner && y.key == x.key then { y with g0 := some g, off0 := keep, g1 := some g', off1 := o' } else y
        { s with sysExts := s.sysExts.map put }
    | _, _ => s) s

/-- Free both copies of a system extent; the room may take a missing copy of another. -/
def State.dropSys (s : State) (owner key : Nat) : State :=
  ({ s with sysExts := s.sysExts.filter fun x => !(x.owner == owner && x.key == key) }).mendSys

/-- SEQ prefetch entries end (R297); their extent goes with the last of them. -/
def State.endSeqEnts (s : State) (p : PfEnt → Bool) : State :=
  let l := s.pfEnts.filter fun e => !(e.kind == 3 && p e)
  let s := { s with pfEnts := l }
  if l.any fun e => e.kind == 3 then s else s.dropSys 3 0

/-! ## Addresses -/

/-- An address that a descriptor, a command or BAR4 may not name (R272, R285): unmapped, or a system area. -/
def State.sysOrUnmapped (s : State) (a : Nat) : Bool :=
  match s.region a with
  | .unmapped => true
  | .pool _ off => decide (off < 0x1000000)
  | .win _ _ _ => s.sysExts.any fun x => x.ranges.any (inRange a)

/-- Every byte of a range may be named. -/
def State.rangeOk (s : State) (a n : Nat) : Bool :=
  !s.sysOrUnmapped a && (n == 0 || !s.sysOrUnmapped (a + n - 1)) && decide (s.region a ≠ .unmapped) &&
  (match s.region a, s.region (a + n - 1) with
   | .pool d _, .pool d' _ => d == d'
   | .win g p _, .win g' p' _ => g == g' && p == p' &&
      !s.sysExts.any fun x => x.ranges.any (overlaps a n)
   | _, _ => n == 0)

/-- Module address of byte `b` of an object in LPDDR5X or a die pool (R275). -/
def Obj.addr (o : Obj) (b : Nat) : Nat :=
  if o.dp then poolBase o.die + o.extOff + b
  else
    let gs := groupsOf o.groups
    let seg := b / 65536
    winBase (gs.getD (seg % gs.length) 0) o.prot + o.extOff + seg / gs.length * 65536 + b % 65536

/-- Module address of byte `b` of a pool's frame `f` (R287). -/
def Obj.frameAddr (o : Obj) (p : Pool) (f b : Nat) : Nat :=
  let gs := groupsOf o.groups
  winBase (gs.getD (f % gs.length) 0) o.prot + o.extOff + f / gs.length * p.pageBytes + b

/-! ## Page tables and descriptors as bytes (Table 07-3, R170) -/

def PageState.num : PageState → Nat
  | .free => 0 | .staging => 1 | .live => 2 | .retiring => 3 | .spilled => 4 | .arriving => 5

def page0 : PageDesc :=
  { frame := 0, state := .free, perm := false, spillAct := false, pins := 0, refcnt := 0, fill := 0, age := 0, ageC := 0,
    spillLoc := 0, spillTier := 0, spillCrc := 0, retried := false, lost := false }

def Pool.page (p : Pool) (id : Nat) : PageDesc := (assocGet p.pages id).getD page0

def PageDesc.bytes (d : PageDesc) : List Byte :=
  leBytes 4 d.frame ++
  leBytes 1 (d.state.num + 8 * boolNat d.perm + 16 * boolNat d.spillAct) ++ leBytes 1 d.pins ++ leBytes 2 d.refcnt ++
  leBytes 1 d.fill ++ leBytes 3 0 ++ leBytes 4 d.age ++
  leBytes 8 (d.spillLoc % 2 ^ 62 + d.spillTier * 2 ^ 62) ++ leBytes 4 d.spillCrc ++ leBytes 4 0

/-- The 4,096 bytes of a table slot: a root's 64 entries or a leaf's 512 (R170, R287). -/
def State.tableBytes (s : State) (p : Pool) (u : TableUse) : List Byte :=
  match u with
  | .root q => padTo 4096 ((List.range 64).flatMap fun r =>
      match p.tables.find? fun (_, v) => v == .leaf q r with
      | some (i, _) => leBytes 8 (tableAddr p i + 2 ^ 63)
      | none => leBytes 8 0)
  | .leaf q r =>
      let m := (s.seqs.find? fun x => x.h == q && !x.closed).map (·.map) |>.getD []
      (List.range 512).flatMap fun i => leBytes 8 ((assocGet m (512 * r + i)).getD 0)
  | .staged _ _ => List.replicate 4096 0

/-- Byte `off` of a pool's metadata extent. -/
def State.metaByte (s : State) (p : Pool) (off : Nat) : Byte :=
  let d := (32 * (p.pageIds + 1) + 65535) / 65536 * 65536
  if off < d then
    let id := off / 32
    if id = 0 ∨ p.pageIds < id then 0 else (p.page id).bytes.getD (off % 32) 0
  else
    match assocGet p.tables ((off - d) / 4096) with
    | some u => (s.tableBytes p u).getD ((off - d) % 4096) 0
    | none => 0

/-- The byte at a module address as a reader sees it: metadata extents show descriptors and tables, all else memory. -/
def State.modByte (s : State) (a : Nat) : Byte :=
  match s.objs.findSome? fun o => o.pool.bind fun p => if inRange a (metaBase p, metaBytes p) then some p else none with
  | some p => s.metaByte p (a - metaBase p)
  | none => Memory.get s.mem a

def State.modRead (s : State) (a n : Nat) : List Byte := (List.range n).map fun i => s.modByte (a + i)

def State.modNat (s : State) (a n : Nat) : Nat := ofLe (s.modRead a n)

def State.modWrite (s : State) (a : Nat) (b : List Byte) : State := { s with mem := Memory.write s.mem a b }

/-- Write bytes of an object's body, from its byte `off`, segment by segment (R275). -/
def State.objWrite (s : State) (o : Obj) (off : Nat) (b : List Byte) : State :=
  { s with mem := b.zipIdx.foldl (fun m (v, i) => Memory.put (o.addr (off + i)) v m) s.mem }

def State.objRead (s : State) (o : Obj) (off n : Nat) : List Byte :=
  (List.range n).map fun i => Memory.get s.mem (o.addr (off + i))

/-! ## Host memory (R384, R405, R548) -/

/-- Read host memory behind a port: fails while the port is down. -/
def State.hostRead (s : State) (p : Port) (a n : Nat) : Option (List Byte) :=
  if s.down p then none else some (Memory.read (s.hostMem p) a n)

/-- Write host memory behind a port: dropped while the port is down; the flag says so (`HOST_LOST`). -/
def State.hostWrite (s : State) (p : Port) (a : Nat) (b : List Byte) : State × Bool :=
  if s.down p then (s, true) else (s.setHostMem p (Memory.write (s.hostMem p) a b), false)

/-! ## Status codes (Table 17-11) -/

def stOK := 0
def stBadOpcode := 1
def stBadField := 2
def stBadFormat := 3
def stBadDigest := 4
def stNotAdmitted := 5
def stAuthFail := 6
def stRollback := 7
def stNotFound := 8
def stNotReady := 9
def stBusy := 0x10
def stNoSpace := 0x11
def stDrain := 0x12
def stSwapTooLong := 0x13
def stCapUnreachable := 0x14
def stHostUnreachable := 0x15
def stAlready := 0x20
def stJoined := 0x21
def stCancelled := 0x22
def stDepartCancelled := 0x23
def stRefetched := 0x24
def stSuperseded := 0x25
def stNotResident := 0x26
def stNoSource := 0x27
def stGroupDegraded := 0x28
def stTileCorrupt := 0x29
def stMemLost := 0x2A
def stStepOrder := 0x30
def stKilled := 0x31
def stCommitted := 0x32
def stRerunLimit := 0x33
def stStepMismatch := 0x34
def stNoPages := 0x35
def stDepError := 0x36
def stTileRetryLimit := 0x37
def stPaletteFault := 0x38
def stKvLost := 0x39
def stMemberAbsent := 0x40
def stMemberLost := 0x41
def stSliceDisagree := 0x42
def stSliceStopped := 0x43

/-! ## Completions (R399 to R402, R388) -/

/-- The 64 bytes of a completion entry (Table 17-2). -/
def Cpl.bytes (c : Cpl) (phase : Bool) : List Byte :=
  leBytes 8 c.tag.toNat ++ leBytes 4 c.cseq ++ leBytes 2 c.status ++ leBytes 1 c.opcode ++
  leBytes 1 (boolNat phase + 2 * portNum c.orig + 4 * boolNat c.held + 8 * boolNat c.hostLost) ++ padTo 48 c.result

/-- The ring can take a completion now: set up since the port went down, up, and not full before `HEAD` (R401). -/
def PortSt.canPost (x : PortSt) : Bool :=
  match x.ring with
  | some r => r.live && !x.down && (r.post + 1) % 2 ^ r.cqLog2 != r.head
  | none => false

/-- Free a COMMANDS slot (R445). -/
def State.freeSlot (s : State) (i : Option Nat) : State :=
  match i with
  | some k => { s with cmds := s.cmds.filter fun c => c.idx != k }
  | none => s

/-- Vector `CQ_VEC` after a post: at once without coalescing; else the interval's end signals (R402). -/
def State.signal (s : State) (p : Port) : State :=
  match (s.port p).ring with
  | some r =>
    if r.coalUs = 0 then s.emit (.msix p r.vec)
    else s.modPort p fun x => { x with coalRun := true }
  | none => s

/-- Write a completion at the ring's post index and advance it (R399, R401). -/
def State.postCpl (s : State) (p : Port) (c : Cpl) : State :=
  match (s.port p).ring with
  | some r =>
    let s := (s.hostWrite p (r.cqAddr + 64 * r.post) (c.bytes r.phase)).1
    let n := (r.post + 1) % 2 ^ r.cqLog2
    let s := s.modPort p fun x => { x with ring := some { r with post := n, phase := if n = 0 then !r.phase else r.phase } }
    (s.freeSlot c.slot).signal p
  | none => s

/-- Post held completions in order while the ring can take them (R388, R401). -/
def State.flushHeld (s : State) (p : Port) : Nat → State
  | 0 => s
  | n + 1 =>
    match (s.port p).held with
    | c :: t =>
      if (s.port p).canPost && !s.health.failed then
        ((s.modPort p fun x => { x with held := t }).postCpl p c).flushHeld p n
      else s
    | [] => s

/-- Hold a completion, at most 4,096 for the port; later ones are dropped and counted (R388, R401). -/
def State.holdCpl (s : State) (p : Port) (c : Cpl) : State :=
  let x := s.port p
  if x.held.length < 4096 then
    let s := s.modPort p fun x => { x with held := x.held ++ [{ c with held := true }] }
    let mark (k : CmdSlot) : CmdSlot :=
      if c.slot == some k.idx then { k with state := .held, cseq := c.cseq, status := c.status } else k
    let s := { s with cmds := s.cmds.map mark }
    s.raise (.pci p) 6
  else
    (s.modPort p fun x => { x with cplDrop := satAdd 16 x.cplDrop 1 }).freeSlot c.slot

/-- The next value of a completion counter: 1 to 2^32 − 1 and round (R400). -/
def nextCseq (n : Nat) : Nat := if n = 2 ^ 32 - 1 then 1 else n + 1

/-- Complete a command with a status and a result. A mailbox command fills `MB_CPL`; a ring command takes the next
`CSEQ` of its origin and is posted, or held behind what is held already, on the port that serves it (R400, R405). A FAILED module posts none (R486). -/
def State.finishWith (s : State) (r : Ref) (status : Nat) (result : List Byte) (lost : Bool) (names : Option Blame := none) : State :=
  let p := r.src.port
  if s.health.failed then s
  else if r.src.mailbox then
    s.modPort p fun x => { x with
      mbBusy := false, mbDone := true,
      mbCpl := some { tag := r.src.tag, cseq := 0, status := status, opcode := r.opcode, orig := p, held := false,
                      hostLost := lost, result := padTo 48 result, slot := none, names := names } }
  else
    let via := (s.cmds.find? fun c => r.slot == some c.idx).map (·.postOn) |>.getD p
    let c : Cpl := { tag := r.src.tag, cseq := (s.port p).nextCseq, status := status, opcode := r.opcode, orig := p,
                     held := false, hostLost := lost, result := padTo 48 result, slot := r.slot, names := names }
    let s := s.modPort p fun x => { x with nextCseq := nextCseq x.nextCseq }
    if (s.port via).canPost && (s.port via).held.isEmpty then s.postCpl via c else s.holdCpl via c

def State.finish (s : State) (r : Ref) (status : Nat) (result : List Byte := []) : State :=
  s.finishWith r status result false

/-- A command in force is one fetched and not completed. -/
def CmdSlot.inFlight (c : CmdSlot) : Bool := c.state != .held

/-- Commands fetched from a port's ring and not completed (`IN_FLIGHT`). -/
def State.inFlight (s : State) (p : Port) : Nat := (s.cmds.filter fun c => c.src.port == p && c.inFlight).length

end Sys2Proof.Machine
end

