-- ==== Sys2Proof/Machine/Health.lean ====
section
/-! DEFINITION. Health causes, states, pins and alerts (R487, R490, R491), cores and spares (R25, R26, R118, R119) and
the measurement log (R517), as operations other families use. -/

namespace Sys2Proof.Machine

open Sys2Proof

/-! ## Causes (HLT_CAUSE bits) -/

def hcSpareLow := 0
def hcRecon := 1
def hcNarrow := 2
def hcPhase := 3
def hcNandSpare := 4
def hcCeRate := 5
def hcD2d := 6
def hcFlashRo := 7
def hcGrpLost := 8
def hcDieLost := 9
def hcCoreShort := 10
def hcCoolant := 11

/-- The health state that the causes set: the most severe of Table 21-4; FAILED under R486. DEDUCED (log entry 146): a loss of memory contents
moves it to SERVICE (Table 21-3), for which Table 21-4 has no cause. -/
def Health.level (h : Health) : Nat :=
  let c := h.cause
  if h.failed then 3
  else if c.getLsbD hcD2d || c.getLsbD hcFlashRo || c.getLsbD hcGrpLost || c.getLsbD hcDieLost || c.getLsbD hcCoreShort ||
      (c.getLsbD hcPhase && h.limitedPhase) then 2
  else if c.getLsbD hcSpareLow || c.getLsbD hcRecon || c.getLsbD hcNarrow || c.getLsbD hcPhase || c.getLsbD hcNandSpare ||
      c.getLsbD hcCeRate || h.memLost then 1
  else 0

/-- A HLT_EVT event: recorded, on the console (R538), and an alert falls due (R491). -/
def State.hltRaise (s : State) (b : Nat) : State :=
  ((s.raise .hlt b).emit (.console 1 b)).modHealth fun h => { h with alertEvt := h.alertEvt ||| (1 <<< b), alertNew := h.alertNew ||| (1 <<< b), alertDue := true }

/-- Take the state that the causes now set, with the pins of R490; `STATE_CHG` when it changed. -/
def State.hltUpdate (s : State) : State :=
  let l := s.health.level
  let chg := l != s.health.state
  let s := s.modHealth fun h => { h with state := l, serviceN := decide (1 ≤ l), faultN := l == 3 || h.faultPulse }
  if chg then s.hltRaise 0 else s

/-- Set a cause: state, `CAUSE_SET` and `STATE_CHG` in one action (R487). -/
def State.setCause (s : State) (b : Nat) : State :=
  if s.health.cause.getLsbD b then s.hltUpdate
  else ((s.modHealth fun h => { h with cause := h.cause ||| (1 <<< b) }).hltUpdate).hltRaise 1

/-- Clear a cause; the state falls to the most severe that remains. -/
def State.clearCause (s : State) (b : Nat) : State :=
  (s.modHealth fun h => { h with cause := h.cause &&& ~~~((1 : BitVec 12) <<< b) }).hltUpdate

/-- Set or clear a cause. -/
def State.putCause (s : State) (b : Nat) (on : Bool) : State := if on then s.setCause b else s.clearCause b

/-- `NARROW` is set while a link or optical port is narrowed or FAILED, and clears when all are back (Table 21-4). -/
def State.narrowCause (s : State) : State :=
  s.putCause hcNarrow (s.links.any fun l => l.narrow || l.state == .failed)

/-- A fault of Table 21-3 stops a job: `JOB_STOP`, and `FAULT_N` for 10 ms to 20 ms (R490). -/
def State.jobStopPins (s : State) : State :=
  (s.modHealth fun h => { h with faultPulse := true, faultN := true }).hltRaise 3

/-- `COOLANT` follows the coolant caps and conditions (R470 to R474). -/
def State.coolCause (s : State) : State :=
  let m := s.mon
  s.putCause hcCoolant (m.inletHigh || m.flowLoss || m.reversed || (m.inFailA && m.inFailB) || (m.outFailA && m.outFailB))

/-! ## Cores, spares and quarantine -/

/-- A logical core that can claim tiles. -/
def Core.able (c : Core) : Bool := !c.closed && !c.empty

/-- Logical cores able to claim tiles on a die. -/
def Die.coresOk (d : Die) : Nat := if d.lost then 0 else (d.cores.filter Core.able).length

def Die.spares (d : Die) : Nat := (d.phys.filter fun p => p.state == 1).length

def Die.quarantined (d : Die) : Nat := (d.phys.filter fun p => p.state == 2).length

/-- The physical core behind a logical number. -/
def Die.physOf (d : Die) (core : Nat) : Option Nat := d.phys.findIdx? fun p => p.state == 0 && p.logical == core

/-- Quarantine a core with its cause (R118): recorded in the NOR, its port closed until the next job start. -/
def State.quarantine (s : State) (k core cause : Nat) : State :=
  match (s.die k).physOf core with
  | some q =>
    let s := s.modDie k fun d => { d with
      phys := d.phys.modify q fun p => { p with state := 2, cause := cause }
      cores := d.cores.modify core fun c => { c with closed := true } }
    (s.modNor fun n => { n with quar := n.quar ++ [(k, q, cause)] }).hltRaise 2
  | none => s.modDie k fun d => { d with cores := d.cores.modify core fun c => { c with closed := true } }

/-- Map spares to the logical numbers of quarantined cores on one die, lowest logical number first; which spare is the
model's free choice (R25). -/
def State.mapSpares (s : State) (k : Nat) : List Nat → State
  | [] => s
  | j :: t =>
    let d := s.die k
    if (d.physOf j).isSome then s.mapSpares k t
    else
      let free := (d.phys.zipIdx.filter fun (p, _) => p.state == 1).map (·.2)
      match s.choose free with
      | (some q, s) =>
        (s.modDie k fun d => { d with
          phys := d.phys.modify q fun p => { p with state := 0, logical := j }
          cores := d.cores.modify j fun _ => { State.core0 with lastBeat := s.now, lastProgress := s.now } }).mapSpares k t
      | (none, s) => (s.modDie k fun d => { d with cores := d.cores.modify j fun c => { c with empty := true } }).mapSpares k t

/-- The mapping is kept with the health record. -/
def State.saveMap (s : State) : State :=
  s.modNor fun n => { n with map := s.dies.zipIdx.map fun (d, k) =>
    (k, (List.range 120).map fun j => (d.physOf j).getD 255) }

/-- A job start, or the end of boot (R26): map spares on every die not lost, report HLT_SPARE, set the causes. -/
def State.jobStart (s : State) : State :=
  let s := (List.range 8).foldl (fun s k => if (s.die k).lost then s else s.mapSpares k (List.range 120)) s
  let s := s.saveMap
  let s := s.modHealth fun h => { h with spare := s.dies.map Die.spares }
  let live := s.dies.filter fun d => !d.lost
  let s := if live.any fun d => decide (d.spares < 3) then s.setCause hcSpareLow else s
  if live.any fun d => d.cores.any Core.empty then s.setCause hcCoreShort else s

/-! ## Measurement log (R517, R518) -/

/-- The 64 bytes of a log entry (Table 23-3). -/
def LogEnt.bytes (e : LogEnt) : List Byte :=
  leBytes 4 e.index ++ leBytes 1 e.kind ++ leBytes 3 0 ++ leBytes 8 e.time ++ leBytes 4 e.detail ++ leBytes 12 0 ++
  padTo 32 e.digest

/-- Add a measurement: the aggregate is always extended; beyond 4,096 entries the entry is counted in `LOST` (R517). -/
def State.measure (s : State) (kind detail : Nat) (digest : List Byte) : State :=
  let e : LogEnt := { index := s.sec.logCount, kind := kind, time := s.now, detail := detail, digest := digest }
  let full := decide (4096 ≤ s.sec.log.length)
  let s := s.modSec fun c => { c with
    log := if full then c.log else c.log ++ [e]
    logCount := c.logCount + 1
    logLost := if full then satAdd 19 c.logLost 1 else c.logLost
    aggregate := shake256 (c.aggregate ++ e.bytes) }
  s.raiseIf full .sec 6

end Sys2Proof.Machine
end

