-- ==== Sys2Proof/Machine/Regs.lean ====
section
/-! DEFINITION. The register map of BAR0 as reads see it (R419 to R422 and the register tables of every chapter): one
function from offset to value, where each SQ register and each posted-write block lies, and the list of registers. -/

namespace Sys2Proof.Machine

open Sys2Proof

/-- Fields packed into a register value: (lowest bit, width, value). -/
def pack (l : List (Nat × Nat × Nat)) : Nat := l.foldl (fun v (lo, w, x) => v + x % 2 ^ w * 2 ^ lo) 0

/-- BAR0 offset of an SQ register. -/
def sqOff : SqReg → Nat
  | .spill => 0x30
  | .hlt => 0x20014
  | .pwr => 0x30024
  | .mon => 0x40050
  | .clk => 0x5000C
  | .sec => 0x70038
  | .pci .a => 0x80008
  | .pci .b => 0x81008
  | .lnk i => 0x100000 + 0x1000 * i + 0xC
  | .rte => 0x140010
  | .fls => 0x300024
  | .cd k => 0x400000 + 0x80000 * k + 4

/-- Every SQ register of the part. -/
def sqAll : List SqReg :=
  [.spill, .hlt, .pwr, .mon, .clk, .sec, .pci .a, .pci .b, .rte, .fls] ++ (List.range 30).map .lnk ++ (List.range 8).map .cd

def sqAt (off : Nat) : Option SqReg := sqAll.find? fun r => sqOff r == off

/-- Base of a posted-write block (Table 18-1). -/
def pwBase : PwBlk → Nat
  | .mon => 0x40000
  | .clk => 0x50000
  | .pci .a => 0x80000
  | .pci .b => 0x81000
  | .lnk i => 0x100000 + 0x1000 * i
  | .rte => 0x140000
  | .fls => 0x300000

def pwSize : PwBlk → Nat
  | .pci _ | .lnk _ => 0x1000
  | _ => 0x10000

def pwAll : List PwBlk := [.mon, .clk, .pci .a, .pci .b, .rte, .fls] ++ (List.range 30).map .lnk

/-- The posted-write block that holds an offset. -/
def pwAt (off : Nat) : Option PwBlk := pwAll.find? fun b => decide (pwBase b ≤ off) && decide (off < pwBase b + pwSize b)

def acc0 : AccState := { busy := false, drop := false, dropN := 0, off := 0, val := 0, seqNo := 0 }

/-- A master's posted-write slot in a block. -/
def State.accOf (s : State) (m : Master) (b : PwBlk) : AccState :=
  ((s.accs.find? fun (m', b', _) => m' == m && b' == b).map fun (_, _, a) => a).getD acc0

def State.setAcc (s : State) (m : Master) (b : PwBlk) (a : AccState) : State :=
  { s with accs := (s.accs.filter fun (m', b', _) => !(m' == m && b' == b)) ++ [(m, b, a)] }

def accVal (a : AccState) : Nat := pack [(0, 1, boolNat a.busy), (1, 1, boolNat a.drop), (16, 16, a.dropN)]

def SqState.val (q : SqState) : Nat := q.ev.toNat + q.seq.toNat * 2 ^ 24

/-! ## Values that registers show -/

/-- Phases and spares of a rail (Table 20-2). -/
def railSpares : Rail → Nat
  | .compute _ => 2
  | _ => 1

def railPhases : Rail → Nat
  | .compute _ => 24
  | .io _ => 6
  | .lpddr _ => 4
  | .aux _ => 3

def railAll : List Rail :=
  (List.range 8).map .compute ++ (List.range 4).map .io ++ (List.range 4).map .lpddr ++ (List.range 4).map .aux

def State.railLost (s : State) (r : Rail) : Nat := (assocGet s.power.phasesLost r).getD 0

/-- Temperatures are unsigned, in 0.125 °C; below 0 °C reads 0. -/
def tempField (t : Int) : Nat := min t.toNat 4095

def Mon.reading (m : Mon) (i : Nat) : Int := (assocGet m.sense i).getD 0

/-- Sensors of a die in the order of `DIE`: 96 on a compute die, 24 on an I/O die (R475). -/
def dieSensors (k : Nat) : List Nat :=
  if k < 8 then (List.range 96).map (96 * k + ·) else (List.range 24).map (768 + 24 * (k - 8) + ·)

def sensorDie (i : Nat) : Nat := if i < 768 then i / 96 else 8 + (i - 768) / 24

def sensorIdx (i : Nat) : Nat := if i < 768 then i % 96 else (i - 768) % 24

/-- Hottest valid sensor among a list: index and reading; the lowest index of equals. -/
def Mon.hottest (m : Mon) (l : List Nat) : Option (Nat × Int) :=
  (l.filter fun i => !m.fail.contains i).foldl
    (fun b i => match b with
      | none => some (i, m.reading i)
      | some (j, t) => if t < m.reading i then some (i, m.reading i) else some (j, t)) none

def Mon.mean (m : Mon) (l : List Nat) : Int :=
  let v := l.filter fun i => !m.fail.contains i
  if v.isEmpty then 0 else (v.map m.reading).foldl (· + ·) 0 / (v.length : Int)

def LState.num : LState → Nat
  | .disabled => 0 | .waitCoord => 1 | .train => 2 | .check => 3 | .up => 4 | .miswire => 5 | .failed => 6 | .retrain => 7

def SliceState.num : SliceState → Nat
  | .free => 0 | .joining => 1 | .joined => 2 | .stopped => 3

def TState.num : TState → Nat
  | .free => 0 | .waiting => 1 | .ready => 2 | .claimed => 3 | .done => 4 | .failed => 5

/-- Bundle kind and dimension fields: 0 DIM, 1 FOLD, 2 OPTICAL, 3 NONE. -/
def bundleKind (b : Nat) : Nat := if b < 6 then 0 else if b = 6 then 1 else if b = 7 then 2 else 3

def bundleDim (b : Nat) : Nat := if b < 6 then b else 0

/-- Index in Table 01-2 of the port between two compute dies, lower number first. -/
def meshPort (a b : Nat) : Option Nat :=
  if a % 2 = 0 ∧ b = a + 1 then some (a / 2)
  else if b = a + 2 ∧ a < 6 then some ((if a % 2 = 0 then 4 else 7) + a / 2)
  else none

/-- Port `q` of IO`k` (18, "I/O-die windows"). -/
def ioPort (k q : Nat) : Nat :=
  if q = 0 then 10 + 2 * k else if q = 1 then 11 + 2 * k else if q = 2 then 18 + k else 18 + (k + 3) % 4

def d2d0 : D2d := { down := false, replays := 0, inRow := 0 }

def State.d2dAt (s : State) (i : Nat) : D2d := s.d2d.getD i d2d0

/-- Correctly rounded-down share of flash dies in service (`FLASH_PCT`). -/
def State.flashPct (s : State) : Nat := (128 - min 128 s.flash.failed.length) * 100 / 128

/-- 93 (15/16, R281) while a group in service serves by reconstruction, else 100 (R489). -/
def State.memPct (s : State) : Nat :=
  if s.grps.any fun g => g.recon && !g.lost && !g.outOfService then 93 else 100

/-- Lowest effective ARITH rate of any compute die, in % (R460). -/
def State.clkPct (s : State) : Nat :=
  ((s.dies.filter fun d => !d.lost).map fun d => d.pulses * 100 / 16).foldl min 100

def State.chan (s : State) (c : Nat) : Chan :=
  s.chans.getD c { trained := false, failed := false, corr := 0, rebuilt := 0, recent := [] }

/-- Local channels of a group declared failed (`CH_FAIL`). -/
def State.chFail (s : State) (g : Nat) : Nat :=
  pack ((List.range 16).map fun i => (i, 1, boolNat (s.chan (16 * g + i)).failed))

/-- Step slots in use; a step that has given its slot back has slot 16. -/
def slotsUsed (s : State) : Nat := (s.steps.filter fun t => decide (t.slot < 16)).length

/-- Tile-list entries of a die in a state; FREE counts the entries not listed (65,536 in all). -/
def Die.entries (d : Die) (t : TState) : Nat :=
  if t == .free then 65536 - d.tiles.length else (d.tiles.filter fun e => e.state == t).length

/-- Compute-die window (18). -/
def cdVal (s : State) (k o : Nat) : Nat :=
  let d := s.die k
  if o = 0 then pack [(0, 7, d.coresOk), (7, 4, if s.clk.stage < 5 then 0 else d.spares), (11, 8, d.quarantined),
    (19, 1, boolNat d.lost), (20, 5, slotsUsed s)]
  else if o = 4 then (s.sqGet (.cd k)).val
  else if 0x10 ≤ o ∧ o < 0x28 then
    d.entries ([TState.free, .waiting, .ready, .claimed, .done, .failed].getD ((o - 0x10) / 4) .free)
  else if 0x40 ≤ o ∧ o < 0x80 then (d.tiles.filter fun e => e.slot == (o - 0x40) / 4).length
  else if 0x80 ≤ o ∧ o < 0xA8 then
    [d.tlStall, d.tlStale, d.tlReclaim, d.distStale, d.ovfPairs, d.corrTile, d.csCe, d.poolCe, d.gtPass / 1000, d.tlHwErr].getD
      ((o - 0x80) / 4) 0
  else if 0x100 ≤ o ∧ o < 0x120 then
    match meshPort k ((o - 0x100) / 4) with
    | some i => boolNat (s.d2dAt i).down + 2 * ((s.d2dAt i).replays % 2 ^ 31)
    | none => 0
  else 0

def glbVal (s : State) (m : Master) (o : Nat) : Nat :=
  let b := s.master m
  if o = 0 then match s.sec.running with
    | some i => pack [(0, 16, i.patch), (16, 8, i.min), (24, 8, i.maj)]
    | none => 0
  else if o = 4 then s.now % 2 ^ 32
  else if o = 8 then b.timeHi.toNat
  else if o = 0xC then s.commitNo
  else if o = 0x14 then pack [(0, 16, b.gen), (16, 1, boolNat b.pending), (17, 1, boolNat b.rejected), (18, 1, boolNat b.busy),
    (19, 3, b.scope), (22, 4, b.reason), (26, 1, boolNat (!b.shadow.isEmpty))]
  else if o = 0x18 then pack [(0, 26, b.rejOff), (26, 5, b.rejLsb), (31, 1, boolNat b.rejValid)]
  else if o = 0x1C then pack [(0, 16, s.seqMiss), (16, 16, s.lkIgnore)]
  else if o = 0x20 then s.regFix
  else if o = 0x24 then masterNum m
  else if o = 0x30 then (s.sqGet .spill).val
  else if o = 0x34 then s.spillPool
  else if o = 0x38 then (s.objs.filter fun x => (x.pool.map (·.stalled)).getD false).length
  else if 0x100 ≤ o ∧ o < 0x300 then
    if o % 8 = 0 then s.tenQ.getD ((o - 0x100) / 8) 0 else s.tenC.getD ((o - 0x100) / 8) 0
  else 0

def mbxVal (s : State) (p : Port) (o : Nat) : Nat :=
  let x := s.port p
  if o = 0 then match x.ring with
    | some r => pack [(0, 16, r.fetch), (16, 16, r.post)]
    | none => 0
  else if o = 4 then x.nextCseq
  else if o = 8 then pack [(0, 13, s.inFlight p), (13, 1, boolNat x.ring.isSome), (14, 1, boolNat x.taken)]
  else 0

def hltVal (s : State) (o : Nat) : Nat :=
  let h := s.health
  if o = 0 then pack [(0, 2, h.state), (2, 1, boolNat h.serviceN), (3, 1, boolNat h.faultN)]
  else if o = 4 then h.cause.toNat
  else if o = 8 then pack [(0, 10, (s.dies.map Die.coresOk).foldl (· + ·) 0), (10, 5, (s.d2d.filter D2d.down).length),
    (15, 5, ((s.links.take 28).filter fun l => l.state == .failed).length), (20, 5, ((s.links.take 28).filter Link.narrow).length)]
  else if o = 0xC then pack [(0, 8, s.memPct), (8, 8, s.flashPct), (16, 8, s.clkPct)]
  else if o = 0x10 then pack (h.spare.zipIdx.map fun (v, k) => (4 * k, 4, v))
  else if o = 0x14 then (s.sqGet .hlt).val
  else if o = 0x18 then pack [(0, 8, h.ceClass.toNat), (8, 8, h.ceFirst), (16, 12, h.ceUnit)]
  else 0

def pwrVal (s : State) (o : Nat) : Nat :=
  let p := s.power
  if o = 4 then p.rackCap
  else if o = 8 then p.hostCap
  else if o = 0xC then pack [(0, 16, p.orphanCap), (16, 16, p.hbMs)]
  else if o = 0x10 then pack [(0, 16, p.bandLo), (16, 16, p.bandHi)]
  else if o = 0x14 then pack [(0, 16, p.slew), (16, 1, boolNat p.fill)]
  else if o = 0x18 then pack [(0, 16, p.floor), (16, 1, boolNat p.balEn)]
  else if o = 0x1C then pack [(0, 16, p.effCap), (16, 3, p.capSrc), (19, 1, boolNat p.held), (20, 1, boolNat p.brake)]
  else if o = 0x20 then pack [(0, 16, p.pIn), (16, 16, p.vIn)]
  else if o = 0x24 then (s.sqGet .pwr).val
  else 0

def monVal (s : State) (o : Nat) : Nat :=
  let m := s.mon
  if o = 4 then match m.hottest (List.range 864) with
    | some (i, t) => pack [(0, 12, tempField t), (12, 4, sensorDie i), (16, 7, sensorIdx i)]
    | none => 0
  else if 0x10 ≤ o ∧ o < 0x40 then
    let l := dieSensors ((o - 0x10) / 4)
    pack [(0, 12, ((m.hottest l).map fun (_, t) => tempField t).getD 0), (16, 12, tempField (m.mean l))]
  else if o = 0x40 then pack [(0, 12, tempField m.inA), (15, 1, boolNat m.inFailA), (16, 12, tempField m.inB), (31, 1, boolNat m.inFailB)]
  else if o = 0x44 then pack [(0, 12, tempField m.outA), (15, 1, boolNat m.outFailA), (16, 12, tempField m.outB), (31, 1, boolNat m.outFailB)]
  else if o = 0x48 then pack [(0, 1, boolNat m.fluid), (8, 8, m.cMin)]
  else if o = 0x4C then pack [(0, 16, m.cEst), (16, 1, boolNat m.reversed), (17, 1, boolNat m.flowLow), (18, 1, boolNat m.flowLoss),
    (19, 1, boolNat m.inletHigh), (20, 1, boolNat m.inletLow),
    (21, 1, boolNat (decide (min s.power.inletCap (min s.power.flowCap (min s.power.revCap s.power.pairCap)) < 4400)))]
  else if o = 0x50 then (s.sqGet .mon).val
  else if o = 0x60 then
    let lost := (railAll.map s.railLost).foldl (· + ·) 0
    let spare := (railAll.map fun r => railSpares r - s.railLost r).foldl min 2
    pack [(0, 8, min lost 255), (8, 4, spare)]
  else if 0x100 ≤ o ∧ o < 0x130 then m.droop.getD ((o - 0x100) / 4) 0
  else if 0x140 ≤ o ∧ o < 0x170 then m.proc.getD ((o - 0x140) / 4) 0
  else if 0x1000 ≤ o ∧ o < 0x1000 + 4 * 864 then
    let i := (o - 0x1000) / 4
    pack [(0, 12, tempField (m.reading i)), (15, 1, boolNat (m.fail.contains i))]
  else 0

def clkVal (s : State) (o : Nat) : Nat :=
  let c := s.clk
  if o = 4 then pack [(0, 12, c.pllLock.toNat), (12, 1, boolNat c.refOk), (13, 3, c.stage), (16, 1, boolNat c.image)]
  else if o = 8 then pack ([(8, 1, boolNat c.flsRst), (9, 3, c.cause), (16, 16, c.bootT)] ++
    (s.dies.zipIdx.map fun (d, k) => (k, 1, boolNat d.inReset)))
  else if o = 0xC then (s.sqGet .clk).val
  else if 0x100 ≤ o ∧ o < 0x120 then (s.die ((o - 0x100) / 4)).pulses
  else 0

def snapVal (s : State) (m : Master) (o : Nat) : Nat :=
  let n := s.snap
  if o = 0 then pack [(2, 1, boolNat n.prop)]
  else if o = 4 then pack [(0, 1, boolNat n.armed), (1, 1, boolNat n.valid), (2, 4, n.src.toNat), (6, 7, n.fclass.toNat), (13, 6, n.origin)]
  else if o = 8 then n.capNo
  else if o = 0xC then n.time % 2 ^ 32
  else if o = 0x10 then n.time / 2 ^ 32 % 2 ^ 32
  else if o = 0x14 then n.faultEn.toNat
  else if o = 0x18 then pack [(0, 16, n.missed), (16, 16, n.fwd)]
  else if 0x100 ≤ o ∧ o < 0x180 then
    let b := s.master m
    ((if o % 8 = 0 then b.selLo else b.selHi).getD ((o - 0x100) / 8) 0).toNat
  else 0

/-- The SEC block, as a privileged master reads it. -/
def secVal (s : State) (o : Nat) : Nat :=
  let c := s.sec
  if o = 0 then pack [(0, 1, boolNat s.clk.image), (1, 1, (c.running.map (·.keySlot)).getD 0), (2, 1, boolNat c.aOk),
    (3, 1, boolNat c.bOk), (4, 1, boolNat c.upd.isSome), (5, 8, (c.running.map (·.svn)).getD 0), (13, 8, c.svn), (21, 4, c.revoked.toNat)]
  else if o = 4 then pack [(0, 1, boolNat c.manEnf), (31, 1, boolNat c.lock)]
  else if 0x10 ≤ o ∧ o < 0x30 then (c.alData.getD ((o - 0x10) / 4) 0).toNat
  else if o = 0x30 then pack [(0, 9, c.palAl.length), (9, 9, c.manAl.length), (18, 1, boolNat c.full)]
  else if o = 0x34 then pack [(0, 13, c.log.length), (13, 19, c.logLost)]
  else if o = 0x38 then (s.sqGet .sec).val
  else 0

def pciVal (s : State) (p : Port) (o : Nat) : Nat :=
  let x := s.port p
  if o = 4 then pack [(0, 1, boolNat x.linkUp), (1, 3, x.rate), (4, 5, x.width), (9, 1, boolNat x.flit), (10, 1, boolNat x.reversed),
    (11, 2, x.ide), (13, 1, boolNat x.down), (14, 1, boolNat x.d3)]
  else if o = 8 then (s.sqGet (.pci p)).val
  else if o = 0xC then x.winBase % 2 ^ 32 / 2 ^ 30 * 2 ^ 30
  else if o = 0x10 then x.winBase / 2 ^ 32 % 2 ^ 16
  else if o = 0x14 then pack [(0, 16, x.wrDrop), (16, 16, x.rdOnes)]
  else if o = 0x18 then pack [(0, 16, x.held.length), (16, 16, x.cplDrop)]
  else 0

def lnkVal (s : State) (i o : Nat) : Nat :=
  let l := s.link i
  let pe := l.peer
  if o = 4 then pack [(0, 1, boolNat l.en), (31, 1, boolNat l.lock)]
  else if o = 8 then pack [(0, 3, l.state.num), (3, 1, boolNat l.narrow), (4, 1, boolNat l.reversed), (5, 1, boolNat pe.isSome),
    (6, 2, if l.state == .waitCoord then 0 else bundleKind l.bundle), (8, 8, l.lanes), (16, 6, (pe.map (·.coord)).getD 0), (22, 5, (pe.map (·.link)).getD 0),
    (27, 3, if l.state == .waitCoord then 0 else bundleDim l.bundle)]
  else if o = 0xC then (s.sqGet (.lnk i)).val
  else if o = 0x10 then l.pol % 256
  else if o = 0x14 then l.replays
  else if o = 0x18 then pack [(0, 16, l.corr), (16, 16, l.uncorr)]
  else if o = 0x1C then pack [(0, 16, l.foreignCnt), (16, 16, l.dupCnt)]
  else 0

/-- `RTE_SLC_STS` of a held slice. -/
def Slice.sts (x : Slice) : Nat :=
  pack [(0, 2, x.state.num), (2, 1, x.rbank), (3, 1, x.pbank), (4, 6, x.member), (10, 6, x.master), (16, 16, x.tag)]

/-- `RTE_SLC_GEN` of a held slice. -/
def Slice.genVal (x : Slice) : Nat := ((x.rt.getD x.rbank none).map (·.rgen)).getD 0

def rteVal (s : State) (m : Master) (o : Nat) : Nat :=
  let c := s.coord
  if o = 4 then if masterPriv m then pack [(0, 6, c.coordW), (8, 6, c.coordN), (14, 3, c.dimsW), (31, 1, boolNat c.lock)] else 0
  else if o = 8 then if masterPriv m then c.rack else 0
  else if o = 0xC then pack [(0, 6, c.coord), (6, 1, boolNat c.valid), (7, 3, c.dims),
    (10, 4, (s.slices.filter fun x => x.state == .joined).length), (14, 5, s.router.transit.length)]
  else if o = 0x10 then (s.sqGet .rte).val
  else if o = 0x14 then pack [(0, 16, s.router.maskDrop), (16, 16, s.router.foreignDrop)]
  else if 0x100 ≤ o ∧ o < 0x180 then
    let x := s.slc ((o - 0x100) / 16)
    if o % 16 = 0 then (if x.state == .free then x.keptSts else x.sts)
    else if o % 16 = 4 then (if x.state == .free then x.keptGen else x.genVal)
    else if o % 16 = 8 then pack [(0, 6, x.stopCoord), (8, 4, x.stopCause)]
    else 0
  else 0

/-- One spill extent of 64 KiB in the units of the bucket. -/
def bucketExt : Nat := 86400 * 105000000

/-- Content of the spill bucket now, in 64 KiB / (86,400 × 105,000,000): it fills at `QUOTA` GiB per 24 h and holds no more (R318). -/
def State.bucketNow (s : State) : Nat :=
  let f := s.flash
  min (f.bucket + f.quota * 16384 * (s.now - f.bucketAt)) (f.quota * 16384 * bucketExt)

def flsVal (s : State) (o : Nat) : Nat :=
  let f := s.flash
  if o = 0x10 then pack [(0, 16, f.spillGib), (16, 8, f.bgPct)]
  else if o = 0x14 then f.quota
  else if o = 0x18 then if f.ready then s.bucketNow / (16384 * bucketExt) else 0
  else if o = 0x20 then pack [(0, 10, if f.ready then f.spareBlocks * 1000 / 524288 else 0), (16, 1, boolNat f.ready),
    (17, 1, boolNat f.readonly), (18, 1, boolNat f.rebuild), (19, 1, boolNat f.unitLost), (20, 8, f.failed.length)]
  else if o = 0x24 then (s.sqGet .fls).val
  else if o = 0x28 then
    let u := f.blocks.filter (·.used)
    pack [(0, 16, if u.isEmpty then 0 else (u.map (·.erases)).foldl (· + ·) 0 / u.length), (16, 16, (u.map (·.erases)).foldl max 0)]
  else if o = 0x2C then pack [(0, 8, f.temps.foldl max 0), (8, 8, f.temps.foldl (· + ·) 0 / 16)]
  else 0

/-- The value that the module's state gives the register at an aligned BAR0 offset below the apertures; an offset without a
register reads zero (R419). -/
def regTrue (s : State) (m : Master) (off : Nat) : Nat :=
  if off < 0x10000 then glbVal s m off
  else if off < 0x20000 then (if off < 0x10100 then mbxVal s .a (off - 0x10000) else if off < 0x10200 then mbxVal s .b (off - 0x10100) else 0)
  else if off < 0x30000 then hltVal s (off - 0x20000)
  else if off < 0x40000 then
    let o := off - 0x30000
    if (o = 4 ∨ o = 0xC ∨ o = 0x18) ∧ masterPriv m = false then 0 else pwrVal s o
  else match pwAt off with
  | some b =>
    let o := off - pwBase b
    if o = 0 then accVal (s.accOf m b)
    else match b with
      | .mon => monVal s o
      | .clk => clkVal s o
      | .pci p => pciVal s p o
      | .lnk i => lnkVal s i o
      | .rte => rteVal s m o
      | .fls => flsVal s o
  | none =>
    if 0x60000 ≤ off ∧ off < 0x70000 then snapVal s m (off - 0x60000)
    else if 0x70000 ≤ off ∧ off < 0x80000 then (if masterPriv m then secVal s (off - 0x70000) else 0)
    else if 0x200000 ≤ off ∧ off < 0x240000 then
      let c := (off - 0x200000) / 0x400
      let o := off % 0x400
      let ch := s.chan c
      if o = 4 then pack [(0, 16, ch.corr), (16, 16, ch.rebuilt)]
      else if o = 8 then pack [(0, 1, boolNat ch.trained), (1, 1, boolNat ch.failed), (2, 1, boolNat (decide (0 < (s.grp (c / 16)).parityErr)))]
      else 0
    else if 0x240000 ≤ off ∧ off < 0x241000 then
      let g := (off - 0x240000) / 0x100
      let o := off % 0x100
      if o = 0 then (s.grp g).protGib
      else if o = 4 then pack [(0, 16, s.chFail g), (16, 1, boolNat (s.grp g).recon), (17, 1, boolNat (s.grp g).lost)]
      else 0
    else if 0x400000 ≤ off ∧ off < 0x800000 then
      let k := (off - 0x400000) / 0x80000
      let o := off % 0x80000
      if 0x40000 ≤ o then ((assocGet s.snap.image (off - 0x40000)).getD 0).toNat else cdVal s k o
    else if 0x800000 ≤ off ∧ off < 0x900000 then
      let k := (off - 0x800000) / 0x40000
      let o := off % 0x40000
      if o = 0 then pack ((List.range 4).map fun q => (q, 1, boolNat (s.d2dAt (ioPort k q)).down))
      else if 0x10 ≤ o ∧ o < 0x20 then (s.d2dAt (ioPort k ((o - 0x10) / 4))).replays % 2 ^ 32
      else 0
    else 0

/-- The value a master reads: what an upset has left in the register until it is scrubbed (R423), else its true value. -/
def regVal (s : State) (m : Master) (off : Nat) : Nat := ((assocGet s.upsets off).map BitVec.toNat).getD (regTrue s m off)

/-- Every BAR0 offset that holds a register. -/
def regOffsets : List Nat :=
  let w (base step n : Nat) (os : List Nat) : List Nat := (List.range n).flatMap fun k => os.map fun o => base + step * k + o
  [0, 4, 8, 0xC, 0x14, 0x18, 0x1C, 0x20, 0x24, 0x30, 0x34, 0x38] ++ w 0x100 4 128 [0] ++ w 0x10000 0x100 2 [0, 4, 8] ++
  w 0x20000 4 7 [0] ++ w 0x30000 4 9 [4] ++
  [0x40000, 0x40004] ++ w 0x40010 4 12 [0] ++ [0x40040, 0x40044, 0x40048, 0x4004C, 0x40050, 0x40060] ++ w 0x40100 4 12 [0, 0x40] ++
  w 0x41000 4 864 [0] ++ w 0x50000 4 4 [0] ++ w 0x50100 4 8 [0] ++ w 0x60000 4 7 [0] ++ w 0x60100 4 32 [0] ++
  [0x70000, 0x70004] ++ w 0x70010 4 8 [0] ++ [0x70030, 0x70034, 0x70038] ++ w 0x80000 0x1000 2 [0, 4, 8, 0xC, 0x10, 0x14, 0x18] ++
  w 0x100000 0x1000 30 [0, 4, 8, 0xC, 0x10, 0x14, 0x18, 0x1C] ++ w 0x140000 4 6 [0] ++ w 0x140100 0x10 8 [0, 4, 8] ++
  w 0x200000 0x400 256 [4, 8] ++ w 0x240000 0x100 16 [0, 4] ++
  [0x300000, 0x300010, 0x300014, 0x300018, 0x300020, 0x300024, 0x300028, 0x30002C] ++
  w 0x400000 0x80000 8 ([0, 4] ++ (List.range 6).map (0x10 + 4 * ·) ++ (List.range 16).map (0x40 + 4 * ·) ++
    (List.range 10).map (0x80 + 4 * ·) ++ (List.range 8).map (0x100 + 4 * ·)) ++
  w 0x800000 0x40000 4 [0, 0x10, 0x14, 0x18, 0x1C]

/-! ## Generations (R430 to R434) -/

/-- Scope of a BF register (Table 18-3), and which of the scopes of that code. -/
def scopeOf (off : Nat) : Option (Nat × Nat) :=
  if off = 0x8000C ∨ off = 0x80010 then some (1, 0)
  else if off = 0x8100C ∨ off = 0x81010 then some (1, 1)
  else if 0x240000 ≤ off ∧ off < 0x241000 ∧ off % 0x100 = 0 then some (2, 0)
  else if off = 0x300010 ∨ off = 0x300014 then some (3, 0)
  else if 0x100 ≤ off ∧ off < 0x300 ∧ off % 8 = 0 then some (4, 0)
  else if off = 0x30010 ∨ off = 0x30014 then some (5, 0)
  else none

/-- Write the fields of one BF register as active values. -/
def State.activate (s : State) (w : ShadowW) : State :=
  let v := w.val.toNat
  let off := w.off
  let win (p : Port) (hi : Bool) : State := s.modPort p fun x => { x with
    winBase := if hi then v % 65536 * 2 ^ 32 + x.winBase % 2 ^ 32 else x.winBase / 2 ^ 32 * 2 ^ 32 + bitsOf v 31 30 * 2 ^ 30 }
  if off = 0x8000C then win .a false
  else if off = 0x80010 then win .a true
  else if off = 0x8100C then win .b false
  else if off = 0x81010 then win .b true
  else if 0x240000 ≤ off ∧ off < 0x241000 then (s.divide ((off - 0x240000) / 0x100) (v % 16)).mendSys
  else if off = 0x300010 then s.modFlash fun f => { f with spillGib := v % 65536, bgPct := bitsOf v 23 16 }
  else if off = 0x300014 then
    let now := s.bucketNow
    let q := v % 65536
    s.modFlash fun f => { f with quota := q, bucket := min now (q * 16384 * bucketExt), bucketAt := s.now }
  else if 0x100 ≤ off ∧ off < 0x300 then { s with tenQ := s.tenQ.set ((off - 0x100) / 8) (v % 2 ^ 20) }
  else if off = 0x30010 then s.modPower fun p => { p with bandLo := v % 65536, bandHi := bitsOf v 31 16 }
  else if off = 0x30014 then s.modPower fun p => { p with slew := v % 65536, fill := bitOf v 16 }
  else s

/-- Every field of a master's checked generation becomes active in one action; `GEN` rises and `PENDING` clears (R431). -/
def State.applyGen (s : State) (m : Master) : State :=
  let b := s.master m
  match b.taken with
  | some l =>
    if b.pending && b.checked then
      (l.foldl State.activate s).modMaster m fun b => { b with taken := none, pending := false, checked := false, gen := (b.gen + 1) % 65536 }
    else s
  | none => s

def masterAll : List Master := [.portA, .portB, .sideband, .easel]

/-- Insert into a list that `le` sorts, before the elements that come after it. -/
def insertLe {α : Type} (le : α → α → Bool) (x : α) : List α → List α
  | [] => [x]
  | y :: t => if le x y then x :: y :: t else y :: insertLe le x t

/-- A list in the order of `le`; equal elements keep their order. -/
def sortLe {α : Type} (le : α → α → Bool) : List α → List α
  | [] => []
  | x :: t => insertLe le x (sortLe le t)

/-- The masters in the order of their GO writes. -/
def State.goOrder (s : State) : List Master := sortLe (fun a b => decide ((s.master a).goSeq ≤ (s.master b).goSeq)) masterAll

/-- Scope code and number of a master's checked generation. -/
def State.genScope (s : State) (m : Master) : Option (Nat × Nat) :=
  let b := s.master m
  if b.pending && b.checked then b.taken.bind fun l => l.head?.bind fun w => scopeOf w.off else none

/-- A change of turn is the boundary of every checked generation of quanta (Table 18-3), in the order of their GO writes. -/
def State.applyQuanta (s : State) : State :=
  (s.goOrder.filter fun m => s.genScope m == some (4, 0)).foldl State.applyGen s

end Sys2Proof.Machine
end

