-- ==== Sys2Proof/Machine/Fabric.lean ====
section
/-! DEFINITION. Slice membership, bundles and neighbours (R16, R355, R356, R366, R367), the slice digest (R375), and
Still captures (R448 to R452), which other families trigger. -/

namespace Sys2Proof.Machine

open Sys2Proof

/-! ## Members -/

/-- A coordinate lies in a slice's subcubes (R366). -/
def Slice.holds (x : Slice) (c : Nat) : Bool :=
  (c &&& x.fix0) == x.base0 || (x.union && (c &&& x.fix1) == x.base1)

/-- Coordinates of the members in ascending order, within a rack of 2^dims modules; the rank is the member index (R367). -/
def Slice.members (x : Slice) (dims : Nat) : List Nat := (List.range (2 ^ min dims 6)).filter x.holds

def State.members (s : State) (h : Nat) : List Nat := (s.slc h).members s.coord.dims

/-- Coordinate of a member index of a slice. -/
def State.memberCoord (s : State) (h i : Nat) : Nat := (s.members h).getD i 0

/-- This module is the slice's master. -/
def Slice.isMaster (x : Slice) : Bool := x.member == x.master

/-- The JOINED slice that holds a tag. -/
def State.sliceOfTag (s : State) (tag : Nat) : Option Nat :=
  (s.slices.zipIdx.find? fun (x, _) => x.tag == tag && (x.state == .joined || x.state == .joining)).map (·.2)

/-! ## Bundles -/

/-- UP links of a bundle in ascending index. -/
def State.upLinks (s : State) (b : Nat) : List Nat :=
  (List.range 28).filter fun i => (s.link i).bundle == b && (s.link i).state == .up

/-- The coordinate that a bundle reaches: D0 to D5, or the fold (R10). -/
def State.bundlePeer (s : State) (b : Nat) : Nat :=
  if b < 6 then s.coord.coord ^^^ 2 ^ b else s.coord.coord ^^^ s.coord.foldMask

/-- Members of a slice that are this module's neighbours over an UP bundle, each once, in bundle order. -/
def State.neighbours (s : State) (h : Nat) : List Nat :=
  let ms := s.members h
  ((List.range 7).filter fun b => !(s.upLinks b).isEmpty).foldl
    (fun l b => let c := s.bundlePeer b
                if ms.contains c && c != s.coord.coord then addNew l c else l) []

/-- The dimension-order next hop from `own` to `dst`: the lowest differing bit (R369). -/
def dimHop (own dst : Nat) : Option Nat := (List.range 6).find? fun d => bitOf (own ^^^ dst) d

/-- Bundles that a slice's routes leave this module on: those that its active routing table names, and the
dimension-order hop of transit packets (R359, R378). -/
def State.routeBundles (s : State) (h : Nat) : List Nat :=
  let x := s.slc h
  if x.state == .joined || x.state == .joining then
    (x.rt.filterMap id).foldl (fun l t => (t.next.filter fun b => b < 7).foldl addNew l) []
  else []

/-- Some slice held on the module routes over a bundle. -/
def State.routed (s : State) (b : Nat) : Bool := (List.range 8).any fun h => (s.routeBundles h).contains b

/-- The bundle lost a link or returns one: a slice that routes over it is joined (R359). -/
def State.routedLink (s : State) (i : Nat) : Bool := s.routed (s.link i).bundle

/-! ## Slice digest (R375) -/

/-- Each item at the width of its command field (DEDUCED, log entry 20). -/
def State.sliceDigest (s : State) (x : Slice) (rgen pgen : Nat) : List Byte :=
  let fw := s.sec.running
  let b (n : Nat) : List Byte := leBytes 1 n
  shake256 (b ((fw.map (·.maj)).getD 0) ++ b ((fw.map (·.min)).getD 0) ++ leBytes 2 x.tag ++ b x.base0 ++ b x.fix0 ++
    b (boolNat x.union) ++ b x.base1 ++ b x.fix1 ++ b (boolNat x.transit) ++ b x.master ++ b x.width ++ b s.coord.dims ++
    b s.coord.foldMask ++ leBytes 4 x.startWait ++ leBytes 4 x.barrierWait ++ leBytes 4 x.joinWait ++
    ((List.range 7).flatMap fun i =>
      if x.palset.getD i 0 = 0 then List.replicate 33 0 else b (x.palset.getD i 0) ++ padTo 32 (x.palDig.getD i [])) ++
    padTo 32 x.manHdr ++ leBytes 4 rgen ++ leBytes 4 pgen)

/-- Generations of a slice's banks: routing and placement, 0 for a table never loaded. -/
def Slice.rgenOf (x : Slice) (b : Nat) : Nat := ((x.rt.getD b none).map (·.rgen)).getD 0

def Slice.pgenOf (x : Slice) (b : Nat) : Nat := ((x.pt.getD b none).map (·.gen)).getD 0

/-- The digest outside a step: the active generations. -/
def State.activeDigest (s : State) (x : Slice) : List Byte := s.sliceDigest x (x.rgenOf x.rbank) (x.pgenOf x.pbank)

/-! ## Still -/

/-- Bytes 0 to 31 of aperture 0 (Table 19-1, INDEX). -/
def State.indexBytes (s : State) : List Byte :=
  leBytes 8 s.sec.serial.toNat ++ leBytes 4 s.commitNo ++ leBytes 1 (boolNat s.applying) ++ leBytes 3 0 ++ leBytes 8 s.now ++
  leBytes 1 s.health.state ++ leBytes 1 (s.coord.coord + 64 * boolNat s.coord.valid) ++ leBytes 6 0

/-- The 64 bytes of step slot `j` on a die (aperture 10). -/
def State.slotBytes (s : State) (k j : Nat) : List Byte :=
  match s.stepAt j with
  | some t => padTo 64 (leBytes 8 t.id ++ leBytes 1 t.run ++ leBytes 1 t.slice ++
      leBytes 2 ((s.die k).tiles.filter fun e => e.slot == j).length)
  | none => List.replicate 64 0

/-- Bytes as (offset, word) pairs of an image, zero words left out. -/
def imageWords (base : Nat) (b : List Byte) : List (Nat × W32) :=
  ((chunks 4 b.length b).zipIdx.map fun (w, i) => (base + 4 * i, BitVec.ofNat 32 (ofLe w))).filter fun p => p.2 != 0

/-- What a capture copies: every register as the Easel reads it, INDEX, and each die's step slots (R448). -/
def State.stillImage (s : State) : List (Nat × W32) :=
  ((regOffsets.map fun o => (o, BitVec.ofNat 32 (regVal s .easel o))).filter fun p => p.2 != 0) ++
  imageWords 0x1000000 s.indexBytes ++
  (List.range 8).flatMap fun k => imageWords (0x1001000 + 1024 * k) ((List.range 16).flatMap fun j => s.slotBytes k j)

/-- Send a Still token into every JOINED slice, to each neighbour within it (R452). -/
def State.sendStill (s : State) (origin capNo : Nat) : State :=
  (List.range 8).foldl (fun s h =>
    if (s.slc h).state == .joined then
      s.emits ((s.neighbours h).map fun c => .still c (s.slc h).tag origin capNo)
    else s) s

/-- Keep the last 64 pairs of origin and CAPNO. -/
def keepPair (l : List (Nat × Nat)) (p : Nat × Nat) : List (Nat × Nat) :=
  let l := l ++ [p]
  l.drop (l.length - 64)

/-- A capture (R448, R449): the image, CAPNO, VALID, the sources; `STILL_OUT` falls (R450). -/
def State.capture (s : State) (src : Nat) (fclass : BitVec 7) (origin : Nat) : State :=
  let img := s.stillImage
  s.modSnap fun n => { n with
    armed := false, valid := true, src := BitVec.ofNat 4 (2 ^ src), fclass := fclass, origin := origin,
    capNo := (n.capNo + 1) % 2 ^ 32, time := s.now, image := img, stillOutLow := true }

/-- A trigger: captures when armed, else is missed (R451). Sources: 0 register, 1 `STILL_IN`, 2 fault, 3 token. A local
capture sends tokens when `PROP` is 1 (R452). -/
def State.trigger (s : State) (src : Nat) (fclass : BitVec 7) : State :=
  if s.snap.armed then
    let s := s.capture src fclass s.coord.coord
    if s.snap.prop then
      (s.modSnap fun n => { n with pairs := keepPair n.pairs (s.coord.coord, n.capNo) }).sendStill s.coord.coord s.snap.capNo
    else s
  else s.modSnap fun n => { n with missed := satAdd 16 n.missed 1 }

/-- A fault class of SNAP_FAULT_EN is detected: 0 core lost, 1 ground truth, 2 channel, 3 link, 4 job stop, 5 re-run,
6 brake (R449). One that comes within the SLOW cycle of a capture by fault may fall in that capture's FABRIC cycle, which is left free: it
is then one more class of the same capture. -/
def State.faultTrigger (s : State) (cls : Nat) : State :=
  let bit := BitVec.ofNat 7 (2 ^ cls)
  if !s.snap.faultEn.getLsbD cls then s
  else if !s.snap.armed && s.snap.valid && s.snap.time == s.now && s.snap.src.getLsbD 2 then
    let (v, s) := s.draw
    if v % 2 = 1 then s.modSnap fun n => { n with fclass := n.fclass ||| bit } else s.trigger 2 bit
  else s.trigger 2 bit

end Sys2Proof.Machine
end

