-- ==== Sys2Proof/Machine/Package.lean ====
section
/-! DEFINITION. The package (spec/01_module_organisation.md): where the parts sit, the paths of package traffic and the way round a port
that is down (R13 to R21), the links of a bundle (R356), and what a message takes with it: its class and its route. -/

namespace Sys2Proof.Machine

open Sys2Proof

/-! ## Places (R13 to R16)

A die of the module is numbered 0 to 7 for CD0 to CD7 and 8 to 11 for IO0 to IO3. -/

/-- The quadrant of a die. -/
def dieQuad (d : Nat) : Nat := if d < 8 then d / 2 else d - 8

/-- The I/O die of a Chanex link or an optical port (R16, Table 01-1). -/
def linkIo (i : Nat) : Nat := if i < 28 then i / 7 else if i = 28 then 1 else 3

/-- The I/O die of a host port. -/
def portIo : Port → Nat
  | .a => 0
  | .b => 2

/-- The I/O die that holds the controller of NAND channel `m` (R15). -/
def nandIo (m : Nat) : Nat := m / 4

/-- I/O dies on which the translation layer runs (R15). -/
def ftlIo : List Nat := [0, 2]

/-! ## Ports and paths (Table 01-2, R20) -/

/-- Index in Table 01-2 of the port between two dies. -/
def d2dPort (a b : Nat) : Option Nat :=
  let lo := min a b
  let hi := max a b
  if hi < 8 then meshPort lo hi
  else if lo < 8 then (if lo / 2 = hi - 8 then some (10 + lo) else none)
  else if hi = lo + 1 then some (10 + lo) else if lo = 8 ∧ hi = 11 then some 21 else none

/-- Between two compute dies: along the row to the target's column, then within the column. -/
def meshPath (a b : Nat) : List Nat :=
  let ca := a / 2
  let cb := b / 2
  let cols := (List.range (max ca cb - min ca cb + 1)).map fun i => if ca ≤ cb then ca + i else ca - i
  (cols.map fun c => 2 * c + a % 2) ++ (if a % 2 = b % 2 then [] else [b])

/-- From a compute die to IO`n`. -/
def toIo (a n : Nat) : List Nat := meshPath a (2 * n + a % 2) ++ [8 + n]

/-- Between two I/O dies round the ring the shorter way; opposite ones through the next higher index. -/
def ringPath (i j : Nat) : List Nat :=
  (List.range (match (j + 4 - i) % 4 with
    | 0 => 1
    | 1 => 2
    | 2 => 3
    | _ => 0)).map (fun k => 8 + (i + k) % 4) ++ (if (j + 4 - i) % 4 = 3 then [8 + i, 8 + j] else [])

/-- The path of R20 as the dies it passes, both ends included. -/
def path0 (a b : Nat) : List Nat :=
  if a < 8 then (if b < 8 then meshPath a b else toIo a (b - 8))
  else if b < 8 then (toIo b (a - 8)).reverse
  else ringPath (a - 8) (b - 8)

/-- The port between two dies is there and not marked down. -/
def State.portUp (s : State) (a b : Nat) : Bool := ((d2dPort a b).map fun i => !(s.d2dAt i).down).getD false

/-- Every port of a path is up. -/
def State.pathUp (s : State) : List Nat → Bool
  | a :: b :: t => s.portUp a b && s.pathUp (b :: t)
  | _ => true

/-- The paths of `n` hops from a die over ports that are up, without a die twice; each newest die first. -/
def State.walks (s : State) (a : Nat) : Nat → List (List Nat)
  | 0 => [[a]]
  | n + 1 => (s.walks a n).flatMap fun p =>
      ((List.range 12).filter fun d => !p.contains d && s.portUp (p.headD 0) d).map fun d => d :: p

/-- A path starts on the ring, or within a column. -/
def onRing : List Nat → Bool
  | a :: b :: _ => decide (8 ≤ a) && decide (8 ≤ b)
  | _ => false

def inColumn : List Nat → Bool
  | a :: b :: _ => decide (a < 8) && decide (b < 8) && a / 2 == b / 2
  | _ => false

/-- R21: the alternative with the fewest hops that avoids every down port; of equals the one that starts on the ring, else within a column.
DESIGN CHOICE (log entry 133): of what remains the one through the lowest dies. -/
def State.detour (s : State) (a b : Nat) : Option (List Nat) :=
  (List.range 12).findSome? fun n =>
    let l := (s.walks a n).filterMap fun p => if p.head? == some b then some p.reverse else none
    match l.find? onRing, l.find? inColumn with
    | some p, _ => some p
    | none, some p => some p
    | none, none => l.head?

/-- The path of package traffic between two dies; none left: empty. -/
def State.pkgPath (s : State) (a b : Nat) : List Nat := if s.pathUp (path0 a b) then path0 a b else (s.detour a b).getD []

/-! ## Bundles and routes (R356, R370) -/

/-- Links of a bundle that carry its packets: UP, or in a fast retrain, which holds them (R357). -/
def State.liveLinks (s : State) (b : Nat) : List Nat :=
  (List.range 28).filter fun i => (s.link i).bundle == b && ((s.link i).state == .up || (s.link i).state == .retrain)

/-- The link of a bundle that a packet takes. -/
def State.linkFor (s : State) (b srcGsn dstGdn : Nat) : Option Nat :=
  let l := s.liveLinks b
  l[(srcGsn + dstGdn) % l.length]?

/-- The way of a message of a slice from a die of the module to a die of the module at a coordinate, in a routing bank: over the package to
that die, or to the I/O die of the link on which the slice's routing table lets it leave. -/
def State.routeTo (s : State) (h bank cls src srcGsn coord dstGdn dst : Nat) : Route :=
  if coord = s.coord.coord then { cls := cls, path := s.pkgPath src dst, link := none }
  else
    let b := ((s.slc h).rt.getD bank none).map fun t => t.next.getD coord 0xF
    match b.bind fun b => s.linkFor b srcGsn dstGdn with
    | some i => { cls := cls, path := s.pkgPath src (8 + linkIo i), link := some i }
    | none => { cls := cls, path := [], link := none }

/-! ## Messages within the module (R22, R202) -/

/-- A message arrives on a die. One that this module's dies sent is taken from the package in the order sent from its die to the
receiver, once; any other comes over a link. None: no such message is there. -/
def State.arrives (s : State) (remote : Bool) (m : NocMsg) : Option State :=
  match s.noc.find? fun x => { x with src := 0 } == { m with src := 0 } with
  | some x => if (s.noc.find? fun y => y.src == x.src && y.dst == x.dst) == some x then some { s with noc := s.noc.erase x } else none
  | none => if remote then some s else none

end Sys2Proof.Machine
end

