-- ==== Sys2Proof/Machine/Flash.lean ====
section
/-! DEFINITION. The flash tier's log (spec/12_flash_tier.md): blocks and their history, stripes with parity, the translation map of
flash copies, spill extents, and what a read of the log counts and suspends. -/

namespace Sys2Proof.Machine

open Sys2Proof

/-! ## Geometry (R15, R301) -/

/-- The package, and so the channel, of a NAND die. -/
def pkgOf (die : Nat) : Nat := die / 8

/-- A block of the module (Table 12-1). -/
def nandBlock (die block : Nat) : Bool := decide (die < 128) && decide (block < 4096)

/-! ## Block history (R311 to R313, R316, R317) -/

def block0 (d b : Nat) : NBlock :=
  { die := d, block := b, reads := 0, age := 0, erases := 0, due := false, urgent := false, used := false, bad := false }

/-- A block's history; blocks not listed have none. -/
def Flash.blockOf (f : Flash) (d b : Nat) : NBlock := (f.blocks.find? fun k => k.die == d && k.block == b).getD (block0 d b)

/-- Change a block's history, listing the block first. -/
def State.modBlock (s : State) (d b : Nat) (f : NBlock → NBlock) : State :=
  s.modFlash fun x =>
    let l := if x.blocks.any fun k => k.die == d && k.block == b then x.blocks else x.blocks ++ [block0 d b]
    { x with blocks := l.map fun k => if k.die == d && k.block == b then f k else k }

/-- Refresh limit of a block in equivalent minutes (R312). -/
def NBlock.limit (k : NBlock) : Nat := (if 1500 < k.erases then 2000 else 4000) * 60

/-- What the counts make of a block: due, urgent (R311, R312). -/
def NBlock.judge (k : NBlock) : NBlock :=
  { k with due := k.due || decide (4000000 ≤ k.reads) || decide (k.limit ≤ k.age),
           urgent := k.urgent || decide (5000000 ≤ k.reads) || decide (5 * k.limit ≤ 4 * k.age) }

/-- Beyond the marks of R317. -/
def NBlock.late (k : NBlock) : Bool := decide (3 * k.limit < 2 * k.age) || decide (6000000 < k.reads)

/-- Count against a block of the module and judge it; `REFRESH_LATE` when it passes the marks of R317. -/
def State.countBlock (s : State) (d b : Nat) (f : NBlock → NBlock) : State :=
  if nandBlock d b then
    let was := (s.flash.blockOf d b).late
    let s := s.modBlock d b fun k => (f k).judge
    s.raiseIf (!was && (s.flash.blockOf d b).late) .fls 6
  else s

/-! ## Programs and erases (R302, R303) -/

/-- A program or erase runs on a die; the programs of one write on one die count as one operation. -/
def Flash.startOp (f : Flash) (d : Nat) : Flash :=
  if f.busy.any fun o => o.die == d then f else { f with busy := f.busy ++ [{ die := d, suspends := 0 }] }

/-- No program or erase runs on a die any more. -/
def Flash.endOp (f : Flash) (d : Nat) : Flash := { f with busy := f.busy.filter fun o => o.die != d }

/-- A demand read of a die suspends its program or erase; after four suspends the read waits, so that the operation has ended when the
read is served (R303). -/
def Flash.suspend (f : Flash) (d : Nat) : Flash :=
  { f with busy := f.busy.filterMap fun o =>
      if o.die = d then (if o.suspends < 4 then some { o with suspends := o.suspends + 1 } else none) else some o }

/-! ## The log (R304, R316) -/

/-- Channels with a working die. -/
def Flash.chans (f : Flash) : List Nat :=
  (List.range 16).filter fun c => (List.range 8).any fun j => !f.failed.contains (8 * c + j)

/-- A block of a channel that was never programmed, the `v`-th by the FTL's own order. -/
def Flash.freshBlock (f : Flash) (c v : Nat) : Option (Nat × Nat) :=
  ((List.range 32768).map fun i => (8 * c + (v + i) % 8, (v + i) / 8 % 4096)).find? fun x =>
    !f.failed.contains x.1 && !f.blocks.any fun k => k.die == x.1 && k.block == x.2

/-- The block that the log opens next on a channel: a free one with the fewest erase cycles (R316); which of those the FTL decides. -/
def State.nextBlock (s : State) (c : Nat) : Option (Nat × Nat) × State :=
  let free := s.flash.blocks.filter fun k => pkgOf k.die == c && !k.used && !k.bad && !s.flash.failed.contains k.die
  let least := (free.map (·.erases)).foldl min (2 ^ 64)
  let old := (free.filter fun k => k.erases == least).map fun k => (k.die, k.block)
  let (v, s) := s.draw
  if least = 0 && v % 2 = 1 then s.choose old
  else match s.flash.freshBlock c (v / 2) with
  | some b => (some b, s)
  | none => s.choose old

/-- When erase counts of blocks in use differ by more than 256, the data of the least-erased is to move into the log (R316). -/
def Flash.level (f : Flash) : Flash :=
  let used := f.blocks.filter (·.used)
  let low := (used.map (·.erases)).foldl min (2 ^ 64)
  if used.any fun k => decide (low + 256 < k.erases) then
    { f with blocks := f.blocks.map fun k => if k.used && k.erases == low then { k with due := true } else k }
  else f

/-- The log's next `depth` pages on a channel, in the part for spill extents or the part for copies (R307). -/
def State.logPage (s : State) (spill : Bool) (c depth : Nat) : Option NPlace × State :=
  match s.flash.opens.find? fun o => o.spill == spill && pkgOf o.next.die == c with
  | some o =>
    let step (x : LogBlock) : Option LogBlock :=
      if x.spill == spill && x.next == o.next then
        (if x.next.page + 2 * depth ≤ 4096 then some { x with next := { x.next with page := x.next.page + depth } } else none)
      else some x
    (some o.next, s.modFlash fun f => { f with opens := f.opens.filterMap step })
  | none =>
    match s.nextBlock c with
    | (none, s) => (none, s)
    | (some (d, b), s) =>
      let s := s.modBlock d b fun k => { k with used := true, reads := 0, age := 0, due := false, urgent := false }
      (some { die := d, block := b, page := 0 }, s.modFlash fun f => { f.level with
        opens := f.opens ++ [{ spill := spill, next := { die := d, block := b, page := depth } }] })

/-- A stripe of the log: one page on each channel with a working die, the parity's channel rotating with the stripes (R304). A stripe of
spill extents stands for the four stripes that its four-page extents lie in (R307). -/
def State.logStripe (s : State) (spill : Bool) (refs : List PageRef) : Option State :=
  let l := s.flash.chans
  let r := l.foldl (fun (x : List NPlace × State) c =>
    match x.2.logPage spill c (if spill then 4 else 1) with
    | (some p, s) => (x.1 ++ [p], s)
    | (none, s) => (x.1, s)) (([] : List NPlace), s)
  if r.1.length < l.length || l.length < 2 then none
  else
    let n := s.flash.logNo
    let t : Stripe :=
      { no := n, spill := spill, parity := l.getD (n % l.length) 0, pages := r.1,
        data := (List.range (l.length - 1)).map fun i => refs[i]? }
    some (r.2.modFlash fun f => (r.1.map (·.die)).foldl Flash.startOp { f with stripes := f.stripes ++ [t], logNo := n + 1 })

/-- Write pages into the log, in log order: whole stripes, the last one filled up (DESIGN CHOICE, log entry 130). -/
def State.logWrite (s : State) (spill : Bool) (refs : List PageRef) : Option State :=
  let w := s.flash.chans.length - 1
  (List.range ((refs.length + w - 1) / w)).foldl (fun (x : Option State) i =>
    x.bind fun s => s.logStripe spill ((refs.drop (i * w)).take w)) (some s)

/-- The data pages of a stripe in the channels' order, with what they hold. -/
def Stripe.dataPages (t : Stripe) : List (NPlace × Option PageRef) := (t.pages.filter fun p => pkgOf p.die != t.parity).zip t.data

/-- Blocks with valid pages: every page of a stripe that holds data, and its parity. -/
def Flash.validBlocks (f : Flash) : List (Nat × Nat) :=
  ((f.stripes.filter fun t => t.data.any Option.isSome).flatMap fun t =>
    (t.dataPages.filterMap fun (p, r) => if r.isSome then some (p.die, p.block) else none) ++
    (t.pages.filter fun p => pkgOf p.die == t.parity).map fun p => (p.die, p.block)).eraseDups

/-- The scrub of every valid page that starts at the end of each boot (R542), by blocks. -/
def State.bootScrub (s : State) : State := s.modFlash fun f => { f with scrub := f.validBlocks }

/-- The parity page: the XOR of the data pages (R304). -/
def parityPage (data : List (List Byte)) : List Byte :=
  (List.range 16384).map fun i => data.foldl (fun x p => x ^^^ p.getD i 0) 0

/-- Pages are no longer valid; a stripe without valid pages is released. -/
def Flash.dropRefs (f : Flash) (gone : PageRef → Bool) : Flash :=
  let cut (t : Stripe) : Stripe := { t with data := t.data.map fun r => r.filter fun x => !gone x }
  { f with stripes := (f.stripes.map cut).filter fun t => t.data.any Option.isSome }

/-! ## Copies: map units (R305) -/

/-- Bytes of a map unit and of a page. -/
def unitBytes : Nat := 0x400000
def nandPage : Nat := 16384

/-- The I/O die whose FTL holds the map entry of a unit. -/
def mapIo (unit : Nat) : Nat := if unit % 2 = 0 then 0 else 2

/-- Write one map unit: 256 data pages that follow one another in the log, and its map entry, journalled later. -/
def State.storeUnit (s : State) (obj unit : Nat) : Option State :=
  let n := s.flash.logNo
  let mine (x : MapEnt) : Bool := x.obj == obj && x.unit == unit
  let s := s.modFlash fun f => { f.dropRefs (fun r => !r.spill && r.obj == obj && r.unit == unit) with map := f.map.filter fun x => !mine x }
  (s.logWrite false ((List.range 256).map fun i => { spill := false, obj := obj, unit := unit, idx := i })).map fun s =>
    s.modFlash fun f => { f with map := f.map ++ [{ obj := obj, unit := unit, stripe := n, stripes := f.logNo - n, journalled := false }] }

/-- Units of an object of `size` bytes. -/
def mapUnits (size : Nat) : List Nat := List.range ((size + unitBytes - 1) / unitBytes)

/-- Start the write of a copy's units; a unit that finds no free block stays unwritten, so that the copy never becomes durable. -/
def State.storeUnits (s : State) (obj size : Nat) : State :=
  (mapUnits size).foldl (fun s u => (s.storeUnit obj u).getD s) s

/-- Every unit of a copy is in the log. -/
def Flash.written (f : Flash) (obj size : Nat) : Bool := (mapUnits size).all fun u => f.map.any fun x => x.obj == obj && x.unit == u

/-- The flash copy of an object. -/
def State.fcopyOf (s : State) (id : Nat) : Option FCopy := s.flash.copies.find? fun c => c.obj == id

/-- An object's flash copy is removed, with its map entries and pages. -/
def State.dropCopy (s : State) (id : Nat) : State :=
  s.modFlash fun f => { f.dropRefs (fun r => !r.spill && r.obj == id) with
    copies := f.copies.filter (fun c => c.obj != id), map := f.map.filter fun x => x.obj != id }

/-! ## Spill extents (R307) -/

/-- `SPILL_LOC` of a place: global die, block, first page. -/
def NPlace.loc (p : NPlace) : Nat := p.die + 128 * p.block + 2 ^ 19 * p.page

/-- Write the extents of a KV page into the spill part of the log, each with its back reference, and say where the first one lies. -/
def State.logSpill (s : State) (pool page n : Nat) : Option (Nat × State) :=
  let no := s.flash.logNo
  (s.logWrite true ((List.range n).map fun i => { spill := true, obj := pool, unit := page, idx := i })).bind fun s =>
    ((s.flash.stripes.find? fun t => t.no == no).bind fun t => t.dataPages.head?).map fun x => (x.1.loc, s)

/-- The spill space of a page is released. -/
def Flash.dropExt (f : Flash) (pool page : Nat) : Flash :=
  { f.dropRefs (fun r => r.spill && r.obj == pool && r.unit == page) with spills := f.spills.filter fun y => !(y.pool == pool && y.page == page) }

/-- Extents of a page in the spill area. -/
def Pool.spillExts (p : Pool) : Nat := (p.pageBytes + 65535) / 65536

/-- Extents in the spill area, those of copy-outs in progress included. -/
def Flash.extents (f : Flash) : Nat :=
  (f.stripes.map fun t => if t.spill then (t.data.filter Option.isSome).length else 0).foldl (· + ·) 0

/-! ## Reads (R303, R309, R311, R313) -/

/-- The pages that a read of a stripe's page takes: itself, or the other pages of the stripe when its die has failed and the stripe is
not rebuilt. Their XOR is the page's bytes, so that what a reader sees does not change. -/
def Stripe.served (t : Stripe) (unbuilt : List Nat) (p : NPlace) : List NPlace :=
  if unbuilt.contains p.die then t.pages.filter fun q => q.die != p.die else [p]

/-- One read of `n` pages at a place: counted for the block; the number of corrected bits is the NAND's own, eight make the block due.
A demand read suspends a program or erase on the die. -/
def State.readNand (s : State) (demand : Bool) (n : Nat) (p : NPlace) : State :=
  let (c, s) := s.draw
  let s := s.countBlock p.die p.block fun k => { k with reads := k.reads + n, due := k.due || decide (8 ≤ c % 256) }
  if demand then s.modFlash fun f => f.suspend p.die else s

/-- Read the pages of some stripes that hold what is wanted. -/
def State.readLog (s : State) (demand : Bool) (inStripe : Stripe → Bool) (want : PageRef → Bool) : State :=
  let f := s.flash
  let hits := (f.stripes.filter inStripe).flatMap fun t =>
    (t.dataPages.filter fun x => (x.2.map want).getD false).flatMap fun x => (t.served f.unbuilt x.1).map fun p => (if t.spill then 4 else 1, p)
  hits.foldl (fun s x => s.readNand demand x.1 x.2) s

/-- Read bytes of an object's flash copy, through the map entries of its units. -/
def State.readCopy (s : State) (demand : Bool) (obj off n : Nat) : State :=
  let hit (unit idx : Nat) : Bool :=
    let a := unit * unitBytes + idx * nandPage
    decide (0 < n) && decide (a < off + n) && decide (off < a + nandPage)
  let at_ (t : Stripe) (u : Nat) : Bool := s.flash.map.any fun x => x.obj == obj && x.unit == u && decide (x.stripe ≤ t.no) && decide (t.no < x.stripe + x.stripes)
  s.readLog demand (fun t => !t.spill && t.data.any fun r => (r.map fun x => x.obj == obj && at_ t x.unit).getD false)
    (fun r => r.obj == obj && hit r.unit r.idx)

/-- Read a whole tile of a flash copy: weights and scales. -/
def State.readTileCopy (s : State) (demand : Bool) (obj : Nat) (t : TileDir) : State :=
  (s.readCopy demand obj t.off t.bytes).readCopy demand obj t.scaleOff t.scaleBytes

/-- Read a spilled page. -/
def State.readExt (s : State) (demand : Bool) (pool page : Nat) : State :=
  s.readLog demand (fun t => t.spill) fun r => r.obj == pool && r.unit == page

/-! ## Moving (R309, R314) -/

/-- Copy a map unit to new places and switch its entry in one action. -/
def State.moveUnit (s : State) (obj unit : Nat) : State :=
  let s := s.readLog false (fun t => !t.spill) fun r => r.obj == obj && r.unit == unit
  match s.storeUnit obj unit with
  | none => s
  | some s => s.modFlash fun f => { f with map := f.map.map fun x => if x.obj == obj && x.unit == unit then { x with journalled := true } else x }

/-- Units and spilled pages with a page in the stripes that `hit` picks: (is a spilled page, object or pool, unit or page). -/
def Flash.owners (f : Flash) (hit : Stripe → Bool) : List (Bool × Nat × Nat) :=
  ((f.stripes.filter hit).flatMap fun t => t.data.filterMap fun r => r.map fun x => (x.spill, x.obj, x.unit)).eraseDups

end Sys2Proof.Machine
end

