-- ==== Sys2Proof/Machine/Pools.lean ====
section
/-! DEFINITION. KV pages (spec/07_kv_pages.md): frames, page states, reference counts, page tables, the close of a
sequence and PAGE_SHARE, and the commands SEQ_OPEN, SEQ_CLOSE, PAGE_SHARE and SPILL_POLICY. -/

namespace Sys2Proof.Machine

open Sys2Proof

/-! ## Frames and identifiers -/

/-- The page holds a frame (R167, Table 07-4): RETIRING keeps it until FREE, unless its contents were spilled. -/
def PageDesc.hasFrame (d : PageDesc) : Bool :=
  d.state == .staging || d.state == .live || d.state == .arriving || (d.state == .retiring && d.spillTier == 0)

def Pool.framesUsed (p : Pool) : List Nat := (p.pages.filter fun (_, d) => d.hasFrame).map fun (_, d) => d.frame

def Pool.freeFrames (p : Pool) : Nat := p.frames - p.framesUsed.length

/-- The frames that no page holds, at most `k` of them listed beyond those in use. -/
def Pool.freeFrameList (p : Pool) : List Nat := (List.range p.frames).filter fun f => !p.framesUsed.contains f

/-- The identifiers of FREE pages (1 to `PAGE_IDS`). -/
def Pool.freeIds (p : Pool) : List Nat := ((List.range p.pageIds).map (· + 1)).filter fun i => (p.page i).state == .free

def Pool.setPage (p : Pool) (id : Nat) (d : PageDesc) : Pool := { p with pages := assocSet p.pages id d }

def State.modPage (s : State) (pool id : Nat) (f : PageDesc → PageDesc) : State :=
  s.modPool pool fun p => p.setPage id (f (p.page id))

/-- A page of a pool; the empty descriptor where the pool does not exist. -/
def State.pageOf (s : State) (pool id : Nat) : PageDesc := ((s.pool pool).map fun p => p.page id).getD page0

/-- Which FREE identifier a new page takes, and which frame, the module alone decides (R167): free choices. -/
def State.allocPage (s : State) (pool : Nat) : Option Nat × State :=
  match s.pool pool with
  | none => (none, s)
  | some p =>
    match s.choose p.freeIds with
    | (none, s) => (none, s)
    | (some id, s) =>
      match s.choose p.freeFrameList with
      | (none, s) => (none, s)
      | (some f, s) =>
        (some id, s.modPage pool id fun d => { d with
          frame := f, state := .staging, perm := false, spillAct := false, pins := 0, refcnt := 0, fill := 0,
          spillTier := 0, retried := false, lost := false })

/-- A host buffer gains space: a Spillway that stalled for it resumes (R440). -/
def State.hostRoom (s : State) (buf : Nat) : State :=
  s.objs.foldl (fun s o =>
    match o.pool with
    | some p =>
      if p.stalled && p.hostBuf == buf && (p.target == 1 || (p.target == 2 && p.fallback)) then
        ({ s.modPool o.id (fun p => { p with stalled := false }) with spillPool := o.id }).raise .spill 1
      else s
    | none => s) s

/-- A page becomes FREE: frame and spill space return, `FILL` and `SPILL_TIER` become zero (R172). -/
def State.freePage (s : State) (pool id : Nat) : State :=
  let d := s.pageOf pool id
  let dest := if d.spillAct then ((s.pool pool).bind (·.spillTo)).map (·.1) else none
  let inHost := d.spillTier == 1 || dest == some 1
  let s := if d.spillAct then s.modPool pool fun p => { p with spillTo := none } else s
  let s := s.modPage pool id fun d => { d with state := .free, fill := 0, spillTier := 0, spillAct := false, perm := false }
  let s := if inHost then s.hostRoom (((s.pool pool).map (·.hostBuf)).getD 0) else s
  s.modFlash fun f => f.dropExt pool id

/-- A RETIRING page whose `PINS` is 0 becomes FREE (Table 07-5). -/
def State.settlePage (s : State) (pool id : Nat) : State :=
  let d := s.pageOf pool id
  if d.state == .retiring && d.pins == 0 then s.freePage pool id else s

/-- One mapping more (R180): saturates with `PERM`. -/
def State.incRef (s : State) (pool id : Nat) : State :=
  s.modPage pool id fun d =>
    if d.perm then d else if d.refcnt = 65535 then { d with perm := true } else { d with refcnt := d.refcnt + 1 }

/-- One mapping less (R180): at 0 the page retires, an ARRIVING one once its transfer ends. -/
def State.decRef (s : State) (pool id : Nat) : State :=
  let s := s.modPage pool id fun d =>
    if d.perm then d
    else
      let d := { d with refcnt := d.refcnt - 1 }
      if d.refcnt = 0 && d.state != .arriving && d.state != .free then { d with state := .retiring } else d
  s.settlePage pool id

/-- A reader pin (R174). -/
def State.pinPage (s : State) (pool id : Nat) : State := s.modPage pool id fun d => { d with pins := d.pins + 1 }

def State.unpinPage (s : State) (pool id : Nat) : State :=
  (s.modPage pool id fun d => { d with pins := d.pins - 1 }).settlePage pool id

/-! ## Tables (R170, R287) -/

def Pool.slots (p : Pool) : Nat := p.tableBytes / 4096

def Pool.lowSlot (p : Pool) : Option Nat := (List.range (p.tables.length + 1)).find? fun i => (assocGet p.tables i).isNone && decide (i < p.slots)

/-- Take the lowest free table slot. -/
def State.takeSlot (s : State) (pool : Nat) (u : TableUse) : Option Nat × State :=
  match (s.pool pool).bind Pool.lowSlot with
  | some i => (some i, s.modPool pool fun p => { p with tables := p.tables ++ [(i, u)] })
  | none => (none, s)

def Pool.hasLeaf (p : Pool) (q r : Nat) : Bool := p.tables.any fun (_, u) => u == .leaf q r

/-- Free the slots of a sequence's root and leaves. -/
def State.dropTables (s : State) (pool q : Nat) : State :=
  let keep (u : TableUse) : Bool := match u with
    | .root q' => q' != q
    | .leaf q' _ => q' != q
    | .staged q' _ => q' != q
  s.modPool pool fun p => { p with tables := p.tables.filter fun x => keep x.2 }

/-- Free table slots counted. -/
def Pool.freeSlots (p : Pool) : Nat := p.slots - p.tables.length

/-! ## Sequences -/

/-- The logical page belongs to this member (R163). -/
def Seq.owns (q : Seq) (member lp : Nat) : Bool :=
  decide (q.spread ≤ 1) || q.mlist.getD (lp / 512 % q.spread) 64 == member

/-- The page that a sequence maps at a logical page; 0 is none. -/
def Seq.pageAt (q : Seq) (lp : Nat) : Nat := (assocGet q.map lp).getD 0

/-- Finish a list of waiting commands with a status. -/
def State.finishAll (s : State) (l : List Ref) (status : Nat) : State := l.foldl (fun s r => s.finish r status) s

/-- Apply a close (R181): every mapping goes, the tables go, the slot is kept for 16 commits (R446). -/
def State.applyClose (s : State) (h : Nat) : State :=
  match s.seqOf h with
  | none => s
  | some q =>
    let s := q.map.foldl (fun s (_, id) => s.decRef q.pool id) s
    let s := s.dropTables q.pool h
    let s := s.endSeqEnts fun e => e.obj == h
    let s := s.modSeq h fun q => { q with map := [], closed := true, closing := false, closeHeld := [], closedAt := s.commitC, step := 0 }
    s.finishAll q.closeHeld stOK

/-- Open sequences of a slice. -/
def State.seqsIn (s : State) (slice : Nat) : List Seq := s.seqs.filter fun q => q.slice == slice && !q.closed

/-- Lowest sequence slot of a slice that no sequence holds; a closed one holds its slot for 16 commits (R446). -/
def State.freeSeqSlot (s : State) (slice : Nat) : Nat :=
  let used := (s.seqs.filter fun q => q.slice == slice).map (·.slotNo)
  ((List.range (used.length + 1)).find? fun i => !used.contains i).getD 0

/-- Drop closed sequences whose slot's 16 commits have passed (R446). -/
def State.agedSlots (s : State) : State :=
  { s with seqs := s.seqs.filter fun q => !q.closed || decide (s.commitC < q.closedAt + 16) }

/-- SEQ_OPEN (R411, R368, R171). -/
def opSeqOpen (r : Ref) (b : List Byte) (s : State) : State :=
  let h := fld b 0 4
  let sl := fld b 4 1
  let spread := fld b 5 1
  let pool := fld b 8 4
  let plen := fld b 12 4
  let ma := fld b 32 8
  let x := s.slc sl
  if !onlyUses b [(0, 6), (8, 32)] || decide (7 < sl) then s.finish r stBadField
  else if x.state == .stopped then s.finish r stSliceStopped
  else if x.state != .joined || h == 0 || (s.seqOf h).isSome then s.finish r stBadField
  else match s.obj pool with
  | none => s.finish r stBadField
  | some o =>
    if o.pool.isNone then s.finish r stBadField
    else if o.lost then s.finish r stMemLost
    else if decide (2097152 < plen) || !([1, 2, 4, 8, 16, 32, 64].contains spread) || decide (x.count < spread) || (spread == 1 && ma != 0) then s.finish r stBadField
    else match (if spread = 1 then some [] else s.hostRead r.src.port ma spread) with
    | none => s.finish r stHostUnreachable
    | some bytes =>
      let ml := bytes.map (·.toNat)
      if !decide ml.Nodup || ml.any (fun i => decide (x.count ≤ i)) then s.finish r stBadField
      else if decide (65536 ≤ (s.seqsIn sl).length) then s.finish r stNoSpace
      else match s.takeSlot pool (.root h) with
      | (none, s) => s.finish r stNoSpace
      | (some i, s) =>
        let q : Seq :=
          { h := h, slice := sl, pool := pool, spread := spread, mlist := ml, prefixLen := plen, seed := fld b 16 16,
            len := 0, zeroAcc := 0, rootSlot := i, map := [], step := 0, closeHeld := [], closing := false, closed := false,
            closedAt := 0, slotNo := s.freeSeqSlot sl, lastStep := 0, lastCommit := s.commitC, nOut := 0, rflags := 0,
            tokValid := false, stamp := 0, toks := [] }
        let addr := ((s.pool pool).map fun p => tableAddr p i).getD 0
        ({ s with seqs := s.seqs ++ [q] }).finish r stOK (leBytes 6 addr)

/-- SEQ_CLOSE (R181): at once, or held while the sequence is in a step. -/
def opSeqClose (r : Ref) (b : List Byte) (s : State) : State :=
  let h := fld b 0 4
  if !onlyUses b [(0, 4)] then s.finish r stBadField
  else match s.seqOf h with
  | none => s.finish r stNotFound
  | some q =>
    if (s.slc q.slice).state == .stopped then s.finish r stSliceStopped
    else
      let s := s.modSeq h fun q => { q with closing := true, closeHeld := q.closeHeld ++ [r] }
      if q.step = 0 then s.applyClose h else s

/-! ## PAGE_SHARE (R182) -/

/-- Leaf runs that logical pages 0 to n − 1 need and a sequence does not have. -/
def Pool.missingLeaves (p : Pool) (q n : Nat) : List Nat := (List.range ((n + 511) / 512)).filter fun r => !p.hasLeaf q r

/-- The share as it acts: conditions judged now (R182). -/
def actShare (r : Ref) (src dst n : Nat) (s : State) : State :=
  match s.seqOf src with
  | none => s.finish r stNotFound
  | some a =>
    if (s.slc a.slice).state == .stopped then s.finish r stSliceStopped
    else match s.seqOf dst with
    | none => s.finish r stBadField
    | some d =>
      let own := (List.range n).filter fun lp => a.owns (s.slc a.slice).member lp
      let ok := 1 ≤ n && n ≤ 32768 && src != dst && a.pool == d.pool && d.len == 0 && d.step == 0 && d.map.isEmpty &&
        own.all fun lp => a.pageAt lp != 0
      match s.pool a.pool with
      | none => s.finish r stBadField
      | some p =>
        let runs := (own.map (· / 512)).eraseDups.filter fun k => !p.hasLeaf dst k
        if !ok then s.finish r stBadField
        else if decide (p.freeSlots < runs.length) then s.finish r stNoSpace
        else
          let s := runs.foldl (fun s k => (s.takeSlot a.pool (.leaf dst k)).2) s
          let s := own.foldl (fun s lp => s.incRef a.pool (a.pageAt lp)) s
          let s := own.foldl (fun s lp => s.modPage a.pool (a.pageAt lp) fun d =>
            if d.state == .staging then { d with state := .live, age := s.commitNo, ageC := s.commitC } else d) s
          let s := s.modSeq dst fun q => { q with map := own.map (fun lp => (lp, a.pageAt lp)), len := min a.len (64 * n) }
          s.finish r stOK

/-- PAGE_SHARE: waits while the source is in a step (R182, R408). -/
def opPageShare (r : Ref) (b : List Byte) (s : State) : State :=
  let src := fld b 0 4
  if !onlyUses b [(0, 12)] then s.finish r stBadField
  else match s.seqOf src with
  | none => s.finish r stNotFound
  | some a =>
    if a.step = 0 || (s.slc a.slice).state == .stopped then actShare r src (fld b 4 4) (fld b 8 4) s
    else
      let wait (c : CmdSlot) : CmdSlot := if r.slot == some c.idx then { c with shareWait := true, state := .waiting } else c
      { s with cmds := s.cmds.map wait }

/-- SPILL_POLICY (R183, Table 07-6; a change of target resumes a stalled pool, R440). -/
def opSpillPolicy (r : Ref) (b : List Byte) (s : State) : State :=
  let pool := fld b 0 4
  let tgt := fld b 4 1
  let idle := fld b 6 2
  let hb := fld b 8 4
  let lo := fld b 12 4
  let hi := fld b 16 4
  if !onlyUses b [(0, 20)] || decide (1 < fld b 5 1) then s.finish r stBadField
  else match s.obj pool with
  | none => s.finish r stNotFound
  | some o =>
    match o.pool with
    | none => s.finish r stBadField
    | some p =>
      let isBuf := ((s.obj hb).map fun x => x.kind == .hostbuf).getD false
      if o.lost then s.finish r stMemLost
      else if decide (2 < tgt) || idle == 0 || decide (p.frames < hi) || decide (hi < lo) || (tgt == 1 && !isBuf) ||
          (hb != 0 && !isBuf) then s.finish r stBadField
      else if tgt == 2 && !s.flash.ready then s.finish r stNotReady
      else
        let resume := p.stalled && tgt != p.target
        let s := s.modPool pool fun p => { p with
          target := tgt, fallback := fld b 5 1 == 1, idleSteps := idle, hostBuf := hb, lowFree := lo, highFree := hi,
          stalled := p.stalled && !resume }
        let s := if resume then ({ s with spillPool := pool }).raise .spill 1 else s
        s.finish r stOK

end Sys2Proof.Machine
end

