-- ==== Sys2Proof/Machine/Unpack.lean ====
section
/-! DEFINITION. The compressed tile code of R84 to R90: header and index checks, the canonical prefix code, decoding of
chunks and their CRC. -/

namespace Sys2Proof.Machine

open Sys2Proof

/-- Width of the head field and of the tail field of a format (Table 03-8). -/
def headBits : Nat → Nat
  | 3 => 4 | 4 => 5 | 5 => 2 | 6 => 3 | 7 => 2 | 8 => 5 | _ => 0

def tailBits : Nat → Nat
  | 3 => 4 | 4 => 3 | 5 => 4 | 6 => 3 | 7 => 2 | 8 => 3 | _ => 0

/-- Put an element together from its head symbol and tail value (R86): sign above, head, mantissa; MXINT8 has no sign field.
DESIGN CHOICE (log entry 117): a symbol beyond the `Symbols` of Table 03-8 that carries a nonzero `LEN` is accepted, and its
head runs into the bits above, as the spec names no check of it. -/
def joinElem (fmt h t : Nat) : Nat :=
  if fmt = 8 then h * 8 + t
  else
    let mb := tailBits fmt - 1
    let sgn := t / 2 ^ mb
    sgn * 2 ^ (headBits fmt + mb) + h * 2 ^ mb + t % 2 ^ mb

/-- The 32 code lengths of a header (Table 03-7). -/
def codeLens (hdr : List Byte) : List Nat := unpackNat 4 32 (fld hdr 4 16)

/-- Entry i of the chunk index: head bytes, raw, reserved bits, CRC (R85). -/
def chunkEnt (t : List Byte) (i : Nat) : Nat × Bool × Nat × Nat :=
  let e := fld t (32 + 4 * i) 4
  (bitsOf e 10 0, bitOf e 11, bitsOf e 15 12, bitsOf e 31 16)

/-- Body bytes of a chunk (R85). -/
def chunkBody (fmt head : Nat) (raw : Bool) : Nat := if raw then 128 * elemBits fmt else head + 128 * tailBits fmt

/-- R90 step 1: header, code lengths, index and tile size. -/
def tileHeaderOk (t : List Byte) : Bool :=
  let fmt := bitsOf (fld t 0 1) 3 0
  let n := fld t 2 2
  let lens := codeLens t
  let ents := (List.range n).map (chunkEnt t)
  let size := 32 + 4 * n + (ents.map fun (h, raw, _, _) => chunkBody fmt h raw).foldl (· + ·) 0
  32 ≤ t.length && isMx fmt && bitsOf (fld t 0 1) 7 4 == 0 && fld t 1 1 == 1 && decide (1 ≤ n) &&
  (t.drop 20 |>.take 12).all (· == 0) && lens.all (fun l => decide (l ≤ 12)) &&
  decide ((lens.map fun l => if l = 0 then 0 else 2 ^ (12 - l)).foldl (· + ·) 0 ≤ 4096) &&
  ents.all (fun (h, raw, rsv, _) => rsv == 0 && (!raw || h == 0)) && size == t.length

/-- Canonical codewords: (symbol, length, code), ascending length then symbol (R87). -/
def codeTable (lens : List Nat) : List (Nat × Nat × Nat) :=
  ((List.range 12).foldl (fun (acc, code) l =>
    let syms := (List.range 32).filter fun s => lens.getD s 0 == l + 1
    (acc ++ syms.zipIdx.map (fun (s, i) => (s, l + 1, code + i)), (code + syms.length) * 2))
    (([] : List (Nat × Nat × Nat)), 0)).1

/-- Read one code word from a head stream, most significant bit first: symbol and bits used. -/
def readCode (tab : List (Nat × Nat × Nat)) (v bits pos : Nat) : Nat → Nat → Nat → Option (Nat × Nat)
  | 0, _, _ => none
  | k + 1, len, code =>
    if bits ≤ pos + len then none
    else
      let code := code * 2 + boolNat (bitOf v (pos + len))
      match tab.find? fun (_, l, c) => l == len + 1 && c == code with
      | some (s, _, _) => some (s, len + 1)
      | none => readCode tab v bits pos k (len + 1) code

/-- `n` code words of a head stream; none where R90 step 2 rejects. Answers the symbols and the bits used. -/
def readHeads (tab : List (Nat × Nat × Nat)) (v bits : Nat) : Nat → Nat → Option (List Nat × Nat)
  | 0, pos => some ([], pos)
  | n + 1, pos =>
    match readCode tab v bits pos 12 0 0 with
    | none => none
    | some (s, l) => (readHeads tab v bits n (pos + l)).map fun (t, p) => (s :: t, p)

/-- Decode one chunk body of 1,024 elements, with the checks of R90 steps 2 and 3. -/
def decodeChunk (fmt : Nat) (lens : List Nat) (head : Nat) (raw : Bool) (crc : Nat) (body : List Byte) : Option (List Nat) :=
  let es : Option (List Nat) :=
    if raw then some (unpackElems fmt 1024 body)
    else
      let v := ofLe (body.take head)
      match readHeads (codeTable lens) v (8 * head) 1024 0 with
      | none => none
      | some (syms, used) =>
        if (used + 7) / 8 ≠ head ∨ v / 2 ^ used ≠ 0 then none
        else
          let tails := unpackNat (tailBits fmt) 1024 (ofLe (body.drop head))
          some ((syms.zip tails).map fun (h, t) => joinElem fmt h t)
  es.bind fun l => if crc16 (packElems fmt l) = crc then some l else none

/-- Chunks `i`, `i + 1`, … of a compressed tile from byte `off`. -/
def decodeChunks (t : List Byte) (fmt : Nat) (lens : List Nat) : Nat → Nat → Nat → Option (List Nat)
  | 0, _, _ => some []
  | n + 1, i, off =>
    let (h, raw, _, crc) := chunkEnt t i
    let k := chunkBody fmt h raw
    match decodeChunk fmt lens h raw crc ((t.drop off).take k), decodeChunks t fmt lens n (i + 1) (off + k) with
    | some a, some b => some (a ++ b)
    | _, _ => none

/-- Byte at which the body of chunk `i` starts (R84). -/
def chunkOff (t : List Byte) (i : Nat) : Nat :=
  32 + 4 * fld t 2 2 +
    (((List.range i).map (chunkEnt t)).map fun (h, raw, _, _) => chunkBody (bitsOf (fld t 0 1) 3 0) h raw).foldl (· + ·) 0

/-- The first `n` elements from chunk `first` on of a compressed tile (R89): the chunks that hold them are decoded and checked
whole, the others are not; none where a check of R90 fails. A tile that holds fewer gives what it has. -/
def decodeSpan (t : List Byte) (first n : Nat) : Option (List Nat) :=
  if tileHeaderOk t then
    (decodeChunks t (bitsOf (fld t 0 1) 3 0) (codeLens t) (min ((n + 1023) / 1024) (fld t 2 2 - first)) first (chunkOff t first)).map (·.take n)
  else none

end Sys2Proof.Machine
end

