-- ==== Sys2Proof/Machine/Objects.lean ====
section
/-! DEFINITION. Objects (spec/11_lpddr5x_placement.md, 13 for directories): placement, system extents, creation,
residency and movement, eviction, pins, flash copies, and the object commands of Table 17-4. -/

namespace Sys2Proof.Machine

open Sys2Proof

/-! ## Directory -/

def ObjKind.num : ObjKind → Nat
  | .tileset => 1 | .kvpool => 2 | .program => 3 | .buffer => 4 | .stage => 5 | .hostbuf => 6

def kindOf : Nat → Option ObjKind
  | 1 => some .tileset | 2 => some .kvpool | 3 => some .program | 4 => some .buffer | 5 => some .stage | 6 => some .hostbuf
  | _ => none

def Res.num : Res → Nat
  | .absent => 0 | .arriving => 1 | .resident => 2 | .departing => 3

/-- A TILESET or PROGRAM, the kinds with residency states (Table 11-2). -/
def Obj.movable (o : Obj) : Bool := o.kind == .tileset || o.kind == .program

/-- Bytes 4 and 5 of Table 11-3. -/
def Obj.byte4 (o : Obj) : Nat := o.kind.num + 16 * o.res.num + 64 * boolNat o.prot + 128 * boolNat o.lost

def Obj.byte5 (o : Obj) : Nat :=
  boolNat o.evp + 2 * boolNat o.fcopy + 4 * boolNat o.released + 8 * boolNat o.dp + 16 * (if o.dp then o.die else 0)

/-- `LANDED`: equals `TILES` when RESIDENT. -/
def Obj.landedN (o : Obj) : Nat := if o.res == .resident then o.tiles else o.landed.length

/-- The 64-byte directory entry (Table 11-3). -/
def Obj.entry (o : Obj) : List Byte :=
  leBytes 4 o.id ++ leBytes 1 o.byte4 ++ leBytes 1 o.byte5 ++ leBytes 2 o.groups ++ leBytes 2 o.pins ++ leBytes 2 o.opins ++
  leBytes 4 o.tiles ++ leBytes 4 o.landedN ++ leBytes 4 0 ++ leBytes 8 o.size ++ leBytes 8 o.extOff ++ leBytes 8 o.extBytes ++
  leBytes 16 0

/-- The object result of Table 17-3. -/
def Obj.result (o : Obj) : List Byte :=
  leBytes 4 o.id ++ leBytes 1 o.byte4 ++ leBytes 1 o.byte5 ++ leBytes 2 o.pins ++ leBytes 4 o.landedN

/-- Complete an object command with the object as it stands. -/
def State.finishObj (s : State) (r : Ref) (id status : Nat) : State :=
  s.finish r status (match s.obj id with
    | some o => o.result
    | none => [])

/-- Complete waiting commands, each with its own status in place of OK when `st` is OK. -/
def State.finishWaiters (s : State) (l : List Waiter) (id st : Nat) : State :=
  l.foldl (fun s w => s.finishObj w.ref id (if st = stOK then w.alt else st)) s

/-! ## Placement (R275, R286) -/

/-- Common lowest offset in the chosen window of every group. -/
def State.findExt (s : State) (gs : List Nat) (prot : Bool) (n : Nat) : Option Nat :=
  lowOff (gs.flatMap fun g => s.occWin g prot) 0 n ((gs.map fun g => s.winBytes g prot).foldl min (2 ^ 48))

/-- A group takes no placement in a window: lost, out of service, or unprotected with a failed channel (R282, R485). -/
def State.degraded (s : State) (g : Nat) (prot : Bool) : Bool :=
  (s.grp g).lost || (s.grp g).outOfService || (!prot && s.chFail g != 0)

/-! ## Tile directories (Table 13-2, R322) -/

def dirEnt (b : List Byte) : TileDir :=
  { off := fld b 0 6, bytes := fld b 6 4, scaleOff := fld b 10 6, scaleBytes := fld b 16 4, k32 := fld b 20 2, n4 := fld b 22 2,
    fmt := bitsOf (fld b 24 1) 3 0, coded := bitOf (fld b 24 1) 4, wide := bitOf (fld b 24 1) 5, trole := fld b 25 1,
    layer := fld b 26 2, expert := fld b 28 2, tdigest := (b.drop 32).take 32 }

/-- The entries of a directory. -/
def dirEnts (b : List Byte) : List TileDir := (chunks 64 (b.length / 64) b).map dirEnt

def TileDir.k (t : TileDir) : Nat := t.k32 * 32
def TileDir.n (t : TileDir) : Nat := t.n4 * 4

/-- One entry's fields in range (R322), with its raw bytes for the reserved ones. -/
def TileDir.ok (t : TileDir) (b : List Byte) (size : Nat) : Bool :=
  bitsOf (fld b 24 1) 7 6 == 0 && fld b 30 2 == 0 && t.off % 64 == 0 && t.scaleOff % 64 == 0 &&
  decide (1 ≤ t.k32) && decide (t.k32 ≤ 2048) && decide (1 ≤ t.n4) && decide (t.n4 ≤ 16384) && decide (t.fmt ≤ 8) &&
  (!t.coded || isMx t.fmt) && decide (1 ≤ t.trole) && decide (t.trole ≤ 6) && (t.layer == 0xFFFF || decide (t.layer < 256)) &&
  (if t.trole = 3 then decide (t.expert < 4096) else t.expert == 0xFFFF) &&
  (t.coded || t.bytes == t.k * t.n * elemBits t.fmt / 8) &&
  (t.scaleBytes == if isMx t.fmt then t.k32 * t.n else 0) && (t.scaleBytes != 0 || t.scaleOff == 0) &&
  (!t.wide || t.n % 16 == 0) && decide (t.off + t.bytes ≤ size) && decide (t.scaleOff + t.scaleBytes ≤ size)

/-- No two of the ranges meet. -/
def disjoint : List (Nat × Nat) → Bool
  | [] => true
  | (a, n) :: t => (n == 0 || t.all fun r => r.2 == 0 || !overlaps a n r) && disjoint t

def dirOk (b : List Byte) (size : Nat) : Bool :=
  let raw := chunks 64 (b.length / 64) b
  raw.all (fun e => (dirEnt e).ok e size) &&
  disjoint ((raw.map dirEnt).flatMap fun t => [(t.off, t.bytes), (t.scaleOff, t.scaleBytes)])

/-! ## OBJ_CREATE -/

/-- An object before its placement. -/
def obj0 (id : Nat) (k : ObjKind) (slot : Nat) : Obj :=
  { id := id, slotNo := slot, stagePort := none, kind := k, res := .resident, prot := false, lost := false, evp := false,
    fcopy := false, released := false, dp := false, die := 0, groups := 0, pins := 0, opins := 0, tiles := 0, landed := [],
    size := 0, extOff := 0, extBytes := 0, dir := [], setDigest := [], hostPort := .a, hostAddr := 0, src := none,
    retried := [], arrive := [], evicts := [], stageW := [], refetch := [], refetchSrc := none, evictTo := 0,
    writeOut := false, readers := 0, trig := 0, destroyAtEnd := false, pool := none }

/-- Lowest free directory slot (aperture 6). -/
def State.freeObjSlot (s : State) : Nat :=
  ((List.range (s.objs.length + 1)).find? fun i => !s.objs.any fun o => o.slotNo == i).getD 0

/-- Attributes of a KV pool from the kind part (Table 07-1); none when one is out of range. -/
def poolOf (b : List Byte) (size : Nat) : Option Pool :=
  let d := fld b 16 2
  let g := fld b 18 1
  let fmt := bitsOf (fld b 19 1) 3 0
  let sr := bitOf (fld b 19 1) 4
  let w := fld b 20 2
  let layers := bitsOf w 8 0
  let head0 := bitsOf w 14 9
  let heads := bitsOf (fld b 22 1) 6 0
  let layer0 := fld b 23 1
  let frames := fld b 24 4
  let ids := fld b 28 4
  let tb := if size = 0 then 0x10000000 else size
  let seg := if fmt = 1 then 256 * d else 132 * d
  if bitsOf (fld b 19 1) 7 5 != 0 || bitOf w 15 || bitOf (fld b 22 1) 7 || !([64, 128, 192, 256].contains d) || g == 0 ||
      decide (64 < g) || !([1, 3, 4].contains fmt) || (sr && fmt == 1) || layers == 0 || decide (256 < layers) || heads == 0 ||
      decide (64 < heads) || decide (256 < layer0 + layers) || decide (64 < head0 + heads) || tb % 65536 != 0 ||
      decide (0x400000000 < tb) || frames == 0 || decide (2 ^ 24 < frames) || decide (ids < frames) || decide (2 ^ 26 < ids) then none
  else some
    { d := d, g := g, fmt := fmt, sr := sr, layers := layers, heads := heads, layer0 := layer0, head0 := head0, tableBytes := tb,
      frames := frames, pageIds := ids, pageBytes := (layers * heads * seg + 4095) / 4096 * 4096, metaOff := 0, metaGroup := 0,
      pages := [], tables := [], target := 0, hostBuf := 0, lowFree := 0, highFree := 0, idleSteps := 4, fallback := true,
      stalled := false, spilling := false, spillTo := none, demand := [] }

/-- The directory's system extent: 64 bytes for each of 1,048,576 slots, placed with the first object (R285, log entry 25). -/
def objDirBytes : Nat := 2 ^ 26

/-- Add an object with the system extents that it needs; NO_SPACE when they have no room. -/
def State.addObj (s : State) (r : Ref) (o : Obj) (res : List Byte) : State :=
  let t := { s with objs := s.objs ++ [o] }
  let s1 := if s.objs.isEmpty then t.placeSys 2 0 objDirBytes else some t
  let s2 := s1.bind fun t => if o.kind == .tileset then t.placeSys 0 o.id (64 * o.tiles + 32) else some t
  match s2 with
  | none => s.finish r stNoSpace
  | some t => t.finish r stOK (leBytes 8 o.extOff ++ leBytes 8 o.extBytes ++ res)

/-- Place an LPDDR5X object's extents, then add it. -/
def State.placeLp (s : State) (r : Ref) (o : Obj) (perGroup : Nat) (extra : Obj → State → State) : State :=
  let gs := groupsOf o.groups
  if gs.any fun g => s.degraded g o.prot then s.finish r stGroupDegraded
  else match s.findExt gs o.prot perGroup with
  | none => s.finish r stNoSpace
  | some off => extra { o with extOff := off, extBytes := perGroup } s

/-- A KVPOOL's metadata extent in the protected window of its lowest group, clear of its own extents (R287). -/
def State.placeMeta (s : State) (r : Ref) (o : Obj) (p : Pool) : State :=
  let g := (groupsOf o.groups).headD 0
  let own := if o.prot then [(o.extOff, o.extBytes)] else []
  match lowOff (s.occWin g true ++ own) 0 (metaBytes p) (s.winBytes g true) with
  | none => s.finish r stNoSpace
  | some m => s.addObj r { o with pool := some { p with metaGroup := g, metaOff := m } } (leBytes 4 p.pageBytes)

/-- Attach a flash copy that survived a reset (R501): the object's `OBJ_ID`, size and set digest match it. -/
def State.claimCopy (s : State) (o : Obj) : Obj × State :=
  if s.flash.copies.any fun c => c.obj == o.id && c.durable && c.size == o.size && c.setDigest == o.setDigest then
    let mark (c : FCopy) : FCopy := if c.obj == o.id then { c with claimed := true } else c
    ({ o with fcopy := true }, s.modFlash fun f => { f with copies := f.copies.map mark })
  else (o, s)

/-- OBJ_CREATE (R286, R287, R549). -/
def opObjCreate (r : Ref) (b : List Byte) (s : State) : State :=
  let id := fld b 0 4
  let b4 := fld b 4 1
  let b5 := fld b 5 1
  let groups := fld b 6 2
  let size := fld b 8 8
  let prot := bitOf b4 4
  match kindOf (bitsOf b4 3 0) with
  | none => s.finish r stBadField
  | some k =>
    let inPool := k == .stage || (k == .buffer && groups == 0)
    let part : List (Nat × Nat) := match k with
      | .tileset => [(16, 4), (24, 8)]
      | .kvpool => [(16, 16)]
      | .hostbuf => [(24, 8)]
      | _ => []
    let placed := if k == .hostbuf then !prot && decide (b5 < 2) && groups == 0
      else if inPool then !prot && decide (b5 < 8) && groups == 0
      else b5 == 0 && groups != 0
    let n := (groupsOf groups).length
    let per := ((size + 65535) / 65536 + n - 1) / n * 65536
    let o := { obj0 id k s.freeObjSlot with prot := prot, groups := groups, size := size }
    if !onlyUses b ((0, 16) :: part) || bitsOf b4 7 5 != 0 || id == 0 || !placed || (s.obj id).isSome then s.finish r stBadField
    else match k with
    | .hostbuf => s.addObj r { o with hostPort := portOf b5, hostAddr := fld b 24 8 } []
    | .stage | .buffer =>
      if inPool then
        if (s.die b5).lost then s.finish r stGroupDegraded
        else match lowOff (s.occPool b5) 0x1000000 (up64k size) 0x4000000 with
        | none => s.finish r stNoSpace
        | some off => s.addObj r { o with dp := true, die := b5, extOff := off, extBytes := up64k size } []
      else s.placeLp r o per fun o s => s.addObj r o []
    | .program =>
      let (o, s') := s.claimCopy { o with res := .absent, setDigest := [] }
      s'.placeLp r o per fun o s => s.addObj r o []
    | .kvpool =>
      match poolOf b size with
      | none => s.finish r stBadField
      | some p =>
        s.placeLp r { o with size := p.frames * p.pageBytes } (up64k ((p.frames + n - 1) / n * p.pageBytes)) fun o s => s.placeMeta r o p
    | .tileset =>
      let tiles := fld b 16 4
      if tiles == 0 || decide (1048576 < tiles) then s.finish r stBadField
      else match s.hostRead r.src.port (fld b 24 8) (64 * tiles) with
      | none => s.finish r stHostUnreachable
      | some dir =>
        if !dirOk dir size then s.finish r stBadField
        else
          let (o, s') := s.claimCopy { o with res := .absent, tiles := tiles, dir := dirEnts dir, setDigest := shake256 dir }
          s'.placeLp r o per fun o s => s.addObj r o []

/-! ## Flash copies -/

/-- The object's body as bytes of object offset. -/
def State.objBody (s : State) (o : Obj) : List Host.Cell :=
  (s.objRead o 0 o.size).zipIdx.filterMap fun (b, i) => if b == 0 then none else some (i, b)

/-- Start a flash copy of a body: its map units go into the log, and it is not durable until FLASH_COPY_DURABLE (R305, R306). -/
def State.startCopy (s : State) (o : Obj) (body : List Host.Cell) : State :=
  ((s.dropCopy o.id).modFlash fun f => { f with
    copies := f.copies ++ [{ obj := o.id, setDigest := o.setDigest, size := o.size, body := body, durable := false, claimed := true }] }).storeUnits o.id o.size

/-- Another copy of `n` bytes fits the user capacity beside the copies held and the write-outs that wait to start (R308), and the tier
accepts writes (R316). -/
def State.copyFits (s : State) (id n : Nat) : Bool :=
  let sum (l : List Nat) : Nat := l.foldl (· + ·) 0
  let waits (o : Obj) : Bool := o.id != id && o.res == .departing && o.writeOut && (s.fcopyOf o.id).isNone
  let held := sum ((s.flash.copies.filter fun c => c.obj != id).map (·.size)) + sum ((s.objs.filter waits).map (·.size))
  decide (held + n ≤ (28672 - s.flash.spillGib) * gib) && !s.flash.readonly

/-! ## Tiles and their checks (R293, R323) -/

/-- Weight and scale bytes of a tile within a body read by `rd offset n`. -/
def tileBytes (rd : Nat → Nat → List Byte) (t : TileDir) : List Byte := rd t.off t.bytes ++ rd t.scaleOff t.scaleBytes

/-- A landing tile passes: header and index of a coded tile, its format, and the digest. -/
def tilePasses (t : TileDir) (bytes : List Byte) : Bool :=
  let w := bytes.take t.bytes
  (!t.coded || (tileHeaderOk w && bitsOf (fld w 0 1) 3 0 == t.fmt)) && shake256 bytes == t.tdigest

/-! ## Residency (R290, R295, R296, Table 11-5) -/

/-- Destroy an object, its extents, its flash copy and the stage-map entries that lie in it (R295, R300). -/
def State.destroyObj (s : State) (id : Nat) : State :=
  match s.obj id with
  | none => s
  | some o =>
    let s := s.finishWaiters o.stageW id stNotResident
    let s := if o.kind == .tileset then s.dropSys 0 id else s
    let s := if o.kind == .stage then s.modDies fun d => { d with stage := d.stage.filter fun e => e.stage != id } else s
    let s := (s.dropCopy id).modFlash fun f => { f.dropRefs (fun r => r.obj == id) with spills := f.spills.filter fun y => y.pool != id }
    let s := { s with objs := s.objs.filter fun x => x.id != id }
    (if s.objs.isEmpty then s.dropSys 2 0 else s).mendSys

/-- Start an arrival of an ABSENT object from a source. -/
def State.startArrival (s : State) (id : Nat) (src : LoadSrc) (w : List Waiter) : State :=
  s.modObj id fun o => { o with res := .arriving, landed := [], retried := [], evp := false, src := some src, arrive := w, trig := 0 }

/-- Start a departure (R295). -/
def State.startDepart (s : State) (id toDest : Nat) (w : List Waiter) : State :=
  s.modObj id fun o => { o with res := .departing, released := false, evictTo := toDest, writeOut := toDest == 0 && !o.fcopy, evicts := w }

/-- Some live view of some model holds the object. -/
def State.inView (s : State) (id : Nat) : Bool :=
  s.models.any fun m => m.views.any fun v => decide (v.state ≤ 1) && v.map.any fun (_, x, _) => x == id

/-- A retired view whose retirement destroys its objects (R332). -/
def Model.destroys (m : Model) (v : View) : Bool := (v.state == 2 && v.oldAction == 1) || (v.state == 3 && m.releaseAction == 1)

/-- The movement of an object that a retired view gave up has ended: it is destroyed, or skipped when a view or `OBJ_PIN` holds it by now
(R332). -/
def State.destroyEnd (s : State) (id : Nat) : State :=
  match s.obj id with
  | none => s
  | some o =>
    if !o.destroyAtEnd then s
    else if 0 < o.opins || s.inView id then
      let mark (m : Model) (v : View) : View := if m.destroys v then { v with map := v.map.map fun (i, x, z) => (i, x, z || x == id) } else v
      let skip (m : Model) : Model := { m with views := m.views.map (mark m) }
      { s.modObj id (fun o => { o with destroyAtEnd := false }) with models := s.models.map skip }
    else s.destroyObj id

/-- The object reaches ABSENT at the end of a departure: evicts complete, a waiting refetch starts (Table 11-5). -/
def State.departDone (s : State) (id : Nat) : State :=
  match s.obj id with
  | none => s
  | some o =>
    let s := s.modObj id fun o => { o with res := .absent, released := false, landed := [], evicts := [], writeOut := false }
    let s := s.finishWaiters o.evicts id stOK
    match o.refetchSrc with
    | some src =>
      let s := s.modObj id fun o => { o with refetch := [], refetchSrc := none }
      s.startArrival id src o.refetch
    | none => s.destroyEnd id

/-- Release a departing object's bytes: ABSENT in the same action when no write-out is needed (R290). -/
def State.releaseBytes (s : State) (id : Nat) : State :=
  match s.obj id with
  | none => s
  | some o =>
    if o.fcopy then (s.modObj id fun o => { o with released := true }).departDone id
    else s.modObj id fun o => { o with released := true }

/-- Cancel a departure (Table 11-5): RESIDENT again, a partial write-out discarded, the evicts complete CANCELLED. The copy that a
running OBJ_STAGE_FLASH writes is that command's and goes on. -/
def State.cancelDepart (s : State) (id : Nat) : State :=
  match s.obj id with
  | none => s
  | some o =>
    let s := if o.fcopy || !o.stageW.isEmpty then s else s.dropCopy id
    let s := s.modObj id fun o => { o with res := .resident, evicts := [], writeOut := false }
    s.finishWaiters o.evicts id stCancelled

/-- An arrival ends well (R296). -/
def State.arrivalEnd (s : State) (id : Nat) : State :=
  match s.obj id with
  | none => s
  | some o =>
    let s := s.modObj id fun o => { o with res := .resident, arrive := [], src := none, evp := false, evicts := [] }
    if o.evp then
      let short := o.evictTo == 0 && !o.fcopy && !s.copyFits id o.size
      if 0 < o.pins then (s.finishWaiters o.arrive id stOK).finishWaiters o.evicts id stBusy
      else if short then (s.finishWaiters o.arrive id stOK).finishWaiters o.evicts id stNoSpace
      else (s.startDepart id o.evictTo o.evicts).finishWaiters o.arrive id stSuperseded
    else (s.finishWaiters o.arrive id stOK).destroyEnd id

/-- An arrival fails (R293): ABSENT with nothing landed, waiting commands complete with `st`, a pending evict with OK. -/
def State.arrivalFail (s : State) (id st : Nat) : State :=
  match s.obj id with
  | none => s
  | some o =>
    let s := s.modObj id fun o => { o with res := .absent, landed := [], retried := [], arrive := [], evicts := [], evp := false, src := none }
    ((s.finishWaiters o.arrive id st).finishWaiters o.evicts id stOK).destroyEnd id

/-- The meeting of a promote or load with an object (Table 11-5). -/
def State.meetArrival (s : State) (r : Option Ref) (id : Nat) (src : LoadSrc) : State :=
  let fin (s : State) (st : Nat) : State := match r with
    | some r => s.finishObj r id st
    | none => s
  let w (alt : Nat) : List Waiter := match r with
    | some r => [{ ref := r, alt := alt }]
    | none => []
  match s.obj id with
  | none => s
  | some o =>
    match o.res with
    | .absent => s.startArrival id src (w stOK)
    | .arriving =>
      let s := if o.evp then (s.modObj id fun o => { o with evp := false, evicts := [] }).finishWaiters o.evicts id stCancelled else s
      s.modObj id fun o => { o with arrive := o.arrive ++ w stJoined }
    | .resident => fin s stAlready
    | .departing =>
      if o.released then
        s.modObj id fun o => { o with refetch := o.refetch ++ w stRefetched, refetchSrc := some (o.refetchSrc.getD src) }
      else fin (s.cancelDepart id) stDepartCancelled

/-- A movable object that a command names, with the common answers: no such object, another kind, lost. -/
def State.withMovable (s : State) (r : Ref) (id : Nat) (f : Obj → State → State) : State :=
  match s.obj id with
  | none => s.finish r stNotFound
  | some o =>
    if !o.movable then s.finishObj r id stBadField
    else if o.lost then s.finishObj r id stMemLost
    else f o s

/-- A HOSTBUF of at least `n` bytes. -/
def State.bufOf (s : State) (id n : Nat) : Option Obj :=
  (s.obj id).bind fun o => if o.kind == .hostbuf && decide (n ≤ o.size) then some o else none

/-- One or two sources with a split (R294). -/
def State.hostSrcOk (s : State) (tiles size s0 s1 split : Nat) (isProgram : Bool) : Bool :=
  (s.bufOf s0 size).isSome &&
  (if s1 = 0 then split == 0
   else !isProgram && decide (split ≤ tiles) &&
     (match s.bufOf s0 size, s.bufOf s1 size with
      | some a, some c => a.hostPort != c.hostPort
      | _, _ => false))

/-- OBJ_LOAD_HOST (R294, Table 11-5). -/
def opObjLoadHost (r : Ref) (b : List Byte) (s : State) : State :=
  let id := fld b 0 4
  if !onlyUses b [(0, 16)] then s.finish r stBadField
  else s.withMovable r id fun o s =>
    let s0 := fld b 4 4
    let s1 := fld b 8 4
    let sp := fld b 12 4
    if !s.hostSrcOk o.tiles o.size s0 s1 sp (o.kind == .program) then s.finishObj r id stBadField
    else s.meetArrival (some r) id (.host s0 s1 sp)

/-- OBJ_STAGE_FLASH (R294, R308). -/
def opObjStageFlash (r : Ref) (b : List Byte) (s : State) : State :=
  let id := fld b 0 4
  let src := fld b 4 4
  if !onlyUses b [(0, 8)] then s.finish r stBadField
  else s.withMovable r id fun o s =>
    if src != 0 && (s.bufOf src o.size).isNone then s.finishObj r id stBadField
    else if !s.flash.ready then s.finishObj r id stNotReady
    else if o.fcopy then s.finishObj r id stAlready
    else if src == 0 && o.res != .resident then s.finishObj r id stNotResident
    else if !s.copyFits id o.size then s.finishObj r id stNoSpace
    else
      let wait (s : State) (p : Option Port) : State :=
        s.modObj id fun o => { o with stageW := o.stageW ++ [{ ref := r, alt := stOK }], stagePort := p }
      if !o.stageW.isEmpty then wait s o.stagePort
      else if src = 0 then wait (s.startCopy o (s.objBody o)) none
      else match s.bufOf src o.size with
      | none => s.finishObj r id stBadField
      | some h =>
        match s.hostRead h.hostPort h.hostAddr o.size with
        | none => s.finishObj r id stNoSource
        | some bytes =>
          let rd (a n : Nat) : List Byte := (bytes.drop a).take n
          if !o.dir.all fun t => tilePasses t (tileBytes rd t) then s.finishObj r id stTileCorrupt
          else wait (s.startCopy o (bytes.zipIdx.filterMap fun (v, i) => if v == 0 then none else some (i, v))) (some h.hostPort)

/-- Some optical port is UP (R410). -/
def State.opticalUp (s : State) : Bool := (s.link 28).state == .up || (s.link 29).state == .up

/-- OBJ_PROMOTE (R294, R410, Table 11-5). -/
def opObjPromote (r : Ref) (b : List Byte) (s : State) : State :=
  let id := fld b 0 4
  let src := fld b 4 1
  if !onlyUses b [(0, 5)] || decide (1 < src) then s.finish r stBadField
  else s.withMovable r id fun o s =>
    let starts := o.res == .absent || (o.res == .departing && o.released)
    if src = 0 then
      if starts && !o.fcopy && o.res == .absent then s.finishObj r id stNoSource
      else if starts && !s.flash.ready then s.finishObj r id stNotReady
      else s.meetArrival (some r) id .flash
    else if o.res == .absent then
      if !s.opticalUp then s.finishObj r id stNoSource
      else (s.meetArrival (some r) id .twin).emits ((List.range (max o.tiles 1)).map fun t => .tileReq id t)
    else s.meetArrival (some r) id .twin

/-- The pool has an open sequence. -/
def State.poolInUse (s : State) (id : Nat) : Bool := s.seqs.any fun q => q.pool == id && !q.closed

/-- OBJ_EVICT (R295, Table 11-5). -/
def opObjEvict (r : Ref) (b : List Byte) (s : State) : State :=
  let id := fld b 0 4
  let dest := fld b 4 1
  if !onlyUses b [(0, 5)] || decide (2 < dest) then s.finish r stBadField
  else if dest = 2 then
    match s.obj id with
    | none => s.finish r stNotFound
    | some o =>
      if 0 < o.pins || o.res == .arriving || o.res == .departing || s.poolInUse id then s.finishObj r id stBusy
      else (s.destroyObj id).finish r stOK (({ o with landed := [] } : Obj).result)
  else s.withMovable r id fun o s =>
    let join : List Waiter := [{ ref := r, alt := stJoined }]
    match o.res with
    | .absent => s.finishObj r id stAlready
    | .arriving =>
      if o.evp then s.modObj id fun o => { o with evicts := o.evicts ++ join }
      else if dest = 1 && !o.fcopy then s.finishObj r id stNoSource
      else s.modObj id fun o => { o with evp := true, evictTo := dest, evicts := [{ ref := r, alt := stOK }] }
    | .resident =>
      if 0 < o.pins then s.finishObj r id stBusy
      else if dest = 1 && !o.fcopy then s.finishObj r id stNoSource
      else if dest = 0 && !o.fcopy && !s.flash.ready then s.finishObj r id stNotReady
      else if dest = 0 && !o.fcopy && !s.copyFits id o.size then s.finishObj r id stNoSpace
      else s.startDepart id dest [{ ref := r, alt := stOK }]
    | .departing => s.modObj id fun o => { o with evicts := o.evicts ++ join }

/-- OBJ_PIN (R291, Table 11-5). -/
def opObjPin (r : Ref) (b : List Byte) (s : State) : State :=
  let id := fld b 0 4
  if !onlyUses b [(0, 4)] then s.finish r stBadField
  else match s.obj id with
  | none => s.finish r stNotFound
  | some o =>
    if o.lost then s.finishObj r id stMemLost
    else if o.res == .absent || (o.res == .departing && o.released) then s.finishObj r id stNotResident
    else if o.pins = 65535 then s.finishObj r id stBusy
    else
      let s := if o.res == .departing then s.cancelDepart id else s
      (s.modObj id fun o => { o with pins := o.pins + 1, opins := o.opins + 1 }).finishObj r id stOK

/-- OBJ_UNPIN (R291): removes one pin of OBJ_PIN only. -/
def opObjUnpin (r : Ref) (b : List Byte) (s : State) : State :=
  let id := fld b 0 4
  if !onlyUses b [(0, 4)] then s.finish r stBadField
  else match s.obj id with
  | none => s.finish r stNotFound
  | some o =>
    if o.opins = 0 then s.finishObj r id stBadField
    else (s.modObj id fun o => { o with pins := o.pins - 1, opins := o.opins - 1 }).finishObj r id stOK

/-- OBJ_QUERY (R289): the directory entry goes to `RESP_ADDR`. -/
def opObjQuery (r : Ref) (b : List Byte) (s : State) : State :=
  let id := fld b 0 4
  if !onlyUses b [(0, 4), (8, 8)] then s.finish r stBadField
  else match s.obj id with
  | none => s.finish r stNotFound
  | some o =>
    let (s, lost) := s.hostWrite r.src.port (fld b 8 8) o.entry
    s.finishWith r stOK o.result lost

/-- An object becomes lost, or ABSENT when a flash copy holds it (R278); commands that wait on a lost object complete with
MEM_LOST. -/
def State.loseObj (s : State) (id : Nat) : State :=
  match s.obj id with
  | none => s
  | some o =>
    if o.movable && o.fcopy then
      match o.res with
      | .arriving => s.arrivalFail id stTileCorrupt
      | .departing => s.departDone id
      | _ => s.modObj id fun o => { o with res := .absent, landed := [], released := false }
    else
      let w := o.arrive ++ o.evicts ++ o.stageW ++ o.refetch
      let s := s.modObj id fun o => { o with
        lost := true, arrive := [], evicts := [], stageW := [], refetch := [], refetchSrc := none, evp := false, src := none, writeOut := false,
        res := if o.res == .arriving || o.res == .departing then .absent else o.res, landed := if o.res == .resident then o.landed else [] }
      (s.dropCopy id).finishWaiters w id stMemLost

end Sys2Proof.Machine
end

