-- ==== Sys2Proof/Machine/Tokens.lean ====
section
/-! DEFINITION. Barrier and commit tokens (R225 to R227): building and sending them, the slice master's record of a step,
and the report of a failed step (Table 09-7). -/

namespace Sys2Proof.Machine

open Sys2Proof

/-! ## Member side -/

/-- The digest of a step: the generations of the banks it runs with (R371, R375). -/
def State.stepDigest (s : State) (t : Step) : List Byte :=
  let x := s.slc t.slice
  s.sliceDigest x (x.rgenOf t.rbank) (x.pgenOf t.pbank)

/-- A token of a step as this member sends it. -/
def State.tokOf (s : State) (t : Step) : Token :=
  { tag := (s.slc t.slice).tag, stepId := t.id, run := t.run % 256, barrier := 0, member := (s.slc t.slice).member, cause := 0,
    status := 0, batchDigest := 0, sliceDigest := s.stepDigest t }

/-- Coordinate of the slice's master. -/
def State.masterCoord (s : State) (h : Nat) : Nat := s.memberCoord h (s.slc h).master

def TokKind.num : TokKind → Nat
  | .arrive => 1 | .release => 2 | .prepared => 3 | .commit => 4 | .committed => 5 | .killReq => 6 | .kill => 7 | .killed => 8

/-- The 64 bytes of a token (Table 09-4). -/
def tokenBytes (k : TokKind) (t : Token) : List Byte :=
  leBytes 8 t.stepId ++ leBytes 1 t.run ++ leBytes 1 k.num ++ leBytes 2 t.barrier ++ leBytes 1 t.member ++ leBytes 1 t.cause ++ leBytes 2 0 ++
  leBytes 8 t.batchDigest ++ padTo 32 t.sliceDigest ++ leBytes 8 0

/-- The body of a COMMIT: 4 bytes for each entry, then a path record for each TREE entry, zeros beyond `N_ACC` nodes (R226). -/
def commitBytes (tree : List Bool) (l : List CommitEntry) : List Byte :=
  (l.flatMap fun e => leBytes 4 (e.nAcc + 128 * boolNat e.discard)) ++
  ((l.zip tree).filter (·.2)).flatMap fun x => padTo 64 ((if x.1.discard then [] else x.1.path.take x.1.nAcc).flatMap (leBytes 1))

/-- Send a token of a slice to a coordinate: CONTROL traffic over the slice's routes, from and to the Easel on IO0 (R225). DESIGN CHOICE (log
entry 133): its header names die 0 at both ends. -/
def State.sendToken (s : State) (h : Nat) (k : TokKind) (dst : Nat) (t : Token) (body : List CommitEntry) (flags : BitVec 5)
    (ovfPairs ovfRounds : Nat) : State :=
  let x := s.slc h
  let st := s.stepOf h t.stepId
  let gdn := 8 * (s.members h).idxOf dst
  let r := s.routeTo h ((st.map (·.rbank)).getD x.rbank) 0 8 (8 * x.member) dst gdn 8
  s.emit (.token r k dst t body flags ovfPairs ovfRounds (tokenBytes k t ++ commitBytes ((st.map fun y => y.seqs.map fun e => e.kind == 3).getD []) body))

/-- Send a token to the master. -/
def State.toMaster (s : State) (h : Nat) (k : TokKind) (t : Token) (flags : BitVec 5 := 0) (ovfPairs ovfRounds : Nat := 0) : State :=
  s.sendToken h k (s.masterCoord h) t [] flags ovfPairs ovfRounds

/-- A step fails on this member (Table 09-7, last row): its first status is kept and reported to the master, once a run. -/
def State.failStep (s : State) (h id status : Nat) : State :=
  match s.stepOf h id with
  | none => s
  | some t =>
    if 4 ≤ t.phase ∨ t.status ≠ 0 ∨ t.killing.isSome then s
    else
      let s := s.modStep h id fun t => { t with status := status }
      s.toMaster h .killReq { s.tokOf t with status := status }

/-- Fail the step in a slot. -/
def State.failSlot (s : State) (slot status : Nat) : State :=
  match s.stepAt slot with
  | some t => s.failStep t.slice t.id status
  | none => s

/-- What the step in a slot will name in its completion, when the failure at hand is the one that ends it. -/
def State.blame (s : State) (slot : Nat) (b : Blame) : State :=
  s.modStepAt slot fun t => if 4 ≤ t.phase ∨ t.status ≠ 0 ∨ t.killing.isSome then t else { t with blame := some b }

/-- A tile fails its step, which names it (R117, R134). -/
def State.failTile (s : State) (k : Nat) (e : Tile) (status : Nat) : State :=
  (s.blame e.slot (.tile k e.idx e.pal e.role)).failSlot e.slot status

/-- Ask the master for a kill of the given cause (R238). -/
def State.requestKill (s : State) (h id cause : Nat) : State :=
  match s.stepOf h id with
  | none => s
  | some t => if 4 ≤ t.phase then s else s.toMaster h .killReq { s.tokOf t with cause := cause }

/-- Count a token or message that matches no step in flight (R203, R227) on the first die in service. -/
def State.stale (s : State) : State :=
  match (List.range 8).find? fun k => !(s.die k).lost with
  | some k => s.modDie k fun d => { d with distStale := satAdd 32 d.distStale 1 }
  | none => s

/-! ## Master side -/

def State.mstOf (s : State) (h id : Nat) : Option MasterStep := s.mst.find? fun m => m.slice == h && m.id == id

def State.modMst (s : State) (h id : Nat) (f : MasterStep → MasterStep) : State :=
  { s with mst := s.mst.map fun m => if m.slice == h && m.id == id then f m else m }

def mst0 (h id run : Nat) : MasterStep :=
  { slice := h, id := id, run := run, arrived := [], released := [], prepared := [], prepFlags := 0, ovfPairs := 0,
    ovfRounds := 0, committed := [], killed := [], expect := [], cands := [], decided := false, results := [], killing := false,
    restart := false, cause := 0, endStatus := 0, thenKill := none, startDigs := [], faultKills := 0, quantumKills := 0 }

/-- The master's record of a step, opened when there is none. -/
def State.openMst (s : State) (h id run : Nat) : State :=
  if (s.mstOf h id).isSome then s else { s with mst := s.mst ++ [mst0 h id run] }

def State.dropMst (s : State) (h id : Nat) : State := { s with mst := s.mst.filter fun m => !(m.slice == h && m.id == id) }

/-- The routing and placement banks that a step started now would run with: a load whose `AT_STEP` it reaches switches (R371). -/
def Slice.banksFor (x : Slice) (id : Nat) : Nat × Nat :=
  let sw (p : Bool) : Bool := x.loads.any fun g => g.placement == p && decide (g.atStep ≤ id)
  (if sw false then 1 - x.rbank else x.rbank, if sw true then 1 - x.pbank else x.pbank)

/-- The digest the master holds for a step: its own step's banks, or before its own start those it would start with. -/
def State.mstDigest (s : State) (h id : Nat) : List Byte :=
  match s.stepOf h id with
  | some t => s.stepDigest t
  | none =>
    let x := s.slc h
    let b := x.banksFor id
    s.sliceDigest x (x.rgenOf b.1) (x.pgenOf b.2)

/-- Send a token to every member (R225, R232, R238). -/
def State.toAll (s : State) (h : Nat) (k : TokKind) (t : Token) (body : List CommitEntry) : State :=
  (s.members h).foldl (fun s c => s.sendToken h k c t body 0 0 0) s

/-- A token of the master for a step. -/
def State.mstTok (s : State) (m : MasterStep) : Token :=
  { tag := (s.slc m.slice).tag, stepId := m.id, run := m.run % 256, barrier := 0, member := (s.slc m.slice).member, cause := 0,
    status := 0, batchDigest := 0, sliceDigest := s.mstDigest m.slice m.id }

end Sys2Proof.Machine
end

