-- ==== Sys2Proof/Machine/Tiles.lean ====
section
/-! DEFINITION. The list controller of a compute die (spec/05_tile_lists.md): dependency counters, appending, ready order,
the choice of a claim, completion, failure, reduction groups and what a kill frees. -/

namespace Sys2Proof.Machine

open Sys2Proof

/-! ## Entries -/

def Die.entry (d : Die) (i : Nat) : Option Tile := d.tiles.find? fun e => e.idx == i

def Die.modEntry (d : Die) (i : Nat) (f : Tile → Tile) : Die :=
  { d with tiles := d.tiles.map fun (e : Tile) => if e.idx == i then f e else e }

def Die.dropEntry (d : Die) (i : Nat) : Die := { d with tiles := d.tiles.filter fun e => e.idx != i }

/-- Index ranges that the die agents give a step slot: an equal share of the counters, groups and merge entries (log entry 31). -/
def slotCtrs : Nat := 1024
def slotGroups : Nat := 64
def slotMerges : Nat := 1024

/-- The step slot that owns a counter. -/
def ctrSlot (i : Nat) : Nat := i / slotCtrs

/-! ## Counters (R125 to R127) -/

/-- A counter's value; one never set reads zero. -/
def Die.ctr (d : Die) (i : Nat) : Nat := ((d.ctrs.find? fun (j, _, _) => j == i).map fun (_, v, _) => v).getD 0

def Die.putCtr (d : Die) (i v : Nat) : Die :=
  { d with ctrs := (d.ctrs.filter fun (j, _, _) => j != i) ++ (if v = 0 then [] else [(i, v, ctrSlot i)]) }

/-- Insert by step slot and then `TILE_SEQ` (R126). -/
def insertBySeq (e : Tile) : List Tile → List Tile
  | [] => [e]
  | x :: t => if e.slot < x.slot ∨ (e.slot = x.slot ∧ e.tileSeq < x.tileSeq) then e :: x :: t else x :: insertBySeq e t

/-- Entries that become READY at one time: they share a place in the die's ready order, so that ties go to the lower index (R128). -/
def Die.readyAll (now : Nat) (d : Die) (l : List Nat) : Die :=
  { (l.foldl (fun d i => d.modEntry i fun e => { e with state := .ready, readyAt := now, readyNo := d.readyNo }) d) with readyNo := d.readyNo + 1 }

/-- One entry becomes READY, next in the die's ready order. -/
def Die.makeReady (now : Nat) (d : Die) (i : Nat) : Die := d.readyAll now [i]

/-- A page that an ATTN tile reads is not resident (R156): the tile's range holds a SPILLED or ARRIVING page. -/
def State.pageAway (s : State) (t : Step) (e : Tile) : Bool :=
  match s.seqOf (fld e.args 0 4) with
  | none => false
  | some q => (q.map.filter fun (lp, _) => decide (fld e.args 12 4 ≤ lp) && decide (lp < fld e.args 12 4 + fld e.args 16 2)).any fun (lp, id) =>
      ((s.pageOf q.pool id).state == .spilled || (s.pageOf q.pool id).state == .arriving) &&
      !t.staged.any fun (h, l, _) => h == q.h && l == lp

/-- The weight tile of an expert tile is on the cold path and has not landed on the die (R341). -/
def Die.coldAway (d : Die) (e : Tile) : Bool :=
  e.rowBlock.isSome && d.stage.any fun x => x.obj == fld e.args 0 4 && x.tile == fld e.args 4 4 && x.cold && !x.landed

/-- The agent's own waits (R156, R175, R341): a KVW tile whose sequence waits for its tail copy, an ATTN tile with a page that
is not resident and an expert tile whose cold weights have not landed stand behind one more counter. -/
def State.copyHeld (s : State) (k : Nat) (e : Tile) : Bool :=
  !e.nop && (match s.stepAt e.slot with
    | some t => (e.role == 7 && t.copies.any fun c => !c.done && c.seq == fld e.args 0 4) || (e.role == 2 && s.pageAway t e) ||
        (s.die k).coldAway e
    | none => false)

/-- Every WAITING tile of the counters at zero becomes READY, in the order of R126, but those held by the agent. -/
def Die.wake (now : Nat) (held : Tile → Bool) (d : Die) (l : List Nat) : Die :=
  ((d.tiles.filter fun e => e.state == .waiting && e.waitEn && l.contains e.wait && !held e).foldr insertBySeq []).foldl
    (fun d e => d.makeReady now e.idx) d

/-- SAMPLE tiles that are READY put their step in phase SAMPLE (Table 09-3). -/
def State.samplePhase (s : State) (k : Nat) : State :=
  ((s.die k).tiles.filter fun e => e.role == 5 && e.state == .ready).foldl
    (fun s e => s.modStepAt e.slot fun t => if t.phase = 1 then { t with phase := 2 } else t) s

/-- The layer contexts whose GATE tiles are all complete when the counters of a list reach zero (R205). -/
def Die.gateZero (d : Die) (l : List Nat) : Die :=
  { d with ctxs := d.ctxs.map fun (c : Ctx) => if l.contains c.gateCtr then { c with gateDone := true } else c }

/-- One decrement; below zero the counter's owner fails with DEP_ERROR (R127). -/
def State.decOne (s : State) (k i : Nat) : State :=
  if (s.die k).ctr i = 0 then s.failSlot (ctrSlot i) stDepError else s.modDie k fun d => d.putCtr i (d.ctr i - 1)

/-- Decrement counters in one operation: the tiles of those that reach zero become READY (R125 to R127, R130). -/
def State.decCtrs (s : State) (k : Nat) (l : List Nat) : State :=
  let s' := l.foldl (fun s i => s.decOne k i) s
  let z := l.filter fun i => (s.die k).ctr i != 0 && (s'.die k).ctr i == 0
  if z.isEmpty then s' else (s'.modDie k fun d => (d.wake s.now (s'.copyHeld k) z).gateZero z).samplePhase k

/-- Decrement one counter. -/
def State.decCtr (s : State) (k i : Nat) : State := s.decCtrs k [i]

/-- Set a counter; DEP_ERROR while a WAITING tile waits on it (R127). -/
def State.setCtr (s : State) (k i v : Nat) : State :=
  if (s.die k).tiles.any fun e => e.state == .waiting && e.waitEn && e.wait == i then s.failSlot (ctrSlot i) stDepError
  else s.modDie k fun d => d.putCtr i (v % 2 ^ 24)

/-! ## Appending (R122, R139) -/

/-- The lowest-numbered FREE entry: below the count of listed entries one is free, or the next is. -/
def Die.lowFree (d : Die) : Nat := ((List.range (d.tiles.length + 1)).find? fun i => (d.entry i).isNone).getD 0

/-- The quota that a die agent sets at step start: an equal share of the list (R139; log entry 31). -/
def State.quota (s : State) : Nat := 65536 / max 1 (slotsUsed s)

/-- Entries that a slot may hold: its quota, and all of them while it is the only active slot (R139). -/
def State.slotQuota (s : State) (k slot : Nat) : Nat :=
  if slotsUsed s ≤ 1 then 65536 else (((s.die k).agents.find? fun a => a.slot == slot).map (·.quota)).getD s.quota

/-- The tile may enter the list now: the last 4,096 FREE entries only for a tile READY at once. -/
def State.admits (s : State) (k : Nat) (e : Tile) (ready : Bool) : Bool :=
  let d := s.die k
  let free := 65536 - d.tiles.length
  decide ((d.tiles.filter fun x => x.slot == e.slot).length < s.slotQuota k e.slot) && decide ((if ready then 0 else 4096) < free)

/-- A new tile would be READY at once. -/
def Die.readyNow (d : Die) (e : Tile) : Bool := !e.waitEn || d.ctr e.wait == 0

/-- Place a tile in the lowest FREE entry. -/
def State.placeTile (s : State) (k : Nat) (e : Tile) : State :=
  let d := s.die k
  let i := d.lowFree
  let r := d.readyNow e && !s.copyHeld k e
  let s := s.modDie k fun d =>
    let d := { d with tiles := d.tiles ++ [{ e with idx := i, state := .waiting }] }
    if r then d.makeReady s.now i else d
  s.samplePhase k

/-- A tail copy has ended: the KVW tiles that waited for nothing else become READY, in the order of R126. -/
def State.wakeCopy (s : State) (slot : Nat) : State :=
  (List.range 8).foldl (fun s k => s.modDie k fun d =>
    ((d.tiles.filter fun e => e.slot == slot && e.state == .waiting && d.readyNow e && !s.copyHeld k e).foldr insertBySeq []).foldl
      (fun d e => d.makeReady s.now e.idx) d) s

/-! ## Claims (R128, R129) -/

/-- The earliest in ready order; the lower index of equals. -/
def earliest (l : List Tile) : Option Tile :=
  l.foldl (fun b e => match b with
    | none => some e
    | some x => if e.readyNo < x.readyNo ∨ (e.readyNo = x.readyNo ∧ e.idx < x.idx) then some e else some x) none

/-- The group of a REDUCE tile is poisoned. -/
def Die.poisoned (d : Die) (e : Tile) : Bool := e.reduce && d.groups.any fun g => g.idx == e.group && g.poisoned

/-- A READY tile that a core with the pool mask may be granted. -/
def State.mayGrant (s : State) (d : Die) (mask : Nat) (e : Tile) : Bool :=
  e.state == .ready && !e.nop && bitOf mask e.pool && !d.poisoned e &&
  (match s.stepAt e.slot with
   | some t => t.killing.isNone
   | none => false)

/-- Palettes of a core's running and idle slot. -/
def Core.runPal (c : Core) : Nat := if c.active1 then c.pal1 else c.pal0
def Core.idlePal (c : Core) : Nat := if c.active1 then c.pal0 else c.pal1

/-- The tile that rules 1 to 5 of R128 choose. -/
def State.pickTile (s : State) (k core : Nat) : Option Tile :=
  let d := s.die k
  let c := d.cores.getD core State.core0
  let l := d.tiles.filter fun e => s.mayGrant d c.mask e
  let top := (l.map (·.prio)).foldl max 0
  let l := l.filter fun e => e.prio == top
  let old := l.filter fun e => decide (e.readyAt + cyclesUs 20 ≤ s.now)
  match earliest old, earliest (l.filter fun e => e.pal == c.runPal), earliest (l.filter fun e => e.pal == c.idlePal) with
  | some e, _, _ => some e
  | none, some e, _ => some e
  | none, none, some e => some e
  | none, none, none => earliest l

/-- The core can take one more tile: its port is open and it holds fewer than two. -/
def Core.hasRoom (c : Core) : Bool := c.able && (c.running.isNone || c.loaded.isNone)

/-- A palette is in a slot, or its load runs or waits. -/
def Core.hasPal (c : Core) (p : Nat) : Bool := p == c.pal0 || p == c.pal1 || p == c.loadingPal || c.nextPal.contains p

/-- A palette in neither slot loads into the idle slot, after the loads that came before it (R115, R129). -/
def Core.loadPal (c : Core) (p : Nat) : Core :=
  if c.hasPal p then c else if c.loadingPal = 0 then { c with loadingPal := p } else { c with nextPal := c.nextPal ++ [p] }

/-- The running tile's palette takes over: at once from the idle slot, else after its load. -/
def Core.goOn (c : Core) (p : Nat) : Core :=
  if p == c.runPal then c else if p == c.idlePal then { c with active1 := !c.active1 } else c.loadPal p

/-- The idle slot has been loaded with code: the running tile, if it waits for this palette, goes on from it; the next load begins,
and a running tile whose palette the load displaced has it loaded again. -/
def Core.slotLoaded (want : Option Nat) (code : List Byte) (c : Core) : Core :=
  let p := c.loadingPal
  let c := if c.active1 then { c with pal0 := p, prog0 := code } else { c with pal1 := p, prog1 := code }
  let c := { c with loadingPal := c.nextPal.headD 0, nextPal := c.nextPal.tail }
  match want with
  | some w => c.goOn w
  | none => c

/-- A core takes a granted tile: it runs, or waits as the second; a palette in neither slot loads into the idle slot. -/
def Core.take (now : Nat) (e : Tile) (c : Core) : Core :=
  let c := { c with lastProgress := now }
  if c.running.isNone then { c with running := some e.idx }.goOn e.pal else { c with loaded := some e.idx }.loadPal e.pal

/-- Grant a tile: CLAIMED, `ATTEMPTS` and `CORE` (R128, R129). -/
def State.grant (s : State) (k core : Nat) (e : Tile) : State :=
  s.modDie k fun d =>
    let d := d.modEntry e.idx fun e => { e with state := .claimed, attempts := e.attempts + 1, core := core }
    { d with cores := d.cores.modify core (Core.take s.now e) }

/-- Everything that a core does for an entry ends with it: its cell jobs, transfers and waiting commands. -/
def Core.dropWork (c : Core) (i : Nat) : Core :=
  let stop (x : Cell) : Cell :=
    { x with job := if (x.job.map (·.entry)) == some i then none else x.job, fwd := if (x.fwd.map (·.entry)) == some i then none else x.fwd }
  { c with dmas := c.dmas.filter (fun (_, e, _) => e != i), seqQ := c.seqQ.filter (fun (e, _) => e != some i && e != none),
           jobQ := c.jobQ.filter (fun (_, e, _) => e != i), cells := c.cells.map stop }

/-- A core gives up an entry: its work for it ends, and its second tile, if any, runs next. -/
def Core.leave (d : Die) (now i : Nat) (c : Core) : Core :=
  let c := { c with lastProgress := now }
  if c.loaded == some i then { c.dropWork i with loaded := none, flags2 := 0 }
  else if c.running == some i then
    let next := (c.loaded.bind d.entry).map (·.pal)
    let c := { c.dropWork i with running := c.loaded, loaded := none, flags := c.flags2, flags2 := 0 }
    match next with
    | some p => c.goOn p
    | none => c
  else c

/-- A tile's read of its weights ends (R290, R300): a mapping removed while it was read goes with its last reader. -/
def State.dropReads (s : State) (k i : Nat) : State :=
  match (s.die k).entry i with
  | none => s
  | some e =>
    let s := match e.readsObj with
      | some o => s.modObj o fun (x : Obj) => { x with readers := x.readers - 1 }
      | none => s
    let dec (x : StageEnt) : StageEnt := if e.readsStage == some (x.obj, x.tile) then { x with readers := x.readers - 1 } else x
    let gone (x : StageEnt) : Bool := e.readsStage == some (x.obj, x.tile) && !x.landed && x.readers == 0
    s.modDie k fun d => { d.modEntry i (fun e => { e with readsObj := none, readsStage := none }) with
      stage := (d.stage.map dec).filter fun x => !gone x }

def State.freeCore (s : State) (k core i : Nat) : State :=
  (s.dropReads k i).modDie k fun d => { d with cores := d.cores.modify core (Core.leave d s.now i) }

/-! ## Completion and failure -/

/-- A report is current: the entry is CLAIMED by the core and holds the named `TILE_SEQ` in the named attempt (R131). -/
def Die.current (d : Die) (core i tileSeq attempt : Nat) : Option Tile :=
  (d.entry i).bind fun e =>
    if e.state == .claimed && e.core == core && e.tileSeq == tileSeq && e.attempts == attempt &&
      !((d.cores.getD core State.core0).closed) then some e else none

/-- A discarded report (R131). -/
def State.staleTile (s : State) (k : Nat) : State := s.modDie k fun d => { d with tlStale := satAdd 32 d.tlStale 1 }

/-- A group whose members are all DONE closes, its members FREE (R136). -/
def Die.closeGroup (d : Die) (g : Nat) : Die :=
  match d.groups.find? fun x => x.idx == g with
  | none => d
  | some x =>
    if (d.tiles.filter fun e => e.reduce && e.group == g && e.state == .done).length = x.members && !x.poisoned then
      { d with tiles := d.tiles.filter (fun e => !(e.reduce && e.group == g)), groups := d.groups.filter fun y => y.idx != g }
    else d

/-- The one operation of a completion (R130): flags, counters, FREE or DONE; then the group, when it is whole (R136). -/
def State.completeEntry (s : State) (k i : Nat) (flags : BitVec 5) : State :=
  match (s.die k).entry i with
  | none => s
  | some e =>
    let s := s.modStepAt e.slot fun t => { t with flags := t.flags ||| flags }
    let s := s.modDie k fun d =>
      if e.reduce then d.modEntry i fun e => { e with state := .done, status := 0, flags := flags } else d.dropEntry i
    let s := s.decCtrs k ((if e.sig0En then [e.sig0] else []) ++ if e.sig1En then [e.sig1] else [])
    if e.reduce then s.modDie k fun d => d.closeGroup e.group else s

/-- Status codes of Table 05-3. -/
def tsBadField := 1
def tsBadFormat := 2
def tsUnpack := 3
def tsPalFault := 4
def tsWatchdog := 5
def tsHwErr := 6
def tsDmaErr := 7
def tsLost := 8
def tsKilled := 9

/-- A member that has added poisons its group (R137). -/
def Die.poison (d : Die) (e : Tile) : Die :=
  if e.reduce && e.wrote then { d with groups := d.groups.map fun (g : RGroup) => if g.idx == e.group then { g with poisoned := true } else g } else d

/-- A tile back in READY, or in FAILED, at four attempts ends its step (R134). -/
def State.retryLimit (s : State) (k : Nat) (e : Tile) : State := if 4 ≤ e.attempts then s.failTile k e stTileRetryLimit else s

/-- A failed or reclaimed tile returns to READY (Table 05-3): a member that has added poisons its group (R137); at four
attempts the step fails (R134). -/
def State.backToReady (s : State) (k i status : Nat) : State :=
  match (s.die k).entry i with
  | none => s
  | some e =>
    let s := s.modDie k fun d =>
      let d := (d.modEntry i fun e => { e with status := status }).makeReady s.now i
      let d := if status = tsLost ∨ status = tsHwErr then { d with tlReclaim := satAdd 32 d.tlReclaim 1 } else d
      let d := if status = tsHwErr then { d with tlHwErr := satAdd 32 d.tlHwErr 1 } else d
      d.poison e
    s.retryLimit k e

/-- A tile reaches FAILED (Table 05-3). -/
def State.toFailed (s : State) (k i status : Nat) : State :=
  match (s.die k).entry i with
  | none => s
  | some e => (s.modDie k fun d => (d.modEntry i fun e => { e with state := .failed, status := status }).poison e).retryLimit k e

/-- A tile whose failure fails its step at once (Table 05-3): the entry keeps the tile's status until the kill frees it. -/
def State.tileEnds (s : State) (k i status stepStatus : Nat) : State :=
  match (s.die k).entry i with
  | none => s
  | some e => (s.modDie k fun d => d.modEntry i fun e => { e with state := .failed, status := status }).failTile k e stepStatus

/-- The list controller's action on a failed tile (Table 05-3, R117). DESIGN CHOICE (log entry 123): a second `PAL_FAULT` or
`WATCHDOG` at four attempts ends the step with `TILE_RETRY_LIMIT`, the first of the two statuses to be set. -/
def State.tileFailed (s : State) (k i status : Nat) : State :=
  match (s.die k).entry i with
  | none => s
  | some e =>
    let s := s.freeCore k e.core i
    if status = tsBadField then s.tileEnds k i status stBadField
    else if status = tsBadFormat then s.tileEnds k i status stBadFormat
    else if status = tsUnpack ∨ status = tsDmaErr then s.toFailed k i status
    else if status = tsPalFault ∨ status = tsWatchdog then
      let again := e.palFails.any fun c => c != e.core
      let s := s.modDie k fun d => d.modEntry i fun e => { e with palFails := addNew e.palFails e.core }
      let s := s.backToReady k i status
      if again then s.failTile k e stPaletteFault else s
    else s.backToReady k i status

/-- A poisoned group with no CLAIMED member (R137): area zeroed, members READY, the decrements of DONE members restored; a member
back in READY at four attempts ends the step (R134). -/
def State.resetGroup (s : State) (k g : Nat) : State :=
  match (s.die k).groups.find? fun x => x.idx == g with
  | none => s
  | some x =>
    let mem := (s.die k).tiles.filter fun e => e.reduce && e.group == g
    if !x.poisoned || mem.any (fun e => e.state == .claimed) then s
    else
      let s := s.modWrite x.addr (List.replicate x.bytes 0)
      let up (d : Die) (en : Bool) (i : Nat) : Die := if en then d.putCtr i (d.ctr i + 1) else d
      let s := s.modDie k fun d =>
        let d := mem.foldl (fun d e => if e.state == .done then up (up d e.sig0En e.sig0) e.sig1En e.sig1 else d) d
        let d := mem.foldl (fun d e => d.modEntry e.idx fun e => { e with wrote := false }) d
        { d.readyAll s.now (mem.map (·.idx)) with groups := d.groups.map fun (y : RGroup) => if y.idx == g then { y with poisoned := false } else y }
      mem.foldl (fun s e => s.retryLimit k e) s

/-! ## Kill and release of a slot (R125, R138) -/

/-- What a kill frees at once on one die: every entry of the slot that is not CLAIMED, and what the die agent holds for it. -/
def Die.killSlot (d : Die) (slot : Nat) : Die :=
  { d with
    tiles := d.tiles.filter (fun e => e.slot != slot || e.state == .claimed)
    groups := d.groups.filter (fun g => g.slot != slot)
    merges := d.merges.filter (fun m => m.slot != slot)
    ctxs := d.ctxs.filter (fun c => c.slot != slot)
    moePars := d.moePars.filter (fun c => c.slot != slot)
    agents := d.agents.filter (fun a => a.slot != slot) }

/-- The counters of a slot are free again when it is released. -/
def Die.releaseSlot (d : Die) (slot : Nat) : Die :=
  { d.killSlot slot with
    tiles := d.tiles.filter (fun e => e.slot != slot)
    ctrs := d.ctrs.filter (fun (_, _, j) => j != slot) }

/-- CLAIMED tiles of a slot that still wait for their cores. -/
def State.slotHeld (s : State) (slot : Nat) : Bool :=
  s.dies.any fun d => !d.lost && d.tiles.any fun e => e.slot == slot && e.state == .claimed

end Sys2Proof.Machine
end

