-- ==== Sys2Proof/Machine/Models.lean ====
section
/-! DEFINITION. Models (spec/13_model_cache_weights.md): manifests, views and their retirement, in-place layer swaps,
prefetch schedules (R297, R298) and the commands MODEL_BIND, VIEW_SWITCH, LAYER_SWAP, MODEL_RELEASE, PREFETCH_SCHED. -/

namespace Sys2Proof.Machine

open Sys2Proof

/-! ## Manifests (R326) -/

def layerEnt (b : List Byte) : LayerEnt :=
  { moe := fld b 0 1 == 1, topk := fld b 1 1, experts := fld b 2 2, scoreScale := BitVec.ofNat 32 (fld b 4 4) }

def layerEntOk (b : List Byte) : Bool :=
  let e := layerEnt b
  decide (fld b 0 1 ≤ 1) && fld b 8 8 == 0 &&
  (if e.moe then decide (1 ≤ e.topk) && decide (e.topk ≤ 16) && decide (1 ≤ e.experts) && decide (e.experts ≤ 4096)
   else e.topk == 0 && e.experts == 0)

def setEnt (b : List Byte) : SetEnt :=
  { member := fld b 0 1, die := fld b 1 1, layer := fld b 2 2, expert := fld b 4 2, tiles := fld b 8 4, digest := (b.drop 16).take 32 }

def setEntOk (b : List Byte) : Bool :=
  let e := setEnt b
  decide (e.member < 64) && decide (e.die < 8) && fld b 6 2 == 0 && fld b 12 4 == 0 &&
  (e.layer == 0xFFFF || decide (e.layer < 256)) && (e.expert == 0xFFFF || decide (e.expert < 4096))

/-- A manifest in its form (Tables 13-3 to 13-5). -/
def parseManifest (b : List Byte) : Option Manifest :=
  let n := fld b 4 2
  let spec := fld b 6 1
  let h := fld b 7 1
  let hid := fld b 8 4
  let voc := fld b 12 4
  let mem := fld b 16 1
  let ns := fld b 20 4
  let lo := fld b 24 4
  let so := fld b 28 4
  let layers := chunks 16 n (b.drop lo)
  let sets := chunks 48 ns (b.drop so)
  if decide (128 ≤ b.length) && fld b 0 4 == 0x00010000 && decide (1 ≤ n) && decide (n ≤ 256) && decide (spec ≤ 2) &&
      (if spec = 1 then decide (1 ≤ h) && decide (h ≤ 8) else h == 0) && decide (32 ≤ hid) && decide (hid ≤ 65536) &&
      hid % 32 == 0 && decide (1 ≤ voc) && decide (voc ≤ 1048576) && [1, 2, 4, 8, 16, 32, 64].contains mem && fld b 17 3 == 0 &&
      decide (1 ≤ ns) && decide (ns ≤ 1048576) && lo % 16 == 0 && so % 16 == 0 && fld b 32 96 == 0 &&
      decide (lo + 16 * n ≤ b.length) && decide (so + 48 * ns ≤ b.length) && layers.all layerEntOk && sets.all setEntOk then
    some { nLayers := n, spec := spec, specH := h, hidden := hid, vocab := voc, members := mem, layers := layers.map layerEnt,
           sets := sets.map setEnt, digest := shake256 b, hdrDigest := shake256 (b.take 128) }
  else none

/-- The manifest is admitted (R327, R523). -/
def State.admitted (s : State) (b want : List Byte) : Bool :=
  let d := shake256 b
  d == want && (!s.sec.manEnf || s.sec.manAl.contains d)

/-! ## Views -/

def Model.view (m : Model) (no : Nat) : Option View := m.views.find? fun v => v.no == no

def Model.curView (m : Model) : Option View := m.view m.cur

/-- The view is the current one or held by steps. -/
def View.live (v : View) : Bool := decide (v.state ≤ 1)

def Model.modView (m : Model) (no : Nat) (f : View → View) : Model :=
  { m with views := m.views.map fun (v : View) => if v.no == no then f v else v }

/-- The member's sets of a manifest, with their indices. -/
def Manifest.own (m : Manifest) (member : Nat) : List (SetEnt × Nat) := m.sets.zipIdx.filter fun (e, _) => e.member == member

/-- Largest tile of an object, weights and scales. -/
def Obj.maxTile (o : Obj) : Nat := (o.dir.map fun t => t.bytes + t.scaleBytes).foldl max 0

/-- A model whose live views hold an object, other than model `h`. -/
def State.otherHolds (s : State) (h id : Nat) : Bool :=
  s.models.any fun m => m.h != h && !m.dead && m.views.any fun v => v.live && v.map.any fun (_, x, _) => x == id

/-- The conditions of R329 for a map (set index, object): a status, 0 when it is accepted. -/
def State.viewStatus (s : State) (man : Manifest) (member : Nat) (map : List (Nat × Nat)) (cold : List Nat) : Nat :=
  let own := man.own member
  let objs := map.map fun (i, x) => (man.sets.getD i { member := 64, die := 0, layer := 0, expert := 0, tiles := 0, digest := [] }, s.obj x)
  let coldOk := cold.zipIdx.all fun (c, k) =>
    c == 0 || (match s.obj c with
      | some o => o.kind == .stage && o.die == k &&
          decide (2 * ((objs.map fun (e, o) => if e.die == k && e.expert != 0xFFFF then (o.map Obj.maxTile).getD 0 else 0).foldl max 0) ≤ o.size)
      | none => false)
  if !(map.length == own.length && own.all (fun (_, i) => map.any fun (j, _) => j == i)) || !decide (map.map (·.2)).Nodup ||
      !objs.all (fun (e, o) => match o with
        | some o => o.kind == .tileset && o.tiles == e.tiles
        | none => false) || !coldOk then stBadField
  else if !objs.all (fun (e, o) => (o.map (·.setDigest)) == some e.digest) then stBadDigest
  else stOK

/-- The pins that one hold of a view puts on its objects (R291). -/
def State.pinView (s : State) (v : View) (up : Bool) : State :=
  v.map.foldl (fun s (_, x, _) => s.modObj x fun o => { o with pins := if up then o.pins + 1 else o.pins - 1 }) s

/-- `OLD_ACTION` 1 on one object of a retired view (R332): true when it is skipped. -/
def State.destroyOld (s : State) (id : Nat) : Bool × State :=
  match s.obj id with
  | none => (false, s)
  | some o =>
    if s.inView id then (false, s)
    else if 0 < o.opins then (true, s)
    else if o.res == .arriving || o.res == .departing then (false, s.modObj id fun o => { o with destroyAtEnd := true })
    else (false, s.destroyObj id)

/-- Retire a view that no step holds (R330, R332). -/
def State.retireView (s : State) (h no : Nat) : State :=
  match (s.model h).bind fun m => m.view no with
  | none => s
  | some v =>
    let rel := ((s.model h).bind (·.releasing)).isSome
    let act := if rel then ((s.model h).map (·.releaseAction)).getD 0 else v.oldAction
    let s := s.modModel h fun m => m.modView no fun v => { v with state := if rel then 3 else 2 }
    let s := s.dropSys 1 (65536 * h + no)
    if act = 1 then
      v.map.foldl (fun s (i, x, _) =>
        let (sk, s) := s.destroyOld x
        if sk then s.modModel h fun m => m.modView no fun v => { v with map := v.map.map fun (j, y, z) => (j, y, z || j == i) } else s) s
    else s

/-- A release completes when the model's last view has retired (R333): the handle names no model. DESIGN CHOICE (log entry 137): a
LAYER_SWAP that the release overtakes runs to its own end first. -/
def State.releaseCheck (s : State) (h : Nat) : State :=
  match s.model h with
  | none => s
  | some m =>
    match m.releasing with
    | none => s
    | some r =>
      if m.swap.isSome || m.views.any View.live then s
      else (s.modModel h fun m => { m with dead := true, releasing := none }).finish r stOK

/-- A step takes a hold of the current view: holders and pins (R222, R291). -/
def State.holdView (s : State) (h no : Nat) : State :=
  match (s.model h).bind fun m => m.view no with
  | none => s
  | some v => (s.modModel h fun m => m.modView no fun v => { v with holders := v.holders + 1 }).pinView v true

/-- A step gives its view back; an older view that no step holds retires at once (R330). -/
def State.dropView (s : State) (h no : Nat) : State :=
  match (s.model h).bind fun m => m.view no with
  | none => s
  | some v =>
    let s := (s.modModel h fun m => m.modView no fun v => { v with holders := v.holders - 1 }).pinView v false
    if v.state = 1 && v.holders ≤ 1 then (s.retireView h no).releaseCheck h else s

/-- Live views that a model would hold after a new one becomes current. -/
def Model.viewsAfter (m : Model) : Nat :=
  (m.views.filter fun v => v.live && (v.no != m.cur || decide (0 < v.holders))).length + 1

/-- Make a new view current (R331, R338 step 1): it takes an empty slot, or the slot of a retired view. -/
def State.newView (s : State) (h : Nat) (man : Manifest) (map : List (Nat × Nat)) (cold : List Nat) (oldAction : Nat) : State :=
  match s.model h with
  | none => s
  | some m =>
    let s := s.modModel h fun m => m.modView m.cur fun v => { v with state := 1, oldAction := oldAction }
    let s := match m.curView with
      | some v => if v.holders = 0 then s.retireView h v.no else s
      | none => s
    s.modModel h fun m =>
      let used := (m.views.map (·.slot))
      let slot := match (List.range 4).find? fun i => !used.contains i with
        | some i => i
        | none => ((List.range 4).find? fun i => m.views.all fun v => v.slot != i || !v.live).getD 0
      let v : View := { no := m.nextView, slot := slot, man := man, map := map.map (fun (i, x) => (i, x, false)), cold := cold, holders := 0,
                        state := 0, oldAction := 0, lost := false }
      { m with views := (m.views.filter fun x => x.slot != slot) ++ [v], cur := m.nextView, nextView := m.nextView + 1 }

/-! ## Commands on models -/

/-- Read and admit a manifest: a status with, when it is 0, the manifest and its bytes. -/
def State.readManifest (s : State) (p : Port) (addr n : Nat) (want : List Byte) : Nat × Option Manifest :=
  match s.hostRead p addr n with
  | none => (stHostUnreachable, none)
  | some b =>
    if !s.admitted b want then (stBadDigest, none)
    else match parseManifest b with
    | none => (stBadField, none)
    | some m => (stOK, some m)

/-- Object map entries: set index and object. -/
def mapEnts (b : List Byte) : List (Nat × Nat) := (chunks 8 (b.length / 8) b).map fun e => (fld e 0 4, fld e 4 4)

def coldOf (b : List Byte) : List Nat := (List.range 8).map fun k => fld b (64 + 4 * k) 4

/-- The shared part of MODEL_BIND and VIEW_SWITCH: manifest, map and the conditions of R329. -/
def State.readView (s : State) (p : Port) (b : List Byte) (member : Nat) : Nat × Option (Manifest × List (Nat × Nat)) :=
  let mb := fld b 4 4
  let nm := fld b 24 4
  if decide (mb < 128) || decide (67108864 < mb) || decide (1048576 < nm) || (nm == 0 && fld b 16 8 != 0) then (stBadField, none)
  else match s.readManifest p (fld b 8 8) mb ((b.drop 32).take 32) with
  | (st, none) => (st, none)
  | (_, some man) =>
    if man.members ≤ member then (stBadField, none)
    else match s.hostRead p (fld b 16 8) (8 * nm) with
    | none => (stHostUnreachable, none)
    | some mp =>
      let map := mapEnts mp
      let st := s.viewStatus man member map (coldOf b)
      if st = stOK then (stOK, some (man, map)) else (st, none)

/-- Bytes of a view's system extent: manifest and object map. -/
def viewBytes (b : List Byte) : Nat := fld b 4 4 + 8 * fld b 24 4

/-- MODEL_BIND (R328, R329). -/
def opModelBind (r : Ref) (b : List Byte) (s : State) : State :=
  let h := fld b 0 2
  let member := fld b 2 1
  if !onlyUses b [(0, 3), (4, 24), (32, 64)] || h == 0 || decide (63 < member) || (s.model h).isSome then s.finish r stBadField
  else if 16 ≤ (s.models.filter fun m => !m.dead).length then s.finish r stNoSpace
  else match s.readView r.src.port b member with
  | (st, none) => s.finish r st
  | (_, some (man, map)) =>
    match s.placeSys 1 (65536 * h) (viewBytes b) with
    | none => s.finish r stNoSpace
    | some s =>
      let used := (s.models.filter fun m => !m.dead).map (·.slotNo)
      let slot := ((List.range 16).find? fun i => !used.contains i).getD 0
      let v : View := { no := 0, slot := 0, man := man, map := map.map (fun (i, x) => (i, x, false)), cold := coldOf b, holders := 0,
                        state := 0, oldAction := 0, lost := false }
      let m : Model := { h := h, slotNo := slot, dead := false, member := member, cur := 0, nextView := 1, views := [v], releasing := none,
                         releaseAction := 0, swap := none, swaps := [] }
      (({ s with models := (s.models.filter fun (x : Model) => !(x.dead && x.slotNo == slot)) ++ [m] }).measure 5 h man.digest).finish r stOK (leBytes 2 0)

/-- A cold expert (R335). -/
def State.coldExpert (s : State) (e : SetEnt) (x : Nat) : Bool := e.expert != 0xFFFF && ((s.obj x).map (·.fcopy)).getD false

/-- VIEW_SWITCH (R330, R331). -/
def opViewSwitch (r : Ref) (b : List Byte) (s : State) : State :=
  let h := fld b 0 2
  let f := fld b 96 1
  if !onlyUses b [(0, 2), (4, 24), (32, 65)] then s.finish r stBadField
  else match s.model h with
  | none => s.finish r stNotFound
  | some m =>
    if m.releasing.isSome || decide (1 < f % 4) || decide (7 < f) then s.finish r stBadField
    else match s.readView r.src.port b m.member with
    | (st, none) => s.finish r st
    | (_, some (man, map)) =>
      let ready := map.all fun (i, x) =>
        s.coldExpert (man.sets.getD i { member := 0, die := 0, layer := 0, expert := 0xFFFF, tiles := 0, digest := [] }) x ||
        ((s.obj x).map (·.res)) == some .resident
      if bitOf f 2 && !ready then s.finish r stNotResident
      else if 4 < m.viewsAfter then s.finish r stBusy
      else match s.placeSys 1 (65536 * h + m.nextView) (viewBytes b) with
      | none => s.finish r stNoSpace
      | some s => ((s.newView h man map (coldOf b) (f % 4)).measure 5 h man.digest).finish r stOK (leBytes 2 m.nextView)

/-- MODEL_RELEASE (R333). -/
def opModelRelease (r : Ref) (b : List Byte) (s : State) : State :=
  let h := fld b 0 2
  if !onlyUses b [(0, 3)] then s.finish r stBadField
  else match s.model h with
  | none => s.finish r stNotFound
  | some m =>
    if m.releasing.isSome || decide (1 < fld b 2 1) then s.finish r stBadField
    else
      let s := s.modModel h fun m => { m with releasing := some r, releaseAction := fld b 2 1 }
      let s := s.modModel h fun m => m.modView m.cur fun v => { v with state := 1 }
      let s := { s.dropSys 3 h with pfEnts := s.pfEnts.filter fun e => e.kind == 3 || e.model != h }
      let s := match m.curView with
        | some v => if v.holders = 0 then s.retireView h v.no else s
        | none => s
      s.releaseCheck h

/-! ## LAYER_SWAP (R336 to R340) -/

/-- The new manifest differs from the current one in nothing but the layer's sets and score scale (R337). -/
def swapManOk (old new : Manifest) (layer : Nat) : Bool :=
  old.hdrDigest == new.hdrDigest && old.nLayers == new.nLayers && old.sets.length == new.sets.length &&
  (old.layers.zip new.layers).zipIdx.all (fun ((a, c), i) =>
    a == c || (i == layer && a == { c with scoreScale := a.scoreScale })) &&
  (old.sets.zip new.sets).all (fun (a, c) => a == c ||
    (a.layer == layer && c.layer == layer && a.member == c.member))

/-- Bytes that a directory's body needs. -/
def bodyBytes (dir : List TileDir) : Nat := (dir.map fun t => max (t.off + t.bytes) (t.scaleOff + t.scaleBytes)).foldl max 0

/-- Bytes that an object's extents hold. -/
def Obj.capacity (o : Obj) : Nat := if o.dp then o.extBytes else (groupsOf o.groups).length * o.extBytes

/-- One 32-byte swap entry: a status, and the target with its weight in the bound, in units of 1/11,616,000 µs. -/
def State.swapEntry (s : State) (p : Port) (h layer : Nat) (man : Manifest) (cur : View) (e : List Byte) : Nat × Option (SwapTgt × Nat) :=
  let id := fld e 0 4
  let s0 := fld e 4 4
  let s1 := fld e 8 4
  let sp := fld e 12 4
  let so := fld e 16 4
  match s.obj id, cur.map.find? fun (_, x, _) => x == id with
  | some o, some (i, _, _) =>
    match man.sets[i]? with
    | none => (stBadField, none)
    | some st =>
      if st.layer != layer || fld e 20 4 != 0 || (s0 == 0) == (so == 0) || (so != 0 && (s1 != 0 || sp != 0)) then (stBadField, none)
      else if so != 0 && !s.flash.ready then (stNotReady, none)
      else if s.otherHolds h id || (o.res != .resident && o.res != .absent) then (stBusy, none)
      else match s.hostRead p (fld e 24 8) (64 * st.tiles) with
      | none => (stHostUnreachable, none)
      | some db =>
        let dir := dirEnts db
        let n := bodyBytes dir
        let dig := shake256 db
        let srcOk := if so = 0 then s.hostSrcOk st.tiles n s0 s1 sp false
          else ((s.obj so).map fun x => x.kind == .tileset && x.fcopy).getD false &&
            ((s.fcopyOf so).map (·.setDigest)) == some dig
        if !dirOk db o.capacity || !srcOk then (stBadField, none)
        else if dig != st.digest then (stBadDigest, none)
        else
          let rate := if so != 0 then 48 else if s1 = 0 then 121 else 242
          (stOK, some ({ obj := id, dir := dir, digest := dig, size := max o.size n,
                         src := if so = 0 then .host s0 s1 sp else .flashOf so }, n * (11616 / rate)))
  | _, _ => (stBadField, none)

/-- Every entry of a swap: the first bad status, or the targets and the sum of their weights. -/
def State.swapEntries (s : State) (p : Port) (h layer : Nat) (man : Manifest) (cur : View) : List (List Byte) → Nat × List SwapTgt × Nat
  | [] => (stOK, [], 0)
  | e :: t =>
    match s.swapEntry p h layer man cur e with
    | (st, none) => (st, [], 0)
    | (_, some (x, w)) =>
      let (st, l, v) := s.swapEntries p h layer man cur t
      (st, x :: l, w + v)

/-- LAYER_SWAP (R337, R338 up to step 1). -/
def opLayerSwap (r : Ref) (b : List Byte) (s : State) : State :=
  let h := fld b 0 2
  let layer := fld b 2 2
  let mb := fld b 4 4
  let ns := fld b 24 4
  let us := fld b 28 4
  let dry := fld b 64 1
  if !onlyUses b [(0, 65)] then s.finish r stBadField
  else match s.model h with
  | none => s.finish r stNotFound
  | some m =>
    match m.curView with
    | none => s.finish r stBadField
    | some cur =>
      if m.releasing.isSome || decide (1 < dry) || us == 0 || decide (10000000 < us) || decide (4096 < ns) || decide (mb < 128) ||
          decide (67108864 < mb) then s.finish r stBadField
      else if m.swap.isSome then s.finish r stBusy
      else match s.readManifest r.src.port (fld b 8 8) mb ((b.drop 32).take 32) with
      | (st, none) => s.finish r st
      | (_, some man) =>
        let own := (man.own m.member).filter fun (e, _) => e.layer == layer
        if !swapManOk cur.man man layer || decide (man.nLayers ≤ layer) || own.length != ns then s.finish r stBadField
        else match s.hostRead r.src.port (fld b 16 8) (32 * ns) with
        | none => s.finish r stHostUnreachable
        | some eb =>
          match s.swapEntries r.src.port h layer man cur (chunks 32 ns eb) with
          | (st, tg, w) =>
            let bound := (w + 11616000 - 1) / 11616000 + 200
            let map := cur.map.map fun (i, x, _) => (i, x)
            if st ≠ stOK then s.finish r st
            else if !decide (tg.map (·.obj)).Nodup then s.finish r stBadField
            else if us < bound then s.finish r stSwapTooLong (leBytes 4 bound)
            else if dry = 1 then s.finish r stOK (leBytes 4 bound)
            else if 4 < m.viewsAfter then s.finish r stBusy
            else match s.placeSys 1 (65536 * h + m.nextView) (mb + 8 * map.length) with
            | none => s.finish r stNoSpace
            | some s =>
              let s := (s.newView h man map cur.cold 0).measure 5 h man.digest
              s.modModel h fun m => { m with
                swap := some { ref := r, layer := layer, bound := bound, view := m.cur, targets := tg, writing := false, failed := false }
                swaps := m.swaps ++ [(m.cur, layer)] }

/-- Steps of a model in flight on the member that hold a view older than its swap's. -/
def State.olderSteps (s : State) (h view : Nat) : Bool :=
  s.steps.any fun t => t.model == h && decide (t.view < view) && decide (t.slot < 16)

/-- The swap barrier's number (R339). -/
def swapBarrier (layer : Nat) : Nat := 0xFE00 + layer

/-- Steps held at a swap's barrier send their ARRIVE once step 4 has ended on the member (R339). -/
def State.arriveSwap (s : State) (h view layer : Nat) : State :=
  s.steps.foldl (fun s t =>
    if t.model == h && t.view == view && t.swapHeld.contains layer && !t.arriveSent.contains (swapBarrier layer) && t.killing.isNone then
      let s := s.modStep t.slice t.id fun t => { t with arriveSent := t.arriveSent ++ [swapBarrier layer] }
      s.toMaster t.slice .arrive { s.tokOf t with barrier := swapBarrier layer }
    else s) s

/-- Steps 3 and 4 of a swap end: the command completes with its bound, or with TILE_CORRUPT and the held steps fail (R338, R340). -/
def State.swapEnd (s : State) (h : Nat) (ok : Bool) : State :=
  match (s.model h).bind (·.swap) with
  | none => s
  | some w =>
    let s := s.modModel h fun m => { m with swap := none }
    if ok then ((s.arriveSwap h w.view w.layer).finish w.ref stOK (leBytes 4 w.bound ++ leBytes 2 w.view)).releaseCheck h
    else
      let s := s.finish w.ref stTileCorrupt (leBytes 4 w.bound ++ leBytes 2 w.view)
      (s.steps.foldl (fun s t =>
        if t.model == h && t.view == w.view && t.swapHeld.contains w.layer then s.failStep t.slice t.id stTileCorrupt else s) s).releaseCheck h

/-- A writing swap whose targets are all RESIDENT, or one of them ABSENT again, ends. -/
def State.swapCheck (s : State) (h : Nat) : State :=
  match (s.model h).bind (·.swap) with
  | none => s
  | some w =>
    let res := w.targets.map fun t => (s.obj t.obj).map (·.res)
    if !w.writing then s
    else if res.all fun x => x == some .resident || x == some .departing then s.swapEnd h true
    else if res.any fun x => x == some .absent || x == none then s.swapEnd h false
    else s

def State.swapChecks (s : State) : State := s.models.foldl (fun s m => if m.dead then s else s.swapCheck m.h) s

/-- Step 3 of R338 begins: `FCOPY` cleared, the new directories installed, the targets ARRIVING. -/
def State.swapStart (s : State) (h : Nat) : State :=
  match (s.model h).bind (·.swap) with
  | none => s
  | some w =>
    if w.writing || s.olderSteps h w.view then s
    else
      let s := s.modModel h fun m => { m with swap := some { w with writing := true } }
      let s := w.targets.foldl (fun s t =>
        (s.dropCopy t.obj).modObj t.obj fun o => { o with
          fcopy := false, res := .arriving, landed := [], retried := [], evp := false, arrive := [], src := some t.src, dir := t.dir,
          setDigest := t.digest, tiles := t.dir.length, size := t.size }) s
      s.swapCheck h

/-- A step bound to a view that is being swapped in place stands at its barrier: its kill waits for step 3 (R241, R339). -/
def State.swapBlocks (s : State) (t : Step) : Bool :=
  match (s.model t.model).bind (·.swap) with
  | some w => w.writing && w.view == t.view && t.swapHeld.contains w.layer
  | none => false

/-! ## Prefetch (R297, R298, R412) -/

def pfEnt (model : Nat) (b : List Byte) : PfEnt :=
  { kind := fld b 0 1, model := model, layer := fld b 2 2, obj := fld b 4 4, fromLp := fld b 1 1 == 1, tile0 := fld b 8 4,
    nTiles := fld b 12 2, die := fld b 14 1, stageObj := fld b 16 4, stageOff := fld b 20 4,
    stepId := if fld b 0 1 = 3 then fld b 16 8 else 0, sliceH := 0 }

/-- The entry's fields are in range (Tables 11-7, 17-8). -/
def State.pfOk (s : State) (b : List Byte) : Bool :=
  let e := pfEnt 0 b
  let tile := ((s.obj e.obj).map fun o => o.kind == .tileset).getD false
  let lay := decide (e.layer < 256) || e.layer == 0xFFFF
  if e.kind = 1 then onlyUses b [(0, 1), (2, 6)] && tile && lay
  else if e.kind = 2 then
    onlyUses b [(0, 15), (16, 8)] && decide (fld b 1 1 ≤ 1) && tile && lay && decide (1 ≤ e.nTiles) && decide (e.nTiles ≤ 4096) &&
    decide (e.tile0 + e.nTiles ≤ ((s.obj e.obj).map (·.tiles)).getD 0) && decide (e.die < 8) && e.stageOff % 64 == 0 &&
    (match s.obj e.stageObj with
     | some o => o.kind == .stage && o.die == e.die && decide (e.stageOff < o.size)
     | none => false)
  else e.kind == 3 && onlyUses b [(0, 1), (4, 4), (16, 8)] && (s.seqOf e.obj).isSome && decide (0 < e.stepId)

/-- Bytes of a tile rounded up to 64, weights then scales, as a stage holds it (log entry 32). -/
def up64 (n : Nat) : Nat := (n + 63) / 64 * 64

def TileDir.stageBytes (t : TileDir) : Nat := up64 t.bytes + up64 t.scaleBytes

/-- A triggered STAGE entry asks for the copy of every tile that the die's map does not hold. -/
def State.trigStage (s : State) (e : PfEnt) : State :=
  match s.obj e.obj, s.obj e.stageObj with
  | some o, some st =>
    let tiles := (List.range e.nTiles).map (e.tile0 + ·)
    (tiles.foldl (fun (a : Nat × State) i =>
      let (off, s) := a
      let n := ((o.dir[i]?).map TileDir.stageBytes).getD 0
      let held := (s.die e.die).stage.any fun x => x.obj == e.obj && x.tile == i
      let fits := decide (off + n ≤ st.size)
      let ent : StageEnt := { obj := e.obj, tile := i, stage := e.stageObj, addr := poolBase st.die + st.extOff + off, bytes := n, order := boolNat e.fromLp,
                              landed := false, readers := 0, cold := false, trig := s.pfNo }
      (off + n, if held || !fits then s else s.modDie e.die fun d => { d with stage := d.stage ++ [ent] })) (e.stageOff, s)).2
  | _, _ => s

/-- A triggered PROMOTE entry (R298): an `OBJ_PROMOTE` with no completion that never cancels a departure. -/
def State.trigPromote (s : State) (id : Nat) : State :=
  match s.obj id with
  | none => s
  | some o =>
    if o.lost || !s.flash.ready then s
    else match o.res with
    | .absent => if o.fcopy then (s.startArrival id .flash []).modObj id fun o => { o with trig := s.pfNo } else s
    | .departing => if o.released then s.modObj id fun o => { o with refetchSrc := some (o.refetchSrc.getD .flash) } else s
    | _ => s

/-- An entry is triggered: the triggers count up, so that they are served in order (R299). -/
def State.trigger1 (s : State) (e : PfEnt) : State :=
  let s := { s with pfNo := s.pfNo + 1 }
  if e.kind = 1 then s.trigPromote e.obj else if e.kind = 2 then s.trigStage e else s

/-- The step that a SEQ entry names has not started: a later STEP_ID of its sequence's slice (R297). -/
def State.seqEntLive (s : State) (e : PfEnt) : Bool :=
  ((s.seqOf e.obj).map fun q => decide ((s.slc q.slice).lastStep < e.stepId)).getD false

/-- PREFETCH_SCHED (R297, R412). -/
def opPrefetchSched (r : Ref) (b : List Byte) (s : State) : State :=
  let h := fld b 0 2
  let keep := fld b 2 1 == 1
  let n := fld b 4 4
  if !onlyUses b [(0, 3), (4, 12)] || decide (1 < fld b 2 1) then s.finish r stBadField
  else match s.model h with
  | none => s.finish r stNotFound
  | some m =>
    if m.releasing.isSome then s.finish r stBadField
    else if 4096 + 65536 < n then s.finish r stNoSpace
    else match s.hostRead r.src.port (fld b 8 8) (32 * n) with
    | none => s.finish r stHostUnreachable
    | some eb =>
      let raw := chunks 32 n eb
      let es := raw.map (pfEnt h)
      let own := es.filter fun e => e.kind != 3
      let sq := es.filter fun e => e.kind == 3 && s.seqEntLive e
      let oldSq := s.pfEnts.filter fun e => e.kind == 3
      if !raw.all s.pfOk || (keep && !own.isEmpty) then s.finish r stBadField
      else if decide (4096 < own.length) || decide (65536 < oldSq.length + sq.length) then s.finish r stNoSpace
      else
        let old := if keep then [] else s.pfEnts.filter fun e => e.kind != 3 && e.model == h
        let s1 := if keep then s else s.dropSys 3 h
        let s2 := if own.isEmpty then some s1 else s1.placeSys 3 h (32 * own.length)
        let s3 := s2.bind fun s => if sq.isEmpty || s.sysExts.any (fun x => x.owner == 3 && x.key == 0) then some s else s.placeSys 3 0 (32 * 65536)
        match s3 with
        | none => s.finish r stNoSpace
        | some s =>
          let s := { s with pfEnts := (if keep then s.pfEnts else s.pfEnts.filter fun e => e.kind == 3 || e.model != h) ++ own ++ sq }
          let gone (x : StageEnt) : Bool := !x.cold && old.any fun e => e.kind == 2 && e.obj == x.obj
          let cut (x : StageEnt) : Option StageEnt := if !gone x then some x else if x.readers = 0 then none else some { x with landed := false }
          let drop (d : Die) : Die := { d with stage := d.stage.filterMap cut }
          let s := s.modDies drop
          let s := (own.filter fun e => e.layer == 0xFFFF).foldl (fun s e => s.trigger1 e) s
          s.finish r stOK

/-- The first tile of a layer of a step is appended on a die: its entries trigger, once for each step (R298). -/
def State.trigLayer (s : State) (t : Step) (k layer : Nat) : State :=
  let seen := t.pfTrig.any fun (l, _) => l == layer
  let seenHere := t.pfTrig.contains (layer, k)
  if seenHere then s
  else
    let s := s.modStep t.slice t.id fun t => { t with pfTrig := t.pfTrig ++ [(layer, k)] }
    (t.sched.filter fun e => e.layer == layer && layer != 0xFFFF && ((e.kind == 1 && !seen) || (e.kind == 2 && e.die == k))).foldl
      (fun s e => s.trigger1 e) s

end Sys2Proof.Machine
end

