-- ==== Sys2Proof/Machine/Kv.lean ====
section
/-! DEFINITION. The bytes of KV pages (R166, Table 07-2): where keys, values and scales lie, the writes of KVW (R110, R52),
the tail copy (R175), the compaction of an accepted path (R267), and the computation of ATTN (spec/06_attention.md). -/

namespace Sys2Proof.Machine

open Sys2Proof

/-! ## Layout -/

/-- Bytes of an element and of a segment. -/
def Pool.es (p : Pool) : Nat := if p.fmt = 1 then 2 else 1

def Pool.segBytes (p : Pool) : Nat := if p.fmt = 1 then 256 * p.d else 132 * p.d

def Pool.holds (p : Pool) (layer head : Nat) : Bool :=
  decide (p.layer0 ≤ layer) && decide (layer < p.layer0 + p.layers) && decide (p.head0 ≤ head) && decide (head < p.head0 + p.heads)

def Pool.segOff (p : Pool) (layer head : Nat) : Nat := ((layer - p.layer0) * p.heads + (head - p.head0)) * p.segBytes

/-- Offsets within a segment: key row, key scales of a row, value element, value block scale. -/
def Pool.keyOff (p : Pool) (i : Nat) : Nat := i * p.d * p.es
def Pool.keyScaleOff (p : Pool) (i : Nat) : Nat := 64 * p.d + i * (p.d / 32)
def Pool.valOff (p : Pool) (c i : Nat) : Nat := (if p.fmt = 1 then 128 * p.d else 66 * p.d) + (c * 64 + i) * p.es
def Pool.valScaleOff (p : Pool) (c blk : Nat) : Nat := 130 * p.d + 2 * c + blk

/-- The segments of a page as (layer, head), in order. -/
def Pool.segs (p : Pool) : List (Nat × Nat) :=
  (List.range p.layers).flatMap fun l => (List.range p.heads).map fun h => (p.layer0 + l, p.head0 + h)

/-- Module address of a byte of a segment on a page. -/
def Obj.segAddr (o : Obj) (p : Pool) (id layer head off : Nat) : Nat :=
  o.frameAddr p (p.page id).frame (p.segOff layer head + off)

/-- The page that a step sees at a logical page of a sequence: its staged one, else the committed one. -/
def Step.pageAt (t : Step) (q : Seq) (lp : Nat) : Nat :=
  match t.staged.find? fun (h, l, _) => h == q.h && l == lp with
  | some (_, _, id) => id
  | none => q.pageAt lp

def State.getN (s : State) (a n : Nat) : Nat := Memory.nat s.mem a n

/-- Element codes of a key row and its scales. -/
def State.keyRow (s : State) (o : Obj) (p : Pool) (id layer head i : Nat) : List Nat × List Nat :=
  ((List.range p.d).map fun c => s.getN (o.segAddr p id layer head (p.keyOff i + c * p.es)) p.es,
   if p.fmt = 1 then [] else (List.range (p.d / 32)).map fun b => s.getN (o.segAddr p id layer head (p.keyScaleOff i + b)) 1)

/-- Element codes of 64 positions of a value column, and its two scales. -/
def State.valCol (s : State) (o : Obj) (p : Pool) (id layer head c : Nat) : List Nat × List Nat :=
  ((List.range 64).map fun i => s.getN (o.segAddr p id layer head (p.valOff c i)) p.es,
   if p.fmt = 1 then [] else (List.range 2).map fun b => s.getN (o.segAddr p id layer head (p.valScaleOff c b)) 1)

/-- A value element decoded (R51). -/
def State.valAt (s : State) (o : Obj) (p : Pool) (id layer head c i : Nat) : W32 :=
  let code := s.getN (o.segAddr p id layer head (p.valOff c i)) p.es
  if p.fmt = 1 then (plainDecode 1 code).1
  else (mxDecode p.fmt (s.getN (o.segAddr p id layer head (p.valScaleOff c (i / 32))) 1) code).1

/-! ## Writes -/

/-- Write one block of 32 value elements of a column with its scale; `xs` are its values, `sh` the rounding of element j. -/
def State.putValBlock (s : State) (o : Obj) (p : Pool) (id layer head c blk : Nat) (sh : Nat → Nat → Nat → Nat) (xs : List W32) : State × Fl :=
  let (sc, es, f) := mxBlock p.fmt sh xs
  let s := s.modWrite (o.segAddr p id layer head (p.valOff c (32 * blk))) (packElems p.fmt es)
  (s.modWrite (o.segAddr p id layer head (p.valScaleOff c blk)) (leBytes 1 sc), f)

/-- `INFOUT` of encoded elements (R56). -/
def infOut (fmt : Nat) (l : List Nat) : Fl := flIf (l.any fun c => (elemVal fmt c).isInf) flINFOUT

/-- Write a key row in the pool's format. -/
def State.putKey (s : State) (o : Obj) (p : Pool) (id layer head i : Nat) (sh : Nat → Nat → Nat → Nat) (ks : List W32) : State × Fl :=
  if p.fmt = 1 then
    let r := ks.map (plainEncode 1)
    (s.modWrite (o.segAddr p id layer head (p.keyOff i)) (packElems 1 (r.map (·.1))), flOr (r.map (·.2)) ||| infOut 1 (r.map (·.1)))
  else
    (chunks 32 (p.d / 32) ks).zipIdx.foldl (fun (a : State × Fl) (x, b) =>
      let (sc, es, f) := mxBlock p.fmt (fun j => sh (32 * b + j)) x
      let s := a.1.modWrite (o.segAddr p id layer head (p.keyOff i + 32 * b)) (packElems p.fmt es)
      (s.modWrite (o.segAddr p id layer head (p.keyScaleOff i + b)) (leBytes 1 sc), a.2 ||| f)) (s, 0)

/-- The rounding of element `e` at a position and layer: stochastic when the pool says so (R52, R53, R60). -/
def Pool.shift (p : Pool) (seed pos layer e : Nat) : Nat → Nat → Nat :=
  if p.sr then stochShift (drawKv seed pos layer e) else rneShift

/-- The values of all held heads that the step's KVW tiles hold for a position. -/
def Step.kvRow (t : Step) (seq layer pos : Nat) : Option (List W32) :=
  (t.kvRows.find? fun (h, l, x, _) => h == seq && l == layer && x == pos).map fun (_, _, _, r) => r

/-- The step keeps the rows of a KVW tile; a tile that runs again puts the same rows in their place. -/
def Step.keepRows (t : Step) (seq layer pos0 : Nat) (rows : List (List W32)) : Step :=
  { t with kvRows := (t.kvRows.filter fun (h, l, x, _) => !(h == seq && l == layer && decide (pos0 ≤ x) && decide (x < pos0 + rows.length))) ++
      rows.zipIdx.map fun (r, j) => (seq, layer, pos0 + j, r) }

/-- A value element of a block that KVW writes: from the rows that the step holds, else the committed element decoded, else +0 in a
position that is not written (R166). -/
def State.valFor (s : State) (o : Obj) (p : Pool) (t : Step) (q : Seq) (id layer head c pos : Nat) : W32 :=
  match t.kvRow q.h layer pos with
  | some r => r.getD (2 * p.d * (head - p.head0) + p.d + c) 0
  | none => if pos < q.len then s.valAt o p id layer head c (pos % 64) else 0

/-- The value columns of the blocks that positions `lo` to `hi − 1` of one page touch: each such block is written again whole, with
its scale (R166). -/
def State.putVals (s : State) (o : Obj) (p : Pool) (t : Step) (q : Seq) (id lp layer head lo hi : Nat) : State × Fl :=
  (List.range p.d).foldl (fun (a : State × Fl) c =>
    (List.range 2).foldl (fun (a : State × Fl) b =>
      let base := 64 * lp + 32 * b
      if hi ≤ base ∨ base + 32 ≤ lo then a
      else
        let xs := (List.range 32).map fun j => a.1.valFor o p t q id layer head c (base + j)
        if p.fmt = 1 then
          let r := xs.map (plainEncode 1)
          let f := flOr (r.map (·.2)) ||| infOut 1 (r.map (·.1))
          (a.1.modWrite (o.segAddr p id layer head (p.valOff c (32 * b))) (packElems 1 (r.map (·.1))), a.2 ||| f)
        else
          let sh (j : Nat) : Nat → Nat → Nat := p.shift q.seed (base + j) layer (2 * p.d * head + p.d + c)
          let (s, f) := a.1.putValBlock o p id layer head c b sh xs
          (s, a.2 ||| f)) a) (s, 0)

/-- KVW on one page: rows of one head for positions `lo` on, each row its D keys and D values. -/
def State.kvPage (s : State) (o : Obj) (p : Pool) (t : Step) (q : Seq) (id lp layer head lo : Nat) (rows : List (List W32)) : State × Fl :=
  let keys := rows.zipIdx.foldl (fun (a : State × Fl) (r, j) =>
    let sh (d : Nat) : Nat → Nat → Nat := p.shift q.seed (lo + j) layer (2 * p.d * head + d)
    let (s, f) := a.1.putKey o p id layer head ((lo + j) % 64) sh (r.take p.d)
    (s, a.2 ||| f)) (s, (0 : Fl))
  let (s, f) := keys.1.putVals o p t q id lp layer head lo (lo + rows.length)
  (s, keys.2 ||| f)

/-- KVW (Table 04-11): `rows` of all held heads, row r at position `pos0 + r`, written page by page; the step holds them from then on. -/
def State.kvWrite (s : State) (o : Obj) (p : Pool) (t : Step) (q : Seq) (layer pos0 : Nat) (rows : List (List W32)) : State × Fl :=
  let s := s.modStep t.slice t.id fun t => t.keepRows q.h layer pos0 rows
  let t := t.keepRows q.h layer pos0 rows
  let lps := (List.range ((pos0 + rows.length - 1) / 64 + 1 - pos0 / 64)).map (pos0 / 64 + ·)
  lps.foldl (fun (a : State × Fl) lp =>
    let lo := max pos0 (64 * lp)
    let hi := min (pos0 + rows.length) (64 * lp + 64)
    let part := (rows.drop (lo - pos0)).take (hi - lo)
    (List.range p.heads).foldl (fun (a : State × Fl) hh =>
      let mine := part.map fun r => (r.drop (2 * p.d * hh)).take (2 * p.d)
      let (s, f) := a.1.kvPage o p t q (t.pageAt q lp) lp layer (p.head0 + hh) lo mine
      (s, a.2 ||| f)) a) (s, 0)

/-- Copy positions 0 to n − 1 of every segment of one page to another (R175). -/
def State.copyTail (s : State) (o : Obj) (p : Pool) (src dst n : Nat) : State :=
  let cp (s : State) (l h off k : Nat) : State := s.modWrite (o.segAddr p dst l h off) (Memory.read s.mem (o.segAddr p src l h off) k)
  p.segs.foldl (fun s (l, h) =>
    let s := cp s l h 0 (n * p.d * p.es)
    let s := if p.fmt = 1 then s else cp s l h (64 * p.d) (n * (p.d / 32))
    (List.range p.d).foldl (fun s c =>
      let s := s.modWrite (o.segAddr p dst l h (p.valOff c 0)) (List.replicate (64 * p.es) 0)
      let s := cp s l h (p.valOff c 0) (n * p.es)
      if p.fmt = 1 then s else cp s l h (p.valScaleOff c 0) 2) s) s

/-! ## Compaction (R267) -/

/-- Page and index of the position that a step holds at `pos`. -/
def Step.place (t : Step) (q : Seq) (pos : Nat) : Nat × Nat := (t.pageAt q (pos / 64), pos % 64)

/-- Compact the accepted path of one segment: key rows move in ascending order; value elements move, and in an FP8 pool each
block that received one is rebuilt from the positions committed, rounding to nearest even. DESIGN CHOICE (log entry 136): the row of a
source position on another member's page arrives with free contents, since no message that would carry it is given. -/
def State.compactSeg (s : State) (o : Obj) (p : Pool) (t : Step) (q : Seq) (len : Nat) (path : List Nat) (l h : Nat) : State :=
  let moves := path.zipIdx.filter fun (n, i) => n != i && (t.place q (len + i)).1 != 0
  let old := s
  let s := moves.foldl (fun s (n, i) =>
    let (a, x) := t.place q (len + n)
    let (b, y) := t.place q (len + i)
    let (far, s) := s.draw
    let row (off k : Nat) : List Byte := if a = 0 then leBytes k far else Memory.read s.mem (o.segAddr p a l h off) k
    let s := s.modWrite (o.segAddr p b l h (p.keyOff y)) (row (p.keyOff x) (p.d * p.es))
    if p.fmt = 1 then s
    else s.modWrite (o.segAddr p b l h (p.keyScaleOff y)) (if a = 0 then leBytes (p.d / 32) (far / 2 ^ (8 * p.d * p.es)) else row (p.keyScaleOff x) (p.d / 32))) s
  let src (pos : Nat) : Nat := if pos < len then pos else len + path.getD (pos - len) (pos - len)
  let stop := len + path.length
  (List.range p.d).foldl (fun s c =>
    if p.fmt = 1 then
      moves.foldl (fun s (n, i) =>
        let (a, x) := t.place q (len + n)
        let (b, y) := t.place q (len + i)
        let (far, s) := s.draw
        s.modWrite (o.segAddr p b l h (p.valOff c y)) (if a = 0 then leBytes 2 far else Memory.read old.mem (o.segAddr p a l h (p.valOff c x)) 2)) s
    else
      ((moves.map fun (_, i) => (len + i) / 32).eraseDups).foldl (fun s blk =>
        let (far, s) := s.draw
        let xs := (List.range 32).map fun j =>
          let pos := 32 * blk + j
          if pos < stop then
            let (a, x) := t.place q (src pos)
            if a = 0 then BitVec.ofNat 32 (far / 2 ^ (32 * j)) else old.valAt o p a l h c x
          else 0
        let (b, y) := t.place q (32 * blk)
        (s.putValBlock o p b l h c (y / 32) (fun _ => rneShift) xs).1) s) s

/-- Compact a TREE entry's accepted path on this member; positions on other members' pages are theirs. -/
def State.compact (s : State) (t : Step) (q : Seq) (path : List Nat) : State :=
  match s.obj q.pool with
  | none => s
  | some o =>
    match o.pool with
    | none => s
    | some p =>
      if path.zipIdx.all fun (n, i) => n == i then s
      else p.segs.foldl (fun s (l, h) => s.compactSeg o p t q q.len path l h) s

/-! ## Attention (R142 to R157) -/

/-- A row's running state: maximum, sum, unnormalised output. -/
structure AttnRow where
  m : W32
  l : W32
  o : List W32
deriving DecidableEq, Repr

def negInf32 : W32 := 0xFF800000

def attn0 (d : Nat) : AttnRow := { m := negInf32, l := 0, o := List.replicate d 0 }

/-- Ancestor mask of a tree node: the node and its ancestors (R154). -/
def ancestors (parents : List Nat) : Nat → Nat → List Nat
  | 0, _ => []
  | k + 1, n => if n = 0 then [0] else n :: ancestors parents k (parents.getD n 0)

/-- What one tile needs of its step, sequence and pool. -/
structure AttnCtx where
  p : Pool
  o : Obj
  layer : Nat
  head : Nat
  mask : Nat
  qPos0 : Nat
  written : Nat
  preLen : Nat
  scale : W32
  parents : List Nat
deriving DecidableEq, Repr

/-- Key position `k` is visible to query group `j` (Table 06-4, R152). -/
def AttnCtx.visible (x : AttnCtx) (j k : Nat) : Bool :=
  let q := x.qPos0 + j
  decide (k < x.written) &&
  (match x.mask with
   | 0 => decide (k ≤ q)
   | 1 => decide (k ≤ q) || decide (k < x.preLen)
   | 2 => decide (k < x.qPos0) || (ancestors x.parents 65 j).any fun n => k == x.qPos0 + n
   | _ => true)

/-- Codes and scales of a query row in its operand format (Table 06-1). -/
def qCodes (kvFmt : Nat) (row : List W32) : List Nat × List Nat × Fl :=
  if kvFmt = 1 then let r := row.map (plainEncode 1); (r.map (·.1), [], flOr (r.map (·.2)))
  else let r := (chunks 32 (row.length / 32) row).map (mxBlock 3 fun _ => rneShift)
       (r.flatMap (fun (_, es, _) => es), r.map (fun (sc, _, _) => sc), flOr (r.map fun (_, _, f) => f))

/-- Decode what `qCodes` made. -/
def pDecode (kvFmt : Nat) (es scs : List Nat) : List W32 :=
  es.zipIdx.map fun (c, j) => if kvFmt = 1 then (plainDecode 1 c).1 else (mxDecode 3 (scs.getD (j / 32) 0) c).1

/-- The largest of a list of values and a first one, with the flags of the comparisons. -/
def maxOf (m : W32) (l : List W32) : W32 × Fl := (l.foldl (fun m v => (f32Max m v).1) m, naninOf (m :: l))

/-- exp(x − m), with the flags of both operations. -/
def expDiff (x m : W32) : W32 × Fl :=
  let (d, f) := f32Sub x m
  fl1 f (f32Exp d)

/-- Scores of a query row against the 64 keys of a page before the mask, with flags (Table 06-2). -/
def State.scores (s : State) (x : AttnCtx) (id : Nat) (qc qs : List Nat) : List (W32 × Fl) :=
  (List.range 64).map fun i =>
    let (kc, ks) := s.keyRow x.o x.p id x.layer x.head i
    cellDot (if x.p.fmt = 1 then 1 else 3) x.p.fmt qc kc qs ks

/-- The output job of a row of probabilities: one product for each column. -/
def State.pvCols (s : State) (x : AttnCtx) (id : Nat) (pc pss : List Nat) : List (W32 × Fl) :=
  (List.range x.p.d).map fun c =>
    let (vc, vs) := s.valCol x.o x.p id x.layer x.head c
    cellDot (if x.p.fmt = 1 then 1 else 3) x.p.fmt pc vc pss vs

/-- One page applied to one row (R147, R148); the score job runs over all 64 keys, and the mask follows it. -/
def State.attnPage (s : State) (x : AttnCtx) (j id lp : Nat) (qc qs : List Nat) (st : AttnRow × Fl) : AttnRow × Fl :=
  let raw := (s.scores x id qc qs).map fun (v, f) => fl1 f (f32Mul v x.scale)
  let sc := raw.zipIdx.map fun (v, i) => if x.visible j (64 * lp + i) then v.1 else negInf32
  let (mNew, f0) := maxOf st.1.m sc
  let f1 := flOr (raw.map (·.2)) ||| f0
  if mNew == negInf32 then (st.1, st.2 ||| f1)
  else
    let (alpha, fa) := expDiff st.1.m mNew
    let ps := sc.map fun v => expDiff v mNew
    let (pc, pss, f2) := qCodes x.p.fmt (ps.map (·.1))
    let (sum, f3) := treeSum 6 (pDecode x.p.fmt pc pss)
    let (l, f4) := f32Fma alpha st.1.l sum
    let pv := (s.pvCols x id pc pss).zipIdx.map fun ((v, f), c) => fl1 f (f32Fma alpha (st.1.o.getD c 0) v)
    ({ m := mNew, l := l, o := pv.map (·.1) }, st.2 ||| f1 ||| fa ||| flOr (ps.map (·.2)) ||| f2 ||| f3 ||| f4 ||| flOr (pv.map (·.2)))

/-- Flags of the absent rows of the last row group on a page, which run as zeros (R73, R146). -/
def State.absentFlags (s : State) (x : AttnCtx) (id : Nat) : Fl :=
  let z (n : Nat) : List Nat := List.replicate n 0
  flOr ((s.scores x id (z x.p.d) (z (x.p.d / 32))).map (·.2)) ||| flOr ((s.pvCols x id (z 64) (z 2)).map (·.2))

/-- Merge states of one row, in order: for a home tile its own comes first (R157). -/
def mergeRows (d : Nat) (l : List AttnRow) : AttnRow × Fl :=
  let (m, f0) := maxOf negInf32 (l.map (·.m))
  if m == negInf32 then (attn0 d, f0)
  else
    l.foldl (fun (a : AttnRow × Fl) (r : AttnRow) =>
      let (f, g) := expDiff r.m m
      let (sum, f1) := f32Fma f r.l a.1.l
      let o := (List.range d).map fun c => f32Fma f (r.o.getD c 0) (a.1.o.getD c 0)
      ({ m := m, l := sum, o := o.map (·.1) }, a.2 ||| g ||| f1 ||| flOr (o.map (·.2)))) ({ attn0 d with m := m }, f0)

/-- The sub-range of page `i` of a tile: the number of cuts at or before it, 0 to 15 (R151). -/
def subRange (args : List Byte) (pages i : Nat) : Nat := ((List.range 15).filter fun j => decide (Config.attnCut args j % (pages + 1) ≤ i)).length

/-- The pages of a range in its sub-ranges, ascending (R151). -/
def subRanges {α : Type} (args : List Byte) (l : List α) : List (List α) :=
  ((List.range 16).map fun r => (l.zipIdx.filter fun (_, i) => subRange args l.length i == r).map (·.1)).filter fun x => !x.isEmpty

/-- One query row over its pages: each sub-range in ascending page order with a state of its own, then their merge (R147, R151). -/
def State.attnRow (s : State) (x : AttnCtx) (args : List Byte) (j : Nat) (pages : List (Nat × Nat)) (row : List W32) : AttnRow × Fl :=
  let (qc, qs, f) := qCodes x.p.fmt row
  let parts := (subRanges args pages).map fun l => l.foldl (fun st (lp, id) => s.attnPage x j id lp qc qs st) (attn0 x.p.d, (0 : Fl))
  let f := f ||| flOr (parts.map (·.2))
  match parts with
  | [st] => (st.1, f)
  | _ => let (r, g) := mergeRows x.p.d (parts.map (·.1))
         (r, f ||| g)

/-- A partial record row (Table 06-3). -/
def AttnRow.bytes (r : AttnRow) : List Byte :=
  r.o.flatMap (fun v => leBytes 4 v.toNat) ++ leBytes 4 r.m.toNat ++ leBytes 4 r.l.toNat ++ List.replicate 56 0

def attnOfBytes (d : Nat) (b : List Byte) : AttnRow :=
  { o := (List.range d).map (fun c => BitVec.ofNat 32 (fld b (4 * c) 4)), m := BitVec.ofNat 32 (fld b (4 * d) 4), l := BitVec.ofNat 32 (fld b (4 * d + 4) 4) }

/-- `INFOUT` of a partial record: an infinite output, sum or maximum; the −Inf of a row that saw nothing is none (R149). -/
def AttnRow.inf (r : AttnRow) : Fl := flIf ((r.m :: r.l :: r.o).any fun v => (fvOf v).isInf && v != negInf32 || (v == negInf32 && r.m != negInf32)) flINFOUT

/-- The normalised output row: O ÷ l in BF16; a row that saw nothing is +0 with no flag (R149, R150). -/
def AttnRow.out (r : AttnRow) : List Byte × Fl :=
  if r.m == negInf32 then (List.replicate (2 * r.o.length) 0, 0)
  else
    let v := r.o.map fun x => let (y, f) := f32Div x r.l
                              let (c, g) := plainEncode 1 y
                              (c, f ||| g)
    (packElems 1 (v.map (·.1)), flOr (v.map (·.2)) ||| infOut 1 (v.map (·.1)))

end Sys2Proof.Machine
end

