-- ==== Sys2Proof/Machine/Slices.lean ====
section
/-! DEFINITION. Slices (spec/15_hypercube_slices.md): routing, placement and transit tables and their checks, table
generations, SLICE_JOIN and ROUTE_LOAD, the join messages, and how a slice handle is released. -/

namespace Sys2Proof.Machine

open Sys2Proof

/-! ## Routing tables (R369, Table 15-3) -/

/-- Number of set bits below 64. -/
def popcount (n : Nat) : Nat := ((List.range 64).filter fun i => bitOf n i).length

/-- The table in its layout, reserved bits zero and every hop defined; its `TAG` apart. -/
def parseRoute (b : List Byte) : Option (Nat × RTable) :=
  let next := (b.drop 64).map (·.toNat)
  if b.length = 128 && fld b 2 2 == 0 && fld b 16 48 == 0 && next.all fun n => decide (n < 8) || n == 15 then
    some (fld b 0 2, { rgen := fld b 4 4, mask := fld b 8 8, next := next })
  else none

/-- One entry follows R369: LOCAL for the module's own coordinate, DROP outside the slice, else the dimension-order next hop,
or F in a slice of the whole rack for a destination more than (`DIMS` + 1) ÷ 2 bits away. -/
def routeEntryOk (own dims : Nat) (whole : Bool) (mask c n : Nat) : Bool :=
  if c = own then n == 7
  else if !bitOf mask c then n == 15
  else some n == dimHop own c || (n == 6 && whole && decide (dims + 1 < 2 * popcount (own ^^^ c)))

/-- A routing table is accepted for a slice on this module. -/
def State.routeOk (s : State) (x : Slice) (tag : Nat) (t : RTable) : Bool :=
  let ms := x.members s.coord.dims
  tag == x.tag && t.mask == pack (ms.map fun c => (c, 1, 1)) &&
  t.next.zipIdx.all fun (n, c) => routeEntryOk s.coord.coord s.coord.dims (ms.length == 2 ^ s.coord.dims) t.mask c n

/-! ## Placement tables (R195, R196, Table 08-1) -/

/-- A copy: member, die, local slot. -/
def placeCopy (b : List Byte) (i : Nat) : Nat × Nat × Nat :=
  let v := fld b (4 + 3 * i) 3
  (bitsOf v 5 0, bitsOf v 8 6, bitsOf v 14 9)

def placeEnt (b : List Byte) : PlaceEnt :=
  { cold := bitOf (fld b 0 1) 3, copies := (List.range (bitsOf (fld b 0 1) 2 0)).map (placeCopy b) }

/-- The entry's fields are in range: 1 to 4 copies on members of the slice, everything else zero. -/
def placeEntOk (count : Nat) (b : List Byte) : Bool :=
  let n := bitsOf (fld b 0 1) 2 0
  decide (1 ≤ n) && decide (n ≤ 4) && bitsOf (fld b 0 1) 7 4 == 0 && fld b 1 3 == 0 &&
  (List.range 4).all fun i =>
    if i < n then bitsOf (fld b (4 + 3 * i) 3) 23 15 == 0 && decide ((placeCopy b i).1 < count) else fld b (4 + 3 * i) 3 == 0

def placeDir (b : List Byte) : List (Nat × Nat × Bool) :=
  (chunks 4 256 (b.take 1024)).map fun e =>
    let v := fld e 0 4
    (bitsOf v 16 0, bitsOf v 29 17, bitOf v 31)

/-- Entries of a layer. -/
def PTable.layer (t : PTable) (l : Nat) : List PlaceEnt :=
  match t.dir[l]? with
  | some (first, n, true) => (t.ents.drop first).take n
  | _ => []

/-- A placement table within its checks: a layer's experts lie in the table, and no (member, die, slot) twice within one. -/
def parsePlace (count gen : Nat) (b : List Byte) : Option PTable :=
  let raw := chunks 16 ((b.length - 1024) / 16) (b.drop 1024)
  let dirRaw := chunks 4 256 (b.take 1024)
  let t : PTable := { gen := gen, dir := placeDir b, ents := raw.map placeEnt }
  if raw.all (placeEntOk count) && dirRaw.all (fun e => !bitOf (fld e 0 4) 30) &&
      t.dir.all (fun (first, n, moe) => !moe || (decide (1 ≤ n) && decide (n ≤ 4096) && decide (first + n ≤ raw.length))) &&
      (List.range 256).all fun l => decide ((t.layer l).flatMap (·.copies)).Nodup then some t
  else none

/-- Die and slot numbers of a layer's copies on a die of a member. -/
def PTable.localSlots (t : PTable) (l member die : Nat) : Nat :=
  (((t.layer l).flatMap (·.copies)).filter fun (m, d, _) => m == member && d == die).length

/-! ## Transit tables (R374) -/

def transitEnt (b : List Byte) : Nat × List Nat := (fld b 0 2, (List.range 6).map fun d => fld b (4 + 2 * d) 2)

def transitOk (b : List Byte) : Bool :=
  let e := transitEnt b
  fld b 2 2 == 0 && e.1 != 0 && e.2.all fun v => decide (v ≤ 800)

/-! ## ROUTE_LOAD (R371, R372, R374, R196) -/

/-- A step of the slice that is neither committed nor ended uses the bank. -/
def State.bankUsed (s : State) (h : Nat) (placement : Bool) (bank : Nat) : Bool :=
  s.steps.any fun t => t.slice == h && decide (t.slot < 16) && (if placement then t.pbank else t.rbank) == bank

/-- Write and check a table in the inactive bank, and complete the command; the switch is then waited for. -/
def State.loadBank (s : State) (r : Ref) (b : List Byte) : State :=
  let h := fld b 0 1
  let pl := fld b 1 1 == 1
  let gen := fld b 4 4
  let x := s.slc h
  let done (s : State) : State :=
    (s.modSlc h fun x => { x with loads := x.loads ++ [{ placement := pl, gen := gen, atStep := fld b 8 8 }] }).finish r stOK
  match s.hostRead r.src.port (fld b 16 8) (fld b 24 4) with
  | none => s.finish r stHostUnreachable
  | some tb =>
    if pl then
      match parsePlace x.count gen tb with
      | none => (s.modSlc h fun x => { x with pt := x.pt.set (1 - x.pbank) none }).finish r stBadField
      | some t => done (s.modSlc h fun x => { x with pt := x.pt.set (1 - x.pbank) (some t) })
    else
      match parseRoute tb with
      | none => s.finish r stBadField
      | some (tag, t) =>
        if s.routeOk x tag t then done (s.modSlc h fun x => { x with rt := x.rt.set (1 - x.rbank) (some { t with rgen := gen }) })
        else s.finish r stBadField

/-- ROUTE_LOAD: transit tables apply at once; a routing or placement table waits until no step uses the inactive bank. -/
def opRouteLoad (r : Ref) (b : List Byte) (s : State) : State :=
  let h := fld b 0 1
  let k := fld b 1 1
  let gen := fld b 4 4
  let n := fld b 24 4
  let x := s.slc h
  if !onlyUses b [(0, 2), (4, 24)] || decide (2 < k) then s.finish r stBadField
  else if k = 2 then
    if n % 16 != 0 || decide (256 < n) then s.finish r stBadField
    else match s.hostRead r.src.port (fld b 16 8) n with
    | none => s.finish r stHostUnreachable
    | some tb =>
      let es := chunks 16 (n / 16) tb
      if es.all transitOk && decide ((es.map fun e => fld e 0 2)).Nodup then
        ({ s with router := { s.router with transit := es.map transitEnt } } : State).finish r stOK
      else s.finish r stBadField
  else if decide (7 < h) then s.finish r stBadField
  else if x.state == .free then s.finish r stNotFound
  else if x.state == .stopped then s.finish r stSliceStopped
  else if gen ≤ (if k = 1 then x.pgenOf x.pbank else x.rgenOf x.rbank) then s.finish r stBadField
  else if x.loads.any (fun g => g.placement == (k == 1)) || x.waitLoads.any (fun (_, b) => fld b 1 1 == k) then s.finish r stBusy
  else if k = 1 && (decide (n < 1024) || n % 16 != 0) then s.finish r stBadField
  else if k = 1 && decide (131072 < (n - 1024) / 16) then s.finish r stNoSpace
  else if k = 0 && n != 128 then s.finish r stBadField
  else if s.bankUsed h (k == 1) (1 - (if k = 1 then x.pbank else x.rbank)) then
    s.modSlc h fun x => { x with waitLoads := x.waitLoads ++ [(r, b)] }
  else s.loadBank r b

/-- A step of the slice has committed or ended: loads that waited for its bank act (R197, R371). -/
def State.routeWake (s : State) (h : Nat) : State :=
  let x := s.slc h
  x.waitLoads.foldl (fun s (r, b) =>
    let pl := fld b 1 1 == 1
    if s.bankUsed h pl (1 - (if pl then x.pbank else x.rbank)) then s
    else (s.modSlc h fun x => { x with waitLoads := x.waitLoads.filter fun (r', _) => r' != r }).loadBank r b) s

/-- The generation switch in the start action of a step (R371). -/
def State.genSwitch (s : State) (h id : Nat) : State :=
  let x := s.slc h
  let b := x.banksFor id
  if b == (x.rbank, x.pbank) then s
  else (s.modSlc h fun x => { x with rbank := b.1, pbank := b.2, loads := x.loads.filter fun g => decide (id < g.atStep) }).raise .rte 5

/-! ## SLICE_JOIN (R366, R367, R377) -/

/-- A subcube in form: `BASE` within `FIX`, both 6 bits, and no coordinate at or beyond 2^`DIMS`. -/
def subcubeOk (dims base fix : Nat) : Bool :=
  decide (base < 64) && decide (fix < 64) && (base &&& fix) == base && decide (base < 2 ^ dims) &&
  (List.range 6).all fun d => decide (d < dims) || bitOf fix d

/-- Body bytes 0 to 43 of SLICE_JOIN as a slice that joins. -/
def sliceOfBody (b : List Byte) : Slice :=
  let dflt (v d : Nat) : Nat := if v = 0 then d else v
  { State.slice0 with
    state := .joining, tag := fld b 2 2, base0 := fld b 4 1, fix0 := fld b 5 1, union := bitOf (fld b 1 1) 0,
    transit := bitOf (fld b 1 1) 1, base1 := fld b 6 1, fix1 := fld b 7 1, width := fld b 9 1, model := fld b 10 2,
    palset := (List.range 7).map (fun i => fld b (12 + i) 1), startWait := dflt (fld b 20 4) 100000,
    barrierWait := dflt (fld b 24 4) 2000000, joinWait := dflt (fld b 28 4) 10000000, joinBody := b.take 44 }

/-- The palette set names palettes of the store, each for its role (R111). -/
def State.palsetOk (s : State) (x : Slice) : Bool :=
  x.palset.zipIdx.all fun (p, i) => p == 0 || s.pals.any fun q => q.id == p && q.role == i + 1

/-- Conditions of R366 and R367 on a slice that joins, its model's manifest having `members`. -/
def State.joinOk (s : State) (b : List Byte) (x : Slice) (members : Nat) : Bool :=
  let dims := s.coord.dims
  let ms := x.members dims
  let mm := fld b 8 1
  decide (fld b 1 1 ≤ 3) && x.tag != 0 && subcubeOk dims x.base0 x.fix0 && (!x.transit || x.union) &&
  (if x.union then subcubeOk dims x.base1 x.fix1 &&
      (List.range 64).all (fun c => !((c &&& x.fix0) == x.base0 && (c &&& x.fix1) == x.base1))
   else x.base1 == 0 && x.fix1 == 0) &&
  ms.contains s.coord.coord && !s.slices.any (fun y => y.state != .free && y.tag == x.tag) && ms.length == members &&
  (decide (mm < ms.length) || mm == 0xFF) && [1, 2, 4, 8, 16, 32, 64].contains x.width && decide (x.width ≤ ms.length) &&
  decide (1000 ≤ x.startWait) && decide (x.startWait ≤ 10000000) && decide (10000 ≤ x.barrierWait) &&
  decide (x.barrierWait ≤ 60000000) && decide (1000 ≤ x.joinWait) && decide (x.joinWait ≤ 60000000) && s.palsetOk x

/-- A slice message of this module for a handle. -/
def State.slcMsg (s : State) (h cause causeCoord : Nat) : SliceMsg :=
  let x := s.slc h
  { tag := x.tag, member := x.member, coord := s.coord.coord, causeCoord := causeCoord, cause := cause, serial := s.sec.serial,
    digest := s.activeDigest x }

def SlcKind.num : SlcKind → Nat
  | .join => 1 | .joinAck => 2 | .joinFail => 3 | .stop => 4

/-- The 64 bytes of a slice message (Table 15-4). -/
def sliceMsgBytes (k : SlcKind) (m : SliceMsg) : List Byte :=
  leBytes 2 m.tag ++ leBytes 1 k.num ++ leBytes 1 m.member ++ leBytes 1 m.coord ++ leBytes 1 m.causeCoord ++ leBytes 1 m.cause ++ leBytes 1 0 ++
  leBytes 8 m.serial.toNat ++ leBytes 8 0 ++ padTo 32 m.digest ++ leBytes 8 0

/-- Send a slice message to each of some coordinates, as CONTROL traffic (Table 15-4). -/
def State.sendSlice (s : State) (k : SlcKind) (dst : List Nat) (m : SliceMsg) : State := s.emits (dst.map fun c => .slice k c m (sliceMsgBytes k m))

/-- SLICE_JOIN: bank 0 of the routing table is installed and a JOIN goes to the master. -/
def opSliceJoin (r : Ref) (b : List Byte) (s : State) : State :=
  let h := fld b 0 1
  let x := sliceOfBody b
  let ms := x.members s.coord.dims
  if !onlyUses b [(0, 19), (20, 24)] || decide (7 < h) then s.finish r stBadField
  else if !s.coord.valid then s.finish r stNotReady
  else if (s.slc h).state == .stopped then s.finish r stSliceStopped
  else if (s.slc h).state != .free then s.finish r stBadField
  else match (s.model x.model).bind Model.curView with
  | none => s.finish r stBadField
  | some v =>
    if ((s.model x.model).bind (·.releasing)).isSome || !s.joinOk b x v.man.members || fld b 40 4 == 0 then s.finish r stBadField
    else match s.hostRead r.src.port (fld b 32 8) 128 with
    | none => s.finish r stHostUnreachable
    | some tb =>
      match parseRoute tb with
      | none => s.finish r stBadField
      | some (tag, t) =>
        if !s.routeOk x tag t then s.finish r stBadField
        else
          let dig := x.palset.map fun p => ((s.pals.find? fun q => q.id == p).map (·.digest)).getD []
          let x := { x with
            master := if fld b 8 1 = 0xFF then 0 else fld b 8 1, palDig := dig, manHdr := v.man.hdrDigest, count := ms.length,
            member := (ms.findIdx? fun c => c == s.coord.coord).getD 0, rt := [some { t with rgen := fld b 40 4 }, none],
            ref := some r }
          let s := s.modSlc h fun _ => x
          let early := s.joinQ.filter fun m => m.tag == x.tag
          let s := { s with joinQ := s.joinQ.filter fun m => m.tag != x.tag }
          let s := if x.isMaster then s.modSlc h fun x => { x with joins := early } else s
          s.sendSlice .join [s.masterCoord h] (s.slcMsg h 0 0)

/-! ## Join messages (R377) -/

/-- Every member's JOIN is held, each from the coordinate of its index: acknowledge, or name the first that differs. -/
def State.joinCheck (s : State) (h : Nat) : State :=
  let x := s.slc h
  let ms := s.members h
  let good := x.joins.filter fun m => ms[m.member]? == some m.coord
  if x.state != .joining || !x.isMaster || !(List.range x.count).all (fun i => good.any fun m => m.member == i) then s
  else
    let own := s.activeDigest x
    match (List.range x.count).find? fun i => good.any fun m => m.member == i && m.digest != own with
    | none => s.sendSlice .joinAck ms (s.slcMsg h 0 0)
    | some i => s.sendSlice .joinFail ms (s.slcMsg h 0 (ms.getD i 0))

/-- A JOIN: kept by the master of the slice; before the master's own SLICE_JOIN it waits. A later JOIN of a member replaces
its earlier one. -/
def State.takeJoin (s : State) (m : SliceMsg) : State :=
  let put (l : List SliceMsg) : List SliceMsg := (l.filter fun y => !(y.tag == m.tag && y.member == m.member && y.coord == m.coord)) ++ [m]
  match s.sliceOfTag m.tag with
  | some h =>
    if (s.slc h).state == .joining && (s.slc h).isMaster then
      (s.modSlc h fun x => { x with joins := put x.joins }).joinCheck h
    else s
  | none => { s with joinQ := put s.joinQ }

/-- A slice becomes JOINED on this member: the job starts (R26) and its SLICE_JOIN completes. -/
def State.takeAck (s : State) (m : SliceMsg) : State :=
  match s.sliceOfTag m.tag with
  | none => s
  | some h =>
    let x := s.slc h
    if x.state != .joining then s
    else
      let s := (s.modSlc h fun x => { x with state := .joined, ref := none, joins := [] }).jobStart
      match x.ref with
      | some r => s.finish r stOK (leBytes 1 x.member ++ leBytes 1 x.master ++ leBytes 1 x.count)
      | none => s

/-- A join ends without the slice: SLICE_JOIN completes, `JOIN_FAIL` is raised, the handle is free. -/
def State.endJoin (s : State) (h status : Nat) : State :=
  let x := s.slc h
  if x.state != .joining then s
  else
    let s := (s.modSlc h fun _ => State.slice0).raise .rte 3
    let s := s.finishAll (x.waitLoads.map (·.1)) stNotFound
    match x.ref with
    | some r => s.finish r status
    | none => s

def State.takeJoinFail (s : State) (m : SliceMsg) : State :=
  match s.sliceOfTag m.tag with
  | none => s
  | some h => s.endJoin h stSliceDisagree

/-- Meaning of SLICE_MSG JOIN. -/
def execJoin (m : SliceMsg) (s : State) : Host.Outcome State Fault Refusal := .next (if s.easelUp then (s.takeJoin m) else s)

/-- Meaning of SLICE_MSG JOIN_ACK. -/
def execJoinAck (m : SliceMsg) (s : State) : Host.Outcome State Fault Refusal := .next (if s.easelUp then (s.takeAck m) else s)

/-- Meaning of SLICE_MSG JOIN_FAIL. -/
def execJoinFail (m : SliceMsg) (s : State) : Host.Outcome State Fault Refusal := .next (if s.easelUp then (s.takeJoinFail m) else s)

/-- Meaning of the end of `JOIN_WAIT` on a member whose join still runs. -/
def execJoinWaitExpire (slice : Nat) (s : State) : Host.Outcome State Fault Refusal := .next (if s.easelUp then (s.endJoin slice stMemberAbsent) else s)

end Sys2Proof.Machine
end

