-- ==== Sys2Proof/Machine/Sampling.lean ====
section
/-! DEFINITION. Sampling on the slice master (spec/10_sampling_speculation.md): parameter blocks, the merge of candidate
lists, the distribution of Table 10-5, draws, the verification of speculative entries and the Sketch. -/

namespace Sys2Proof.Machine

open Sys2Proof

/-! ## Parameter blocks (R255, Table 10-4) -/

structure SParam where
  temp : W32
  topK : Nat
  nStop : Nat
  idleN : Nat
  topP : W32
  minP : W32
  stops : List Nat
deriving DecidableEq, Repr

def sparam (b : List Byte) : SParam :=
  { temp := BitVec.ofNat 32 (fld b 0 4), topK := fld b 4 2, nStop := fld b 6 1, idleN := if fld b 7 1 = 0 then 4 else fld b 7 1,
    topP := BitVec.ofNat 32 (fld b 8 4), minP := BitVec.ofNat 32 (fld b 12 4),
    stops := (List.range (fld b 6 1)).map fun i => fld b (16 + 4 * i) 4 }

/-- `TEMP` is the value 0. -/
def SParam.greedy (p : SParam) : Bool := p.temp.toNat % 2 ^ 31 == 0

/-- Every field in its range; the bounds 0.01 and 100.0 are the FP32 values nearest to them. -/
def sparamOk (b : List Byte) : Bool :=
  let p := sparam b
  let t := p.temp.toNat
  (p.greedy || (decide (0x3C23D70A ≤ t) && decide (t ≤ 0x42C80000))) && decide (p.topK ≤ 1024) && decide (p.nStop ≤ 8) &&
  decide (1 ≤ p.topP.toNat) && decide (p.topP.toNat ≤ 0x3F800000) &&
  (decide (p.minP.toNat < 0x3F800000) || p.minP.toNat == 0x80000000) &&
  (b.drop (16 + 4 * p.nStop)).all fun x => x == 0

/-! ## Rows (R252, R254, R256) -/

/-- The logit as R252 ranks it: the two zeros are equal. -/
def rankLogit (x : W32) : W32 := if x == 0x80000000 then 0 else x

/-- The ranking of R252: descending logit, NaN last, the lower vocabulary index first among equals. -/
def rankBefore (a b : Cand) : Bool :=
  let na := (fvOf a.logit).isNan
  let nb := (fvOf b.logit).isNan
  if na || nb then (!na && nb) || (na && nb && decide (a.token < b.token))
  else
    let x := rankLogit a.logit
    let y := rankLogit b.logit
    f32Lt y x || (!f32Lt x y && decide (a.token < b.token))

def insertCand (c : Cand) : List Cand → List Cand
  | [] => [c]
  | x :: t => if rankBefore c x then c :: x :: t else x :: insertCand c t

def sortCands (l : List Cand) : List Cand := l.foldr insertCand []

/-- The lists of one row. -/
def MasterStep.row (m : MasterStep) (entry node head : Nat) : List CandList :=
  m.cands.filter fun c => c.entry == entry && c.node == node && c.head == head

/-- Merged candidates of a row, at most 1,024 (R256). -/
def mergeRow (l : List CandList) (topK : Nat) : List Cand :=
  (sortCands (l.flatMap (·.cands))).take (if topK = 0 then 1024 else topK)

/-! ## Distribution (R257, R258) -/

/-- A candidate and its probability. -/
abbrev Dist := List (Nat × W32)

def fAdd (a b : W32) : W32 := (f32Add a b).1

/-- Sum in merged order. -/
def fSum : List W32 → W32
  | [] => 0
  | x :: t => t.foldl fAdd x

/-- A positive finite FP32 value as a multiple of 2^-149. -/
def f32Units (x : W32) : Nat :=
  let v := x.toNat % 2 ^ 31
  if v / 2 ^ 23 = 0 then v else (2 ^ 23 + v % 2 ^ 23) * 2 ^ (v / 2 ^ 23 - 1)

/-- p ÷ Σp over the list; probabilities whose sum is zero stay zero. -/
def renorm (d : Dist) : Dist :=
  let t := fSum (d.map (·.2))
  if f32Units t = 0 then d else d.map fun (c, p) => (c, (f32Div p t).1)

/-- Stage 7: candidates up to the first whose running sum reaches `TOP_P` × Σp; off at 1.0. -/
def topP (limit : W32) : W32 → Dist → Dist
  | _, [] => []
  | acc, (c, p) :: t =>
    let a := fAdd acc p
    if f32Lt a limit then (c, p) :: topP limit a t else [(c, p)]

/-- The distribution of a row: stages 5 to 9 over the merged candidates. -/
def rowDist (p : SParam) (cs : List Cand) : Dist :=
  if p.greedy then
    match cs with
    | [] => []
    | c :: _ => [(c.token, if (fvOf c.logit).isNan then 0 else 0x3F800000)]
  else
    let zs := cs.map fun c => (c.token, (f32Div c.logit p.temp).1)
    match zs.find? fun (_, z) => z == 0x7F800000 with
    | some (t, _) => [(t, 0x3F800000)]
    | none =>
      let num := zs.filter fun (_, z) => !(fvOf z).isNan && z != 0xFF800000
      match num with
      | [] => []
      | (_, z0) :: rest =>
        let zmax := rest.foldl (fun a (_, z) => if f32Lt a z then z else a) z0
        let q : Dist := zs.map fun (t, z) =>
          (t, if (fvOf z).isNan || z == 0xFF800000 then 0 else (f32Exp (f32Sub z zmax).1).1)
        let d := renorm q
        let d := if p.topP == 0x3F800000 then d else topP (f32Mul p.topP (fSum (d.map (·.2)))).1 0 d
        let big := (d.map (·.2)).foldl (fun a x => if f32Lt a x then x else a) 0
        let floor := (f32Mul p.minP big).1
        renorm (d.zipIdx.filterMap fun ((t, x), i) => if i = 0 || !f32Lt x floor then some (t, x) else none)

/-- Some candidate has a nonzero probability. -/
def Dist.live (d : Dist) : Bool := d.any fun (_, p) => f32Units p != 0

/-- The probability of a token: 0 when it is not kept. -/
def Dist.prob (d : Dist) (tok : Nat) : W32 := ((d.find? fun (t, _) => t == tok).map (·.2)).getD 0

/-- R259: the first candidate whose running sum exceeds u × the last one, compared exactly; u is `n` / 2^24. -/
def drawGo (n total : Nat) : W32 → Dist → Nat → Nat
  | _, [], last => last
  | acc, (c, p) :: t, _ =>
    let a := fAdd acc p
    if n * total < f32Units a * 2 ^ 24 then c else drawGo n total a t c

def Dist.draw (d : Dist) (n : Nat) : Nat := drawGo n (f32Units (fSum (d.map (·.2)))) 0 d 0xFFFFFFFF

/-! ## One entry (R260, R263 to R266) -/

/-- Depth of a node: the parents between it and node 0. -/
def depthGo (e : SeqEnt) : Nat → Nat → Nat
  | 0, _ => 0
  | f + 1, n => if n = 0 then 0 else 1 + depthGo e f (if e.kind = 3 then e.parents.getD n 0 else n - 1)

def SeqEnt.depth (e : SeqEnt) (n : Nat) : Nat := depthGo e n n

/-- Children in ascending index: a chain in HEADS mode. -/
def SeqEnt.children (e : SeqEnt) (n : Nat) : List Nat :=
  (List.range e.nTok).filter fun c => c != 0 && (if e.kind = 3 then e.parents.getD c 0 else c - 1) == n

/-- What emission knows of an entry. -/
structure DrawCtx where
  ent : SeqEnt
  idx : Nat
  seed : Nat
  par : SParam
  mst : MasterStep
deriving DecidableEq, Repr

def DrawCtx.dist (c : DrawCtx) (node : Nat) : Dist := rowDist c.par (mergeRow (c.mst.row c.idx node 0) c.par.topK)

/-- The token drawn at a node, and whether none had a nonzero probability (R258, R259). -/
def DrawCtx.pick (c : DrawCtx) (d : Dist) (node : Nat) : Nat × Bool :=
  if !d.live then (0xFFFFFFFF, true)
  else if c.par.greedy then ((d.map (·.1)).headD 0xFFFFFFFF, false)
  else
    let pos := if c.ent.kind = 1 then c.ent.len0 + c.ent.nTok else c.ent.len0 + c.ent.depth node + 1
    (d.draw (drawU c.seed 0 pos (if c.ent.kind = 3 then node else 0) 0), false)

/-- The acceptance test of a child. -/
def DrawCtx.accepts (c : DrawCtx) (d : Dist) (child : Nat) : Bool :=
  let tok := c.ent.toks.getD child 0
  if c.par.greedy then d.live && (d.map (·.1)).head? == some tok
  else decide (drawU c.seed 1 (c.ent.len0 + c.ent.depth child) child 0 * 2 ^ 149 < f32Units (d.prob tok) * 2 ^ 24)

/-- Test the children in order: the one accepted, or the residual distribution (R264). -/
def DrawCtx.tryKids (c : DrawCtx) : Dist → List Nat → Dist × Option Nat
  | d, [] => (d, none)
  | d, k :: t =>
    if c.accepts d k then (d, some k)
    else if c.par.greedy then c.tryKids d t
    else c.tryKids (renorm (d.map fun (x, p) => (x, if x == c.ent.toks.getD k 0 then 0 else p))) t

/-- What a verification leaves: tokens emitted, accepted nodes after the root, whether a stop token ended it, `NV`. -/
structure Emitted where
  toks : List Nat
  path : List Nat
  stopped : Bool
  nv : Bool
deriving DecidableEq, Repr

/-- The loop of R264; at most one turn for each node. -/
def DrawCtx.verify (c : DrawCtx) : Nat → Nat → Emitted → Emitted
  | 0, _, r => r
  | f + 1, node, r =>
    match c.tryKids (c.dist node) (c.ent.children node) with
    | (_, some k) =>
      let tok := c.ent.toks.getD k 0
      let r := { r with toks := r.toks ++ [tok], path := r.path ++ [k] }
      if c.par.stops.contains tok then { r with stopped := true } else c.verify f k r
    | (d, none) =>
      let (tok, nv) := c.pick d node
      { r with toks := r.toks ++ [tok], stopped := nv || c.par.stops.contains tok, nv := nv }

/-- Tokens, path and flags of an `EMIT` entry: `N_ACC` counts the tokens emitted for HEADS and TREE (R265). -/
def DrawCtx.emit (c : DrawCtx) : Emitted := c.verify (c.ent.nTok + 1) 0 { toks := [], path := [], stopped := false, nv := false }

/-- The Sketch of a HEADS entry: each head's first candidate at the last committed node (R266). -/
def DrawCtx.sketch (c : DrawCtx) (heads node : Nat) : List Nat :=
  (List.range heads).map fun i => ((mergeRow (c.mst.row c.idx node (i + 1)) 0).map (·.token)).headD 0xFFFFFFFF

/-- Rows of Table 10-7 for an entry: node and head. -/
def SeqEnt.rows (e : SeqEnt) (heads : Nat) : List (Nat × Nat) :=
  if !e.emit then []
  else if e.kind ≤ 1 then [(0, 0)]
  else if e.kind = 2 then (List.range e.nTok).flatMap fun n => (List.range (heads + 1)).map fun h => (n, h)
  else (List.range e.nTok).map fun n => (n, 0)

/-! ## The whole step -/

/-- The rows of a step that its lists must cover: entry, node, head. -/
def stepRows (l : List SeqEnt) (heads : Nat) : List (Nat × Nat × Nat) :=
  l.zipIdx.flatMap fun (e, i) => (e.rows heads).map fun (n, h) => (i, n, h)

/-- R254: lists of a row that state different `SHARDS`, or more of them than they state. -/
def rowBad (l : List CandList) : Bool :=
  match l with
  | [] => false
  | c :: t => t.any (fun x => x.shards != c.shards) || decide (c.shards < l.length)

/-- Every row has the lists that it states. -/
def MasterStep.rowsFull (m : MasterStep) (l : List SeqEnt) (heads : Nat) : Bool :=
  (stepRows l heads).all fun (i, n, h) => match m.row i n h with
    | [] => true
    | c :: t => c.shards == t.length + 1

/-- A needed row has no list at all (R263). -/
def MasterStep.rowMissing (m : MasterStep) (l : List SeqEnt) (heads : Nat) : Bool :=
  (stepRows l heads).any fun (i, n, h) => (m.row i n h).isEmpty

/-- The decision on one entry at counter value `now` (R230, R235, R265). -/
def decideEntry (now heads : Nat) (m : MasterStep) (seed : Nat) (par : SParam) (e : SeqEnt) (idx : Nat) : SeqResult × Bool :=
  let late := e.deadline != 0 && decide (e.deadline < now)
  let r0 : SeqResult := { seq := e.seq, dropped := false, late := late, stopped := false, spec := false, idleN := par.idleN,
                          nAcc := if e.kind = 1 then e.nTok else 1, newLen := 0, toks := [], path := [] }
  if late && e.dropLate then ({ r0 with dropped := true, late := false, nAcc := 0 }, false)
  else if !e.emit then (r0, false)
  else
    let c : DrawCtx := { ent := e, idx := idx, seed := seed, par := par, mst := m }
    if e.kind ≤ 1 then
      let (tok, nv) := c.pick (c.dist 0) 0
      ({ r0 with toks := [tok], stopped := nv || par.stops.contains tok }, nv)
    else
      let x := c.emit
      let n := x.toks.length
      let nodes := (0 :: x.path).take n
      let sk := if e.kind = 2 then c.sketch heads ((nodes.getLast?).getD 0) else []
      ({ r0 with nAcc := n, toks := x.toks ++ sk, path := if e.kind = 3 then nodes else [], stopped := x.stopped }, x.nv)

/-- The parameter blocks of the `EMIT` entries, read on the master: a status with, when it is 0, one block for each entry. -/
def State.readParams (s : State) (p : Port) (addr : Nat) : List SeqEnt → Nat × List SParam
  | [] => (stOK, [])
  | e :: t =>
    let (st, l) := s.readParams p addr t
    if !e.emit then (st, sparam (List.replicate 64 0) :: l)
    else match s.hostRead p (addr + 64 * e.sparam) 64 with
    | none => (stHostUnreachable, [])
    | some b => if sparamOk b then (st, sparam b :: l) else (if st = stHostUnreachable then st else stBadField, [])

/-- Decide every entry of a step: the results and whether any row set `NV`. -/
def State.decideAll (s : State) (t : Step) (m : MasterStep) (heads : Nat) (ps : List SParam) : List SeqResult × Bool :=
  let r := (t.seqs.zip ps).zipIdx.map fun ((e, p), i) =>
    decideEntry s.now heads m (((s.seqOf e.seq).map (fun (q : Seq) => q.seed)).getD 0) p e i
  (r.map (·.1), r.any (·.2))

/-- The COMMIT body entry of a result (R226): `N_ACC` has seven bits, so a PREFILL entry's count is its own `N_TOK`. -/
def SeqResult.entry (r : SeqResult) : CommitEntry := { nAcc := r.nAcc % 128, discard := r.dropped, path := r.path }

end Sys2Proof.Machine
end

