-- ==== Sys2Proof/Machine/Steps.lean ====
section
/-! DEFINITION. What a step holds on a member (R173 to R179, R222, R223), its kill and re-run (R237 to R240), the commit
apply (R232), job stops (R378 to R380) and tenants' turns (R242 to R246), as operations that the tokens' meanings call. -/

namespace Sys2Proof.Machine

open Sys2Proof

/-! ## Turns of tenants on the master (R242 to R246) -/

/-- The step runs under this module's mastership. -/
def State.mastered (s : State) (t : Step) : Bool := (s.slc t.slice).isMaster

def State.tenSteps (s : State) (ten : Nat) : List Step := s.steps.filter fun t => t.tenant == ten && s.mastered t

/-- A master's record whose start barrier holds every ARRIVE and waits for its release. -/
def State.startReady (s : State) (m : MasterStep) : Bool :=
  !m.killing && !m.released.contains 0 &&
  (List.range (s.slc m.slice).count).all fun i => m.arrived.any fun (b, j, _) => b == 0 && j == i

def State.readySteps (s : State) : List (MasterStep × Step) :=
  s.mst.filterMap fun m => if s.startReady m then (s.stepOf m.slice m.id).map fun t => (m, t) else none

def State.quantum (s : State) (ten : Nat) : Nat := s.tenQ.getD ten 0

def State.charge (s : State) (ten : Nat) : Nat := s.tenC.getD ten 0

/-- Choose the next turn: ascending tenant index after the tenant that ran last; a turn of no length is skipped (R244). -/
def State.pickTurn (s : State) (ready : List Nat) : Nat → State
  | 0 => s
  | f + 1 =>
    let order := (List.range 64).map fun i => (s.lastTenant + 1 + i) % 64
    match order.find? fun t => ready.contains t with
    | none => s
    | some t =>
      if s.quantum t ≤ s.charge t then
        ({ s with tenC := s.tenC.set t (s.charge t - s.quantum t), lastTenant := t } : State).pickTurn ready f
      else { s with curTenant := some t, turnStart := none, turnEnd := none }

/-- Release the start barrier of a step; a turn counts from its first release. -/
def State.releaseStart (s : State) (m : MasterStep) (t : Step) : State :=
  let s := s.modMst m.slice m.id fun m => { m with released := m.released ++ [0] }
  let s := if s.curTenant == some t.tenant && s.turnStart.isNone then
      { s with turnStart := some s.now, turnEnd := some (s.now + cyclesUs (s.quantum t.tenant - s.charge t.tenant)) }
    else s
  s.toAll m.slice .release (s.mstTok m) []

/-- End the current turn; quanta that wait for a change of turn apply (R431). -/
def State.passTurn (s : State) : State :=
  ({ s with lastTenant := s.curTenant.getD s.lastTenant, curTenant := none, turnStart := none, turnEnd := none } : State).applyQuanta

/-- Release what R243 lets start now. -/
def State.schedule (s : State) : State :=
  let s := match s.curTenant with
    | some c => if (s.tenSteps c).isEmpty then s.passTurn else s
    | none => s
  let sliced := (s.readySteps.map fun (_, t) => t.tenant).eraseDups.filter fun t => decide (0 < s.quantum t)
  let fuel := 64 + (sliced.map fun t => s.charge t / s.quantum t + 1).foldl (· + ·) 0
  let s := if s.curTenant.isNone then s.pickTurn sliced fuel else s
  let s := (s.readySteps.filter fun (_, t) => s.curTenant == some t.tenant).foldl (fun s (m, t) => s.releaseStart m t) s
  if s.readySteps.any fun (_, t) => decide (0 < s.quantum t.tenant) then s
  else (s.readySteps.filter fun (_, t) => s.quantum t.tenant = 0).foldl (fun s (m, t) => s.releaseStart m t) s

/-- A step of an ended turn has reached KILLED or COMMITTED on every member: the last one fixes the overrun (R245). -/
def State.turnDone (s : State) (h id : Nat) : State :=
  match s.turnSteps.find? fun (_, _, a, b) => a == h && b == id with
  | none => s
  | some (ten, e, _, _) =>
    let s := { s with turnSteps := s.turnSteps.filter fun (_, _, a, b) => !(a == h && b == id) }
    if s.turnSteps.any fun (a, b, _, _) => a == ten && b == e then s
    else { s with tenC := s.tenC.set ten (s.charge ten + ((s.now - e) / 105 - 50)) }

/-! ## Completions (R247, Table 17-9) -/

def Step.result (t : Step) (slice : Bool) (flags : BitVec 5) (ovfPairs ovfRounds mask : Nat) : List Byte :=
  leBytes 8 t.id ++ leBytes 1 t.run ++ leBytes 1 (flags.toNat + 32 * boolNat t.rerun + 64 * boolNat slice) ++ leBytes 1 ovfRounds ++
  leBytes 1 t.preempts ++ leBytes 4 t.commitNo ++ leBytes 4 ovfPairs ++ leBytes 8 mask

/-- A step leaves the module: its record goes, loads that waited for its banks act, and its tenant's turn passes with its last step
(R243). -/
def State.dropStep (s : State) (h id : Nat) : State :=
  (({ s with steps := s.steps.filter fun t => !(t.slice == h && t.id == id) } : State).routeWake h).schedule

/-- Post a step's completion on the ring of its STEP_SUBMIT and drop it; the master's carries the whole slice's sums. -/
def State.postStep (s : State) (t : Step) (status mask : Nat) (lost : Bool) : State :=
  let x := s.slc t.slice
  let res := match s.mstOf t.slice t.id with
    | some m => if x.isMaster then t.result true (m.prepFlags ||| t.flags) m.ovfPairs m.ovfRounds mask else t.result false t.flags t.ovfPairs t.ovfRounds mask
    | none => t.result x.isMaster t.flags t.ovfPairs t.ovfRounds mask
  (s.finishWith t.ref status res lost t.blame).dropStep t.slice t.id

/-! ## Pages (R174 to R176, R178) -/

/-- What one entry takes: a tail copy (source, positions), fresh logical pages, leaf runs. -/
structure PagePlan where
  copy : Option (Nat × Nat)
  fresh : List Nat
  runs : List Nat
deriving DecidableEq, Repr

/-- The open tail: STAGING, mapped once, not permanent (R175). -/
def PageDesc.openTail (d : PageDesc) : Bool := d.state == .staging && d.refcnt == 1 && !d.perm

def State.planEntry (s : State) (q : Seq) (n : Nat) : PagePlan :=
  let me := (s.slc q.slice).member
  let lp := q.len / 64
  let tail := q.pageAt lp
  let a := (q.len + 63) / 64
  let fresh := ((List.range ((q.len + n - 1) / 64 + 1 - a)).map (a + ·)).filter fun p => q.owns me p
  let leaf (r : Nat) : Bool := ((s.pool q.pool).map fun p => p.hasLeaf q.h r).getD false
  { copy := if q.len % 64 != 0 && q.owns me lp && tail != 0 && !(s.pageOf q.pool tail).openTail then some (tail, q.len % 64) else none
    fresh := fresh, runs := (fresh.map (· / 512)).eraseDups.filter fun r => !leaf r }

/-- The open sequences of a step with their plans. -/
def State.plans (s : State) (t : Step) : List (Seq × PagePlan) :=
  t.seqs.filterMap fun e => (s.seqOf e.seq).map fun q => (q, s.planEntry q e.nTok)

/-- A pool has the frames, identifiers and table slots for the whole step. -/
def State.poolFits (s : State) (l : List (Seq × PagePlan)) (pool : Nat) : Bool :=
  let mine := l.filter fun (q, _) => q.pool == pool
  let pages := (mine.map fun (_, p) => p.fresh.length + boolNat p.copy.isSome).foldl (· + ·) 0
  let slots := (mine.map fun (_, p) => p.runs.length).foldl (· + ·) 0
  match s.pool pool with
  | some p => decide (pages ≤ p.freeFrames) && decide (pages ≤ p.freeIds.length) && decide (slots ≤ p.freeSlots)
  | none => pages == 0 && slots == 0

/-- Take one staged page for a logical page of a sequence. -/
def State.stagePage (s : State) (h id : Nat) (q : Seq) (lp : Nat) : Option Nat × State :=
  match s.allocPage q.pool with
  | (none, s) => (none, s)
  | (some pg, s) =>
    (some pg, s.modStep h id fun t => { t with alloc := t.alloc ++ [(q.pool, pg)], staged := t.staged ++ [(q.h, lp, pg)] })

/-- Allocate what one entry takes; a SPILLED tail is asked back first (R175). -/
def State.allocEntry (s : State) (h id : Nat) (q : Seq) (p : PagePlan) : State :=
  let s := match p.copy with
    | none => s
    | some (src, n) =>
      match s.stagePage h id q (q.len / 64) with
      | (none, s) => s
      | (some dst, s) =>
        let c : TailCopy := { seq := q.h, pool := q.pool, src := src, dst := dst, n := n, page := q.len / 64, done := false }
        let s := s.modStep h id fun t => { t with copies := t.copies ++ [c] }
        if (s.pageOf q.pool src).state == .spilled then s.modPool q.pool fun p => { p with demand := addNew p.demand src } else s
  let s := p.fresh.foldl (fun s lp => (s.stagePage h id q lp).2) s
  p.runs.foldl (fun s r =>
    match s.takeSlot q.pool (.staged q.h r) with
    | (some i, s) => s.modStep h id fun t => { t with leaves := t.leaves ++ [(q.pool, i)] }
    | (none, s) => s) s

/-- One pin on every page that a member sequence maps (R174). -/
def State.pinStep (s : State) (h id : Nat) : State :=
  match s.stepOf h id with
  | none => s
  | some t =>
    let l := (t.seqs.flatMap fun e => ((s.seqOf e.seq).map fun (q : Seq) => q.map.map fun (_, pg) => (q.pool, pg)).getD []).eraseDups
    (l.foldl (fun s (pool, pg) => s.pinPage pool pg) s).modStep h id fun t => { t with pinned := l }

def State.unpinStep (s : State) (t : Step) : State :=
  (t.pinned.foldl (fun s (pool, pg) => s.unpinPage pool pg) s).modStep t.slice t.id fun t => { t with pinned := [] }

/-- Free table slots taken for leaves that no page table holds. -/
def State.dropStaged (s : State) (pool : Nat) (p : Nat → Bool) : State :=
  let keep (u : TableUse) : Bool := match u with
    | .staged q _ => !p q
    | _ => true
  s.modPool pool fun x => { x with tables := x.tables.filter fun y => keep y.2 }

/-- What a killed step gives back: its pages, its leaf slots, then its pins (R178). -/
def State.freeStepPages (s : State) (t : Step) : State :=
  let s := t.alloc.foldl (fun s (pool, pg) => s.freePage pool pg) s
  let s := (t.leaves.map (·.1)).eraseDups.foldl (fun s pool => s.dropStaged pool fun q => t.seqs.any fun e => e.seq == q) s
  (s.unpinStep t).modStep t.slice t.id fun t => { t with alloc := [], leaves := [], staged := [], copies := [], kvRows := [] }

/-! ## Ends of a step on a member -/

/-- The member sequences leave the step, and closes held to it apply (R181). -/
def State.freeSeqs (s : State) (t : Step) : State :=
  t.seqs.foldl (fun s e =>
    let s := s.modSeq e.seq fun q => { q with step := 0 }
    if ((s.seqOf e.seq).map (·.closing)).getD false then s.applyClose e.seq else s) s

/-- A step ends on this member without commit: sequences, view, slot. -/
def State.endStep (s : State) (t : Step) : State :=
  let s := (s.freeSeqs t).dropView t.model t.view
  let s := s.modDies fun d => d.releaseSlot t.slot
  let s := s.modStep t.slice t.id fun t => { t with slot := 16, killRefs := [] }
  s.finishAll t.killRefs stOK

/-- The batch digest (R223). -/
def State.batchDigest (s : State) (t : Step) : Nat :=
  let man := (((s.model t.model).bind fun m => m.view t.view).map fun v => v.man.digest).getD []
  ofLe ((shake256 (leBytes 8 t.id ++ leBytes 1 t.tenant ++ man ++ leBytes 2 t.seqs.length ++
    t.seqs.flatMap fun e => leBytes 4 e.seq ++ leBytes 4 e.nTok ++ [e.byte8] ++ leBytes 4 e.sparam)).take 8)

/-- Parent lists of TREE entries (R262). -/
def parentsOk (e : SeqEnt) : Bool :=
  e.kind != 3 || (e.parents.head? == some 0xFFFFFFFF && (e.parents.zipIdx.drop 1).all fun (p, n) => decide (p < n))

/-- The start ARRIVE of a run goes to the master, or waits while the module is HELD (R222, R461). -/
def State.sendStart (s : State) (h id : Nat) : State :=
  match s.stepOf h id with
  | some t =>
    if s.power.held || t.waitRun || t.arriveSent.contains 0 then s
    else
      let s := s.modStep h id fun t => { t with arriveSent := addNew t.arriveSent 0 }
      s.toMaster h .arrive { s.tokOf t with batchDigest := t.digest }
  | none => s

/-- A run of a step starts on this member: pages and pins, then the start ARRIVE; or NO_PAGES, with spilling started (R176,
R185, R222, R240). -/
def State.startRun (s : State) (h id : Nat) : State :=
  match s.stepOf h id with
  | none => s
  | some t =>
    let l := s.plans t
    let pools := (l.map fun (q, _) => q.pool).eraseDups
    let short := pools.filter fun p => !s.poolFits l p
    if short.isEmpty then
      let s := (l.foldl (fun s (q, p) => s.allocEntry h id q p) s).pinStep h id
      let s := s.sendStart h id
      if t.seqs.all parentsOk then s else s.failStep h id stBadField
    else
      let s := short.foldl (fun s p => s.modPool p fun x => { x with spilling := true }) s
      let s := s.endStep t
      match s.stepOf h id with
      | some t => (s.finish t.ref stNoPages (t.result (s.slc h).isMaster 0 0 0 0)).dropStep h id
      | none => s

/-- The same contents with the next run number, which waits for the master's restart (R240). -/
def Step.again (t : Step) (cause : Nat) : Step :=
  { t with run := t.run + 1, phase := 0, flags := 0, ovfPairs := 0, ovfRounds := 0, rerun := t.rerun || cause == 2,
           preempts := t.preempts + boolNat (cause == 3), pinned := [], alloc := [], leaves := [], staged := [], copies := [], kvRows := [],
           arrivedAt := [], arriveSent := [], released := [], prepSent := false, killing := none, waitRun := true, swapHeld := [], status := 0, blame := none, gtPending := [] }

/-- The last action of a kill (R178, R238, R240): everything is given back, KILLED goes to the master, and the step waits to run again
or ends; the master's own completion waits for every member's KILLED. -/
def State.finishKill (s : State) (t : Step) : State :=
  let cause := t.killing.getD 0
  let stopped := (s.slc t.slice).state == .stopped
  let tok := { s.tokOf t with cause := cause }
  let s := (s.freeStepPages t).modDies fun d => d.releaseSlot t.slot
  let s := if stopped then s else s.toMaster t.slice .killed tok
  if t.status = 0 && !stopped then
    s.modStep t.slice t.id fun t => t.again cause
  else
    let s := s.endStep t
    if (s.slc t.slice).isMaster && !stopped then s.modStep t.slice t.id fun t => { t with phase := 6 }
    else match s.stepOf t.slice t.id with
      | some t => s.postStep t t.status 0 false
      | none => s

/-- The master restarts the step here: pages and pins are taken afresh; a STEP_KILL of this member that the re-run's kill outran is
asked for again (R240). -/
def State.restartRun (s : State) (t : Step) : State :=
  let s := (s.modStep t.slice t.id fun t => { t with waitRun := false }).startRun t.slice t.id
  match s.stepOf t.slice t.id with
  | some t => if t.killRefs.isEmpty then s else s.toMaster t.slice .killReq { s.tokOf t with cause := 1 }
  | none => s

/-- A kill ends once no core holds a tile of the step and no swap it stands at is writing (R138, R241). -/
def State.killCheck (s : State) (h id : Nat) : State :=
  match s.stepOf h id with
  | some t => if t.killing.isSome && decide (t.phase < 4) && !s.slotHeld t.slot && !s.swapBlocks t then s.finishKill t else s
  | none => s

def State.killChecks (s : State) : State := s.steps.foldl (fun s t => s.killCheck t.slice t.id) s

/-- Kill a step on this member (R237, R238); `status` 0 runs it again. -/
def State.killLocal (s : State) (t : Step) (cause status : Nat) : State :=
  let s := s.modStep t.slice t.id fun t => { t with killing := some cause, status := status }
  let s := s.modDies fun d => d.killSlot t.slot
  s.killCheck t.slice t.id

/-! ## Job stops (R378 to R380) -/

/-- Status that a stop's cause gives its steps. -/
def stopStatus (cause : Nat) : Nat :=
  if cause = 4 then stSliceDisagree else if cause = 5 then stMemLost else if cause = 6 then stKilled else stMemberLost

/-- One step of a stopping slice: killed, or, past its commit point on the master, completed with the members that sent
COMMITTED; what the master itself had not yet applied is given back (R233). -/
def State.stopStep (s : State) (t : Step) (status : Nat) : State :=
  if t.phase < 4 then s.killLocal t 4 status
  else if t.phase = 6 then s.postStep t (if t.status = 0 then status else t.status) 0 false
  else
    let s := if t.phase = 4 then (s.freeStepPages t).endStep t else s
    s.postStep t stMemberLost (((s.mstOf t.slice t.id).map fun m => pack (m.committed.map fun i => (i, 1, 1))).getD 0) false

/-- The member stops the job of a slice (R378, R379); `first` where it is the first to find the cause: a master then tells every member. -/
def State.stopJobAs (s : State) (first : Bool) (h cause coord : Nat) : State :=
  let x := s.slc h
  if x.state != .joined then s
  else
    let msg := s.slcMsg h cause coord
    let peers := (s.neighbours h).foldl addNew (if first && x.isMaster then (s.members h).filter fun c => c != s.coord.coord else [])
    let s := s.sendSlice .stop peers msg
    let s := s.modSlc h fun x => { x with state := .stopped, stopCause := cause, stopCoord := coord, waitLoads := [] }
    let s := (s.steps.filter fun t => t.slice == h).foldl (fun s t => s.stopStep t (stopStatus cause)) s
    let s := (s.mst.filter fun m => m.slice == h).foldl (fun s m => s.turnDone h m.id) s
    let s := { s with mst := s.mst.filter fun m => m.slice != h }
    let s := ((s.finishAll (x.waitLoads.map (·.1)) stSliceStopped).raise .rte 4).schedule
    if cause = 6 then s else s.jobStopPins.faultTrigger 4

def State.stopJob (s : State) (h cause coord : Nat) : State := s.stopJobAs true h cause coord

/-- The die, memory or other part that failed belongs to every slice that runs on the module. -/
def State.stopAll (s : State) (cause : Nat) : State := (List.range 8).foldl (fun s h => s.stopJob h cause s.coord.coord) s

/-- STOP from another member (R378). -/
def State.takeStop (s : State) (m : SliceMsg) : State :=
  match s.sliceOfTag m.tag with
  | some h => s.stopJobAs false h m.cause m.causeCoord
  | none => s

/-- SLICE_LEAVE (R379 to R381). -/
def opSliceLeave (r : Ref) (b : List Byte) (s : State) : State :=
  let h := fld b 0 1
  let x := s.slc h
  if !onlyUses b [(0, 1)] || decide (7 < h) then s.finish r stBadField
  else if x.state == .free then s.finish r stNotFound
  else if x.state == .joining || s.steps.any (fun t => t.slice == h) then s.finish r stBusy
  else
    let s := if x.state == .joined then s.stopJob h 6 s.coord.coord else s
    let s := (s.seqsIn h).foldl (fun s q => s.applyClose q.h) s
    let y := s.slc h
    (s.modSlc h fun _ => { State.slice0 with keptSts := y.sts, keptGen := y.genVal, stopCause := y.stopCause, stopCoord := y.stopCoord }).finish r stOK

/-! ## Kills on the master (R238 to R240) -/

/-- The record of a step's next run: nothing of the last run is held. -/
def MasterStep.nextRun (m : MasterStep) : MasterStep :=
  { m with run := m.run + 1, killing := false, restart := false, expect := [], killed := [] }

/-- The kill is over on every member it waits for: the master ends the step, or restarts it on every member (R240); when another kill
waits for the end of the re-run's kill, nothing restarts. DESIGN CHOICE (log entry 135): the notice of a restart is the RELEASE of the
start barrier with the next run number, which a member whose step waits to run again takes as such. -/
def State.killDone (s : State) (h id : Nat) : State :=
  match s.mstOf h id with
  | none => s
  | some m =>
    if !m.killing || !(m.expect.all fun i => m.killed.contains i) then s
    else
      let s := s.turnDone h id
      if m.restart then
        let s := s.modMst h id (·.nextRun)
        if m.thenKill.isSome then s else (s.toAll h .release (s.mstTok m.nextRun) []).schedule
      else
        let s := match s.stepOf h id with
          | some t => if t.phase = 6 then s.postStep t m.endStatus 0 false else s
          | none => s
        (s.dropMst h id).schedule

/-- Status that a kill's cause gives a step that ends (R238, R240). -/
def killStatus (cause : Nat) : Nat := if cause = 5 then stStepMismatch else if cause = 4 then stMemberLost else stKilled

/-- The members whose KILLED a kill waits for: every member when the step is to run again (R240) or its start barrier is released, else
those known to hold it. -/
def State.killHolders (s : State) (m : MasterStep) (restart : Bool) : List Nat :=
  if restart || m.released.contains 0 then List.range (s.slc m.slice).count
  else
    let own := if ((s.stepOf m.slice m.id).map fun t => decide (t.slot < 16)).getD false then [(s.slc m.slice).member] else []
    ((m.arrived.filter fun (b, _, _) => b == 0).map fun (_, i, _) => i).foldl addNew (m.expect.foldl addNew own)

/-- Kill a step on every member (R238). A re-run kill counts its cause; the fourth fault kill ends the step (R240). -/
def State.masterKill1 (s : State) (h id cause status : Nat) : State :=
  match s.mstOf h id with
  | none => s
  | some m =>
    if m.decided then s
    else if m.killing then
      if m.restart && (status ≠ 0 || (cause ≠ 2 && cause ≠ 3)) && m.thenKill.isNone then s.modMst h id fun m => { m with thenKill := some (cause, status) }
      else s
    else
      let st := if status ≠ 0 then status
        else if cause = 2 then (if 3 ≤ m.faultKills then stRerunLimit else 0)
        else if cause = 3 then 0
        else killStatus cause
      let tok := { s.mstTok m with cause := cause, status := st }
      let exp := s.killHolders m (st == 0)
      let s := s.modMst h id fun m => { m with
        killing := true, restart := st == 0, cause := cause, endStatus := st, expect := exp, killed := [],
        faultKills := m.faultKills + boolNat (cause == 2),
        quantumKills := m.quantumKills + boolNat (cause == 3), arrived := [], startDigs := [], released := [], prepared := [],
        prepFlags := 0, ovfPairs := 0, ovfRounds := 0, cands := [] }
      (s.toAll h .kill tok []).killDone h id

/-- The kill that waited for the end of a re-run's kill, if one did. -/
def State.nextKill (s : State) (h id : Nat) : State :=
  match s.mstOf h id with
  | none => s
  | some m =>
    match m.thenKill with
    | some (c, st) => if m.killing then s else (s.modMst h id fun m => { m with thenKill := none }).masterKill1 h id c st
    | none => s

/-- As `masterKill1`, and a kill that waited for the end of a re-run's kill follows it. -/
def State.masterKill (s : State) (h id cause status : Nat) : State := (s.masterKill1 h id cause status).nextKill h id

/-! ## Commit apply (R177, R232, R267, R269) -/

/-- Positions that an entry commits, from its kind and the COMMIT body. -/
def commitN (e : SeqEnt) (c : CommitEntry) : Nat := if e.kind = 1 then e.nTok else if e.kind = 0 then 1 else c.nAcc

/-- The entry is discarded: late, or its sequence's close is held to the step. -/
def State.discards (s : State) (e : SeqEnt) (c : CommitEntry) : Bool := c.discard || ((s.seqOf e.seq).map (·.closing)).getD false

/-- Step 1: the accepted path is compacted, and every staged page with a committed position is mapped. -/
def State.mapEntry (s : State) (t : Step) (e : SeqEnt) (c : CommitEntry) : State :=
  match s.seqOf e.seq with
  | none => s
  | some q =>
    if s.discards e c then s
    else
      let newLen := q.len + commitN e c
      let s := if e.kind = 3 then s.compact t q (c.path.take c.nAcc) else s
      let mine := t.staged.filter fun (x, lp, _) => x == q.h && decide (64 * lp < newLen)
      let s := mine.foldl (fun s (_, lp, pg) =>
        let old := ((s.seqOf e.seq).map fun q => q.pageAt lp).getD 0
        let s := (s.modSeq e.seq fun q => { q with map := assocSet q.map lp pg }).incRef q.pool pg
        if old = 0 then s else s.decRef q.pool old) s
      let link (u : TableUse) : TableUse := match u with
        | .staged x r => if x == q.h && mine.any (fun (_, lp, _) => lp / 512 == r) then .leaf x r else .staged x r
        | u => u
      s.modPool q.pool fun p => { p with tables := p.tables.map fun (i, u) => (i, link u) }

/-- Step 2: `FILL` of the written pages, and LIVE with `AGE` where it reaches 64; then the committed length. -/
def State.fillEntry (s : State) (e : SeqEnt) (c : CommitEntry) (no : Nat) : State :=
  match s.seqOf e.seq with
  | none => s
  | some q =>
    if s.discards e c then s
    else
      let newLen := q.len + commitN e c
      let lps := (List.range ((newLen + 63) / 64 - q.len / 64)).map (q.len / 64 + ·)
      let s := lps.foldl (fun s lp =>
        let pg := q.pageAt lp
        if pg = 0 then s
        else s.modPage q.pool pg fun d =>
          let f := min 64 (newLen - 64 * lp)
          if f = 64 && d.state == .staging then { d with fill := f, state := .live, age := no, ageC := s.commitC + 1 } else { d with fill := f }) s
      s.modSeq e.seq fun q => { q with len := newLen }

/-- Step 3: staged pages that no page table maps are freed, with their leaf slots. -/
def State.freeRejected (s : State) (t : Step) : State :=
  let s := t.staged.foldl (fun s (h, lp, pg) =>
    match s.seqOf h with
    | some q => if q.pageAt lp == pg then s else s.freePage q.pool pg
    | none => s) s
  (t.leaves.map (·.1)).eraseDups.foldl (fun s pool => s.dropStaged pool fun q => t.seqs.any fun e => e.seq == q) s

/-- The zero-accept count (R269). -/
def zeroAccNext (e : SeqEnt) (discard : Bool) (nAcc old : Nat) : Nat :=
  if discard then old
  else if e.kind ≤ 1 then 0
  else if 2 ≤ e.nTok then (if nAcc = 1 then min 255 (old + 1) else 0)
  else old

/-- Per-sequence state of the commit, and on the master the token record (R446). -/
def State.specEntry (s : State) (t : Step) (e : SeqEnt) (c : CommitEntry) (no : Nat) (i : Nat) : State :=
  let s := s.modSeq e.seq fun q => { q with zeroAcc := zeroAccNext e c.discard (commitN e c) q.zeroAcc, lastStep := t.id, lastCommit := s.commitC + 1 }
  match s.mstOf t.slice t.id, s.seqOf e.seq with
  | some m, some q =>
    match m.results[i]? with
    | none => s
    | some r =>
      let r := { r with spec := e.emit && decide (r.idleN ≤ q.zeroAcc), newLen := q.len }
      let s := s.modMst t.slice t.id fun m => { m with results := m.results.set i r }
      s.modSeq e.seq fun q => { q with
        nOut := r.toks.length, toks := r.toks, tokValid := true, stamp := no,
        rflags := BitVec.ofNat 4 (pack [(0, 1, boolNat r.dropped), (1, 1, boolNat r.late), (2, 1, boolNat r.spec), (3, 1, boolNat r.stopped)]) }
  | _, _ => s

/-- The apply on this member, in the order of R232; the commit number advances last. -/
def State.applyCommit (s : State) (t : Step) (body : List CommitEntry) : State :=
  let no := nextCseq s.commitNo
  let l := t.seqs.zip body
  let s := l.foldl (fun s (e, c) => s.mapEntry t e c) s
  let s := l.foldl (fun s (e, c) => s.fillEntry e c no) s
  let s := s.freeRejected t
  let s := l.zipIdx.foldl (fun s ((e, c), i) => s.specEntry t e c no i) s
  let s := (s.freeSeqs t).unpinStep t
  let s := s.modDies fun d => d.releaseSlot t.slot
  let s := s.dropView t.model t.view
  let s := s.modStep t.slice t.id fun t => { t with slot := 16, phase := 5, commitNo := no, alloc := [], leaves := [], staged := [], copies := [], kvRows := [], killRefs := [] }
  ({ s with commitNo := no, commitC := s.commitC + 1 } : State).agedSlots.finishAll t.killRefs stCommitted

/-- A result record (Table 09-6). -/
def SeqResult.bytes (r : SeqResult) (off : Nat) : List Byte :=
  leBytes 4 r.seq ++
  leBytes 2 (pack [(0, 1, boolNat r.dropped), (1, 1, boolNat r.late), (2, 1, boolNat r.spec), (3, 1, boolNat r.stopped)]) ++
  leBytes 2 r.toks.length ++ leBytes 4 r.newLen ++ leBytes 4 off

/-- Records and output tokens of a step, in list order. -/
def resultBytes : List SeqResult → Nat → List Byte × List Byte
  | [], _ => ([], [])
  | r :: t, off =>
    let (a, b) := resultBytes t (off + r.toks.length)
    (r.bytes off ++ a, r.toks.flatMap (leBytes 4) ++ b)

/-- Every member has sent COMMITTED: results, tokens and the slice completion (R234, R248). -/
def State.completeMaster (s : State) (h id : Nat) : State :=
  match s.mstOf h id, s.stepOf h id with
  | some m, some t =>
    if t.phase = 5 && (List.range (s.slc h).count).all fun i => m.committed.contains i then
      let (recs, toks) := resultBytes m.results 0
      let (s, l0) := s.hostWrite t.ref.src.port t.resAddr recs
      let (s, l1) := if toks.isEmpty then (s, false) else s.hostWrite t.ref.src.port t.outAddr toks
      (((s.postStep t stOK 0 (l0 || l1)).dropMst h id).turnDone h id).schedule
    else s
  | _, _ => s

end Sys2Proof.Machine
end

