-- ==== Sys2Proof/Machine/StepRows.lean ====
section
/-! DEFINITION. STEP_SUBMIT and STEP_KILL, and what each barrier and commit token does where it arrives (R218 to R249). -/

namespace Sys2Proof.Machine

open Sys2Proof

/-! ## STEP_SUBMIT (R218 to R223, R261, R268) -/

/-- A sequence entry (Table 09-2), before its tokens and parents are read. -/
def seqEntOf (b : List Byte) : SeqEnt :=
  { seq := fld b 0 4, nTok := bitsOf (fld b 4 4) 18 0, kind := bitsOf (fld b 8 1) 1 0, dropLate := bitOf (fld b 8 1) 2,
    emit := bitOf (fld b 8 1) 3, sparam := fld b 12 4, deadline := fld b 16 8, ptRoot := fld b 24 6, tokOff := fld b 32 4,
    parentOff := fld b 36 4, byte8 := b.getD 8 0, len0 := 0, toks := [], parents := [] }

/-- The entry's own fields: reserved ones zero, `N_TOK` in the range of its `KIND`, `EMIT` where speculation needs it. -/
def seqEntForm (b : List Byte) : Bool :=
  let e := seqEntOf b
  bitsOf (fld b 4 4) 31 19 == 0 && bitsOf (fld b 8 1) 7 4 == 0 && fld b 9 3 == 0 && fld b 30 2 == 0 && fld b 40 24 == 0 &&
  (e.kind == 3 || e.parentOff == 0xFFFFFFFF) && decide (1 ≤ e.nTok) &&
  decide (e.nTok ≤ if e.kind = 0 then 1 else if e.kind = 1 then 262144 else if e.kind = 2 then 9 else 64) &&
  (decide (e.kind ≤ 1) || e.emit)

/-- Its speculation mode is the model's, and a HEADS chain is no longer than H + 1 (R261). -/
def specOk (man : Manifest) (e : SeqEnt) : Bool :=
  if e.kind = 2 then man.spec == 1 && decide (e.nTok ≤ man.specH + 1) else if e.kind = 3 then man.spec == 2 else true

/-- Its sequence is open in the slice, short enough, and named with its own root table (R171, R220). -/
def State.seqOk (s : State) (h : Nat) (e : SeqEnt) : Bool :=
  match s.seqOf e.seq with
  | none => false
  | some q => q.slice == h && decide (q.len + e.nTok ≤ 2097152) &&
      e.ptRoot == ((s.pool q.pool).map fun p => tableAddr p q.rootSlot).getD 0

/-- Worst-case compaction bytes of the TREE entries, × 64 (R268). -/
def State.treeBytes (s : State) (l : List SeqEnt) : Nat :=
  ((l.filter fun e => e.kind == 3).map fun e =>
    e.nTok * (((s.seqOf e.seq).bind fun q => s.pool q.pool).map (·.pageBytes) |>.getD 0)).foldl (· + ·) 0

/-- Tokens and parent list of an entry from host memory; none when the read fails (R548). -/
def State.readToks (s : State) (p : Port) (tokBuf : Nat) (e : SeqEnt) : Option SeqEnt :=
  match s.hostRead p (tokBuf + 4 * e.tokOff) (4 * e.nTok) with
  | none => none
  | some tb =>
    let e := { e with toks := (chunks 4 e.nTok tb).map ofLe, len0 := ((s.seqOf e.seq).map (·.len)).getD 0 }
    if e.kind = 3 then
      (s.hostRead p (tokBuf + 4 * e.parentOff) (4 * e.nTok)).map fun pb => { e with parents := (chunks 4 e.nTok pb).map ofLe }
    else some e

def allSome {α β : Type} (f : α → Option β) : List α → Option (List β)
  | [] => some []
  | x :: t => match f x, allSome f t with
    | some y, some l => some (y :: l)
    | _, _ => none

/-- The sequence list, from the host or from a BUFFER of the module: a status with, when it is 0, the bytes. -/
def State.readList (s : State) (p : Port) (b : List Byte) : Nat × List Byte :=
  let n := fld b 12 2
  let a := fld b 24 8
  if fld b 14 1 = 1 then
    let inBuf := s.objs.any fun o => o.kind == .buffer && o.extents.any fun (x, k) => decide (x ≤ a) && decide (a + 64 * n ≤ x + k)
    let lost := s.objs.any fun o => o.kind == .buffer && o.lost && o.extents.any fun (x, k) => decide (x ≤ a) && decide (a < x + k)
    if lost then (stMemLost, [])
    else if inBuf then (stOK, Memory.read s.mem a (64 * n)) else (stBadField, [])
  else match s.hostRead p a (64 * n) with
    | none => (stHostUnreachable, [])
    | some l => (stOK, l)

/-- The step meets something lost at its start: its view's extent or a pool of its sequences (R278, R285, R378). -/
def State.startLost (s : State) (t : Step) : Bool :=
  (((s.model t.model).bind fun m => m.view t.view).map (·.lost)).getD true ||
  t.seqs.any fun e => (((s.seqOf e.seq).bind fun q => s.obj q.pool).map (·.lost)).getD true

/-- The start action of an accepted step on this member (R222, R371). -/
def State.acceptStep (s : State) (r : Ref) (b : List Byte) (m : Model) (seqs : List SeqEnt) (slot : Nat) : State :=
  let h := fld b 8 1
  let id := fld b 0 8
  let s := (s.genSwitch h id).modSlc h fun x => { x with lastStep := id }
  let x := s.slc h
  let t : Step :=
    { slice := h, id := id, run := 0, slot := slot, model := m.h, view := m.cur, tenant := fld b 9 1, program := fld b 16 4,
      seqs := seqs, ref := r, spAddr := fld b 40 8, resAddr := fld b 48 8, outAddr := fld b 56 8, digest := 0, rbank := x.rbank,
      pbank := x.pbank, phase := 0, flags := 0, ovfPairs := 0, ovfRounds := 0, rerun := false, preempts := 0, pinned := [],
      alloc := [], leaves := [], staged := [], copies := [], kvRows := [], arrivedAt := [], arriveSent := [], released := [], prepSent := false,
      killing := none, waitRun := false, swapHeld := [], status := 0, gtPending := [], sched := s.pfEnts.filter fun e => e.kind != 3 && e.model == m.h,
      pfTrig := [], blame := none, killRefs := [], commitNo := 0 }
  let t := { t with digest := s.batchDigest t }
  let s := { s with steps := s.steps ++ [t] }
  let s := seqs.foldl (fun s e => s.modSeq e.seq fun q => { q with step := id }) s
  let s := s.endSeqEnts fun e => !s.seqEntLive e
  let s := s.holdView m.h m.cur
  if s.startLost t then s.stopJob h 5 s.coord.coord else s.startRun h id

/-- Members beyond the master ask it to end a step whose reads failed here (R548). -/
def State.readFailed (s : State) (r : Ref) (h id : Nat) : State :=
  let x := s.slc h
  let tok : Token := { tag := x.tag, stepId := id, run := 0, barrier := 0, member := x.member, cause := 0, status := stHostUnreachable,
                       batchDigest := 0, sliceDigest := s.mstDigest h id }
  (s.finish r stHostUnreachable (leBytes 8 id)).toMaster h .killReq tok

/-- Lowest step slot that no step holds (R121). -/
def State.freeStepSlot (s : State) : Option Nat := (List.range 16).find? fun i => (s.stepAt i).isNone

/-- STEP_SUBMIT: acceptance in the order of R218 to R220, then the start. -/
def opStepSubmit (r : Ref) (b : List Byte) (s : State) : State :=
  let id := fld b 0 8
  let h := fld b 8 1
  let n := fld b 12 2
  let x := s.slc h
  let p := r.src.port
  let no (st : Nat) : State := s.finish r st (leBytes 8 id)
  if !onlyUses b [(0, 15), (16, 4), (24, 40)] || id == 0 || decide (7 < h) || decide (63 < fld b 9 1) || n == 0 || decide (8192 < n) ||
      decide (1 < fld b 14 1) then no stBadField
  else if x.state == .stopped then no stSliceStopped
  else if x.state != .joined then no stBadField
  else match s.model (fld b 10 2) with
  | none => no stBadField
  | some m =>
    match m.curView with
    | none => no stBadField
    | some v =>
      if m.releasing.isSome || ((s.obj (fld b 16 4)).map (·.kind)) != some .program then no stBadField
      else match s.readList p b with
      | (st, lb) =>
        let raw := chunks 64 n lb
        let es := raw.map seqEntOf
        if st = stHostUnreachable then s.readFailed r h id
        else if st ≠ stOK then no st
        else if !raw.all seqEntForm || !es.all (specOk v.man) || !decide (es.map (·.seq)).Nodup ||
            decide (262144 < (es.map (·.nTok)).foldl (· + ·) 0) || !es.all (s.seqOk h) || decide (64 * 2 ^ 28 < s.treeBytes es) then no stBadField
        else match allSome (s.readToks p (fld b 32 8)) es with
        | none => s.readFailed r h id
        | some es =>
          if es.any fun e => ((s.seqOf e.seq).map (·.step)) != some 0 then no stBusy
          else if id ≤ x.lastStep then no stStepOrder
          else if s.dies.any (fun d => d.inReset) then no stBusy
          else match s.freeStepSlot with
          | none => no stBusy
          | some slot => s.acceptStep r b m es slot

/-! ## STEP_KILL (R238, R239) -/

def opStepKill (r : Ref) (b : List Byte) (s : State) : State :=
  let h := fld b 0 1
  let id := fld b 8 8
  if !onlyUses b [(0, 1), (8, 8)] || decide (7 < h) then s.finish r stBadField
  else if (s.slc h).state == .stopped then s.finish r stSliceStopped
  else match s.stepOf h id with
  | none => s.finish r stNotFound
  | some t =>
    if t.phase = 4 ∨ t.phase = 5 then s.finish r stCommitted
    else if t.phase = 6 then s.finish r stNotFound
    else
      let s := s.modStep h id fun t => { t with killRefs := t.killRefs ++ [r] }
      s.toMaster h .killReq { s.tokOf t with cause := 1 }

/-! ## Tokens at a member -/

/-- A token for a step in flight of a JOINED slice, in a phase that takes it and with its own slice digest; a stale one is counted, a
differing digest stops the job (R227). -/
def State.forStep (s : State) (tok : Token) (lim : Nat) (f : Step → State → State) : State :=
  match s.sliceOfTag tok.tag with
  | none => s.stale
  | some h =>
    match s.stepOf h tok.stepId with
    | none => s.stale
    | some t =>
      if (s.slc h).state != .joined || t.run % 256 != tok.run || decide (lim ≤ t.phase) then s.stale
      else if tok.sliceDigest != s.stepDigest t then s.stopJob h 4 (s.memberCoord h tok.member)
      else f t s

/-- The layer program's header opens each die agent's walk (R417); a program that is ARRIVING is waited for (R292). -/
def State.openAgents (s : State) (t : Step) : State :=
  match s.obj t.program with
  | none => s.failStep t.slice t.id stNotResident
  | some o =>
    if o.lost then s.stopJob t.slice 5 s.coord.coord
    else if o.res == .arriving then s
    else if !(o.res == .resident || (o.res == .departing && !o.released)) then s.failStep t.slice t.id stNotResident
    else
      let hd := s.objRead o 0 64
      let n := fld hd 4 4
      let first (k : Nat) : Nat := if k < 8 then fld hd (8 + 4 * k) 4 else n
      if fld hd 0 4 != 0x00010000 || decide (o.size < 64 + 128 * n) || !(List.range 8).all (fun k => decide (first k ≤ first (k + 1))) then
        s.failStep t.slice t.id stBadField
      else (List.range 8).foldl (fun s k =>
        if (s.die k).lost then s
        else
          let a : Agent := { slot := t.slot, cursor := first k, stop := first (k + 1), stalled := false, ctxWait := false, nextSeq := 0,
                             quota := s.quota, ctrBase := slotCtrs * t.slot, grpBase := slotGroups * t.slot, mrgBase := slotMerges * t.slot,
                             barriers := [], sends := [], phases := [] }
          s.modDie k fun d => { d with agents := d.agents ++ [a] }) s

/-- RELEASE (R225, R339); for a step that waits to run again, that of the start barrier restarts it (R240). -/
def State.takeRelease (s : State) (tok : Token) : State :=
  s.forStep tok 4 fun t s =>
    if tok.barrier = 0 then
      if t.waitRun then (if t.killing.isSome then s else s.restartRun t)
      else if t.phase ≠ 0 ∨ t.killing.isSome then s
      else
        let s := s.modStep t.slice t.id fun t => { t with phase := 1, released := [0] }
        if s.startLost t then s.stopJob t.slice 5 s.coord.coord else s.openAgents t
    else if t.released.contains tok.barrier then s
    else
      let s := s.modStep t.slice t.id fun t => { t with released := t.released ++ [tok.barrier] }
      (List.range 8).foldl (fun s k =>
        ((s.die k).agents.filter fun a => a.slot == t.slot).foldl (fun s a =>
          (a.barriers.filter fun (b, _) => b == tok.barrier).foldl (fun s (_, c) => s.decCtr k c) s) s) s

/-- KILL on a member (R238, R240): a status, or the cause of a re-run. -/
def State.takeKill (s : State) (tok : Token) : State :=
  s.forStep tok 4 fun t s =>
    if t.killing.isSome then s
    else
      let st := if tok.status ≠ 0 then tok.status else if tok.cause = 2 ∨ tok.cause = 3 then 0 else killStatus tok.cause
      s.killLocal t tok.cause st

/-- Every part of the step on this member has ended (R229). -/
def State.allDone (s : State) (t : Step) : Bool :=
  t.phase != 0 && t.gtPending.isEmpty && t.status == 0 && t.killing.isNone && t.copies.all (·.done) &&
  s.dies.all fun d => d.lost ||
    (d.agents.any (fun a => a.slot == t.slot) && !(d.tiles.any fun e => e.slot == t.slot) && !(d.ctxs.any fun c => c.slot == t.slot) &&
     (d.agents.filter fun a => a.slot == t.slot).all fun a => a.cursor == a.stop && a.sends.all (·.sent) &&
       a.barriers.all fun (b, _) => t.released.contains b)

/-- PREPARED goes to the master once (R229). -/
def State.sendPrepared (s : State) (h id : Nat) : State :=
  match s.stepOf h id with
  | none => s
  | some t =>
    if t.prepSent || !s.allDone t || decide (4 ≤ t.phase) || s.power.held then s
    else
      let s := s.modStep h id fun t => { t with phase := 3, prepSent := true }
      s.toMaster h .prepared { s.tokOf t with barrier := 0xFFFF } t.flags t.ovfPairs t.ovfRounds

/-- COMMIT: the apply, then COMMITTED; a member other than the master posts its completion (R232, R234). -/
def State.takeCommit (s : State) (tok : Token) (body : List CommitEntry) : State :=
  s.forStep tok 5 fun t s =>
    if !t.prepSent || t.killing.isSome then s.stale
    else
      let out := s.tokOf t
      let s := (s.applyCommit t body).toMaster t.slice .committed out
      if (s.slc t.slice).isMaster then s.routeWake t.slice
      else match s.stepOf t.slice t.id with
        | some t => s.postStep t stOK 0 false
        | none => s

/-! ## Tokens at the master -/

/-- A token for a step the master keeps a record of. -/
def State.forMst (s : State) (tok : Token) (f : Nat → MasterStep → State → State) : State :=
  match s.sliceOfTag tok.tag with
  | none => s.stale
  | some h =>
    let x := s.slc h
    match s.mstOf h tok.stepId with
    | none => s.stale
    | some m =>
      if x.state != .joined || !x.isMaster || decide (x.count ≤ tok.member) then s.stale
      else if ((s.stepOf h tok.stepId).map fun t => tok.sliceDigest != s.stepDigest t).getD false && tok.run == m.run % 256 then
        s.stopJob h 4 (s.memberCoord h tok.member)
      else f h m s

/-- The start barrier of a step: batch digests must agree (R224), slice digests must equal the master's own (R227). -/
def State.startCheck (s : State) (h id : Nat) : State :=
  match s.mstOf h id with
  | none => s
  | some m =>
    let digs := (m.arrived.filter fun (b, _, _) => b == 0).map fun (_, _, d) => d
    if digs.any fun d => d != digs.headD 0 then s.masterKill h id 5 stStepMismatch
    else match s.stepOf h id with
    | none => s
    | some t =>
      match m.startDigs.find? fun (_, d) => d != s.stepDigest t with
      | some (i, _) => s.stopJob h 4 (s.memberCoord h i)
      | none => s.schedule

/-- A start ARRIVE: it opens the master's record; during a kill it names one more member that holds the step, which is killed too. -/
def State.startArrive (s : State) (h : Nat) (tok : Token) : State :=
  let s := s.openMst h tok.stepId tok.run
  match s.mstOf h tok.stepId with
  | none => s
  | some m =>
    if m.decided || tok.run != m.run % 256 then s.stale
    else if m.killing then
      let s := s.modMst h tok.stepId fun m => { m with expect := addNew m.expect tok.member }
      s.sendToken h .kill (s.memberCoord h tok.member) { s.mstTok m with cause := m.cause, status := m.endStatus } [] 0 0 0
    else
      let s := s.modMst h tok.stepId fun m => { m with
        arrived := (m.arrived.filter fun (b, i, _) => !(b == 0 && i == tok.member)) ++ [(0, tok.member, tok.batchDigest)]
        startDigs := (m.startDigs.filter fun (i, _) => i != tok.member) ++ [(tok.member, tok.sliceDigest)] }
      s.startCheck h tok.stepId

/-- ARRIVE (R224, R225). -/
def State.takeArrive (s : State) (tok : Token) : State :=
  match s.sliceOfTag tok.tag with
  | none => s.stale
  | some h =>
    let x := s.slc h
    if x.state != .joined || !x.isMaster || decide (x.count ≤ tok.member) then s.stale
    else if tok.barrier = 0 then s.startArrive h tok
    else s.forMst tok fun h m s =>
      if m.killing || m.decided || m.run % 256 != tok.run || m.released.contains tok.barrier then s.stale
      else
        let s := s.modMst h m.id fun m => { m with arrived := addNew m.arrived (tok.barrier, tok.member, 0) }
        let held := ((s.mstOf h m.id).map (·.arrived)).getD []
        if (List.range x.count).all fun i => held.any fun (b, j, _) => b == tok.barrier && j == i then
          let s := s.modMst h m.id fun m => { m with released := m.released ++ [tok.barrier] }
          s.toAll h .release { s.mstTok m with barrier := tok.barrier } []
        else s

/-- PREPARED (R229, R231): flags are ORed, deferred pairs added, the largest round kept (R56, R215). -/
def State.takePrepared (s : State) (tok : Token) (flags : BitVec 5) (ovfPairs ovfRounds : Nat) : State :=
  s.forMst tok fun h m s =>
    if m.killing || m.decided || m.run % 256 != tok.run || m.prepared.contains tok.member then s.stale
    else s.modMst h m.id fun m => { m with
      prepared := m.prepared ++ [tok.member], prepFlags := m.prepFlags ||| flags, ovfPairs := m.ovfPairs + ovfPairs,
      ovfRounds := max m.ovfRounds ovfRounds }

/-- The commit point (R231): every PREPARED is held, every earlier step of the slice has committed or ended on every member (R221), every
row has its lists; parameters are read, tokens drawn and deadlines judged; the step's phase is COMMIT, and COMMIT goes to every member. -/
def State.commitPoint (s : State) (h id : Nat) : State :=
  match s.mstOf h id, s.stepOf h id with
  | some m, some t =>
    let heads := (((s.model t.model).bind fun v => v.view t.view).map fun v => v.man.specH).getD 0
    if !(s.slc h).isMaster || m.killing || m.decided || !((List.range (s.slc h).count).all fun i => m.prepared.contains i) ||
        s.steps.any (fun o => o.slice == h && decide (o.id < id) && decide (o.slot < 16)) ||
        s.mst.any (fun o => o.slice == h && decide (o.id < id)) then s
    else if m.rowMissing t.seqs heads then s.masterKill h id 0 stDepError
    else if !m.rowsFull t.seqs heads then s
    else match s.readParams t.ref.src.port t.spAddr t.seqs with
    | (st, ps) =>
      if st ≠ stOK then s.masterKill h id 0 st
      else
        let (res, nv) := s.decideAll t m heads ps
        let s := s.modMst h id fun m => { m with
          decided := true, results := res, prepFlags := if nv then m.prepFlags ||| flNV else m.prepFlags }
        (s.modStep h id fun t => { t with phase := 4 }).toAll h .commit (s.mstTok m) (res.map SeqResult.entry)
  | _, _ => s

/-- COMMITTED (R234). -/
def State.takeCommitted (s : State) (tok : Token) : State :=
  s.forMst tok fun h m s =>
    if !m.decided || m.run % 256 != tok.run then s.stale
    else (s.modMst h m.id fun m => { m with committed := addNew m.committed tok.member }).completeMaster h m.id

/-- A KILL_REQ of a command, or of a member whose reads failed, that comes before any ARRIVE of a step which this master runs or has still
to be given: the record opens, and the sender is known to hold the step (R238, R548). -/
def State.openKill (s : State) (h : Nat) (tok : Token) : State :=
  let x := s.slc h
  let cmd := tok.cause == 1 && (decide (x.lastStep < tok.stepId) || ((s.stepOf h tok.stepId).map fun t => decide (t.slot < 16)).getD false)
  let host := tok.cause == 0 && tok.status == stHostUnreachable
  if x.isMaster && x.state == .joined && (s.mstOf h tok.stepId).isNone && (cmd || host) then
    (s.openMst h tok.stepId tok.run).modMst h tok.stepId fun m => { m with expect := if cmd then [tok.member] else [] }
  else s

/-- KILL_REQ (R238, R239, Table 09-7): a failed member's status ends the step. -/
def State.takeKillReq (s : State) (tok : Token) : State :=
  match s.sliceOfTag tok.tag with
  | none => s.stale
  | some h => (s.openKill h tok).forMst tok fun h m s =>
      if tok.run ≠ m.run % 256 then s.stale
      else if m.decided then s
      else s.masterKill h m.id tok.cause tok.status

/-- KILLED (R240). -/
def State.takeKilled (s : State) (tok : Token) : State :=
  s.forMst tok fun h m s =>
    if !m.killing || m.run % 256 != tok.run then s.stale
    else ((s.modMst h m.id fun m => { m with killed := addNew m.killed tok.member }).killDone h m.id).nextKill h m.id

/-- `START_WAIT` has run out on the master (R228). -/
def State.startWaitEnd (s : State) (h id : Nat) : State :=
  match s.mstOf h id with
  | none => s
  | some m =>
    if m.killing then
      if m.restart then
        let old := m.killed
        let s := s.modMst h id fun m => { m.nextRun with thenKill := none, expect := old }
        s.masterKill h id 4 stMemberAbsent
      else (s.modMst h id fun m => { m with expect := m.killed }).killDone h id
    else if m.released.contains 0 || m.decided || (List.range (s.slc h).count).all (fun i => m.arrived.any fun (b, j, _) => b == 0 && j == i) then s
    else s.masterKill h id 4 stMemberAbsent

/-- `BARRIER_WAIT` has run out at a barrier other than the start (R228): each missing member is lost. -/
def State.barrierWaitEnd (s : State) (h id barrier : Nat) : State :=
  match s.mstOf h id with
  | none => s
  | some m =>
    let here (i : Nat) : Bool := if barrier = 0xFFFF then m.prepared.contains i else m.arrived.any fun (b, j, _) => b == barrier && j == i
    match (List.range (s.slc h).count).find? fun i => !here i with
    | none => s
    | some i =>
      if barrier = 0 || m.killing || m.decided || !m.released.contains 0 || m.released.contains barrier ||
          !((List.range (s.slc h).count).any here || barrier == 0xFFFF) then s
      else s.stopJob h 1 (s.memberCoord h i)

/-- The current turn has run its length (R244, R246). -/
def State.quantumEnd (s : State) : State :=
  match s.curTenant, s.turnEnd with
  | some ten, some e =>
    let own := s.tenSteps ten
    let s := { s with turnSteps := s.turnSteps ++ own.map fun (t : Step) => (ten, e, t.slice, t.id) }
    let s := s.passTurn
    let s := own.foldl (fun s t =>
      let s := if t.slot < 16 then s.openMst t.slice t.id (t.run % 256) else s
      match s.mstOf t.slice t.id with
      | some m => if m.decided || m.killing || decide (4 ≤ m.quantumKills) then s else s.masterKill t.slice t.id 3 0
      | none => s) s
    s.schedule
  | _, _ => s

/-- A candidate list reaches the master (R254). -/
def State.takeCands (s : State) (tag : Nat) (c : CandList) : State :=
  match s.sliceOfTag tag with
  | none => s.stale
  | some h =>
    match s.mstOf h c.stepId with
    | none => s.stale
    | some m =>
      if m.run % 256 != c.run || m.killing || m.decided || !(s.slc h).isMaster then s.stale
      else
        let old := m.cands.filter fun x => !(x.member == c.member && x.tile == c.tile && x.entry == c.entry && x.node == c.node && x.head == c.head)
        let m' := { m with cands := old ++ [c] }
        let s := s.modMst h m.id fun m => { m with cands := m'.cands }
        if rowBad (m'.row c.entry c.node c.head) then s.masterKill h m.id 0 stBadField else s

/-! ## Meanings of the rows -/

def execArrive (t : Token) (s : State) : Host.Outcome State Fault Refusal := .next (if s.easelUp then (s.takeArrive t) else s)

def execRelease (t : Token) (s : State) : Host.Outcome State Fault Refusal := .next (if s.easelUp then (s.takeRelease t) else s)

def execPreparedSend (slice stepId : Nat) (s : State) : Host.Outcome State Fault Refusal := .next (if s.easelUp then (s.sendPrepared slice stepId) else s)

def execPrepared (t : Token) (flags : BitVec 5) (ovfPairs ovfRounds : Nat) (s : State) : Host.Outcome State Fault Refusal :=
  .next (if s.easelUp then s.takePrepared t flags ovfPairs ovfRounds else s)

def execCommitPoint (slice stepId : Nat) (s : State) : Host.Outcome State Fault Refusal := .next (if s.easelUp then (s.commitPoint slice stepId) else s)

def execCommit (t : Token) (body : List CommitEntry) (s : State) : Host.Outcome State Fault Refusal := .next (if s.easelUp then (s.takeCommit t body) else s)

def execCommitted (t : Token) (s : State) : Host.Outcome State Fault Refusal := .next (if s.easelUp then (s.takeCommitted t) else s)

def execKillReq (t : Token) (s : State) : Host.Outcome State Fault Refusal := .next (if s.easelUp then (s.takeKillReq t) else s)

def execKill (t : Token) (s : State) : Host.Outcome State Fault Refusal := .next (if s.easelUp then (s.takeKill t) else s)

def execKilled (t : Token) (s : State) : Host.Outcome State Fault Refusal := .next (if s.easelUp then (s.takeKilled t) else s)

def execStartWaitExpire (slice stepId : Nat) (s : State) : Host.Outcome State Fault Refusal := .next (if s.easelUp then (s.startWaitEnd slice stepId) else s)

def execBarrierWaitExpire (slice stepId barrier : Nat) (s : State) : Host.Outcome State Fault Refusal :=
  .next (if s.easelUp then s.barrierWaitEnd slice stepId barrier else s)

def execQuantumExpire (s : State) : Host.Outcome State Fault Refusal := .next (if s.easelUp then s.quantumEnd else s)

def execCandidateList (tag : Nat) (c : CandList) (s : State) : Host.Outcome State Fault Refusal := .next (if s.easelUp then (s.takeCands tag c) else s)

/-- Meaning of STOP (R378). -/
def execStop (m : SliceMsg) (s : State) : Host.Outcome State Fault Refusal := .next (if s.easelUp then (s.takeStop m) else s)

/-- A tail copy is complete (R175): its bytes are in place and the KVW tiles behind it may become READY. -/
def execTailCopyDone (slot seq : Nat) (s : State) : Host.Outcome State Fault Refusal :=
  match s.stepAt slot with
  | none => .next s
  | some t =>
    match t.copies.find? fun c => c.seq == seq && !c.done with
    | none => .next s
    | some c =>
      match s.obj c.pool with
      | none => .next s
      | some o =>
        match o.pool with
        | none => .next s
        | some p =>
          if (p.page c.src).state != .live && (p.page c.src).state != .staging then .next s
          else
            let s := s.copyTail o p c.src c.dst c.n
            let mark (x : TailCopy) : TailCopy := if x.seq == seq then { x with done := true } else x
            .next ((s.modStepAt slot fun t => { t with copies := t.copies.map mark }).wakeCopy slot)

end Sys2Proof.Machine
end

