-- ==== Sys2Proof/Machine/Distributary.lean ====
section
/-! DEFINITION. The Distributary and the MoE exchange of a layer (R198 to R217): contexts, counts, grants, rows, results and
rounds, and the arrival of attention records, query rows and key and value rows. -/

namespace Sys2Proof.Machine

open Sys2Proof

/-! ## Sizes and numbers (R198, R199) -/

def Ctx.inBytes (c : Ctx) : Nat := rowBytes c.inFmt c.h
def Ctx.outBytes (c : Ctx) : Nat := rowBytes c.retFmt c.h

/-- Queue capacity in rows. -/
def Ctx.cap (c : Ctx) : Nat := c.qBytes / (64 + c.inBytes + c.outBytes)

def Ctx.qAddr (c : Ctx) (q : Nat) : Nat := c.qBase + q * (64 + c.inBytes)
def Ctx.resAddr (c : Ctx) (q : Nat) : Nat := c.qBase + c.cap * (64 + c.inBytes) + q * c.outBytes

/-- Return entry of a token at a rank. -/
def Ctx.retEntry (c : Ctx) (tok rank : Nat) : Nat := c.retBase + ((tok - c.retTok0) * c.topk + rank) * (64 + c.outBytes)

/-- Global source number of a die of this member in a slice. -/
def State.gsn (s : State) (h k : Nat) : Nat := 8 * (s.slc h).member + k

/-- Sources of a layer in ascending global source number. -/
def Ctx.sources (c : Ctx) : List Nat := (List.range 512).filter fun g => bitOf c.srcSet g

/-- The placement table that a step runs with. -/
def State.placeOf (s : State) (t : Step) : PTable := ((s.slc t.slice).pt.getD t.pbank none).getD { gen := 0, dir := [], ents := [] }

/-- Local slots of a layer on a die: one more than the highest slot that a copy takes there. -/
def PTable.slotsOn (t : PTable) (l member die : Nat) : Nat :=
  ((((t.layer l).flatMap (·.copies)).filter fun (m, d, _) => m == member && d == die).map fun (_, _, x) => x + 1).foldl max 0

/-- The owner dies of a layer, as (member, die). -/
def PTable.owners (t : PTable) (l : Nat) : List (Nat × Nat) := (((t.layer l).flatMap (·.copies)).map fun (m, d, _) => (m, d)).eraseDups

/-- The copy of an expert that source `g` sends to (R198). -/
def PTable.target (t : PTable) (l e g : Nat) : Option (Nat × Nat × Nat) :=
  match (t.layer l)[e]? with
  | some x => x.copies[g % max 1 x.copies.length]?
  | none => none

/-- The expert that a local slot of a die holds in a layer, with its placement entry. -/
def PTable.expertAt (t : PTable) (l member die slot : Nat) : Option (Nat × PlaceEnt) :=
  ((t.layer l).zipIdx.find? fun (x, _) => x.copies.contains (member, die, slot)).map fun (x, i) => (i, x)

/-! ## Contexts of a die -/

def Die.ctx (d : Die) (slot layer : Nat) : Option Ctx := d.ctxs.find? fun c => c.slot == slot && c.layer == layer

def State.modCtx (s : State) (k slot layer : Nat) (f : Ctx → Ctx) : State :=
  s.modDie k fun d => { d with ctxs := d.ctxs.map fun (c : Ctx) => if c.slot == slot && c.layer == layer then f c else c }

/-- A context that both its source and its owner side have closed is gone (R212). -/
def State.closeCtx (s : State) (k slot layer : Nat) : State :=
  s.modDie k fun d => { d with ctxs := d.ctxs.filter fun c => !(c.slot == slot && c.layer == layer && !c.srcOpen && !c.ownOpen) }

/-- The envelope of a message of a step (R201); kinds 0x5 to 0x7 carry no generation. -/
def State.envOf (s : State) (t : Step) (k layer : Nat) (withGen : Bool) : Envelope :=
  { stepId := t.id, run := t.run % 16, layer := layer, gsn := s.gsn t.slice k, pgen := if withGen then (s.placeOf t).gen % 65536 else 0 }

/-- Send a Distributary message of a step from a die, TILE class, by the package or by the slice's routes (R201). Between dies of the
module it is delivered from the package (R202). -/
def State.sendDist (s : State) (t : Step) (k kind member die : Nat) (e : Envelope) (a b : Nat) (nums : List Nat) (bytes : List Byte) : State :=
  let r := s.routeTo t.slice t.rbank 1 k (s.gsn t.slice k) (s.memberCoord t.slice member) (8 * member + die) die
  let s := s.emit (.dist r kind member die e a b nums bytes)
  if member = (s.slc t.slice).member then
    { s with noc := s.noc ++ [{ src := k, dst := die, kind := kind, env := e, a := a, b := b, nums := nums, bytes := bytes }] }
  else s

/-- The step in flight that an envelope names: its step slot is open from its start on (R222). -/
def State.stepFor (s : State) (e : Envelope) : Option Step :=
  s.steps.find? fun t => t.id == e.stepId && t.run % 16 == e.run && decide (t.slot < 16) && t.killing.isNone

/-- The message comes from another member, as far as the step it names tells. -/
def State.fromFar (s : State) (e : Envelope) : Bool :=
  ((s.stepFor e).map fun t => e.gsn / 8 != (s.slc t.slice).member).getD true

/-- A Distributary message is delivered to a die: each once, and those of one die in the order sent (R202). -/
def State.onArrival (s : State) (k kind : Nat) (e : Envelope) (a b : Nat) (nums : List Nat) (bytes : List Byte) (f : State → State) : State :=
  match s.arrives (s.fromFar e) { src := 0, dst := k, kind := kind, env := e, a := a, b := b, nums := nums, bytes := bytes } with
  | some s => f s
  | none => s

/-- A message that matches no step slot open on the die is discarded and counted (R203). -/
def State.distStale (s : State) (k : Nat) : State := s.modDie k fun d => { d with distStale := satAdd 32 d.distStale 1 }

/-- A message of a step; with another placement generation it stops the job (R203). -/
def State.withMsg (s : State) (k : Nat) (e : Envelope) (gen : Bool) (f : Step → State → State) : State :=
  match s.stepFor e with
  | none => s.distStale k
  | some t =>
    if gen && e.pgen != (s.placeOf t).gen % 65536 then s.stopJob t.slice 4 (s.memberCoord t.slice (e.gsn / 8)) else f t s

/-! ## Counts (R205, R206) -/

/-- Pairs of a context for each local slot of an owner die. -/
def State.countsFor (s : State) (t : Step) (k : Nat) (c : Ctx) (member die : Nat) : List Nat :=
  let p := s.placeOf t
  (List.range (p.slotsOn c.layer member die)).map fun i =>
    (c.pairs.filter fun x => p.target c.layer x.exp (s.gsn t.slice k) == some (member, die, i)).length

/-- COUNT goes to every owner die of the layer, zero counts included. -/
def State.sendCounts (s : State) (t : Step) (k : Nat) (c : Ctx) : State :=
  let s := s.modCtx k c.slot c.layer fun c => { c with countsSent := true }
  ((s.placeOf t).owners c.layer).foldl (fun s (m, d) => s.sendDist t k 1 m d (s.envOf t k c.layer true) 0 0 (s.countsFor t k c m d) []) s

/-- A source closes a layer when every combine counter of it has reached zero (R212). -/
def State.sourceCheck (s : State) (k slot layer : Nat) : State :=
  match (s.die k).ctx slot layer with
  | some c =>
    let groups := (c.retRows + max 1 c.ctrRows - 1) / max 1 c.ctrRows
    if c.countsSent && (List.range groups).all (fun i => (s.die k).ctr (slotCtrs * slot + c.ctr0 + i) == 0) then
      (s.modCtx k slot layer fun c => { c with srcOpen := false }).closeCtx k slot layer
    else s
  | none => s

/-- Contexts of a die whose `GATE_CTR` has reached zero send their counts. -/
def State.distSend (s : State) (k : Nat) : State :=
  ((s.die k).ctxs.filter fun c => c.gateDone && c.srcOpen && !c.countsSent).foldl (fun s c =>
    match s.stepAt c.slot with
    | some t => (s.sendCounts t k c).sourceCheck k c.slot c.layer
    | none => s) s

/-! ## Allocation of a round (R207) -/

def addAt (l : List Nat) (i v : Nat) : List Nat := l.modify i (· + v)

/-- First pass: each slot takes at most its share. -/
def shareOut (share : Nat) (t : List Nat) : List Nat := t.map fun x => min x share

/-- Second pass: what is left goes to the slots in ascending order. -/
def spread : List Nat → List Nat → Nat → List Nat
  | t :: ts, a :: as, left => let x := min (t - a) left; (a + x) :: spread ts as (left - x)
  | _, as, _ => as

/-- Rows granted to each slot of a queue of `cap` rows. -/
def allocate (cap : Nat) (t : List Nat) : List Nat :=
  let n := (t.filter fun x => decide (0 < x)).length
  let a := shareOut (if n = 0 then 0 else cap / n) t
  spread t a (cap - a.foldl (· + ·) 0)

/-- Credits of one slot to the sources in ascending number, with the first queue slot of each. -/
def creditGo (base a : Nat) : List (Nat × Nat) → Nat → List (Nat × Nat × Nat)
  | [], _ => []
  | (g, want) :: t, r =>
    let c := min want r
    (g, base + a - r, c) :: creditGo base a t (r - c)

/-- Pairs still to place for slot `e` of a source. -/
def remOf (rem : List (Nat × List Nat)) (g e : Nat) : Nat := ((assocGet rem g).getD []).getD e 0

def totals (rem : List (Nat × List Nat)) (n : Nat) : List Nat :=
  (List.range n).map fun e => (rem.map fun (_, l) => l.getD e 0).foldl (· + ·) 0

/-- Bases of the slots in the queue. -/
def bases : List Nat → Nat → List Nat
  | [], _ => []
  | a :: t, b => b :: bases t (b + a)

/-- Credits for every slot: (source, first queue slot, credit). -/
def credits (srcs : List Nat) (rem : List (Nat × List Nat)) (a : List Nat) : List (List (Nat × Nat × Nat)) :=
  ((a.zip (bases a 0)).zipIdx).map fun ((x, b), e) => creditGo b x (srcs.map fun g => (g, remOf rem g e)) x

/-! ## Owner side -/

/-- The object of an expert in the step's view, on this member and die. -/
def State.expertObj (s : State) (t : Step) (k layer e : Nat) : Option Obj :=
  match (s.model t.model).bind fun m => (m.view t.view).map fun v => (m, v) with
  | none => none
  | some (m, v) =>
    (v.map.find? fun (i, _, _) => match v.man.sets[i]? with
      | some x => x.member == m.member && x.die == k && x.layer == layer && x.expert == e
      | none => false).bind fun (_, x, _) => s.obj x

/-- Cut a slot's rows into blocks of 64 (R209). -/
def cutBlocks : Nat → Nat → Nat → List (Nat × Nat)
  | 0, _, _ => []
  | f + 1, first, n => if n = 0 then [] else (first, min n 64) :: cutBlocks f (first + 64) (n - 64)

def State.agentOf (s : State) (k slot : Nat) : Option Agent := (s.die k).agents.find? fun a => a.slot == slot

def State.modAgent (s : State) (k slot : Nat) (f : Agent → Agent) : State :=
  s.modDie k fun d => { d with agents := d.agents.map fun (a : Agent) => if a.slot == slot then f a else a }

/-- The die agent asks for every SPILLED page of an ATTN tile's range (R156, R188). -/
def State.askPages (s : State) (e : Tile) : State :=
  if e.role != 2 || e.nop then s
  else match s.seqOf (fld e.args 0 4) with
  | none => s
  | some q =>
    let n := fld e.args 12 4
    (q.map.filter fun (lp, id) => decide (n ≤ lp) && decide (lp < n + fld e.args 16 2) && (s.pageOf q.pool id).state == .spilled).foldl
      (fun s (_, id) => s.modPool q.pool fun p => { p with demand := addNew p.demand id }) s

/-- The palette of a phase's first tile is loaded ahead into the idle slot of every core that may take the tile and holds it in
neither slot (R115, R129). -/
def preload (e : Tile) (c : Core) : Core := if e.nop || !bitOf c.mask e.pool || !c.able then c else c.loadPal e.pal

/-- The tile is the first of its phase: the first of its layer and palette that the die agent appends for the slot (DEDUCED, log
entry 125). -/
def State.firstOfPhase (s : State) (k : Nat) (e : Tile) : Bool :=
  !(((s.agentOf k e.slot).map (·.phases)).getD []).contains (e.layer, e.pal)

/-- The agent appends a tile that the list admits: its layer triggers prefetch entries (R298), its phase preloads its palette, its
pages are asked for (R156). -/
def State.appendTile (s : State) (t : Step) (k : Nat) (e : Tile) : State :=
  let s := (s.trigLayer t k e.layer).askPages e
  let s := if s.firstOfPhase k e then
      (s.modDie k fun d => { d with cores := d.cores.map (preload e) }).modAgent k e.slot fun a => { a with phases := a.phases ++ [(e.layer, e.pal)] }
    else s
  s.placeTile k e

/-- The list admits a tile of the agent now (R139). -/
def State.admitsNow (s : State) (k : Nat) (e : Tile) : Bool := s.admits k e ((s.die k).readyNow e && !s.copyHeld k e)

/-- An expert tile of a row block: its weight tile and the queue rows it reads (R209); what the record does not say is zero. -/
def expertTile (a : Agent) (t : Step) (c : Ctx) (pal : Nat) (o : Obj) (b : RowBlk) (i : Nat) : Tile :=
  { idx := 0, slot := a.slot, prio := 0, pal := pal, role := 1, reduce := false, nop := false, pool := 0, tileSeq := a.nextSeq,
    wait := b.ctr, waitEn := true, sig0 := 0, sig0En := false, sig1 := 0, sig1En := false, group := 0, stepId := t.id, state := .waiting,
    attempts := 0, wrote := false, core := 0, status := 0, flags := 0, readyAt := 0, readyNo := 0,
    args := padTo 32 (leBytes 4 o.id ++ leBytes 4 i ++ leBytes 6 (c.qAddr b.first + 64) ++ leBytes 2 b.rows ++ leBytes 6 (c.resAddr b.first) ++
      leBytes 1 (boolNat ((o.dir[i]?).map (·.wide) |>.getD false)) ++ leBytes 1 (c.inFmt + 16 * c.retFmt) ++ leBytes 4 (64 + c.inBytes) ++ leBytes 4 c.outBytes),
    layer := c.layer, fwd := none, palFails := [], unpackFails := 0, runFlags := 0, rowBlock := some (b.lslot, b.first), readsObj := none,
    readsStage := none }

/-- Append an expert tile, or keep it, in order, until the list may take it (R139). -/
def State.putExpert (s : State) (t : Step) (k layer : Nat) (e : Tile) : State :=
  let queued := (((s.die k).ctx t.slot layer).map fun c => !c.later.isEmpty).getD false
  if !queued && s.admitsNow k e then s.appendTile t k e
  else
    let s := if queued then s else (s.modDie k fun d => { d with tlStall := satAdd 32 d.tlStall 1 }).raise (.cd k) 5
    s.modCtx k t.slot layer fun c => { c with later := c.later ++ [e] }

/-- A cold expert's weights are asked for before its tiles are appended (R209, R341): a failed demand ends the step. -/
def State.coldDemand (s : State) (t : Step) (k layer : Nat) (ent : PlaceEnt) (o : Obj) : State :=
  let away := o.res == .absent || (o.res == .departing && o.released)
  if !away then s
  else
    let stage := ((((s.model t.model).bind fun m => m.view t.view).map fun v => v.cold.getD k 0).getD 0)
    match s.obj stage with
    | some st =>
      if ent.cold && o.fcopy then
        (List.range o.tiles).foldl (fun s i =>
          if (s.die k).stage.any fun x => x.obj == o.id && x.tile == i then s
          else
            let n := ((o.dir[i]?).map TileDir.stageBytes).getD 0
            let x : StageEnt := { obj := o.id, tile := i, stage := st.id, addr := 0, bytes := n, order := layer, landed := false, readers := 0, cold := true, trig := 0 }
            s.modDie k fun d => { d with stage := d.stage ++ [x] }) s
      else s.failStep t.slice t.id stNotResident
    | none => s.failStep t.slice t.id stNotResident

/-- A block that has no counter yet. -/
def noCtr : Nat := 16384

/-- A counter of the slot's range that serves a row block. DESIGN CHOICE (log entry 134): the highest one that reads zero and that no tile,
no other row block and no open context of the slot names; the layer program's records may still name it later. -/
def State.blockCtr (s : State) (k slot : Nat) : Option Nat :=
  let d := s.die k
  let named (i : Nat) : Bool :=
    d.tiles.any (fun e => (e.waitEn && e.wait == i) || (e.sig0En && e.sig0 == i) || (e.sig1En && e.sig1 == i)) ||
    d.ctxs.any fun c => c.slot == slot && (c.gateCtr == i || (c.blocks.any fun b => b.ctr == i && !b.sent) ||
      (decide (slotCtrs * slot + c.ctr0 ≤ i) && decide (i < slotCtrs * slot + c.ctr0 + (c.retRows + max 1 c.ctrRows - 1) / max 1 c.ctrRows)))
  ((List.range slotCtrs).map fun i => slotCtrs * (slot + 1) - 1 - i).find? fun i => d.ctr i == 0 && !named i

/-- Set a row block's counter to the rows that have not arrived, and append its expert tiles (R125, R209); without a free counter the
block waits. -/
def State.startBlock (s : State) (t : Step) (k layer : Nat) (b : RowBlk) : State :=
  let p := s.placeOf t
  match (s.die k).ctx t.slot layer, (s.die k).agents.find? (fun a => a.slot == t.slot), p.expertAt layer (s.slc t.slice).member k b.lslot, s.blockCtr k t.slot with
  | some c, some a, some (e, _), some i =>
    match s.expertObj t k layer e with
    | none => s.failStep t.slice t.id stNotResident
    | some o =>
      let here := (c.arrivedRows.filter fun r => decide (b.first ≤ r.qslot) && decide (r.qslot < b.first + b.rows)).length
      let b := { b with ctr := i }
      let s := (s.setCtr k i (b.rows - here)).modCtx k t.slot layer fun c => { c with
        blocks := c.blocks.map fun (x : RowBlk) => if x.first == b.first then { x with ctr := i } else x }
      let pal := (s.slc t.slice).palset.getD 0 0
      let s := (List.range o.tiles).foldl (fun s i =>
        let a := ((s.die k).agents.find? fun a => a.slot == t.slot).getD a
        s.putExpert t k layer (expertTile { a with nextSeq := a.nextSeq + i } t c pal o b i)) s
      s.modDie k fun d => { d with agents := d.agents.map fun (x : Agent) => if x.slot == t.slot then { x with nextSeq := x.nextSeq + o.tiles } else x }
  | _, _, _, _ => s

/-- Row blocks that wait for a counter start in their order. -/
def State.startBlocks (s : State) (t : Step) (k slot layer : Nat) : State :=
  match (s.die k).ctx slot layer with
  | some c => (c.blocks.filter fun b => b.ctr == noCtr).foldl (fun s b => s.startBlock t k layer b) s
  | none => s

/-- A row block of a round: its expert's weights are asked for when they are cold, then its tiles. -/
def State.openBlock (s : State) (t : Step) (k : Nat) (slot layer lslot first rows : Nat) : State :=
  match (s.placeOf t).expertAt layer (s.slc t.slice).member k lslot with
  | some (e, ent) =>
    match s.expertObj t k layer e with
    | none => s.failStep t.slice t.id stNotResident
    | some o =>
      let b : RowBlk := { lslot := lslot, first := first, rows := rows, ctr := noCtr, left := o.tiles, sent := false }
      let s := s.modCtx k slot layer fun c => { c with blocks := c.blocks ++ [b] }
      (s.coldDemand t k layer ent o).startBlock t k layer b
  | none => s

/-- Compute a round and send its grants, zero credits included (R207, R213, R214). -/
def State.grantRound (s : State) (t : Step) (k : Nat) (c : Ctx) : State :=
  let n := (s.placeOf t).slotsOn c.layer (s.slc t.slice).member k
  let want := totals c.rem n
  let a := allocate c.cap want
  let cr := credits c.sources c.rem a
  let round := c.round + 1
  let took (g e : Nat) : Nat := ((cr.getD e []).find? fun (x, _, _) => x == g).map (fun (_, _, v) => v) |>.getD 0
  let rem := c.rem.map fun (g, l) => (g, l.zipIdx.map fun (v, e) => v - took g e)
  let deferred := if round = 1 then (totals rem n).foldl (· + ·) 0 else 0
  let s := s.modCtx k c.slot c.layer fun c => { c with round := round, rem := rem, granted := a, arrivedRows := [], blocks := [], later := [] }
  let s := s.modStep t.slice t.id fun t => { t with ovfPairs := t.ovfPairs + deferred, ovfRounds := max t.ovfRounds round }
  let s := (s.modDie k fun d => { d with ovfPairs := satAdd 32 d.ovfPairs deferred }).raiseIf (decide (0 < deferred)) (.cd k) 4
  let s := c.sources.foldl (fun s g =>
    s.sendDist t k 2 (g / 8) (g % 8) (s.envOf t k c.layer true) round 0
      (cr.flatMap fun l => match l.find? fun (x, _, _) => x == g with
        | some (_, o, v) => [o, v]
        | none => [0, 0]) []) s
  let s := ((a.zip (bases a 0)).zipIdx).foldl (fun s ((x, b), e) =>
    (cutBlocks (x / 64 + 1) b x).foldl (fun s (f, r) => s.openBlock t k c.slot c.layer e f r) s) s
  if (totals rem n).all (· == 0) && a.all (· == 0) then
    (s.modCtx k c.slot c.layer fun c => { c with ownOpen := false }).closeCtx k c.slot c.layer
  else s

/-- With every source's count in hand the first round begins. -/
def State.countCheck (s : State) (t : Step) (k layer : Nat) : State :=
  match (s.die k).ctx t.slot layer with
  | some c =>
    if c.ownOpen && c.round = 0 && c.sources.all (fun g => c.counts.any fun (x, _) => x == g) then
      let rem := c.sources.map fun g => (g, (assocGet c.counts g).getD [])
      s.grantRound t k { c with rem := rem }
    else s
  | none => s

/-- Bytes of a COUNT message (Table 08-5). -/
def countBytes (counts : List Nat) : Nat := (32 + 4 * counts.length + 63) / 64 * 64

/-- Bytes that the early buffer holds. -/
def Die.earlyBytes (d : Die) : Nat := (d.early.map fun x => countBytes x.2).foldl (· + ·) 0

/-- Messages held back by link credit enter the early buffer in their order, as far as its 64 KiB reach. -/
def Die.refillEarly (d : Die) : Die :=
  (List.range d.heldBack.length).foldl (fun d _ =>
    match d.heldBack with
    | x :: l => if d.earlyBytes + countBytes x.2 ≤ 65536 then { d with early := d.early ++ [x], heldBack := l } else d
    | [] => d) d

/-- COUNT: stored, or held until the context opens, in the early buffer or before it (R206). -/
def State.takeCount (s : State) (k : Nat) (e : Envelope) (counts : List Nat) : State :=
  s.withMsg k e true fun t s =>
    match (s.die k).ctx t.slot e.layer with
    | none => s.modDie k fun d => ({ d with heldBack := d.heldBack ++ [(e, counts)] } : Die).refillEarly
    | some c =>
      if !c.ownOpen || c.round != 0 then s
      else (s.modCtx k t.slot e.layer fun c => { c with counts := assocSet c.counts e.gsn counts }).countCheck t k e.layer

/-! ## Source side -/

/-- Pairs in ascending token, then rank. -/
def insertPair (x : Pair) : List Pair → List Pair
  | [] => [x]
  | y :: t => if x.tok < y.tok ∨ (x.tok = y.tok ∧ x.rank < y.rank) then x :: y :: t else y :: insertPair x t

/-- The queue slot header of a pair (Table 08-4). -/
def Ctx.qHeader (c : Ctx) (x : Pair) (gsn ctrBase : Nat) : List Byte :=
  padTo 64 (leBytes 4 x.tok ++ leBytes 2 x.exp ++ leBytes 1 x.rank ++ leBytes 1 0 ++ leBytes 4 0 ++ leBytes 2 gsn ++
    leBytes 2 (ctrBase + c.ctr0 + (x.tok - c.retTok0) / max 1 c.ctrRows) ++ leBytes 6 x.retAddr)

/-- Send the first `credit` waiting pairs of one local slot of an owner to its queue slots (R208). -/
def State.sendRows (s : State) (t : Step) (k layer member die lslot off credit : Nat) : State :=
  match (s.die k).ctx t.slot layer with
  | none => s
  | some c =>
    let g := s.gsn t.slice k
    let mine := (c.pairs.filter fun x => !x.sent && (s.placeOf t).target layer x.exp g == some (member, die, lslot)).foldr insertPair []
    (mine.take credit).zipIdx.foldl (fun s (x, i) =>
      let row := s.modRead x.rowAddr c.inBytes
      let s := s.sendDist t k 3 member die (s.envOf t k layer true) (off + i) 0 [] (c.qHeader x g (slotCtrs * t.slot) ++ row)
      s.modCtx k t.slot layer fun c => { c with
        pairs := c.pairs.map fun (y : Pair) => if y.tok == x.tok && y.rank == x.rank then { y with sent := true } else y }) s

/-- GRANT: the credited pairs go out as ROW messages. -/
def State.takeGrant (s : State) (k : Nat) (e : Envelope) (grants : List (Nat × Nat)) : State :=
  s.withMsg k e false fun t s =>
    grants.zipIdx.foldl (fun s ((off, cr), i) => s.sendRows t k e.layer (e.gsn / 8) (e.gsn % 8) i off cr) s

/-- A row of a block has arrived: its counter counts it. -/
def State.rowIn (s : State) (k ctr : Nat) : State := if ctr = noCtr then s else s.decCtr k ctr

/-- ROW: written to its queue slot; the row block's counter is decremented (R209). -/
def State.takeRow (s : State) (k : Nat) (e : Envelope) (q : Nat) (bytes : List Byte) : State :=
  s.withMsg k e true fun t s =>
    match (s.die k).ctx t.slot e.layer with
    | none => s.distStale k
    | some c =>
      match c.blocks.find? fun b => decide (b.first ≤ q) && decide (q < b.first + b.rows) with
      | none => s.distStale k
      | some b =>
        let s := s.modWrite (c.qAddr q) bytes
        if c.arrivedRows.any fun r => r.qslot == q then s
        else
          let r : QRow := { qslot := q, lslot := b.lslot, srcGsn := e.gsn, returned := false }
          ((s.modCtx k t.slot e.layer fun c => { c with arrivedRows := c.arrivedRows ++ [r] }).rowIn k b.ctr).distSend k

/-- The owner's round is over when every granted row has been returned; with none to place the owner closes (R212, R214). -/
def State.ownerCheck (s : State) (k slot layer : Nat) : State :=
  match (s.die k).ctx slot layer with
  | some c =>
    if 0 < c.round && c.ownOpen && c.rem.all (fun (_, l) => l.all (· == 0)) && c.blocks.all (·.sent) then
      (s.modCtx k slot layer fun c => { c with ownOpen := false }).closeCtx k slot layer
    else s
  | none => s

/-- Free bytes: the spec gives no descriptor for an expert's tiles, so it states no result row (log entry 33). -/
def State.freeBytes (s : State) (n : Nat) : List Byte × State := let (v, s) := s.draw; (leBytes n v, s)

/-- The last tile of a row block has completed: its result rows stand, and each goes back as a RETURN message (R210). -/
def State.returnBlock (s : State) (t : Step) (k layer : Nat) (c : Ctx) (b : RowBlk) : State :=
  let s := (List.range b.rows).foldl (fun s i =>
    let q := b.first + i
    let (res, s) := s.freeBytes c.outBytes
    let s := s.modWrite (c.resAddr q) res
    let hd := s.modRead (c.qAddr q) 64
    let src := fld hd 12 2
    s.sendDist t k 4 (src / 8) (src % 8) (s.envOf t k layer true) (fld hd 16 6) (fld hd 14 2) [] res) s
  let s := s.modCtx k t.slot layer fun c => { c with
    blocks := c.blocks.map fun (x : RowBlk) => if x.first == b.first then { x with sent := true } else x
    arrivedRows := c.arrivedRows.map fun (r : QRow) => if decide (b.first ≤ r.qslot) && decide (r.qslot < b.first + b.rows) then { r with returned := true } else r }
  (s.startBlocks t k t.slot layer).ownerCheck k t.slot layer

/-- An expert tile of a row block has completed. -/
def State.blockTile (s : State) (k : Nat) (e : Tile) : State :=
  match e.rowBlock, s.stepAt e.slot with
  | some (_, first), some t =>
    let s := s.modCtx k e.slot e.layer fun c => { c with
      blocks := c.blocks.map fun (b : RowBlk) => if b.first == first then { b with left := b.left - 1 } else b }
    match (s.die k).ctx e.slot e.layer with
    | some c =>
      match c.blocks.find? fun b => b.first == first with
      | some b => if b.left = 0 && !b.sent then s.returnBlock t k e.layer c b else s
      | none => s
    | none => s
  | _, _ => s

/-- RETURN: written after the return entry's header; the combine counter is decremented (R210). -/
def State.takeReturn (s : State) (k : Nat) (e : Envelope) (addr ctr : Nat) (bytes : List Byte) : State :=
  s.withMsg k e false fun t s => (((s.modWrite (addr + 64) bytes).decCtr k ctr).distSend k).sourceCheck k t.slot e.layer

/-! ## Attention records and row transfers (R159, R160, R163, R164) -/

def Die.merge (d : Die) (i : Nat) : Option MergeEnt := d.merges.find? fun m => m.idx == i

/-- A record of part `i` arrives: the first time it is counted in one operation, later only its bytes are written (R160). -/
def State.recordIn (s : State) (k entry part : Nat) : State :=
  match (s.die k).merge entry with
  | none => s
  | some m =>
    if m.order.contains part then s
    else
      let s := s.modDie k fun d => { d with merges := d.merges.map fun (x : MergeEnt) =>
        if x.idx == entry then { x with arrived := x.arrived + 2 ^ part, order := x.order ++ [part] } else x }
      s.decCtr k m.ctr

def State.takeRecord (s : State) (k : Nat) (e : Envelope) (entry part : Nat) (bytes : List Byte) : State :=
  s.withMsg k e false fun _ s =>
    match (s.die k).merge entry with
    | none => s.distStale k
    | some m => if m.parts ≤ part then s.distStale k else (s.modWrite (m.recAddr + part * m.recBytes) bytes).recordIn k entry part |>.distSend k

/-- Query rows, or key and value rows, land at the address that the message names and decrement its counter. -/
def State.takeRows (s : State) (k : Nat) (e : Envelope) (addr ctr : Nat) (bytes : List Byte) : State :=
  s.withMsg k e false fun _ s => ((s.modWrite addr bytes).decCtr k ctr).distSend k

/-! ## Meanings -/

def execCount (die : Nat) (e : Envelope) (counts : List Nat) (s : State) : Host.Outcome State Fault Refusal :=
  .next (s.onArrival die 1 e 0 0 counts [] fun s => s.takeCount die e counts)

def execGrant (die : Nat) (e : Envelope) (round : Nat) (grants : List (Nat × Nat)) (s : State) : Host.Outcome State Fault Refusal :=
  .next (s.onArrival die 2 e round 0 (grants.flatMap fun (o, v) => [o, v]) [] fun s => s.takeGrant die e grants)

def execRow (die : Nat) (e : Envelope) (slotNo : Nat) (bytes : List Byte) (s : State) : Host.Outcome State Fault Refusal :=
  .next (s.onArrival die 3 e slotNo 0 [] bytes fun s => s.takeRow die e slotNo bytes)

def execReturnMsg (die : Nat) (e : Envelope) (addr ctr : Nat) (bytes : List Byte) (s : State) : Host.Outcome State Fault Refusal :=
  .next (s.onArrival die 4 e addr ctr [] bytes fun s => s.takeReturn die e addr ctr bytes)

def execRecord (die : Nat) (e : Envelope) (mergeEntry part : Nat) (bytes : List Byte) (s : State) : Host.Outcome State Fault Refusal :=
  .next (s.onArrival die 5 e mergeEntry part [] bytes fun s => s.takeRecord die e mergeEntry part bytes)

def execQrow (die : Nat) (e : Envelope) (addr ctr : Nat) (bytes : List Byte) (s : State) : Host.Outcome State Fault Refusal :=
  .next (s.onArrival die 6 e addr ctr [] bytes fun s => s.takeRows die e addr ctr bytes)

def execKvrow (die : Nat) (e : Envelope) (addr ctr : Nat) (bytes : List Byte) (s : State) : Host.Outcome State Fault Refusal :=
  .next (s.onArrival die 7 e addr ctr [] bytes fun s => s.takeRows die e addr ctr bytes)

/-- The next round of an owner (R214). -/
def execNextRound (die slot layer : Nat) (s : State) : Host.Outcome State Fault Refusal :=
  match (s.die die).ctx slot layer, s.stepAt slot with
  | some c, some t =>
    if 0 < c.round && c.ownOpen && c.blocks.all (·.sent) && c.rem.any (fun (_, l) => l.any (fun v => decide (0 < v))) then .next (s.grantRound t die c)
    else .next s
  | _, _ => .next s

end Sys2Proof.Machine
end

