-- ==== Sys2Proof/Machine/Program.lean ====
section
/-! DEFINITION. The die agent's walk of a layer program (R417, Table 17-10): what each record does. -/

namespace Sys2Proof.Machine

open Sys2Proof

/-! ## Records -/

/-- The agent goes on to its next record. -/
def State.nextRec (s : State) (k slot : Nat) : State := s.modAgent k slot fun a => { a with cursor := a.cursor + 1, stalled := false, ctxWait := false }

/-- The bytes of record `i` of a step's layer program. -/
def State.recBytes (s : State) (t : Step) (i : Nat) : List Byte :=
  match s.obj t.program with
  | some o => s.objRead o (64 + 128 * i) 128
  | none => []

/-- The agents of a step whose program was ARRIVING at its release open once it has arrived (R292). -/
def State.ensureAgents (s : State) (slot : Nat) : State :=
  match s.stepAt slot with
  | none => s
  | some t => if t.phase = 1 && t.killing.isNone && !s.dies.any (fun d => d.agents.any fun a => a.slot == slot) then s.openAgents t else s

/-- The agent of a die that may act on its next record, with its step and the record's bytes. -/
def State.nextRecord (s : State) (k slot : Nat) : Option (Step × Agent × List Byte) :=
  match s.stepAt slot, s.agentOf k slot with
  | some t, some a =>
    if t.killing.isNone && t.status == 0 && decide (1 ≤ t.phase) && decide (t.phase < 4) && decide (a.cursor < a.stop) then some (t, a, s.recBytes t a.cursor)
    else none
  | _, _ => none

/-- Only the used bytes of a record are nonzero: kind, layer, and the payload fields of its table. -/
def recOk (b : List Byte) (uses : List (Nat × Nat)) : Bool := onlyUses b ((0, 1) :: (2, 2) :: uses)

/-- The agent of a slot waits for an entry with an expert tile that has stalled (R139). -/
def State.expertStall (s : State) (k slot : Nat) : Bool := (s.die k).ctxs.any fun c => c.slot == slot && !c.later.isEmpty

/-- Act on the next record of an agent when it has the given kind; a kind outside Table 17-10 ends the step (R417). -/
def State.progRec (s0 : State) (k slot kind : Nat) (uses : List (Nat × Nat)) (f : Step → Agent → List Byte → State → State) : State :=
  let s := s0.ensureAgents slot
  match s.nextRecord k slot with
  | none => s
  | some (t, a, b) =>
    if a.stalled || a.ctxWait || s.power.held || s.expertStall k slot then s
    else if fld b 0 1 = 0 ∨ 8 < fld b 0 1 then s.failSlot slot stBadField
    else if fld b 0 1 ≠ kind then s
    else if !recOk b uses then s.failSlot slot stBadField
    else f t a b s

/-! ## TILE (R123, R124, R139, R339) -/

def tileUses : List (Nat × Nat) := [(16, 16), (32, 32), (64, 7)]

/-- The role that a palette of the store has; 0 for none. -/
def State.palRole (s : State) (id : Nat) : Nat := ((s.pals.find? fun p => p.id == id).map (·.role)).getD 0

/-- An index with its enable in bit 15: in range when enabled. -/
def idxOk (w : Nat) : Bool := !bitOf w 15 || decide (w % 16384 < slotCtrs)

/-- The descriptor bytes of a record keep Table 05-2, R124 and the index ranges of R417. -/
def State.descOk (s : State) (t : Step) (b : List Byte) : Bool :=
  let d := (b.drop 16).take 16
  let grp := fld d 14 2
  let reduce := bitOf (fld d 2 1) 4
  fld d 0 1 % 16 == 0 && bitsOf (fld d 0 1) 7 6 == 0 && bitsOf (fld d 2 1) 7 6 == 0 && bitsOf (fld d 3 1) 7 3 == 0 &&
  !bitOf (fld d 8 2) 14 && !bitOf (fld d 10 2) 14 && !bitOf (fld d 12 2) 14 && bitsOf grp 15 10 == 0 &&
  idxOk (fld d 8 2) && idxOk (fld d 10 2) && idxOk (fld d 12 2) && (if reduce then decide (grp < slotGroups) else grp == 0) &&
  (s.slc t.slice).palset.contains (fld d 1 1) && s.palRole (fld d 1 1) == fld d 2 1 % 16 && fld d 2 1 % 16 != 0 &&
  (fld b 64 1 ≤ 1) && (fld b 64 1 == 0 || (decide (fld b 65 1 < (s.slc t.slice).count) && decide (fld b 66 1 < 8) &&
    decide (fld b 68 2 < slotMerges) && decide (fld b 70 1 < 64) && fld b 67 1 == 0))

/-- The tile of a record, with the slot's bases added. -/
def tileOfRec (t : Step) (a : Agent) (b : List Byte) : Tile :=
  let d := (b.drop 16).take 16
  { idx := 0, slot := a.slot, prio := bitsOf (fld d 0 1) 5 4, pal := fld d 1 1, role := fld d 2 1 % 16, reduce := bitOf (fld d 2 1) 4,
    nop := bitOf (fld d 2 1) 5, pool := fld d 3 1 % 8, tileSeq := a.nextSeq, wait := a.ctrBase + fld d 8 2 % 16384,
    waitEn := bitOf (fld d 8 2) 15, sig0 := a.ctrBase + fld d 10 2 % 16384, sig0En := bitOf (fld d 10 2) 15,
    sig1 := a.ctrBase + fld d 12 2 % 16384, sig1En := bitOf (fld d 12 2) 15,
    group := if bitOf (fld d 2 1) 4 then a.grpBase + fld d 14 2 else 0, stepId := t.id, state := .waiting, attempts := 0, wrote := false,
    core := 0, status := 0, flags := 0, readyAt := 0, readyNo := 0, args := (b.drop 32).take 32, layer := fld b 2 2,
    fwd := if fld b 64 1 = 1 then some (fld b 65 1, fld b 66 1, a.mrgBase + fld b 68 2, fld b 70 1) else none,
    palFails := [], unpackFails := 0, runFlags := 0, rowBlock := none, readsObj := none, readsStage := none }

/-- The step's view holds a swap barrier in front of a layer (R339). -/
def State.swapBarred (s : State) (t : Step) (layer : Nat) : Bool :=
  ((s.model t.model).map fun m => m.swaps.contains (t.view, layer)).getD false && !t.released.contains (swapBarrier layer)

/-- The step reaches the swap barrier of a layer: its ARRIVE goes out once the swap has ended on this member (R339). -/
def State.atSwap (s : State) (t : Step) (layer : Nat) : State :=
  let s := s.modStep t.slice t.id fun t => { t with swapHeld := addNew t.swapHeld layer }
  match (s.model t.model).bind (·.swap) with
  | some w =>
    if w.view = t.view && w.layer = layer then s else s.arriveSwap t.model t.view layer
  | none => s.arriveSwap t.model t.view layer

/-- Append the tile of a record, or stall (R139). -/
def State.appendRec (s : State) (t : Step) (k : Nat) (a : Agent) (b : List Byte) (first : Bool) : State :=
  let e := tileOfRec t a b
  if !s.descOk t b then s.failSlot a.slot stBadField
  else if s.swapBarred t e.layer then s.atSwap t e.layer
  else if s.admitsNow k e then
    ((s.appendTile t k e).nextRec k a.slot).modAgent k a.slot fun a => { a with nextSeq := a.nextSeq + 1 }
  else
    let s := s.modAgent k a.slot fun a => { a with stalled := true }
    if first then (s.modDie k fun d => { d with tlStall := satAdd 32 d.tlStall 1 }).raise (.cd k) 5 else s

def execProgTile (die slot : Nat) (s : State) : Host.Outcome State Fault Refusal :=
  .next (s.progRec die slot 1 tileUses fun t a b s => s.appendRec t die a b true)

/-- Stalled expert tiles of a context enter the list in their order while an entry may take the next one (R139). -/
def State.resumeTiles (s : State) (t : Step) (k layer : Nat) : List Tile → State
  | [] => s
  | e :: l =>
    if s.admitsNow k e then
      ((s.appendTile t k e).modCtx k t.slot layer fun c => { c with later := c.later.filter fun x => x.tileSeq != e.tileSeq }).resumeTiles t k layer l
    else s

def State.resumeLater (s : State) (k slot : Nat) : State :=
  match s.stepAt slot with
  | none => s
  | some t =>
    let s := ((s.die k).ctxs.filter fun c => c.slot == slot).foldl (fun s c => s.startBlocks t k slot c.layer) s
    ((s.die k).ctxs.filter fun c => c.slot == slot).foldl (fun s c => s.resumeTiles t k c.layer c.later) s

/-- APPEND_STALL_RESUME: whatever stalled in the slot enters the list if an entry may take it now. -/
def execAppendStallResume (die slot : Nat) (s : State) : Host.Outcome State Fault Refusal :=
  if s.power.held then .next s else
  let s := s.resumeLater die slot
  match s.nextRecord die slot with
  | some (t, a, b) => if a.stalled && !s.expertStall die slot then .next (s.appendRec t die a b false) else .next s
  | none => .next s

/-! ## COUNTER, POOLMASK, REDUCE -/

def execProgCounter (die slot : Nat) (s : State) : Host.Outcome State Fault Refusal :=
  .next (s.progRec die slot 2 [(16, 2), (20, 3)] fun _ a b s =>
    if slotCtrs ≤ fld b 16 2 then s.failSlot slot stBadField
    else (s.setCtr die (a.ctrBase + fld b 16 2) (fld b 20 3)).nextRec die slot)

def execProgPoolmask (die slot : Nat) (s : State) : Host.Outcome State Fault Refusal :=
  .next (s.progRec die slot 6 [(16, 5)] fun _ _ b s =>
    let first := fld b 16 2
    let n := fld b 18 2
    if 120 < first + n then s.failSlot slot stBadField
    else
      let put (c : Core) (i : Nat) : Core := if decide (first ≤ i) && decide (i < first + n) then { c with mask := fld b 20 1 } else c
      (s.modDie die fun d => { d with cores := d.cores.zipIdx.map fun (c, i) => put c i }).nextRec die slot)

/-- A range lies whole in the die pools, outside their system areas. -/
def State.inPool (s : State) (a n : Nat) : Bool :=
  s.rangeOk a n && (match s.region a with
    | .pool _ _ => true
    | _ => false)

def execProgReduce (die slot : Nat) (s : State) : Host.Outcome State Fault Refusal :=
  .next (s.progRec die slot 7 [(16, 4), (24, 6), (32, 4)] fun _ a b s =>
    let g := fld b 16 2
    let addr := fld b 24 6
    let n := fld b 32 4
    if slotGroups ≤ g ∨ s.inPool addr n = false then s.failSlot slot stBadField
    else
      let r : RGroup := { idx := a.grpBase + g, slot := slot, addr := addr, bytes := n, members := fld b 18 2, poisoned := false }
      let s := s.modWrite addr (List.replicate n 0)
      (s.modDie die fun d => { d with groups := (d.groups.filter fun x => x.idx != r.idx) ++ [r] }).nextRec die slot)

/-! ## MERGE (R158) -/

/-- The merge entry of a record: its index is its place among the slot's entries. -/
def mergeOf (a : Agent) (i : Nat) (b : List Byte) : MergeEnt :=
  let m := b.drop 16
  { idx := a.mrgBase + i, slot := a.slot, seq := fld m 0 4, qPos0 := fld m 4 4, layer := fld m 8 2, kvHead := fld m 10 1,
    parts := fld m 11 1 % 128, recAddr := fld m 12 6, ctr := a.ctrBase + fld m 18 2 % 16384, recBytes := fld m 20 4, arrived := 0, order := [] }

def execProgMerge (die slot : Nat) (s : State) : Host.Outcome State Fault Refusal :=
  .next (s.progRec die slot 4 [(16, 24)] fun _ a b s =>
    let mine := (s.die die).merges.filter fun m => m.slot == slot
    let m := mergeOf a mine.length b
    let bad := decide (slotMerges ≤ mine.length) || m.parts == 0 || decide (64 < m.parts) || !bitOf (fld b 27 1) 7 || decide (slotCtrs ≤ fld b 34 2) ||
      mine.any fun x => x.seq == m.seq && x.layer == m.layer && x.kvHead == m.kvHead && x.qPos0 == m.qPos0
    if bad then s.failSlot slot stBadField
    else
      let s := s.modDie die fun d => { d with merges := d.merges ++ [m] }
      (s.setCtr die m.ctr m.parts).nextRec die slot)

/-! ## BARRIER (R225) -/

/-- Barriers that the records of a die name in a step's layer program. -/
def State.listedOn (s : State) (t : Step) (k : Nat) : List Nat :=
  match s.obj t.program with
  | none => []
  | some o =>
    let hd := s.objRead o 0 64
    let first (k : Nat) : Nat := if k < 8 then fld hd (8 + 4 * k) 4 else fld hd 4 4
    ((List.range (first (k + 1) - first k)).map fun i => s.recBytes t (first k + i)).filterMap fun b => if fld b 0 1 = 5 then some (fld b 16 2) else none

/-- The member sends ARRIVE when every die that lists the barrier has reached it. -/
def State.barrierReached (s : State) (t : Step) (barrier : Nat) : State :=
  let all := (List.range 8).all fun k =>
    (s.die k).lost || !(s.listedOn t k).contains barrier ||
    (s.die k).agents.any fun a => a.slot == t.slot && a.barriers.any fun (b, _) => b == barrier
  if all && s.easelUp && !t.arriveSent.contains barrier then
    let s := s.modStep t.slice t.id fun t => { t with arriveSent := t.arriveSent ++ [barrier] }
    s.toMaster t.slice .arrive { s.tokOf t with barrier := barrier }
  else s

/-- Barriers that a layer program may not name: start, prepare and the swap barriers (Table 09-4, R339). -/
def barrierTaken (b : Nat) : Bool := b == 0 || b == 0xFFFF || (decide (0xFE00 ≤ b) && decide (b ≤ 0xFEFF))

def execProgBarrier (die slot : Nat) (s : State) : Host.Outcome State Fault Refusal :=
  .next (s.progRec die slot 5 [(16, 4)] fun t a b s =>
    let n := fld b 16 2
    if barrierTaken n || decide (slotCtrs ≤ fld b 18 2) then s.failSlot slot stBadField
    else
      let s := s.modAgent die slot fun x => { x with barriers := x.barriers ++ [(n, a.ctrBase + fld b 18 2)] }
      let s := s.modStep t.slice t.id fun t => { t with arrivedAt := t.arrivedAt ++ [(n, die)] }
      (s.nextRec die slot).barrierReached t n)

/-! ## SEND (R163, R164, R201) -/

def execProgSend (die slot : Nat) (s : State) : Host.Outcome State Fault Refusal :=
  .next (s.progRec die slot 8 [(16, 3), (20, 10), (32, 6), (40, 4)] fun t a b s =>
    let kind := fld b 16 1
    let n := fld b 40 4
    let bad := (kind != 6 && kind != 7) || decide ((s.slc t.slice).count ≤ fld b 17 1) || decide (7 < fld b 18 1) || decide (slotCtrs ≤ fld b 20 2) ||
      decide (slotCtrs ≤ fld b 22 2) || !s.rangeOk (fld b 24 6) n
    if bad then s.failSlot slot stBadField
    else
      let r : SendRec := { kind := kind, member := fld b 17 1, die := fld b 18 1, dctr := a.ctrBase + fld b 20 2, lctr := a.ctrBase + fld b 22 2,
                           layer := fld b 2 2, src := fld b 24 6, dst := fld b 32 6, bytes := n, sent := false }
      (s.modAgent die slot fun x => { x with sends := x.sends ++ [r] }).nextRec die slot)

/-- SEND_MESSAGE: a SEND record whose local counter is at zero goes out as a Distributary message, once. -/
def execSendMessage (die slot idx : Nat) (s : State) : Host.Outcome State Fault Refusal :=
  match s.stepAt slot, s.agentOf die slot with
  | some t, some a =>
    match a.sends[idx]? with
    | some r =>
      if r.sent || (s.die die).ctr r.lctr != 0 || t.killing.isSome || s.power.held then .next s
      else
        let s := s.modAgent die slot fun x => { x with sends := x.sends.modify idx fun r => { r with sent := true } }
        .next (s.sendDist t die r.kind r.member r.die (s.envOf t die r.layer false) r.dst r.dctr [] (s.modRead r.src r.bytes))
    | none => .next s
  | _, _ => .next s

/-! ## MOE_CTX (R199, R200, R205, R206, R211) -/

def moeUses : List (Nat × Nat) := [(16, 14), (32, 10), (44, 10), (64, 64)]

/-- The context of a record. -/
def ctxOf (a : Agent) (b : List Byte) : Ctx :=
  { slot := a.slot, layer := fld b 2 2, topk := fld b 16 1, h := fld b 20 4, inFmt := fld b 17 1 % 16, retFmt := fld b 17 1 / 16,
    srcSet := fld b 64 64, gateCtr := a.ctrBase + fld b 18 2, qBase := fld b 24 6, qBytes := fld b 32 4, retBase := fld b 36 6,
    retTok0 := fld b 44 4, retRows := fld b 48 2, ctr0 := fld b 50 2, ctrRows := fld b 52 2, pairs := [], gateDone := false,
    countsSent := false, counts := [], rem := [], round := 0, granted := [], arrivedRows := [], blocks := [], later := [],
    srcOpen := false, ownOpen := false }

/-- Combine groups of a context. -/
def Ctx.groups (c : Ctx) : Nat := (c.retRows + max 1 c.ctrRows - 1) / max 1 c.ctrRows

/-- Fields in the ranges of Table 08-2, indices within the slot's ranges, and R200 on an owner die. -/
def ctxOk (c : Ctx) (a : Agent) (localSlots : Nat) : Bool :=
  decide (c.layer < 256) && decide (1 ≤ c.topk) && decide (c.topk ≤ 16) && decide (32 ≤ c.h) && decide (c.h ≤ 65536) && c.h % 32 == 0 &&
  (isMx c.inFmt || c.inFmt == 1) && (c.retFmt == 1 || c.retFmt == 3) && decide (1 ≤ c.ctrRows) && decide (c.ctrRows ≤ 4096) &&
  decide (c.gateCtr - a.ctrBase < slotCtrs) && decide (c.ctr0 + c.groups ≤ slotCtrs) && decide (64 * localSlots ≤ c.cap)

/-- Set the combine counters of a source die: `TOPK` for each token row of a group (R211). -/
def State.setCombine (s : State) (k : Nat) (a : Agent) (c : Ctx) : State :=
  (List.range c.groups).foldl (fun s i => s.setCtr k (a.ctrBase + c.ctr0 + i) (c.topk * (min ((i + 1) * c.ctrRows) c.retRows - i * c.ctrRows))) s

/-- Counts held in the early buffer for a context move into it (R206). -/
def State.takeEarly (s : State) (t : Step) (k layer : Nat) : State :=
  let mine (e : Envelope) : Bool := e.stepId == t.id && e.run == t.run % 16 && e.layer == layer
  let got := ((s.die k).early ++ (s.die k).heldBack).filter fun (e, _) => mine e
  let s := s.modDie k fun d => { d with early := d.early.filter (fun (e, _) => !mine e), heldBack := d.heldBack.filter fun (e, _) => !mine e }
  let s := s.modDie k Die.refillEarly
  s.modCtx k t.slot layer fun c => { c with counts := got.foldl (fun l (e, n) => assocSet l e.gsn n) c.counts }

/-- Open a layer context on a die. -/
def State.openCtx (s : State) (t : Step) (k : Nat) (a : Agent) (b : List Byte) : State :=
  let c := ctxOf a b
  let n := (s.placeOf t).slotsOn c.layer (s.slc t.slice).member k
  if !ctxOk c a n || ((s.die k).ctx a.slot c.layer).isSome then s.failSlot a.slot stBadField
  else
    let src := bitOf c.srcSet (s.gsn t.slice k)
    let s := s.modDie k fun d => { d with
      ctxs := d.ctxs ++ [{ c with srcOpen := src, ownOpen := decide (0 < n) }]
      moePars := (d.moePars.filter fun (x : MoePar) => !(x.slot == a.slot && x.layer == c.layer)) ++
        [{ slot := a.slot, layer := c.layer, h := c.h, topk := c.topk, retFmt := c.retFmt }] }
    let s := if src then s.setCombine k a c else s
    let s := (s.takeEarly t k c.layer).nextRec k a.slot
    (s.countCheck t k c.layer).closeCtx k a.slot c.layer

/-- The slot holds two open contexts on the die already. -/
def State.ctxFull (s : State) (k slot : Nat) : Bool := decide (2 ≤ ((s.die k).ctxs.filter fun c => c.slot == slot).length)

def execProgMoeCtx (die slot : Nat) (s : State) : Host.Outcome State Fault Refusal :=
  .next (s.progRec die slot 3 moeUses fun t a b s =>
    if s.ctxFull die slot then s.modAgent die slot fun a => { a with ctxWait := true } else s.openCtx t die a b)

/-- MOE_CTX_DEFERRED_OPEN: one of the two contexts has closed, and the record that waited opens its own. -/
def execMoeCtxDeferredOpen (die slot : Nat) (s : State) : Host.Outcome State Fault Refusal :=
  match s.nextRecord die slot with
  | some (t, a, b) => if a.ctxWait && !s.ctxFull die slot && !s.power.held then .next (s.openCtx t die a b) else .next s
  | none => .next s

end Sys2Proof.Machine
end

