-- ==== Sys2Proof/Machine/Roles.lean ====
section
/-! DEFINITION. What the tiles of the seven roles check and compute (spec/04, 06, 08 and 10): arguments, the answer to a
claim, and the bytes that a completed tile has written. -/

namespace Sys2Proof.Machine

open Sys2Proof

/-- The answer of a palette that looks at its tile's arguments: it runs; it waits for a weight tile; the tile fails with a
status of Table 05-3; the step fails with a status; the step's job meets a lost object (R278). -/
inductive Chk where
  | go
  | wait
  | bad (status : Nat)
  | failStep (status : Nat)
  | lost
deriving DecidableEq, Repr

/-- The first answer that is not `go`. -/
def Chk.all : List Chk → Chk
  | [] => .go
  | .go :: t => Chk.all t
  | c :: _ => c

/-- A condition whose failure is `BAD_FIELD`. -/
def need (b : Bool) : Chk := if b then .go else .bad tsBadField

/-! ## Operands -/

/-- The BUFFER object that holds a whole range (R288). -/
def State.bufferAt (s : State) (a n : Nat) : Option Obj :=
  s.objs.find? fun o => o.kind == .buffer && o.extents.any fun (x, k) => decide (x ≤ a) && decide (a + n ≤ x + k)

/-- Part of a range lies in a lost BUFFER (R278). -/
def State.inLost (s : State) (a n : Nat) : Bool := s.objs.any fun o => o.lost && o.kind == .buffer && o.extents.any (overlaps a n)

/-- A tile may read a range (R272); a lost object that it reads ends the job (R278). -/
def State.mayRead (s : State) (a n : Nat) : Chk := if !s.rangeOk a n then .bad tsBadField else if s.inLost a n then .lost else .go

/-- A tile may write a range: it lies in a BUFFER object (R101, R288). -/
def State.mayWrite (s : State) (a n : Nat) : Chk :=
  match s.bufferAt a n with
  | some o => if o.lost then .lost else need (s.rangeOk a n)
  | none => .bad tsBadField

/-- `n` rows of `w` bytes at a stride. -/
def eachRow (n a stride : Nat) (f : Nat → Chk) : Chk := Chk.all ((List.range n).map fun r => f (a + r * stride))

/-- A format code of Table 02-1. -/
def fmtOk (f : Nat) : Bool := decide (f ≤ 8)

/-- Where a DMA tile read of a weight tile finds its bytes (R292, R300). -/
inductive WSrc where
  | bytes (dir : TileDir) (w sc : List Byte) (staged : Option (Nat × Nat))
  | wait
  | absent
  | lost
  | bad
deriving DecidableEq, Repr

/-- A staged copy that has landed serves the read; else the object itself does. -/
def State.weightTile (s : State) (k obj tile : Nat) : WSrc :=
  match s.obj obj with
  | none => .bad
  | some o =>
    match o.dir[tile]? with
    | none => .bad
    | some d =>
      if o.kind != .tileset then .bad
      else match (s.die k).stage.find? (fun e => e.obj == obj && e.tile == tile && e.landed) with
      | some e => .bytes d (Memory.read s.mem e.addr d.bytes) (Memory.read s.mem (e.addr + up64 d.bytes) d.scaleBytes) (some (obj, tile))
      | none =>
        let own := WSrc.bytes d (s.objRead o d.off d.bytes) (s.objRead o d.scaleOff d.scaleBytes) none
        if o.lost then .lost
        else match o.res with
        | .resident => own
        | .arriving => if o.landed.contains tile then own else .wait
        | .departing => if !o.released then own else if (s.die k).stage.any (fun e => e.obj == obj && e.tile == tile && e.cold) then .wait else .absent
        | .absent => if (s.die k).stage.any (fun e => e.obj == obj && e.tile == tile && e.cold) then .wait else .absent

/-- Continue with a weight tile's directory entry. -/
def State.withWeight (s : State) (k obj tile : Nat) (f : TileDir → Chk) : Chk :=
  match s.weightTile k obj tile with
  | .bytes d _ _ _ => f d
  | .wait => .wait
  | .absent => .failStep stNotResident
  | .lost => .lost
  | .bad => .bad tsBadField

/-- Decoded element codes and scale codes of a weight tile in the stored order of R66; none when R90 rejects its code in a chunk
that the tile's jobs need. DESIGN CHOICE (log entry 118): a coded tile is decoded by its header's `FMT` and multiplied by the
directory's, as the spec names no check between them. -/
def wElems (d : TileDir) (w sc : List Byte) : Option (List Nat × List Nat) :=
  let n := d.k * d.n
  (if d.coded then decodeSpan w 0 n else some (unpackElems d.fmt n w)).map fun l => (l, sc.map (·.toNat))

/-- Place in stored order of the block of column `c` and block-row `r` (R66): output blocks of 64 or 256 columns. -/
def blockAt (d : TileDir) (c r : Nat) : Nat :=
  let w := if d.wide then 256 else 64
  let ob := c / w
  ob * w * d.k32 + r * min w (d.n - ob * w) + c % w

/-- A column of a weight tile in ascending K: codes and scales. DESIGN CHOICE (log entry 118): elements that a coded tile lacks
drop out of the products, as zeros do; the spec is silent. -/
def wColumn (d : TileDir) (l sc : List Nat) (c : Nat) : List Nat × List Nat :=
  ((List.range d.k32).flatMap (fun r => (l.drop (32 * blockAt d c r)).take 32), (List.range d.k32).map fun r => sc.getD (blockAt d c r) 0)

/-- Codes and scales of a row in memory. -/
def State.rowCodes (s : State) (fmt cols a : Nat) : List Nat × List Nat :=
  let b := Memory.read s.mem a (elemBytes fmt cols + Sys2Proof.Machine.scaleBytes fmt cols)
  (unpackElems fmt cols (b.take (elemBytes fmt cols)), (b.drop (elemBytes fmt cols)).map (·.toNat))

/-- An absent row of the batched shape, as the units see it: zeros (R73). -/
def zeroRow (k : Nat) : List Nat × List Nat := (List.replicate k 0, List.replicate (k / 32) 0)

/-- Rows times a weight tile, in FP32 (R41 to R45). In the batched shape the absent rows of the last group of four run as zeros:
they give no result, and their flags stand (R46, R73). -/
def matRows (aFmt : Nat) (rows : List (List Nat × List Nat)) (d : TileDir) (l sc : List Nat) : List (List W32) × Fl :=
  let cols := (List.range d.n).map (wColumn d l sc)
  let r := (if d.wide || rows.length % 4 == 0 then rows else rows ++ [zeroRow d.k]).map fun (as, xs) => cols.map fun (bs, ys) => cellDot aFmt d.fmt as bs xs ys
  ((r.map fun x => x.map (·.1)).take rows.length, flOr (r.flatMap fun x => x.map (·.2)))

/-- Rows of FP32 values of a matrix in memory. -/
def State.rowVals (s : State) (fmt cols a : Nat) : List W32 × Fl := rowDecode fmt cols (Memory.read s.mem a (rowBytes fmt cols))

/-! ## MATMUL (Table 04-5, R107, R543, R545) -/

structure MatArgs where
  obj : Nat
  tile : Nat
  act : Nat
  rows : Nat
  out : Nat
  wide : Bool
  accum : Bool
  epi : Nat
  aFmt : Nat
  outFmt : Nat
  actStride : Nat
  outStride : Nat
deriving DecidableEq, Repr

def matArgs (b : List Byte) : MatArgs :=
  { obj := fld b 0 4, tile := fld b 4 4, act := fld b 8 6, rows := fld b 14 2, out := fld b 16 6, wide := bitOf (fld b 22 1) 0,
    accum := bitOf (fld b 22 1) 1, epi := bitsOf (fld b 22 1) 4 2, aFmt := fld b 23 1 % 16, outFmt := fld b 23 1 / 16,
    actStride := fld b 24 4, outStride := fld b 28 4 }

/-- Output columns. -/
def MatArgs.cols (x : MatArgs) (d : TileDir) : Nat := if x.epi = 3 then d.n / 2 else d.n

/-- What a MATMUL palette finds in its arguments (Table 04-5, R107, R543, R544). DESIGN CHOICE (log entry 128): `ACCUM` = 1 in a tile
that is no member of a reduction group (R135) is an argument out of its range. -/
def State.checkMat (s : State) (k : Nat) (e : Tile) : Chk :=
  let x := matArgs e.args
  Chk.all [need (bitsOf (fld e.args 22 1) 7 5 == 0 && decide (x.epi ≤ 3) && decide (1 ≤ x.rows) && decide (x.rows ≤ 256) && fmtOk x.aFmt && fmtOk x.outFmt &&
      x.actStride % 64 == 0 && x.outStride % 64 == 0 && (!x.accum || (x.outFmt == 0 && x.epi == 0 && e.reduce))),
    s.withWeight k x.obj x.tile fun d => Chk.all [need (x.wide == d.wide), if pairOk x.aFmt d.fmt then .go else .bad tsBadFormat,
      need (decide (rowBytes x.aFmt d.k ≤ x.actStride) && decide (rowBytes x.outFmt (x.cols d) ≤ x.outStride)),
      need (!x.accum || s.inPool x.out (x.outStride * (x.rows - 1) + rowBytes x.outFmt (x.cols d))),
      eachRow x.rows x.act x.actStride fun a => s.mayRead a (rowBytes x.aFmt d.k),
      eachRow x.rows x.out x.outStride fun a => s.mayWrite a (rowBytes x.outFmt (x.cols d))]]

/-- The epilogue of a row of FP32 results. -/
def epilogue (epi : Nat) (v : List W32) : List (W32 × Fl) :=
  if epi = 1 then v.map silu
  else if epi = 2 then v.map gelu
  else if epi = 3 then (chunks 2 v.length v).map fun p => swiglu (p.getD 0 0) (p.getD 1 0)
  else v.map fun x => (x, 0)

/-- Add FP32 values into memory, element by element, with the flags of the sums (R56, R107). -/
def State.atomicAdd (s : State) (a : Nat) (v : List W32) : State × Fl :=
  v.zipIdx.foldl (fun (q : State × Fl) (x, i) =>
    let (y, f) := f32Add (BitVec.ofNat 32 (Memory.nat q.1.mem (a + 4 * i) 4)) x
    (q.1.modWrite (a + 4 * i) (leBytes 4 y.toNat), q.2 ||| f ||| flIf (fvOf y).isInf flINFOUT)) (s, 0)

/-- The rows of a MATMUL tile stand; a tile whose own transfers have added its sums already (`WROTE`) adds nothing more. -/
def State.runMat (s : State) (k : Nat) (e : Tile) : Option (State × Fl) :=
  let x := matArgs e.args
  match s.weightTile k x.obj x.tile with
  | .bytes d w sc _ =>
    (wElems d w sc).map fun (l, xs) =>
      let rows := (List.range x.rows).map fun r => s.rowCodes x.aFmt d.k (x.act + r * x.actStride)
      let (vals, f) := matRows x.aFmt rows d l xs
      vals.zipIdx.foldl (fun (a : State × Fl) (v, r) =>
        let y := epilogue x.epi v
        let f := flOr (y.map (·.2))
        let at_ := x.out + r * x.outStride
        if x.accum then
          if e.wrote then (a.1, a.2 ||| f)
          else let (s, g) := a.1.atomicAdd at_ (y.map (·.1))
               (s, a.2 ||| f ||| g)
        else
          let (b, g) := rowEncode x.outFmt (y.map (·.1))
          (a.1.modWrite at_ b, a.2 ||| f ||| g)) (s, f)
  | _ => some (s, 0)

/-! ## VEC (Table 04-8, R108) -/

structure VecArgs where
  op : Nat
  inFmt : Nat
  outFmt : Nat
  rows : Nat
  cols : Nat
  src0 : Nat
  src1 : Nat
  dst : Nat
  param : W32
deriving DecidableEq, Repr

def vecArgs (b : List Byte) : VecArgs :=
  { op := fld b 0 1, inFmt := fld b 1 1 % 16, outFmt := fld b 1 1 / 16, rows := fld b 2 2, cols := fld b 4 4, src0 := fld b 8 6, src1 := fld b 14 6,
    dst := fld b 20 6, param := BitVec.ofNat 32 (fld b 26 4) }

/-- `PARAM` is finite, and not negative (RMSNORM) or positive (ROPE). -/
def VecArgs.paramOk (x : VecArgs) : Bool :=
  match fvOf x.param with
  | .fin n m _ => if x.op = 1 then !n || m == 0 else if x.op = 3 then !n && m != 0 else true
  | _ => x.op != 1 && x.op != 3

def State.checkVec (s : State) (e : Tile) : Chk :=
  let x := vecArgs e.args
  let rb := rowBytes x.inFmt x.cols
  Chk.all [need (decide (1 ≤ x.op) && decide (x.op ≤ 5) && fmtOk x.inFmt && fmtOk x.outFmt && decide (1 ≤ x.rows) && decide (x.rows ≤ 4096) &&
      decide (32 ≤ x.cols) && decide (x.cols ≤ 65536) && x.cols % 32 == 0 && fld e.args 30 2 == 0 && x.paramOk && (x.op != 5 || x.outFmt == x.inFmt)),
    s.mayRead x.src0 (rb * x.rows),
    if x.op = 1 then s.mayRead x.src1 rb else if x.op = 2 then s.mayRead x.src1 (rb * x.rows) else if x.op = 3 then s.mayRead x.src1 (4 * x.rows) else .go,
    s.mayWrite x.dst (rowBytes x.outFmt x.cols * x.rows)]

/-- Sum by lane reductions over registers of 64, then the register sums in ascending order (R99, R108, R192). -/
def regSum (l : List W32) : W32 × Fl :=
  let r := (chunks 64 (l.length + 1) l).map fun c => treeSum 6 (c ++ List.replicate (64 - c.length) 0)
  match r with
  | [] => (0, 0)
  | x :: t => t.foldl (fun a y => fl1 (a.2 ||| y.2) (f32Add a.1 y.1)) x

def rmsNorm (cols : Nat) (param : W32) (x w : List W32) : List (W32 × Fl) :=
  let sq := x.map fun v => f32Mul v v
  let (t, f) := regSum (sq.map (·.1))
  let (m, f1) := f32Div t (f32OfInt cols)
  let (v, f2) := f32Add m param
  let (q, f3) := f32Sqrt v
  let f := flOr (sq.map (·.2)) ||| f ||| f1 ||| f2 ||| f3
  (x.zip w).map fun (a, b) =>
    let (d, g) := f32Div a q
    fl1 (f ||| g) (f32Mul d b)

/-- Rotate the pairs of a row by its position, with the coefficients of a palette version (R545). -/
def rope (ver cols : Nat) (param : W32) (p : W32) (x : List W32) : List (W32 × Fl) :=
  ((chunks 2 x.length x).zipIdx.map fun (v, i) =>
    let c := ropeCoef ver false p i cols param
    let n := ropeCoef ver true p i cols param
    let x0 := v.getD 0 0
    let x1 := v.getD 1 0
    let (a, f) := f32Mul x1 n
    let (b, g) := f32Mul x1 c
    [fl1 f (f32Fma x0 c (f32Neg a)), fl1 g (f32Fma x0 n b)]).flatten

def State.vecRow (s : State) (ver : Nat) (x : VecArgs) (r : Nat) : List Byte × Fl :=
  let rb := rowBytes x.inFmt x.cols
  let (v, f) := s.rowVals x.inFmt x.cols (x.src0 + r * rb)
  if x.op = 5 then
    (padTo rb (Memory.read s.mem (x.src0 + r * rb) (elemBytes x.inFmt x.cols + Sys2Proof.Machine.scaleBytes x.inFmt x.cols)),
      f ||| flIf (v.any fun y => (fvOf y).isInf) flINFOUT)
  else
    let (y, g) : List (W32 × Fl) × Fl :=
      if x.op = 1 then let (w, g) := s.rowVals x.inFmt x.cols x.src1; (rmsNorm x.cols x.param v w, g)
      else if x.op = 2 then let (w, g) := s.rowVals x.inFmt x.cols (x.src1 + r * rb); ((v.zip w).map fun (a, b) => f32Add a b, g)
      else if x.op = 3 then (rope ver x.cols x.param (BitVec.ofNat 32 (Memory.nat s.mem (x.src1 + 4 * r) 4)) v, 0)
      else (v.map fun a => (a, (0 : Fl)), 0)
    let (b, h) := rowEncode x.outFmt (y.map (·.1))
    (b, f ||| g ||| h ||| flOr (y.map (·.2)))

/-- Version of a palette of the store. -/
def State.palVer (s : State) (id : Nat) : Nat := ((s.pals.find? fun p => p.id == id).map (·.ver)).getD 0

def State.runVec (s : State) (e : Tile) : State × Fl :=
  let x := vecArgs e.args
  (List.range x.rows).foldl (fun (a : State × Fl) r =>
    let (b, f) := s.vecRow (s.palVer e.pal) x r
    (a.1.modWrite (x.dst + r * rowBytes x.outFmt x.cols) b, a.2 ||| f)) (s, 0)

/-! ## GATE (Table 04-7, R191 to R194, R204) -/

structure GateArgs where
  obj : Nat
  tile : Nat
  act : Nat
  rows : Nat
  layer : Nat
  topk : Nat
  norm : Bool
  score : Nat
  tok0 : Nat
  bias : Nat
deriving DecidableEq, Repr

def gateArgs (b : List Byte) : GateArgs :=
  { obj := fld b 0 4, tile := fld b 4 4, act := fld b 8 6, rows := fld b 14 2, layer := fld b 16 2, topk := fld b 18 1, norm := bitOf (fld b 19 1) 0,
    score := bitsOf (fld b 19 1) 2 1, tok0 := fld b 20 4, bias := fld b 24 6 }

def State.checkGate (s : State) (t : Step) (k : Nat) (e : Tile) : Chk :=
  let x := gateArgs e.args
  let experts := ((s.placeOf t).layer x.layer).length
  match (s.die k).ctx e.slot x.layer with
  | none => .bad tsBadField
  | some c =>
    Chk.all [need (bitsOf (fld e.args 19 1) 7 3 == 0 && fld e.args 30 2 == 0 && decide (1 ≤ x.rows) && decide (x.rows ≤ 256) && decide (1 ≤ x.topk) && decide (x.topk ≤ 16) &&
        decide (x.score ≤ 1) && decide (x.topk ≤ experts) && x.topk == c.topk &&
        decide (c.retTok0 ≤ x.tok0) && decide (x.tok0 + x.rows ≤ c.retTok0 + c.retRows)),
      s.withWeight k x.obj x.tile fun d => Chk.all [need (d.k == c.h && d.n == experts), if pairOk c.inFmt d.fmt then .go else .bad tsBadFormat,
        s.mayRead x.act (c.inBytes * x.rows), if x.bias = 0 then .go else s.mayRead x.bias (4 * experts),
        s.mayWrite (c.retEntry x.tok0 0) (x.rows * x.topk * (64 + c.outBytes))]]

/-- Gate values of one row of raw scores (R192). -/
def gateVals (score : Nat) (sc : List W32) : List (W32 × Fl) :=
  if score = 1 then sc.map fun x =>
    let (e, f) := f32Exp (f32Neg x)
    let (d, g) := f32Add 0x3F800000 e
    fl1 (f ||| g) (f32Div 0x3F800000 d)
  else
    let m := sc.foldl (fun a x => (f32Max a x).1) negInf32
    let p := sc.map fun x => let (d, f) := f32Sub x m
                             fl1 f (f32Exp d)
    let (z, f) := regSum (p.map (·.1))
    let f := f ||| flOr (p.map (·.2)) ||| naninOf sc
    p.map fun (y, _) => fl1 f (f32Div y z)

/-- The order of R193 on (expert, key): descending key, NaN last, then the lower expert. -/
def keyBefore (a b : Nat × W32) : Bool :=
  let na := (fvOf a.2).isNan
  let nb := (fvOf b.2).isNan
  if na || nb then (!na && nb) || (na && nb && decide (a.1 < b.1))
  else f32Rel a.2 b.2 == 2 || (f32Rel a.2 b.2 == 1 && decide (a.1 < b.1))

def insertKey (x : Nat × W32) : List (Nat × W32) → List (Nat × W32)
  | [] => [x]
  | y :: t => if keyBefore x y then x :: y :: t else y :: insertKey x t

/-- Chosen experts of a row in rank order, each with its weight (R193, R194). -/
def gateRow (x : GateArgs) (bias sc : List W32) : List (Nat × W32) × Fl :=
  let g := gateVals x.score sc
  let gv := g.map (·.1)
  let keys := gv.zipIdx.map fun (v, i) => let b := bias.getD i 0
                                          let (k, f) := f32Add v b
                                          ((i, k), f)
  let top := ((keys.map (·.1)).foldr insertKey []).take x.topk
  let f := flOr (g.map (·.2)) ||| flOr (keys.map (·.2))
  let w := top.map fun (i, _) => (i, gv.getD i 0)
  let nan (l : List (Nat × W32)) : Fl := flIf (l.any fun (_, v) => (fvOf v).isNan) flNANIN
  if x.norm then
    let asc := (List.range gv.length).filter fun i => top.any fun (j, _) => j == i
    let (sum, f1) := match asc.map fun i => gv.getD i 0 with
      | [] => (0, (0 : Fl))
      | a :: t => t.foldl (fun (p : W32 × Fl) v => fl1 p.2 (f32Add p.1 v)) (a, 0)
    let r := w.map fun (i, v) => let (y, f2) := f32Div v sum
                                 ((i, y), f2)
    (r.map (·.1), f ||| f1 ||| nan (r.map (·.1)) ||| flOr (r.map (·.2)))
  else (w, f ||| nan w)

def State.runGate (s : State) (k : Nat) (e : Tile) : Option (State × Fl) :=
  let x := gateArgs e.args
  match (s.die k).ctx e.slot x.layer, s.weightTile k x.obj x.tile with
  | some c, .bytes d w sc _ =>
    (wElems d w sc).map fun (l, xs) =>
      let rows := (List.range x.rows).map fun r => s.rowCodes c.inFmt d.k (x.act + r * c.inBytes)
      let (vals, f) := matRows c.inFmt rows d l xs
      let bias := if x.bias = 0 then [] else (List.range d.n).map fun i => BitVec.ofNat 32 (Memory.nat s.mem (x.bias + 4 * i) 4)
      vals.zipIdx.foldl (fun (a : State × Fl) (v, r) =>
        let (top, g) := gateRow x bias v
        let tok := x.tok0 + r
        let s := top.zipIdx.foldl (fun s ((ex, wt), j) =>
          let addr := c.retEntry tok j
          let p : Pair := { tok := tok, exp := ex, rank := j, w := wt, rowAddr := x.act + r * c.inBytes, retAddr := addr, sent := false }
          let s := s.modWrite addr (padTo 64 (leBytes 4 tok ++ leBytes 2 ex ++ leBytes 1 j ++ leBytes 1 0 ++ leBytes 4 wt.toNat))
          s.modCtx k e.slot x.layer fun c => { c with pairs := (c.pairs.filter fun y => !(y.tok == tok && y.rank == j)) ++ [p] }) a.1
        (s, a.2 ||| g)) (s, f)
  | _, _ => some (s, 0)

/-! ## COMBINE (Table 04-10, R109, R211) -/

structure CombArgs where
  exp : Nat
  dst : Nat
  rows : Nat
  topk : Nat
  outFmt : Nat
  layer : Nat
  tok0 : Nat
  resid : Nat
deriving DecidableEq, Repr

def combArgs (b : List Byte) : CombArgs :=
  { exp := fld b 0 6, dst := fld b 6 6, rows := fld b 12 2, topk := fld b 14 1, outFmt := fld b 15 1 % 16, layer := fld b 16 2, tok0 := fld b 18 4, resid := fld b 22 6 }

def Die.moePar (d : Die) (slot layer : Nat) : Option MoePar := d.moePars.find? fun x => x.slot == slot && x.layer == layer

/-- Address of the return entry of row r at rank j. -/
def CombArgs.entry (x : CombArgs) (p : MoePar) (r j : Nat) : Nat := x.exp + (r * x.topk + j) * (64 + rowBytes p.retFmt p.h)

def State.checkComb (s : State) (k : Nat) (e : Tile) : Chk :=
  let x := combArgs e.args
  match (s.die k).moePar e.slot x.layer with
  | none => .bad tsBadField
  | some p =>
    Chk.all [need (fld e.args 15 1 / 16 == 0 && fld e.args 28 4 == 0 && decide (1 ≤ x.rows) && decide (x.rows ≤ 4096) && decide (1 ≤ x.topk) && decide (x.topk ≤ 16) &&
        fmtOk x.outFmt),
      s.mayRead x.exp (x.rows * x.topk * (64 + rowBytes p.retFmt p.h)),
      if x.resid = 0 then .go else s.mayRead x.resid (x.rows * rowBytes x.outFmt p.h), s.mayWrite x.dst (x.rows * rowBytes x.outFmt p.h),
      need ((List.range x.rows).all fun r => (List.range x.topk).all fun j => Memory.nat s.mem (x.entry p r j) 4 == x.tok0 + r)]

/-- Ascending expert index. -/
def insertExp (x : Nat × W32 × List W32) : List (Nat × W32 × List W32) → List (Nat × W32 × List W32)
  | [] => [x]
  | y :: t => if x.1 < y.1 then x :: y :: t else y :: insertExp x t

/-- One column-wise step of a row: combine two rows of FP32 values. -/
def zipF (f : W32 → W32 → W32 × Fl) (a b : List W32) : List W32 × Fl :=
  let r := (a.zip b).map fun (x, y) => f x y
  (r.map (·.1), flOr (r.map (·.2)))

/-- A row of COMBINE (R109, R211). DESIGN CHOICE (log entry 126): the residual rows at `RESID_ADDR` are in `OUT_FMT`, as the spec
gives their format nowhere. -/
def State.combRow (s : State) (x : CombArgs) (p : MoePar) (r : Nat) : List Byte × Fl :=
  let ents := (List.range x.topk).map fun j =>
    let a := x.entry p r j
    let (v, f) := s.rowVals p.retFmt p.h (a + 64)
    ((Memory.nat s.mem (a + 4) 2, BitVec.ofNat 32 (Memory.nat s.mem (a + 8) 4), v), f)
  let l := (ents.map (·.1)).foldr insertExp []
  let terms := l.map fun (_, w, v) => zipF f32Mul v (v.map fun _ => w)
  let f := flOr (ents.map (·.2)) ||| flOr (terms.map (·.2))
  let (acc, g) := match terms.map (·.1) with
    | [] => (List.replicate p.h 0, (0 : Fl))
    | a :: t => t.foldl (fun (q : List W32 × Fl) v => let (y, h) := zipF f32Add q.1 v
                                                      (y, q.2 ||| h)) (a, 0)
  let (acc, g1) := if x.resid = 0 then (acc, (0 : Fl))
    else
      let (v, h) := s.rowVals x.outFmt p.h (x.resid + r * rowBytes x.outFmt p.h)
      let (y, h') := zipF f32Add acc v
      (y, h ||| h')
  let (b, g2) := rowEncode x.outFmt acc
  (b, f ||| g ||| g1 ||| g2)

def State.runComb (s : State) (k : Nat) (e : Tile) : State × Fl :=
  let x := combArgs e.args
  match (s.die k).moePar e.slot x.layer with
  | none => (s, 0)
  | some p => (List.range x.rows).foldl (fun (a : State × Fl) r =>
      let (b, f) := s.combRow x p r
      (a.1.modWrite (x.dst + r * rowBytes x.outFmt p.h) b, a.2 ||| f)) (s, 0)

/-! ## KVW (Table 04-11, R110) -/

structure KvwArgs where
  seq : Nat
  src : Nat
  rows : Nat
  pos0 : Nat
  layer : Nat
  tree : Bool
  bf16 : Bool
  node0 : Nat
deriving DecidableEq, Repr

def kvwArgs (b : List Byte) : KvwArgs :=
  { seq := fld b 0 4, src := fld b 4 6, rows := fld b 10 2, pos0 := fld b 12 4, layer := fld b 16 2, tree := bitOf (fld b 18 1) 0,
    bf16 := bitOf (fld b 18 1) 1, node0 := fld b 20 4 }

/-- Columns of a key and value row. -/
def Pool.kvCols (p : Pool) : Nat := p.heads * 2 * p.d

def KvwArgs.fmt (x : KvwArgs) : Nat := if x.bf16 then 1 else 0

/-- Logical pages that positions `a` to `a + n − 1` meet. -/
def pagesOf (a n : Nat) : List Nat := (List.range ((a + n - 1) / 64 + 1 - a / 64)).map (a / 64 + ·)

def State.checkKvw (s : State) (t : Step) (e : Tile) : Chk :=
  let x := kvwArgs e.args
  match t.seqs.find? (fun q => q.seq == x.seq), s.seqOf x.seq with
  | some en, some q =>
    match s.obj q.pool with
    | none => .bad tsBadField
    | some o =>
      match o.pool with
      | none => .bad tsBadField
      | some p =>
        if o.lost then .lost
        else Chk.all [need (bitsOf (fld e.args 18 1) 7 2 == 0 && fld e.args 19 1 == 0 && fld e.args 24 8 == 0 && decide (1 ≤ x.rows) && decide (x.rows ≤ 4096) &&
            (if x.tree then x.pos0 == q.len + x.node0 && decide (x.node0 + x.rows ≤ en.nTok)
             else x.node0 == 0 && decide (q.len ≤ x.pos0) && decide (x.pos0 + x.rows ≤ q.len + en.nTok)) &&
            decide (p.layer0 ≤ x.layer) && decide (x.layer < p.layer0 + p.layers) &&
            (pagesOf x.pos0 x.rows).all (fun lp => t.pageAt q lp != 0 && (p.page (t.pageAt q lp)).state == .staging)),
          s.mayRead x.src (x.rows * rowBytes x.fmt p.kvCols)]
  | _, _ => .bad tsBadField

def State.runKvw (s : State) (t : Step) (e : Tile) : State × Fl :=
  let x := kvwArgs e.args
  match s.seqOf x.seq with
  | none => (s, 0)
  | some q =>
    match s.obj q.pool, (s.obj q.pool).bind (·.pool) with
    | some o, some p =>
      let rows := (List.range x.rows).map fun r => s.rowVals x.fmt p.kvCols (x.src + r * rowBytes x.fmt p.kvCols)
      let (s, f) := s.kvWrite o p t q x.layer x.pos0 (rows.map (·.1))
      (s, f ||| flOr (rows.map (·.2)))
    | _, _ => (s, 0)

/-! ## ATTN (Table 04-6, R142 to R164) -/

structure AttnArgs where
  seq : Nat
  q : Nat
  rows : Nat
  page0 : Nat
  pages : Nat
  layer : Nat
  head : Nat
  mask : Nat
  part : Bool
  out : Nat
  qPos0 : Nat
deriving DecidableEq, Repr

def attnArgs (b : List Byte) : AttnArgs :=
  { seq := fld b 0 4, q := fld b 4 6, rows := fld b 10 2, page0 := fld b 12 4, pages := fld b 16 2, layer := fld b 18 2, head := fld b 20 1,
    mask := bitsOf (fld b 21 1) 1 0, part := bitOf (fld b 21 1) 2, out := fld b 22 6, qPos0 := fld b 28 4 }

/-- Bytes of the tile's partial record. -/
def AttnArgs.recBytes (x : AttnArgs) (d : Nat) : Nat := x.rows * (4 * d + 64)

/-- The tile is a part of an entry on its own die (R159): its part index. -/
def AttnArgs.localPart (x : AttnArgs) (e : Tile) (m : MergeEnt) : Option Nat :=
  if x.part && e.sig0En && e.sig0 == m.ctr && decide (m.recAddr ≤ x.out) && decide (0 < m.recBytes) && (x.out - m.recAddr) % m.recBytes == 0 &&
    decide ((x.out - m.recAddr) / m.recBytes < m.parts) then some ((x.out - m.recAddr) / m.recBytes)
  else none

/-- Merge entry and part index of a local part tile. -/
def Die.partOf (d : Die) (e : Tile) : Option (Nat × Nat) :=
  if e.role != 2 || e.nop then none
  else (d.merges.filter fun m => m.slot == e.slot).findSome? fun m => ((attnArgs e.args).localPart e m).map fun i => (m.idx, i)

/-- The merge entry that a home tile merges (R150, R157). -/
def Die.homeOf (d : Die) (e : Tile) : Option MergeEnt :=
  let x := attnArgs e.args
  d.merges.find? fun m => m.slot == e.slot && m.seq == x.seq && m.layer == x.layer && m.kvHead == x.head && m.qPos0 == x.qPos0 && (x.localPart e m).isNone

/-- Everything that the computation needs; none when an argument is out of its range. -/
def State.attnCtx (s : State) (t : Step) (e : Tile) : Option (AttnCtx × Seq) :=
  let x := attnArgs e.args
  match s.seqOf x.seq with
  | none => none
  | some q =>
    match s.obj q.pool, (s.obj q.pool).bind (·.pool), ((s.model t.model).bind fun m => m.view t.view).map (·.man) with
    | some o, some p, some man =>
      let en := t.seqs.find? fun y => y.seq == x.seq
      let w := q.len + (en.map (·.nTok)).getD 0
      let me := (s.slc t.slice).member
      let nodes := match en with
        | some y => if y.kind = 3 then y.nTok else 0
        | none => 0
      let sc := ((man.layers[x.layer]?).map (·.scoreScale)).getD 0
      let root : W32 := if p.d = 64 then 0x3E000000 else if p.d = 128 then 0x3DB504F3 else if p.d = 192 then 0x3D93CD3A else 0x3D800000
      let ok := bitsOf (fld e.args 21 1) 7 3 == 0 && decide (1 ≤ x.rows) && decide (x.rows ≤ 1024) && x.rows % p.g == 0 && decide (1 ≤ x.pages) &&
        decide (x.pages ≤ 32768) && p.holds x.layer x.head && decide (x.layer < man.nLayers) && decide (1 ≤ w) &&
        decide (x.page0 + x.pages ≤ (w - 1) / 64 + 1) &&
        (List.range x.pages).all (fun i => q.owns me (x.page0 + i) && t.pageAt q (x.page0 + i) != 0) &&
        (x.mask != 2 || (x.qPos0 == q.len && decide (x.rows / p.g ≤ nodes)))
      if ok then some ({ p := p, o := o, layer := x.layer, head := x.head, mask := x.mask, qPos0 := x.qPos0, written := w, preLen := q.prefixLen,
                         scale := if sc = 0 then root else sc, parents := (en.map (·.parents)).getD [] }, q)
      else none
    | _, _, _ => none

def State.checkAttn (s : State) (t : Step) (k : Nat) (e : Tile) : Chk :=
  let x := attnArgs e.args
  match s.attnCtx t e with
  | none => .bad tsBadField
  | some (c, _) =>
    if c.o.lost then .lost
    else Chk.all [s.mayRead x.q (x.rows * 2 * c.p.d), s.mayWrite x.out (if x.part then x.recBytes c.p.d else x.rows * 2 * c.p.d),
      match (s.die k).homeOf e with
      | some m => if m.order.length < m.parts then .failStep stDepError else .go
      | none => .go]

def State.runAttn (s : State) (t : Step) (k : Nat) (e : Tile) : State × Fl :=
  let x := attnArgs e.args
  match s.attnCtx t e with
  | none => (s, 0)
  | some (c, q) =>
    let d := c.p.d
    let pages := (List.range x.pages).map fun i => (x.page0 + i, t.pageAt q (x.page0 + i))
    let recs := match (s.die k).homeOf e with
      | some m => m.order.map fun i => m.recAddr + i * m.recBytes
      | none => []
    (List.range x.rows).foldl (fun (a : State × Fl) r =>
      let (row, f) := s.rowVals 1 d (x.q + r * 2 * d)
      let (st, g) := s.attnRow c e.args (r / c.p.g) pages row
      let (st, h) := if recs.isEmpty then (st, (0 : Fl))
        else mergeRows d (st :: recs.map fun b => attnOfBytes d (Memory.read s.mem (b + r * (4 * d + 64)) (4 * d + 64)))
      if x.part then (a.1.modWrite (x.out + r * (4 * d + 64)) st.bytes, a.2 ||| f ||| g ||| h ||| st.inf)
      else
        let (b, u) := st.out
        (a.1.modWrite (x.out + r * 2 * d) b, a.2 ||| f ||| g ||| h ||| u))
      (s, if x.rows % 4 = 0 then 0 else flOr (pages.map fun (_, id) => s.absentFlags c id))

/-! ## SAMPLE (Table 04-9, R250 to R254) -/

structure SampArgs where
  logit : Nat
  rows : Nat
  voc0 : Nat
  vocN : Nat
  cand : Nat
  rowmap : Nat
  candK : Nat
  fmt : Nat
deriving DecidableEq, Repr

def sampArgs (b : List Byte) : SampArgs :=
  { logit := fld b 0 6, rows := fld b 6 2, voc0 := fld b 8 4, vocN := fld b 12 4, cand := fld b 16 6, rowmap := fld b 22 6, candK := fld b 28 2, fmt := fld b 30 1 % 16 }

/-- A row-map entry keeps R250. -/
def rowMapOk (t : Step) (b : List Byte) : Bool :=
  let en := fld b 4 4
  onlyUses b [(0, 11), (12, 8)] && bitsOf (fld b 8 2) 15 6 == 0 && decide (fld b 10 1 ≤ 8) && decide (1 ≤ fld b 18 2) &&
  (match t.seqs[en]? with
   | some e => e.seq == fld b 0 4
   | none => false)

/-- An adjustment entry: token, bias kind, bias. -/
def adjEnt (b : List Byte) : Nat × Bool × W32 := (fld b 0 4 % 2 ^ 20, bitOf (fld b 0 4) 20, BitVec.ofNat 32 (fld b 4 4))

/-- An adjustment list in its form (R253). -/
def State.adjOk (s : State) (a : Nat) : Bool :=
  let n := Memory.nat s.mem (a + 4) 4
  let raw := (List.range (min n 65536)).map fun i => Memory.read s.mem (a + 16 + 8 * i) 8
  let pen := fvOf (BitVec.ofNat 32 (Memory.nat s.mem a 4))
  decide (n ≤ 65536) && s.rangeOk a (16 + 8 * n) && Memory.nat s.mem (a + 8) 8 == 0 && !pen.isNan && !pen.isInf && !pen.isZero && !pen.sign &&
  raw.all (fun b => fld b 0 4 / 2 ^ 21 == 0 && (let (_, bias, v) := adjEnt b
                                              if bias then !(fvOf v).isNan && v != 0x7F800000 else v == 0)) &&
  (raw.zip (raw.drop 1)).all fun (x, y) => decide (fld x 0 4 % 2 ^ 20 * 2 + boolNat (bitOf (fld x 0 4) 20) ≤ fld y 0 4 % 2 ^ 20 * 2 + boolNat (bitOf (fld y 0 4) 20))

def State.checkSamp (s : State) (t : Step) (e : Tile) : Chk :=
  let x := sampArgs e.args
  Chk.all [need (fld e.args 30 1 / 16 == 0 && fld e.args 31 1 == 0 && decide (x.fmt ≤ 2) && decide (1 ≤ x.rows) && decide (x.rows ≤ 4096) && decide (32 ≤ x.vocN) &&
      decide (x.vocN ≤ 1048576) && x.vocN % 32 == 0 && decide (x.voc0 + x.vocN ≤ 1048576) && decide (1 ≤ x.candK) && decide (x.candK ≤ 1024)),
    s.mayRead x.logit (x.rows * rowBytes x.fmt x.vocN), s.mayRead x.rowmap (32 * x.rows), s.mayWrite x.cand (x.rows * (16 + 8 * x.candK)),
    need ((List.range x.rows).all fun r =>
      let b := Memory.read s.mem (x.rowmap + 32 * r) 32
      rowMapOk t b && (fld b 12 6 == 0 || s.adjOk (fld b 12 6)))]

/-- The adjusted logit of a vocabulary index: the penalty once, then each bias in order. -/
def adjust (pen : W32) (ents : List (Nat × Bool × W32)) (tok : Nat) (z : W32) : W32 × Fl :=
  let mine := ents.filter fun (t, _, _) => t == tok
  let z1 := if mine.any fun (_, b, _) => !b then (if f32Rel z 0 == 2 then f32Div z pen else f32Mul z pen) else (z, 0)
  (mine.filter fun (_, b, _) => b).foldl (fun (a : W32 × Fl) (_, _, v) => fl1 a.2 (f32Add a.1 v)) z1

/-- Candidates of one row, with its list's bytes. -/
def State.sampRow (s : State) (x : SampArgs) (r : Nat) : List Cand × List Byte × Fl :=
  let b := Memory.read s.mem (x.rowmap + 32 * r) 32
  let adj := fld b 12 6
  let (v, f) := s.rowVals x.fmt x.vocN (x.logit + r * rowBytes x.fmt x.vocN)
  let ents := if adj = 0 then [] else (List.range (Memory.nat s.mem (adj + 4) 4)).map fun i => adjEnt (Memory.read s.mem (adj + 16 + 8 * i) 8)
  let pen : W32 := if adj = 0 then 0x3F800000 else BitVec.ofNat 32 (Memory.nat s.mem adj 4)
  let z := v.zipIdx.map fun (y, i) => let (w, g) := adjust pen ents (x.voc0 + i) y
                                      (({ token := x.voc0 + i, logit := w } : Cand), g)
  let cs := (sortCands ((z.map (·.1)).filter fun c => c.logit != negInf32)).take x.candK
  let hd := leBytes 4 (fld b 4 4) ++ leBytes 2 (fld b 8 2) ++ leBytes 2 (fld b 10 1) ++ leBytes 2 cs.length ++ leBytes 2 (fld b 18 2) ++ leBytes 4 0
  (cs, padTo (16 + 8 * x.candK) (hd ++ cs.flatMap fun c => leBytes 4 c.token ++ leBytes 4 c.logit.toNat), f ||| flOr (z.map (·.2)))

/-- The tile's lists are written and sent to the slice master (R252, R254). -/
def State.runSamp (s : State) (t : Step) (k : Nat) (e : Tile) : State × Fl :=
  let x := sampArgs e.args
  (List.range x.rows).foldl (fun (a : State × Fl) r =>
    let b := Memory.read s.mem (x.rowmap + 32 * r) 32
    let (cs, bytes, f) := s.sampRow x r
    let c : CandList := { stepId := t.id, run := t.run % 256, member := (s.slc t.slice).member, tile := k * 2 ^ 32 + e.tileSeq, entry := fld b 4 4,
                          node := fld b 8 2, head := fld b 10 1, shards := fld b 18 2, cands := cs }
    ((a.1.modWrite (x.cand + r * (16 + 8 * x.candK)) bytes).emit (.cand (s.masterCoord t.slice) (s.slc t.slice).tag c), a.2 ||| f)) (s, 0)

/-! ## The roles together -/

/-- The palette's answer at the start of a tile (R106). -/
def State.roleCheck (s : State) (t : Step) (k : Nat) (e : Tile) : Chk :=
  match e.role with
  | 1 => s.checkMat k e
  | 2 => s.checkAttn t k e
  | 3 => s.checkGate t k e
  | 4 => s.checkVec e
  | 5 => s.checkSamp t e
  | 6 => s.checkComb k e
  | 7 => s.checkKvw t e
  | _ => .bad tsBadField

/-- What a completed tile has written, with its flags; none when a compressed weight tile fails R90. DESIGN CHOICE (log entry 127): a
customer palette, whose rounding and accuracy are its own (R545), computes as the vendor palette of its role does. -/
def State.roleRun (s : State) (t : Step) (k : Nat) (e : Tile) : Option (State × Fl) :=
  match e.role with
  | 1 => s.runMat k e
  | 2 => some (s.runAttn t k e)
  | 3 => s.runGate k e
  | 4 => some (s.runVec e)
  | 5 => some (s.runSamp t k e)
  | 6 => some (s.runComb k e)
  | 7 => some (s.runKvw t e)
  | _ => some (s, 0)

/-- The weight tile that a tile reads. -/
def Tile.weight (e : Tile) : Option (Nat × Nat) :=
  if e.nop then none
  else if e.role = 1 then some ((matArgs e.args).obj, (matArgs e.args).tile)
  else if e.role = 3 then some ((gateArgs e.args).obj, (gateArgs e.args).tile)
  else none

end Sys2Proof.Machine
end

