-- ==== Sys2Proof/Machine/TileRows.lean ====
section
/-! DEFINITION. Claims, completions, failures and reclaim as their events come to the list controller (R128 to R140), and
the loss of a core (R133). -/

namespace Sys2Proof.Machine

open Sys2Proof

/-! ## Claims -/

/-- A tile read of a weight tile begins, or is held until its tile has landed (R290, R292, R300). -/
def State.startReads (s : State) (k : Nat) (e : Tile) : State :=
  match e.weight with
  | none => s
  | some (o, t) =>
    match s.weightTile k o t with
    | .bytes _ _ _ (some st) =>
      let inc (x : StageEnt) : StageEnt := if x.obj == o && x.tile == t && x.landed then { x with readers := x.readers + 1 } else x
      s.modDie k fun d => { d.modEntry e.idx (fun (e : Tile) => { e with readsStage := some st }) with stage := d.stage.map inc }
    | .bytes _ _ _ none => (s.modObj o fun x => { x with readers := x.readers + 1 }).modDie k fun d => d.modEntry e.idx fun e => { e with readsObj := some o }
    | .wait => (s.modObj o fun x => { x with readers := x.readers + 1 }).modDie k fun d => d.modEntry e.idx fun e => { e with readsObj := some o }
    | _ => s

/-- What a tile's palette answers takes effect. -/
def State.answer (s : State) (t : Step) (k : Nat) (e : Tile) : Chk → State
  | .go => s
  | .wait => s
  | .bad st => s.tileFailed k e.idx st
  | .failStep st =>
    let s := (s.freeCore k e.core e.idx).toFailed k e.idx (if st = stDepError then tsBadField else tsDmaErr)
    s.failSlot e.slot st
  | .lost => s.stopJob t.slice 5 s.coord.coord

/-- Grant a tile to a core and let its palette look at the arguments (R106, R128). -/
def State.grantTile (s : State) (k core : Nat) (e : Tile) : State :=
  let s := s.grant k core e
  match s.stepAt e.slot, (s.die k).entry e.idx with
  | some t, some e =>
    match s.roleCheck t k e with
    | .go | .wait => s.startReads k e
    | c => s.answer t k e c
  | _, _ => s

/-- The first open request, in order of arrival, that a READY tile matches (R129). -/
def State.nextGrant (s : State) (k : Nat) : Option (Nat × Tile) :=
  if s.power.held then none else (s.die k).open_.findSome? fun c => (s.pickTile k c).map fun e => (c, e)

/-- TILE_CLAIM: a grant at once, unless an earlier open request is still to be served, or the request stays open (R129). -/
def State.claim (s : State) (k core : Nat) : State :=
  let d := s.die k
  let c := d.cores.getD core State.core0
  if d.lost || decide (120 ≤ core) || !c.hasRoom || d.open_.contains core then s
  else match (if s.power.held || (s.nextGrant k).isSome then none else s.pickTile k core) with
  | some e => s.grantTile k core e
  | none => s.modDie k fun d => { d with open_ := d.open_ ++ [core] }

def execTileClaim (die core : Nat) (s : State) : Host.Outcome State Fault Refusal := .next (s.claim die core)

/-- CLAIM_GRANT: the first open request, in order of arrival, that a READY tile matches; cores claim none in HELD (R461). -/
def execClaimGrant (die : Nat) (s : State) : Host.Outcome State Fault Refusal :=
  match s.nextGrant die with
  | some (c, e) => .next ((s.modDie die fun d => { d with open_ := d.open_.filter fun x => x != c }).grantTile die c e)
  | none => .next s

/-! ## Completion -/

/-- A part record leaves for its home: at once to the home table of its own die, or as a RECORD message (R159, R160). -/
def State.sendPart (s : State) (t : Step) (k : Nat) (e : Tile) : State :=
  match e.fwd with
  | none => s
  | some (m, d, entry, part) =>
    let x := attnArgs e.args
    let n := match s.attnCtx t e with
      | some (c, _) => x.recBytes c.p.d
      | none => 0
    s.sendDist t k 5 m d (s.envOf t k e.layer false) entry part [] (s.modRead x.out n)

/-- An accepted completion (R130): the role's bytes stand, then the one operation of the list controller, then what follows from
its counters. -/
def State.tileDone (s : State) (t : Step) (k : Nat) (e : Tile) (flags : BitVec 5) : State :=
  let part := (s.die k).partOf e
  let s := (s.freeCore k e.core e.idx).sendPart t k e
  let s := if part.isSome then s.modDie k fun d => d.modEntry e.idx fun e => { e with sig0En := false } else s
  let s := s.completeEntry k e.idx flags
  let s := match part with
    | some (m, i) => s.recordIn k m i
    | none => s
  (s.blockTile k e).distSend k

/-- A core has work left for an entry: transfers, cell jobs or commands that wait (R130). -/
def Core.busyFor (c : Core) (i : Nat) : Bool :=
  c.dmas.any (fun (_, e, _) => e == i) || c.jobQ.any (fun (_, e, _) => e == i) || c.seqQ.any (fun (e, _) => e == some i) ||
  c.cells.any fun x => (x.job.map (·.entry)) == some i

/-- A core can report a tile complete: it runs the tile under its palette, and every write, job and fence of it is done (R129, R130). -/
def Core.reports (c : Core) (e : Tile) : Bool := c.running == some e.idx && c.runPal == e.pal && !c.busyFor e.idx

/-- Engine and cell of each cell job of R543: job j to engine j mod 4, whose jobs take its cells in turn (DESIGN CHOICE, log entry
124: jobs of one tile end in the order they began, so the lowest free cell is the next in turn). -/
def matCells (wide : Bool) (rows n : Nat) : List (Nat × Nat) :=
  let jobs := (if wide then rows else (rows + 3) / 4) * (if wide then (n + 255) / 256 else (n + 63) / 64)
  (List.range (min jobs 64)).map fun j => (j % 4, j / 4 % 16)

/-- A cell that has issued an operand beat for a step owes it a ground-truth tile (R78). -/
def State.owe (s : State) (k core engine cell entry : Nat) : State :=
  match (s.die k).entry entry with
  | some e => s.modStepAt e.slot fun t => { t with gtPending := addNew t.gtPending (k, core, engine, cell) }
  | none => s

/-- The cells that ran the jobs of a MATMUL or GATE tile owe their checks (R78, R543). -/
def State.oweTile (s : State) (k : Nat) (e : Tile) : State :=
  let owe (d : TileDir) (rows : Nat) : State := (matCells d.wide rows d.n).foldl (fun s (g, c) => s.owe k e.core g c e.idx) s
  match e.weight with
  | some (o, i) => match s.weightTile k o i with
    | .bytes d _ _ _ => owe d (fld e.args 14 2)
    | _ => s
  | none => s

/-- A tile completes (R130, R131): a stale report is counted; a core does not report a tile that it has not finished, or whose
weights have not landed. -/
def State.complete (s : State) (k core i tileSeq attempt : Nat) (flags : BitVec 5) : State :=
  match (s.die k).current core i tileSeq attempt with
  | none => s.staleTile k
  | some e =>
    match s.stepAt e.slot with
    | none => s.staleTile k
    | some t =>
      let c := (s.die k).cores.getD core State.core0
      let flags := flags ||| c.flags
      if !c.reports e then s
      else if t.killing.isSome then ((s.freeCore k core i).completeEntry k i flags).killChecks
      else match s.roleCheck t k e with
      | .wait => s
      | .go =>
        match s.roleRun t k e with
        | none => ((s.modDie k fun d => d.modEntry i fun e => { e with unpackFails := e.unpackFails + 1 }).raise (.cd k) 2).tileFailed k i tsUnpack
        | some (s', f) => (s'.oweTile k e).tileDone t k e (flags ||| f)
      | c => s.answer t k e c

def execTileComplete (die core entry tileSeq attempt : Nat) (flags : BitVec 5) (s : State) : Host.Outcome State Fault Refusal :=
  .next (s.complete die core entry tileSeq attempt flags)

/-- NOP_TILE_COMPLETE: an empty tile that is READY completes without a claim, with no flags (R140). -/
def execNopTileComplete (die entry : Nat) (s : State) : Host.Outcome State Fault Refusal :=
  match (s.die die).entry entry with
  | some e =>
    if e.nop && e.state == .ready && !(s.die die).poisoned e && ((s.stepAt e.slot).map (·.killing.isNone)).getD false then
      .next ((s.completeEntry die entry 0).distSend die)
    else .next s
  | none => .next s

/-! ## Failure -/

/-- A core gives up a tile of a step that is being killed: the entry is FREE (R138). -/
def State.abandon (s : State) (k core i : Nat) : State :=
  ((s.freeCore k core i).modDie k fun d => d.dropEntry i).killChecks

/-- A tile's core can no longer finish it: READY again, or FREE when its step is being killed (R133, R138). -/
def State.reclaim (s : State) (k : Nat) (e : Tile) (status : Nat) : State :=
  let killing := ((s.stepAt e.slot).map (·.killing.isSome)).getD true
  if killing then s.abandon k e.core e.idx else (s.freeCore k e.core e.idx).backToReady k e.idx status

/-- The CLAIMED tiles of a core. -/
def Die.heldBy (d : Die) (core : Nat) : List Tile := d.tiles.filter fun e => e.state == .claimed && e.core == core

/-- READY entries of a list take one place in the ready order, so that the lower index comes first (R128). -/
def Die.sameReady (d : Die) (l : List Nat) : Die :=
  { d with tiles := d.tiles.map fun (e : Tile) => if l.contains e.idx && e.state == .ready then { e with readyNo := d.readyNo } else e, readyNo := d.readyNo + 1 }

/-- Close a core's port, take its tiles back and quarantine it (R79, R118, R133, Table 04-12). -/
def State.loseCore (s : State) (k core cause status : Nat) : State :=
  if ((s.die k).cores.getD core State.core0).closed then s
  else
    let s := s.modDie k fun d => { d with cores := d.cores.modify core (fun c => { c with closed := true }), open_ := d.open_.filter fun x => x != core }
    let held := (s.die k).heldBy core
    let s := (held.foldl (fun s e => s.reclaim k e status) s).modDie k fun d => d.sameReady (held.map (·.idx))
    s.quarantine k core cause

/-- TILE_FAIL (R134, Table 05-3): a report of a core for a tile that it holds. -/
def State.takeFail (s : State) (k core i tileSeq status : Nat) (wrote : Bool) : State :=
  match (s.die k).entry i with
  | none => s.staleTile k
  | some e =>
    match (s.die k).current core i tileSeq e.attempts with
    | none => s.staleTile k
    | some e =>
      if status = 0 ∨ 7 < status then s.staleTile k
      else if ((s.stepAt e.slot).map (·.killing.isSome)).getD true then s.abandon k core i
      else
        let s := s.modDie k fun d => d.modEntry i fun e => { e with wrote := e.wrote || (e.reduce && wrote),
                                                                    unpackFails := e.unpackFails + boolNat (status == tsUnpack) }
        (s.raiseIf (status == tsUnpack) (.cd k) 2).tileFailed k i status

def execTileFail (die core entry tileSeq : Nat) (status : Nat) (wrote : Bool) (s : State) : Host.Outcome State Fault Refusal :=
  .next (s.takeFail die core entry tileSeq status wrote)

/-- The die agent decides on a FAILED tile (R91, R134): a second unpack failure ends the step; a first one waits for its re-read. -/
def State.decideFailed (s : State) (k i : Nat) : State :=
  match (s.die k).entry i with
  | none => s
  | some e =>
    if e.state != .failed then s
    else if e.status = tsUnpack then (if 2 ≤ e.unpackFails then s.failSlot e.slot stTileCorrupt else s)
    else if e.status = tsDmaErr then s.backToReady k i tsDmaErr
    else if e.status = tsBadFormat then s.failSlot e.slot stBadFormat
    else s.failSlot e.slot stBadField

def execFailedTileDecide (die entry : Nat) (s : State) : Host.Outcome State Fault Refusal := .next (s.decideFailed die entry)

def execReduceGroupReset (die group : Nat) (s : State) : Host.Outcome State Fault Refusal := .next (s.resetGroup die group)

/-- ABANDON_CONFIRM: a core has abandoned a tile of a killed step (R138). -/
def execAbandonConfirm (die core entry : Nat) (s : State) : Host.Outcome State Fault Refusal :=
  match (s.die die).entry entry with
  | some e =>
    if e.state == .claimed && e.core == core && ((s.stepAt e.slot).map (·.killing.isSome)).getD true then .next (s.abandon die core entry)
    else .next s
  | none => .next s

/-! ## Heartbeats and the sequencer watchdog -/

def execHeartbeat (die core : Nat) (s : State) : Host.Outcome State Fault Refusal :=
  .next (s.modDie die fun d => { d with cores := d.cores.modify core fun c => if c.closed then c else { c with lastBeat := s.now } })

/-- CORE_LOST (R133): the port is closed, the tiles are taken back with `LOST`, the core is quarantined; no check runs in HELD (R461). -/
def execCoreLost (die core : Nat) (s : State) : Host.Outcome State Fault Refusal :=
  let c := (s.die die).cores.getD core State.core0
  if (s.die die).lost || decide (120 ≤ core) || !c.able || s.power.held then .next s
  else .next (((s.loseCore die core tsLost tsLost).raise (.cd die) 0).faultTrigger 0)

/-- A second event within 1 s of the first (Table 04-12). -/
def State.again1s (s : State) (last : Option Nat) : Bool :=
  match last with
  | some t => s.within t 1000000
  | none => false

/-- Fail the running tile of a core with a status; reclaimed or FREE when its step is being killed. -/
def State.failRunning (s : State) (k core status : Nat) : State :=
  match ((s.die k).cores.getD core State.core0).running.bind (s.die k).entry with
  | none => s
  | some e => if ((s.stepAt e.slot).map (·.killing.isSome)).getD true then s.abandon k core e.idx else s.tileFailed k e.idx status

/-- SEQ_WATCHDOG (R104): the units are reset, the running tile fails; a second expiry within 1 s quarantines the core. -/
def execSeqWatchdog (die core : Nat) (s : State) : Host.Outcome State Fault Refusal :=
  let c := (s.die die).cores.getD core State.core0
  if !c.able || s.power.held then .next s
  else
    let s := s.failRunning die core tsWatchdog
    let s := s.modDie die fun d => { d with cores := d.cores.modify core fun c => { c with
      tbufs := [], vregs := [], dmas := [], seqQ := [], jobQ := [], cells := c.cells.map (fun x => { x with job := none, fwd := none }), wdAt := some s.now, lastProgress := s.now } }
    if s.again1s c.wdAt then .next (s.loseCore die core tsWatchdog tsLost) else .next s

end Sys2Proof.Machine
end

