-- ==== Sys2Proof/Machine/Cores.lean ====
section
/-! DEFINITION. Inside a core: cell jobs (R62 to R75), the vector unit (R98, R99), the DMA agent (R100, R101), fences (R97),
palette slots (R115), ground-truth tiles (R76 to R79) and the faults of cells, buffers, store and sequencer (R80, R83, R116). -/

namespace Sys2Proof.Machine

open Sys2Proof

def State.core (s : State) (k j : Nat) : Core := (s.die k).cores.getD j State.core0

def State.modCore (s : State) (k j : Nat) (f : Core → Core) : State := s.modDie k fun d => { d with cores := d.cores.modify j f }

/-- Bytes of the core store (R93). -/
def storeBytes : Nat := 0x300000

/-! ## Cells -/

def cell0 (e c : Nat) : Cell :=
  { engine := e, cell := c, job := none, fwd := none, failed := false, parityAt := none, gtIdx := 0, gtForced := false, stat := [], statSc := [], acc := [],
    parts := [], check := [], feed := [] }

def Core.cellAt (c : Core) (e i : Nat) : Cell := (c.cells.find? fun x => x.engine == e && x.cell == i).getD (cell0 e i)

def Core.putCell (c : Core) (x : Cell) : Core :=
  { c with cells := (c.cells.filter fun (y : Cell) => !(y.engine == x.engine && y.cell == x.cell)) ++ [x] }

/-- Elements of a row that the stationary file holds (Table 03-1). -/
def statCap (fmt : Nat) (wide : Bool) : Nat := (if fmt = 7 then 2048 else if fmt = 1 ∨ fmt = 2 then 512 else 1024) * (if wide then 4 else 1)

/-- Columns rounded up to whole blocks of 32 (R38, R69). -/
def up32 (n : Nat) : Nat := (n + 31) / 32 * 32

/-- Bytes of the stored tile at an address: its header, index and bodies (R84). -/
def codedSize (m : List Host.Cell) (a : Nat) : Nat :=
  let n := Memory.nat m (a + 2) 2
  let h := Memory.read m a (32 + 4 * n)
  chunkOff h n

/-- Every access of a job lies in the core store (R93). -/
def jobInStore (m : List Host.Cell) (j : CellJob) (a : Bool) : Bool :=
  let sc := Sys2Proof.Machine.scaleBytes
  (!a || (decide (j.aSrc + j.rows * elemBytes j.aFmt j.k ≤ storeBytes) && decide (j.aScale + j.rows * sc j.aFmt j.k ≤ storeBytes))) &&
  decide (j.bScale + sc j.bFmt (j.k * j.n) ≤ storeBytes) && decide (j.outDst + (if j.fwd then 0 else j.rows * rowBytes j.outFmt j.n) ≤ storeBytes) &&
  decide (j.bSrc + (if j.bCoded then codedSize m j.bSrc else elemBytes j.bFmt (j.k * j.n)) ≤ storeBytes)

/-- Parameters in the ranges of Table 03-6 and addresses in the store: 0, or the tile status that the engine reports (R40, R72,
R93); `a`: the A operand comes from the store. DESIGN CHOICE (log entry 119): a forwarded output that the stationary file cannot
hold (Table 03-1) is a parameter out of its range. -/
def jobStatus (m : List Host.Cell) (j : CellJob) (a : Bool := true) : Nat :=
  if decide (j.rows = 0) || decide ((if j.wide then 1 else 4) < j.rows) || decide (j.k < 32) || decide (65536 < j.k) || j.k % 32 != 0 || decide (j.n < 4) ||
      decide (65536 < j.n) || j.n % (if j.wide then 16 else 4) != 0 || j.aSrc % 64 != 0 || j.bSrc % 64 != 0 || j.outDst % 64 != 0 || j.segK % 32 != 0 ||
      decide (j.segK = 0) || decide (statCap j.aFmt j.wide < j.segK) || !fmtOk j.outFmt || (j.fwd && j.outFmt == 0) || !fmtOk j.aFmt || !fmtOk j.bFmt ||
      (j.fwd && decide (statCap j.outFmt j.wide < up32 j.n)) then tsBadField
  else if !pairOk j.aFmt j.bFmt then tsBadFormat
  else if !jobInStore m j a then tsBadField
  else 0

/-- The stored order of R66 for a job's B operand. -/
def jobDir (j : CellJob) : TileDir :=
  { off := 0, bytes := 0, scaleOff := 0, scaleBytes := 0, k32 := j.k / 32, n4 := j.n / 4, fmt := j.bFmt, coded := j.bCoded, wide := j.wide, trole := 0, layer := 0,
    expert := 0, tdigest := [] }

/-- A job as the cell runs it: after a pass with `FWD` its A operand is the forwarded output. DESIGN CHOICE (log entry 120): the
forwarded format, columns and rows stand whatever `A_FMT`, `K` and `ROWS` the job names. -/
def Cell.effective (x : Cell) (j : CellJob) : CellJob :=
  match x.fwd with
  | some f => { j with aFmt := f.fmt, k := f.k, segK := f.k, rows := f.rows }
  | none => j

/-- Element and scale codes of the job's A rows: from the stationary file that the last pass filled (R69), else from the store. -/
def Core.jobA (c : Core) (x : Cell) (j : CellJob) : List (List Nat × List Nat) :=
  let eb := elemBytes j.aFmt j.k
  let sb := Sys2Proof.Machine.scaleBytes j.aFmt j.k
  let row (e s : List Byte) : List Nat × List Nat := (unpackElems j.aFmt j.k e, s.map (·.toNat))
  (List.range j.rows).map fun r =>
    if x.fwd.isSome then row ((x.stat.drop (r * eb)).take eb) ((x.statSc.drop (r * sb)).take sb)
    else row (Memory.read c.store (j.aSrc + r * eb) eb) (Memory.read c.store (j.aScale + r * sb) sb)

/-- Element and scale codes of the job's B operand in stored order; none when the unpacker rejects the tile (R90). A coded operand
starts at chunk `chunk` of the tile at `bSrc` (R89). DESIGN CHOICE (log entry 118): it is decoded by its header's `FMT`, and
multiplied as `B_FMT`, as the spec names no check between the two. -/
def Core.jobB (c : Core) (j : CellJob) : Option (List Nat × List Nat) :=
  let n := j.k * j.n
  let sc := (Memory.read c.store j.bScale (Sys2Proof.Machine.scaleBytes j.bFmt n)).map (·.toNat)
  (if j.bCoded then decodeSpan (Memory.read c.store j.bSrc (codedSize c.store j.bSrc)) j.chunk n
   else some (unpackElems j.bFmt n (Memory.read c.store j.bSrc (elemBytes j.bFmt n)))).map fun l => (l, sc)

/-- A block partial of 32 products in units of 2^-34 (R41); 0 for a block that holds a special value. -/
def blockPartial (af bf : Nat) (as bs : List Nat) : Int :=
  match (sumFv (products af bf as bs).1).1 with
  | .fin n m e => (Fv.fin n m e).at (-34)
  | _ => 0

/-- What a job leaves in its cell's registers (R62, R63, R82): the segment loaded last, the accumulators of the last output block
row by row, the block partials of the last column group's last blocks, and the last bytes of the feeder's buffer. -/
def Cell.after (x : Cell) (j : CellJob) (a : List (List Nat × List Nat)) (l sc : List Nat) (out : List (List W32)) : Cell :=
  let seg := (j.k - 1) / j.segK * j.segK
  let w := if j.wide then 256 else 64
  let c0 := (j.n - 1) / w * w
  let g := if j.wide then 16 else 4
  let last := (List.range g).map fun i => wColumn (jobDir j) l sc (j.n - g + i)
  { x with
    stat := if x.fwd.isSome then x.stat else a.flatMap fun r => packElems j.aFmt (r.1.drop seg)
    statSc := if x.fwd.isSome then x.statSc else a.flatMap fun r => (r.2.drop (seg / 32)).map (BitVec.ofNat 8)
    acc := ((List.range (256 / w)).flatMap fun r => let v := (out.getD r []).drop c0
                                                    v ++ List.replicate (w - v.length) 0)
    parts := if isMx j.aFmt then (List.range (16 / g)).flatMap fun r =>
        last.map fun (b, _) => blockPartial j.aFmt j.bFmt ((a.getD r ([], [])).1.drop (j.k - 32)) (b.drop (j.k - 32))
      else x.parts
    feed := let b := packElems j.bFmt (l.drop (l.length - 4096))
            b.drop (b.length - 2048) }

/-- The output of a pass with `FWD`, as it stands in the stationary file for the next pass: its rows padded with +0 to whole blocks
of 32 (R69, R74). -/
def Cell.forward (x : Cell) (j : CellJob) (entry : Nat) (out : List (List W32)) : Cell :=
  let enc := out.map fun r => valsEncode j.outFmt (pad32 r)
  { x with stat := enc.flatMap (·.1), statSc := enc.flatMap (·.2.1), fwd := some { entry := entry, fmt := j.outFmt, k := up32 j.n, rows := out.length } }

/-- A job runs on a cell: its output is fixed at its start and written at its readout (R74). None when the unpacker rejects it. -/
def Core.runJob (c : Core) (x : Cell) (entry : Nat) (j : CellJob) : Option Core :=
  let a := c.jobA x j
  (c.jobB j).map fun (l, sc) =>
    let (rows, f) := matRows j.aFmt a (jobDir j) l sc
    let enc := rows.map (rowEncode j.outFmt)
    let y := x.after j a l sc rows
    let out := if j.fwd then [] else (enc.zipIdx.map fun (b, r) => b.1.zipIdx.map fun (v, i) => (j.outDst + r * rowBytes j.outFmt j.n + i, v)).flatten
    let y := { (if j.fwd then y.forward j entry rows else { y with fwd := none }) with
      job := some { job := j, entry := entry, bytes := out, flags := f ||| flOr (enc.map (·.2)) } }
    let c := c.putCell y
    if j.bCoded then
      let b := Memory.read c.store j.bSrc (codedSize c.store j.bSrc)
      { c with tbufs := assocSet c.tbufs x.engine (b.drop (b.length - 65536)) }
    else c

/-- The lowest-numbered free cell of an engine (R81); a failed cell takes no job. -/
def Core.freeCell (c : Core) (e : Nat) : Option Nat :=
  (List.range 16).find? fun i => (c.cellAt e i).job.isNone && !(c.cellAt e i).failed

/-- A tile that a core holds fails with a status; FREE when its step is being killed. -/
def State.failEntry (s : State) (k core i status : Nat) : State :=
  match (s.die k).entry i with
  | none => s
  | some e => if ((s.stepAt e.slot).map (·.killing.isSome)).getD true then s.abandon k core e.idx else s.tileFailed k e.idx status

/-- Put a job on a cell, or leave it in the engine's queue when no cell is free. A job whose forwarded operand does not fit it ends
its tile as any parameter out of range does (R40, R72). -/
def State.dispatch (s : State) (k core engine entry : Nat) (j : CellJob) : State :=
  let c := s.core k core
  match c.freeCell engine with
  | none => s.modCore k core fun c => { c with jobQ := c.jobQ ++ [(engine, entry, j)] }
  | some i =>
    let x := c.cellAt engine i
    let j := x.effective j
    if jobStatus c.store j x.fwd.isNone ≠ 0 then s.failEntry k core entry (jobStatus c.store j x.fwd.isNone)
    else match c.runJob x entry j with
    | some c' => (s.modCore k core fun _ => c').owe k core engine i entry
    | none => ((s.modDie k fun d => d.modEntry entry fun e => { e with unpackFails := e.unpackFails + 1 }).raise (.cd k) 2).failEntry k core entry tsUnpack

/-- A palette starts a cell job for a tile of its core (R72, R81). -/
def State.startJob (s : State) (k core engine entry : Nat) (j : CellJob) : State :=
  let st := jobStatus (s.core k core).store j
  if st ≠ 0 then s.failEntry k core entry st else s.dispatch k core engine entry j

/-! ## Vector unit (Table 04-3) -/

def Core.vreg (c : Core) (i : Nat) : List W32 := (assocGet c.vregs i).getD (List.replicate 64 0)

def lanes1 (f : W32 → W32 × Fl) (a : List W32) : List W32 × Fl :=
  let r := a.map f
  (r.map (·.1), flOr (r.map (·.2)))

def lanes2 (f : W32 → W32 → W32 × Fl) (a b : List W32) : List W32 × Fl := zipF f a b

def plain2 (f : W32 → W32 → W32) (a b : List W32) : List W32 × Fl := ((a.zip b).map fun (x, y) => f x y, 0)

/-- A shift of 32 places or more has an unstated result. -/
def shl32 (a b : W32) : W32 := if b.toNat < 32 then a <<< b.toNat else Config.shiftOut a b
def shr32 (a b : W32) : W32 := if b.toNat < 32 then a >>> b.toNat else Config.shiftOut a b

/-- Lane of the largest value; the lowest lane of equals (R99). -/
def argmaxLane (l : List W32) : Nat :=
  (l.zipIdx.foldl (fun (b : Option (W32 × Nat)) (x, i) => match b with
    | none => some (x, i)
    | some (y, j) => if f32Lt y x then some (x, i) else some (y, j)) none).map (·.2) |>.getD 0

/-- A whole register of one value: how a lane reduction returns its result is the model's choice. -/
def splat (x : W32) : List W32 := List.replicate 64 x

/-- The codes that an instruction names are those of the conversions of Table 02-5 (R33, R51): FP32 to and from BF16, FP16 and FP32,
and the pack and unpack of MX blocks. Any other code makes it malformed (R102). -/
def vecFormed : VecOp → Bool
  | .cvtTo f _ _ => decide (f ≤ 2)
  | .cvtFrom f _ _ => decide (f ≤ 2)
  | .mxPack f _ _ => isMx f
  | .mxUnpack f _ _ => isMx f
  | _ => true

/-- What an instruction puts into its destination register, with flags; loads and stores apart. -/
def vecResult (c : Core) : VecOp → Option (Nat × List W32 × Fl)
  | .fadd d a b => some (d, lanes2 f32Add (c.vreg a) (c.vreg b))
  | .fsub d a b => some (d, lanes2 f32Sub (c.vreg a) (c.vreg b))
  | .fmul d a b => some (d, lanes2 f32Mul (c.vreg a) (c.vreg b))
  | .fma d a b e =>
    let r := (c.vreg a).zip ((c.vreg b).zip (c.vreg e)) |>.map fun (x, y, z) => f32Fma x y z
    some (d, r.map (·.1), flOr (r.map (·.2)))
  | .fmin d a b => some (d, lanes2 f32Min (c.vreg a) (c.vreg b))
  | .fmax d a b => some (d, lanes2 f32Max (c.vreg a) (c.vreg b))
  | .fcmp d a b => some (d, lanes2 f32Cmp (c.vreg a) (c.vreg b))
  | .fdiv d a b => some (d, lanes2 f32Div (c.vreg a) (c.vreg b))
  | .fsqrt d a => some (d, lanes1 f32Sqrt (c.vreg a))
  | .fexp d a => some (d, lanes1 f32Exp (c.vreg a))
  | .frecip d a => some (d, lanes1 f32Recip (c.vreg a))
  | .frsqrt d a => some (d, lanes1 f32Rsqrt (c.vreg a))
  | .iadd d a b => some (d, plain2 (· + ·) (c.vreg a) (c.vreg b))
  | .isub d a b => some (d, plain2 (· - ·) (c.vreg a) (c.vreg b))
  | .icmp d a b => some (d, plain2 Config.icmpCode (c.vreg a) (c.vreg b))
  | .ishl d a b => some (d, plain2 shl32 (c.vreg a) (c.vreg b))
  | .ishr d a b => some (d, plain2 shr32 (c.vreg a) (c.vreg b))
  | .iand d a b => some (d, plain2 (· &&& ·) (c.vreg a) (c.vreg b))
  | .ior d a b => some (d, plain2 (· ||| ·) (c.vreg a) (c.vreg b))
  | .ixor d a b => some (d, plain2 (· ^^^ ·) (c.vreg a) (c.vreg b))
  | .sel d q a b => some (d, (c.vreg q).zip ((c.vreg a).zip (c.vreg b)) |>.map fun (x, y, z) => if Config.selTrue x then y else z, 0)
  | .cvtTo f d a => some (d, lanes1 (fun x => let (v, g) := plainEncode f x; (BitVec.ofNat 32 v, g)) (c.vreg a))
  | .cvtFrom f d a => some (d, lanes1 (fun x => plainDecode f x.toNat) (c.vreg a))
  | .mxPack f d a =>
    let b := (chunks 32 2 (c.vreg a)).map (mxBlock f fun _ => rneShift)
    some (d, b.flatMap (fun (sc, es, _) => es.map fun e => BitVec.ofNat 32 (e + 256 * sc)), flOr (b.map fun (_, _, g) => g))
  | .mxUnpack f d a => some (d, lanes1 (fun x => mxDecode f (x.toNat / 256 % 256) (x.toNat % 256)) (c.vreg a))
  | .redSum d a => let (v, g) := treeSum 6 (c.vreg a); some (d, splat v, g)
  | .redMax d a => let l := c.vreg a; some (d, splat (l.foldl (fun m x => (f32Max m x).1) (l.headD 0)), naninOf l)
  | .redMin d a => let l := c.vreg a; some (d, splat (l.foldl (fun m x => (f32Min m x).1) (l.headD 0)), naninOf l)
  | .redArgmax d a => let l := c.vreg a; some (d, splat (BitVec.ofNat 32 (argmaxLane l)), naninOf l)
  | .load _ _ => none
  | .store _ _ => none

def Core.putReg (c : Core) (d : Nat) (v : List W32) : Core := { c with vregs := assocSet c.vregs d v }

/-- Flags of a tile that a core holds (R56). -/
def Core.orFlags (c : Core) (entry : Option Nat) (f : Fl) : Core :=
  if entry.isSome && entry == c.loaded && entry != c.running then { c with flags2 := c.flags2 ||| f } else { c with flags := c.flags ||| f }

/-- A vector instruction retires (R98): registers, flags, and a register of the store for a load or store. A malformed one stops
the palette (R102). DESIGN CHOICE (log entry 121): lane i of a register stands at the address + 4i. -/
def State.vector (s : State) (k core : Nat) (entry : Option Nat) (op : VecOp) : State :=
  let c := s.core k core
  let done (f : Core → Core) : State := s.modCore k core fun c => { f c with lastProgress := s.now }
  let fail (st : Nat) : State := match entry with
    | some i => s.failEntry k core i st
    | none => s
  if !vecFormed op then fail tsPalFault
  else match op with
  | .load d a =>
    if storeBytes < a + 256 then fail tsBadField
    else done fun c => c.putReg d ((List.range 64).map fun i => BitVec.ofNat 32 (Memory.nat c.store (a + 4 * i) 4))
  | .store r a =>
    if storeBytes < a + 256 then fail tsBadField
    else done fun c => { c with store := Memory.write c.store a ((c.vreg r).flatMap fun x => leBytes 4 x.toNat) }
  | op =>
    match vecResult c op with
    | some (d, v, f) => done fun c => (c.putReg d v).orFlags entry f
    | none => s

/-! ## DMA (R100, R101) -/

def dmaBytes (d : Dma) : Nat := d.lines * d.runs * 64

/-- The runs of a transfer: core-store address, module address. -/
def dmaPieces (d : Dma) : List (Nat × Nat) := (List.range d.runs).map fun i => (d.storeAddr + i * d.storeStride, d.modAddr + i * d.modStride)

/-- A command in the form that the agent takes (R100): 64-byte lines, at most 4 MiB; a whole tile only towards the store, and atomic
adds only away from it. Any other is malformed (R102). -/
def dmaFormed (d : Dma) : Bool :=
  d.storeAddr % 64 == 0 &&
  (if d.tile.isSome then d.toStore && !d.add
   else d.modAddr % 64 == 0 && d.storeStride % 64 == 0 && d.modStride % 64 == 0 && decide (dmaBytes d ≤ 0x400000) && decide (0 < dmaBytes d) &&
     !(d.add && d.toStore))

/-- A KVW tile's own staging pages hold a range whole (R110, R288). -/
def State.inStaging (s : State) (t : Step) (e : Tile) (a n : Nat) : Bool :=
  e.role == 7 &&
  match (s.seqOf (kvwArgs e.args).seq).bind fun q => (s.obj q.pool).bind fun o => o.pool.map fun p => (q, o, p) with
  | some (q, o, p) => t.staged.any fun (h, _, id) => h == q.h && (p.page id).state == .staging && (List.range (p.pageBytes / 65536)).any fun i =>
      let f := o.frameAddr p (p.page id).frame (65536 * i)
      decide (f ≤ a) && decide (a + n ≤ f + 65536)
  | none => false

/-- What a tile's transfer may write (R101): a BUFFER object, a KVW tile's staging pages, and with atomic adds the output area of
the reduction group that the tile is a member of (R135). -/
def State.dmaWrite (s : State) (t : Step) (k : Nat) (e : Tile) (d : Dma) (a n : Nat) : Chk :=
  if d.add then
    need (e.reduce && (s.die k).groups.any fun g => g.idx == e.group && decide (g.addr ≤ a) && decide (a + n ≤ g.addr + g.bytes))
  else if s.inStaging t e a n then .go else s.mayWrite a n

/-- What the agent finds at the start of a transfer: its form, the store's bounds (R93), mapped addresses to read, an object that
the tile may write. A whole tile is read at its directory's offset and size, as a tile that runs would find it. -/
def State.dmaCheck (s : State) (t : Step) (k : Nat) (e : Tile) (d : Dma) : Chk :=
  if !dmaFormed d then .bad tsPalFault
  else match d.tile with
  | some (o, i) => s.withWeight k o i fun w => need (decide (d.storeAddr + up64 w.bytes + w.scaleBytes ≤ storeBytes) && decide (up64 w.bytes + w.scaleBytes ≤ 0x400000))
  | none => Chk.all [need ((dmaPieces d).all fun (a, _) => decide (a + 64 * d.lines ≤ storeBytes)),
      Chk.all ((dmaPieces d).map fun (_, m) => if d.toStore then s.mayRead m (64 * d.lines) else s.dmaWrite t k e d m (64 * d.lines))]

/-- The bytes of a transfer move; a whole tile's scales stand behind its elements, at the next multiple of 64. -/
def State.dmaMove (s : State) (k core : Nat) (d : Dma) : State :=
  let put (s : State) (a : Nat) (b : List Byte) : State := s.modCore k core fun c => { c with store := Memory.write c.store a b }
  match d.tile with
  | some (o, i) =>
    match s.weightTile k o i with
    | .bytes dir w sc _ => put (put s d.storeAddr w) (d.storeAddr + up64 dir.bytes) sc
    | _ => s
  | none => (dmaPieces d).foldl (fun s (a, m) =>
      let b := Memory.read (s.core k core).store a (64 * d.lines)
      if d.toStore then put s a (s.modRead m (64 * d.lines))
      else if d.add then (s.atomicAdd m ((List.range (16 * d.lines)).map fun i => BitVec.ofNat 32 (fld b (4 * i) 4))).1
      else s.modWrite m b) s

/-- A transfer names a weight tile that has not landed (R292). -/
def State.dmaWaits (s : State) (k : Nat) (d : Dma) : Bool :=
  match d.tile with
  | some (o, i) => s.weightTile k o i == .wait
  | none => false

def Core.freeCtx (c : Core) : Option Nat := (List.range 16).find? fun i => (assocGet c.dmas i).isNone

/-- A transfer starts on a free context for a tile of its core; the first atomic add of a `REDUCE` tile sets its `WROTE`
(Table 05-2). -/
def State.startDma (s : State) (k core entry : Nat) (d : Dma) : State :=
  match (s.die k).entry entry with
  | none => s
  | some e =>
    match (s.core k core).freeCtx, s.stepAt e.slot with
    | some i, some t =>
      let go := (s.modCore k core fun c => { c with dmas := c.dmas ++ [(i, entry, d)] }).modDie k fun x => x.modEntry entry fun e => { e with wrote := e.wrote || d.add }
      match s.dmaCheck t k e d with
      | .go => go
      | .wait => go
      | .bad st => s.failEntry k core entry st
      | c => s.answer t k e c
    | _, _ => s

/-! ## The sequencer's order (R97) -/

/-- Accesses of the core that have not completed. -/
def Core.busy (c : Core) : Bool := !c.dmas.isEmpty || !c.jobQ.isEmpty || c.cells.any fun x => x.job.isSome

/-- The command at the front may go on now. -/
def SeqCmd.ready (c : Core) : SeqCmd → Bool
  | .fence => !c.busy
  | .dma _ => c.freeCtx.isSome
  | _ => true

/-- One command takes effect, for the tile that it was issued for. -/
def State.issue (s : State) (k core : Nat) (entry : Option Nat) : SeqCmd → State
  | .job e j => match entry with
    | some i => s.startJob k core e i j
    | none => s
  | .vec op => s.vector k core entry op
  | .dma d => match entry with
    | some i => s.startDma k core i d
    | none => s
  | .fence => s

/-- Issue waiting commands in order while the first may go on; a HELD module starts none (R461). -/
def State.drain (s : State) (k core : Nat) : Nat → State
  | 0 => s
  | n + 1 =>
    match (s.core k core).seqQ with
    | (e, x) :: t => if x.ready (s.core k core) && !s.power.held then ((s.modCore k core fun c => { c with seqQ := t }).issue k core e x).drain k core n else s
    | [] => s

/-- The sequencer issues a command for its running tile, or for its second one: behind what waits already. -/
def State.sequence (s : State) (k core : Nat) (second : Bool) (x : SeqCmd) : State :=
  let c := s.core k core
  if !c.able || decide (120 ≤ core) then s
  else (s.modCore k core fun c => { c with seqQ := c.seqQ ++ [(if second then c.loaded else c.running, x)] }).drain k core (c.seqQ.length + 1)

def execCellJobStart (die core engine : Nat) (x : TileJob) (s : State) : Host.Outcome State Fault Refusal :=
  .next (s.sequence die core x.second (.job engine x.job))

def execVectorInstruction (die core : Nat) (op : VecOp) (s : State) : Host.Outcome State Fault Refusal := .next (s.sequence die core false (.vec op))

def execDmaTransfer (die core : Nat) (x : TileDma) (s : State) : Host.Outcome State Fault Refusal :=
  .next (s.sequence die core x.second (.dma x.d))

def execFence (die core : Nat) (s : State) : Host.Outcome State Fault Refusal := .next (s.sequence die core false .fence)

/-- The first job that waits for a cell of an engine is dispatched (R81), unless the module is HELD (R461). -/
def State.nextJob (s : State) (k core engine : Nat) : State :=
  let c := s.core k core
  match (if s.power.held then none else c.jobQ.find? fun (e, _, _) => e == engine) with
  | some (e, i, j) =>
    let rest := c.jobQ.eraseIdx ((c.jobQ.findIdx? fun (q : Nat × Nat × CellJob) => q.1 == engine).getD 0)
    (s.modCore k core fun c => { c with jobQ := rest }).dispatch k core e i j
  | none => s

/-- CELL_JOB_DONE: the last readout is written and the cell is free (R74, R81); a waiting job takes it. -/
def State.jobDone (s : State) (k core engine cell : Nat) : State :=
  let c := s.core k core
  let x := c.cellAt engine cell
  match x.job with
  | none => s
  | some r =>
    let s := s.modCore k core fun c =>
      { (c.putCell { x with job := none }).orFlags (some r.entry) r.flags with store := r.bytes.foldl (fun m (a, b) => Memory.put a b m) c.store, lastProgress := s.now }
    let s := s.nextJob k core engine
    s.drain k core (s.core k core).seqQ.length

def execCellJobDone (die core engine cell : Nat) (s : State) : Host.Outcome State Fault Refusal := .next (s.jobDone die core engine cell)

/-- DMA_COMPLETE: the bytes stand, or the tile that issued the transfer fails with `DMA_ERR` on an uncorrectable source (R101). A
transfer of a weight tile that has not landed waits for it (R292) and does not complete. -/
def execDmaComplete (die core ctx : Nat) (srcError : Bool) (s : State) : Host.Outcome State Fault Refusal :=
  match assocGet (s.core die core).dmas ctx with
  | none => .next s
  | some (entry, d) =>
    if s.dmaWaits die d then .next s else
    let s := s.modCore die core fun c => { c with dmas := assocDel c.dmas ctx, lastProgress := s.now }
    if srcError then .next (s.failEntry die core entry tsDmaErr)
    else
      let s := s.dmaMove die core d
      .next (s.drain die core (s.core die core).seqQ.length)

/-! ## Palette slots (R115) -/

/-- Code of a palette in the copies of the store (R111). -/
def State.palCode (s : State) (id : Nat) : List Byte := ((s.pals.find? fun p => p.id == id).map (·.code)).getD []

/-- PALETTE_SLOT_LOAD_DONE: the idle slot holds the palette; a running tile that waits for it goes on from it; the next load that
waits begins. -/
def execPaletteSlotLoadDone (die core : Nat) (s : State) : Host.Outcome State Fault Refusal :=
  let c := s.core die core
  if c.loadingPal = 0 then .next s
  else
    let want := (c.running.bind (s.die die).entry).map (·.pal)
    .next (s.modCore die core (Core.slotLoaded want (s.palCode c.loadingPal)))

/-! ## Ground truth (R76 to R79) -/

/-- Kill every step that runs on the module with cause fault re-run (R79). -/
def State.rerunSteps (s : State) : State :=
  (s.steps.filter fun t => decide (1 ≤ t.phase) && decide (t.phase < 4) && t.killing.isNone).foldl (fun s t => s.requestKill t.slice t.id 2) s

/-- Operand pairs of the ground-truth tiles in the order of Table 02-3 (R76): the ROM's own order is not stated (log entry 122). -/
def gtPairs : List (Nat × Nat) :=
  (List.range 4).flatMap (fun a => (List.range 4).map fun b => (a + 3, b + 3)) ++ [(8, 8), (7, 7), (3, 7), (4, 7), (1, 1), (2, 2)]

/-- The exact expected results of a ground-truth tile for the sixteen units (R76). -/
def gtExpected (i : Nat) : List W32 :=
  let (a, b) := gtPairs.getD (i / 2) (7, 7)
  (List.range 16).map fun u =>
    let es (side : Bool) : List Nat := (List.range 32).map (Config.gtElem i u side)
    (cellDot a b (es false) (es true) [Config.gtScale i u false] [Config.gtScale i u true]).1

/-- GT_TILE_DONE (R76): the check accumulators are compared with the ROM bit for bit, and the feeder moves to the next of its 44
tiles. A passing tile settles what the cell owes when it began after the cell's last operand beat (R78); a failing one loses the
cell and its core and re-runs the steps (R79). -/
def State.gtDone (s : State) (k core engine cell : Nat) (after : Bool) (checks : List W32) : State :=
  let x := (s.core k core).cellAt engine cell
  let y := { x with gtIdx := (x.gtIdx + 1) % 44, gtForced := false, check := checks }
  if checks = gtExpected x.gtIdx then
    let s := s.modCore k core fun c => c.putCell y
    let s := s.modDie k fun d => { d with gtPass := satAdd 42 d.gtPass 1 }
    if !after then s
    else
      let settle (t : Step) : Step := { t with gtPending := t.gtPending.filter fun (p : Nat × Nat × Nat × Nat) => p != (k, core, engine, cell) }
      { s with steps := s.steps.map settle }
  else
    let s := s.modCore k core fun c => c.putCell { y with failed := true }
    let other (p : Nat × Nat × Nat × Nat) : Bool := !(p.1 == k && p.2.1 == core)
    let settle (t : Step) : Step := { t with gtPending := t.gtPending.filter other }
    let s := ({ s with steps := s.steps.map settle } : State)
    (((s.loseCore k core 0xF0 tsLost).raise (.cd k) 1).rerunSteps).faultTrigger 1

def execGtTileDone (die core engine cell : Nat) (x : GtResult) (s : State) : Host.Outcome State Fault Refusal :=
  .next (s.gtDone die core engine cell x.after x.checks)

/-- GT_FORCE_TIMER: ground-truth beats go ahead of operand beats until a tile completes (R77). -/
def execGtForceTimer (die core engine cell : Nat) (s : State) : Host.Outcome State Fault Refusal :=
  .next (s.modCore die core fun c => c.putCell { c.cellAt engine cell with gtForced := true })

/-! ## Errors in a core -/

/-- CELL_PARITY_ERROR (R80): the job is abandoned and its tile fails, as does the tile whose forwarded operand the cell holds between
two passes; a second error in the same cell within 1 s fails the cell. -/
def execCellParityError (die core engine cell : Nat) (s : State) : Host.Outcome State Fault Refusal :=
  let x := (s.core die core).cellAt engine cell
  let second := s.again1s x.parityAt
  let s := s.modCore die core fun c => c.putCell { x with job := none, fwd := none, parityAt := some s.now, failed := x.failed || second }
  let s := match ((x.job.map (·.entry)).or (x.fwd.map (·.entry))).bind (s.die die).entry with
    | some e => s.reclaim die e tsHwErr
    | none => s
  .next (if second then s.loseCore die core tsHwErr tsLost else s)

/-- BUFFER_ECC_ERROR (R83). -/
def execBufferEccError (die core _engine : Nat) (double : Bool) (s : State) : Host.Outcome State Fault Refusal :=
  .next (if double then s.failRunning die core tsHwErr else s.modDie die fun d => { d with bufCe := d.bufCe + 1 })

/-- CORE_STORE_ECC_ERROR (R94, Table 04-12). -/
def execCoreStoreEccError (die core : Nat) (double : Bool) (s : State) : Host.Outcome State Fault Refusal :=
  let c := s.core die core
  if !double then .next ((s.modDie die fun d => { d with csCe := satAdd 32 d.csCe 1 }).modCore die core fun c => { c with ce := satAdd 32 c.ce 1 })
  else
    let s := (s.failRunning die core tsHwErr).modCore die core fun c => { c with csErrAt := some s.now }
    .next (if s.again1s c.csErrAt then s.loseCore die core tsHwErr tsLost else s)

/-- VECTOR_PARITY_ERROR (Table 04-12). -/
def execVectorParityError (die core : Nat) (s : State) : Host.Outcome State Fault Refusal :=
  let c := s.core die core
  let s := (s.failRunning die core tsHwErr).modCore die core fun c => { c with vecErrAt := some s.now }
  .next (if s.again1s c.vecErrAt then s.loseCore die core tsHwErr tsLost else s)

/-- The running slot's palette loads again from the die pool (Table 04-12). -/
def State.reloadSlot (s : State) (k core : Nat) : State :=
  s.modCore k core fun c =>
    if c.active1 then { c with prog1 := s.palCode c.pal1 } else { c with prog0 := s.palCode c.pal0 }

/-- SEQUENCER_ECC_ERROR (Table 04-12): the slot is loaded again from the die pool. -/
def execSequencerEccError (die core : Nat) (s : State) : Host.Outcome State Fault Refusal :=
  let c := s.core die core
  let s := ((s.reloadSlot die core).failRunning die core tsHwErr).modCore die core fun c => { c with seqErrAt := some s.now }
  .next (if s.again1s c.seqErrAt then s.loseCore die core tsHwErr tsLost else s)

/-- UNPACK_ERROR (R91): the tile is FAILED until its bytes have been read again. -/
def execUnpackError (die core entry : Nat) (s : State) : Host.Outcome State Fault Refusal :=
  match (s.die die).entry entry with
  | some e =>
    if e.state == .claimed && e.core == core then .next (s.takeFail die core entry e.tileSeq tsUnpack false) else .next s
  | none => .next s

/-- UNPACK_REREAD_DONE: the tile runs once more; after its second failure the step ends (R91). -/
def execUnpackRereadDone (die entry : Nat) (s : State) : Host.Outcome State Fault Refusal :=
  match (s.die die).entry entry with
  | some e =>
    if e.state == .failed && e.status == tsUnpack && decide (e.unpackFails ≤ 1) then .next (s.backToReady die entry tsUnpack) else .next s
  | none => .next s

end Sys2Proof.Machine
end

