-- ==== Sys2Proof/Machine/Movement.lean ====
section
/-! DEFINITION. Movement of objects (spec/11_lpddr5x_placement.md, spec/13_model_cache_weights.md): landing tiles, departures,
flash copies, stage copies, cold experts, the write of a layer swap and the repair of a tile. -/

namespace Sys2Proof.Machine

open Sys2Proof

/-! ## Readers that wait -/

/-- A claimed tile waits for a weight tile of an object (R292). -/
def State.waitsOn (s : State) (k : Nat) (e : Tile) (id : Nat) : Bool :=
  e.state == .claimed && (match e.weight with
    | some (o, t) => o == id && (match s.weightTile k o t with
        | .wait => true
        | _ => false)
    | none => false)

/-- Slots of the steps that wait on an object: for one of its tiles, or for the layer program it is. -/
def State.waiters (s : State) (id : Nat) : List Nat :=
  (((List.range 8).flatMap fun k => ((s.die k).tiles.filter fun e => s.waitsOn k e id).map (·.slot)) ++
    (s.steps.filter fun t => t.program == id && t.phase == 1 && !s.dies.any fun d => d.agents.any fun a => a.slot == t.slot).map (·.slot)).eraseDups

/-- A tile of an object is waited for by a reader, so that it is fetched next (R292). -/
def State.wanted (s : State) (id tile : Nat) : Bool :=
  (List.range 8).any fun k => (s.die k).tiles.any fun e => s.waitsOn k e id && (e.weight.map (·.2)) == some tile

/-- An arrival fails: the steps that wait fail with TILE_CORRUPT (R293), the commands with TILE_CORRUPT, or NO_SOURCE from the twin
(R410); a swap that it belongs to ends (R340). -/
def State.arrivalLost (s : State) (id : Nat) (st : Nat := stTileCorrupt) : State :=
  let w := s.waiters id
  ((w.foldl (fun s j => s.failSlot j stTileCorrupt) (s.arrivalFail id st)).swapChecks).killChecks

/-- An arrival has landed everything: RESIDENT, steps that wait for it as their program start, a swap it belongs to ends. -/
def State.arrivalWhole (s : State) (id : Nat) : State :=
  let t := s.steps.filter fun t => t.program == id && t.phase == 1 && t.killing.isNone && t.status == 0 &&
    !s.dies.any fun d => d.agents.any fun a => a.slot == t.slot
  ((t.foldl (fun s t => s.openAgents t) (s.arrivalEnd id)).swapChecks).killChecks

/-! ## Landing (R292 to R294, R323) -/

/-- The source of tile `i` of an arrival: one of two host buffers (0, 1), or the one source it has (R294). -/
def LoadSrc.lane (src : LoadSrc) (i : Nat) : Nat :=
  match src with
  | .host _ s1 split => if s1 ≠ 0 && decide (split ≤ i) then 1 else 0
  | _ => 0

/-- A stage copy that prefetch asked for and that has not been written. -/
def StageEnt.asked (x : StageEnt) : Bool := !x.cold && !x.landed && x.readers == 0

/-- Flash reads that go before every triggered entry (R299): a tile that a reader waits for, a demand page return that has a frame. -/
def State.flashDemand (s : State) : Bool :=
  s.objs.any fun o =>
    (o.res == .arriving && o.src == some .flash && (List.range o.tiles).any fun i => !o.landed.contains i && s.wanted o.id i) ||
    (o.pool.map fun p => decide (0 < p.freeFrames) && p.demand.any fun id => (p.page id).state == .spilled && (p.page id).spillTier == 2).getD false

/-- Work of a prefetch trigger waits for what the module serves before it (R299): from flash the demand reads and the earlier triggers,
from LPDDR5X the earlier triggers' copies. -/
def State.after (s : State) (flash : Bool) (trig : Nat) : Bool :=
  (s.dies.any fun d => d.stage.any fun x => x.asked && (x.order != 1) == flash && decide (x.trig < trig)) ||
  (flash && (s.flashDemand || s.objs.any fun o => o.res == .arriving && o.trig != 0 && decide (o.trig < trig)))

/-- The tile may land now: the lowest of its source that has not landed, or one that a reader waits for; a triggered promote waits for
its turn (R299). -/
def State.landNext (s : State) (o : Obj) (src : LoadSrc) (i : Nat) : Bool :=
  decide (i < o.tiles) && !o.landed.contains i &&
  (s.wanted o.id i || ((List.range i).all (fun j => src.lane j != src.lane i || o.landed.contains j) && !(o.trig != 0 && s.after true o.trig)))

/-- The object whose flash copy a source reads. -/
def LoadSrc.copyOf (src : LoadSrc) (id : Nat) : Option Nat :=
  match src with
  | .flash => some id
  | .flashOf x => some x
  | _ => none

/-- Bytes of an object's body come from its source: a flash copy's pages are read (R303, R311). -/
def State.readSource (s : State) (src : LoadSrc) (id : Nat) (demand : Bool) (off n : Nat) : State :=
  match src.copyOf id with
  | some x => s.readCopy demand x off n
  | none => s

/-- Bytes of an object's body as its source gives them; none when the source cannot be reached. Bytes of the twin come with
the event (R410). -/
def State.sourceRead (s : State) (o : Obj) (src : LoadSrc) (i : Nat) : Option (Nat → Nat → List Byte) :=
  let copy (id : Nat) : Option (Nat → Nat → List Byte) :=
    (s.fcopyOf id).bind fun c => if c.durable then some (fun a n => Memory.read c.body a n) else none
  match src with
  | .host s0 s1 _ =>
    match s.obj (if src.lane i = 1 then s1 else s0) with
    | some h => if s.down h.hostPort then none else some (fun a n => Memory.read (s.hostMem h.hostPort) (h.hostAddr + a) n)
    | none => none
  | .flash => copy o.id
  | .flashOf x => copy x
  | .twin => none

/-- A tile of an arrival comes in (R292, R293, R323): it lands, or is read once more, or the arrival fails. -/
def State.landTile (s : State) (id i : Nat) (bytes : List Byte) : State :=
  match s.obj id with
  | none => s
  | some o =>
    match o.src with
    | none => s
    | some src =>
      if o.res != .arriving then s
      else if src == .twin && !s.opticalUp then s.arrivalLost id stNoSource
      else if o.tiles = 0 then
        match (if src == .twin then some bytes else (s.sourceRead o src 0).map fun rd => rd 0 o.size) with
        | none => s.arrivalLost id
        | some b => ((s.readSource src id (!(s.waiters id).isEmpty) 0 o.size).objWrite o 0 (padTo o.size b)).arrivalWhole id
      else if !s.landNext o src i then s
      else match o.dir[i]? with
      | none => s
      | some t =>
        match (if src == .twin then some bytes else (s.sourceRead o src i).map fun rd => tileBytes rd t) with
        | none => s.arrivalLost id
        | some b =>
          let w := s.wanted o.id i
          let s := (s.readSource src id w t.off t.bytes).readSource src id w t.scaleOff t.scaleBytes
          if b.length = t.bytes + t.scaleBytes && tilePasses t b then
            let s := (s.objWrite o t.off (b.take t.bytes)).objWrite o t.scaleOff (b.drop t.bytes)
            let s := s.modObj id fun o => { o with landed := o.landed ++ [i] }
            if o.landed.length + 1 = o.tiles then s.arrivalWhole id else s
          else if o.retried.contains i then s.arrivalLost id
          else
            let s := s.modObj id fun o => { o with retried := o.retried ++ [i] }
            if src == .twin then s.emit (.tileReq id i) else s

def execTileLand (obj tile : Nat) (bytes : List Byte) (s : State) : Host.Outcome State Fault Refusal := .next (s.landTile obj tile bytes)

/-! ## Departures and flash copies (R290, R295, R306) -/

/-- Programs to some package wait: it is paused (R315), or the tier takes no writes. -/
def Flash.writesWait (f : Flash) : Bool := !f.ready || !f.paused.isEmpty

/-- DEPART_WRITEOUT_DONE: the data of the write-out is programmed; the copy is not yet durable. DESIGN CHOICE (log entry 131): a copy
that a running OBJ_STAGE_FLASH writes serves the departure too. -/
def execDepartWriteoutDone (obj : Nat) (s : State) : Host.Outcome State Fault Refusal :=
  match s.obj obj with
  | some o =>
    if o.res == .departing && o.writeOut && !Flash.writesWait s.flash then
      .next ((if o.stageW.isEmpty then s.startCopy o (s.objBody o) else s).modObj obj fun o => { o with writeOut := false })
    else .next s
  | none => .next s

/-- DEPART_RELEASE (R290): no tile read in flight and the write-out programmed; ABSENT at once when no copy has to become durable. -/
def execDepartRelease (obj : Nat) (s : State) : Host.Outcome State Fault Refusal :=
  match s.obj obj with
  | some o => .next (if o.res == .departing && !o.released && !o.writeOut && o.readers == 0 then s.releaseBytes obj else s)
  | none => .next s

/-- FLASH_COPY_DURABLE (R305, R306): the map entries are journalled and `FCOPY` is set; commands that waited complete, and a released departure ends. -/
def execFlashCopyDurable (obj : Nat) (s : State) : Host.Outcome State Fault Refusal :=
  match s.obj obj, s.fcopyOf obj with
  | some o, some c =>
    if c.durable || Flash.writesWait s.flash || !s.flash.written obj c.size then .next s
    else
      let mark (x : FCopy) : FCopy := if x.obj == obj then { x with durable := true } else x
      let note (x : MapEnt) : MapEnt := if x.obj == obj then { x with journalled := true } else x
      let s := s.modFlash fun f => { f with copies := f.copies.map mark, map := f.map.map note }
      let s := s.modObj obj fun o => { o with fcopy := true, stageW := [], stagePort := none }
      let s := s.finishWaiters o.stageW obj stOK
      .next (if o.res == .departing && o.released then s.departDone obj else s)
  | _, _ => .next s

/-! ## Stages (R298, R300) -/

/-- Entries of a die's stage map: copies that have landed. -/
def Die.mapped (d : Die) : List StageEnt := d.stage.filter (·.landed)

/-- A die's cold tile is still needed: a tile in the list, or one that waits to be appended, reads it (R342). -/
def Die.coldNeeded (d : Die) (x : StageEnt) : Bool :=
  let reads (e : Tile) : Bool := e.rowBlock.isSome && fld e.args 0 4 == x.obj && fld e.args 4 4 == x.tile
  x.cold && (d.tiles.any reads || d.ctxs.any fun c => c.later.any reads)

/-- Same tile of the same object at the same place. -/
def StageEnt.same (x y : StageEnt) : Bool := x.obj == y.obj && x.tile == y.tile && x.stage == y.stage && x.addr == y.addr && x.cold == y.cold

/-- A mapping is removed before its bytes are written: at once, or with the last read of it (R300). -/
def Die.unmap (d : Die) (x : StageEnt) : Die :=
  { d with stage := d.stage.filterMap fun y => if y.same x then (if y.readers = 0 then none else some { y with landed := false }) else some y }

/-- Entries whose bytes meet a range: mapped, or unmapped and still read. -/
def Die.inWay (d : Die) (a n : Nat) : List StageEnt :=
  d.stage.filter fun x => (x.landed || decide (0 < x.readers)) && overlaps a n (x.addr, x.bytes)

/-- Entries of the stage map: landed copies, and removed ones that are still read. -/
def Die.held (d : Die) : List StageEnt := d.stage.filter fun x => x.landed || decide (0 < x.readers)

/-- Room in the stage map: below 4,096 entries, or the oldest landing goes, with its last read (R300). -/
def Die.mapRoom (d : Die) : Die :=
  if d.held.length < 4096 || d.held.any fun x => !x.landed then d
  else match d.mapped.foldl (fun (b : Option StageEnt) x => match b with
      | none => some x
      | some y => if x.order < y.order then some x else some y) none with
    | some x => if d.coldNeeded x then d else d.unmap x
    | none => d

/-- The next number in order of landing. -/
def Die.nextLanding (d : Die) : Nat := (d.mapped.map (·.order)).foldl max 0 + 1

/-- Write a stage copy's bytes, weights then scales, and map it. -/
def State.stageLand (s : State) (k : Nat) (x : StageEnt) (addr : Nat) (t : TileDir) (b : List Byte) : State :=
  let s := (s.modWrite addr (b.take t.bytes)).modWrite (addr + up64 t.bytes) (b.drop t.bytes)
  let n := (s.die k).nextLanding
  let land (y : StageEnt) : StageEnt := if y.same x && !y.landed && y.readers == 0 then { y with addr := addr, order := n, landed := true } else y
  s.modDie k fun d => { d with stage := d.stage.map land }

/-- The bytes of a prefetch stage copy: from LPDDR5X without a check, or from the flash copy with the checks of R293 and R323; none
when the source holds no valid bytes. -/
def State.stageBytes (s : State) (x : StageEnt) (o : Obj) (t : TileDir) : Option (List Byte) :=
  if x.order = 1 then
    if o.lost then none
    else match o.res with
    | .resident => some (tileBytes (s.objRead o) t)
    | .departing => if o.released then none else some (tileBytes (s.objRead o) t)
    | .arriving => if o.landed.contains x.tile then some (tileBytes (s.objRead o) t) else none
    | .absent => none
  else match s.fcopyOf o.id with
  | some c =>
    let b := tileBytes (Memory.read c.body) t
    if c.durable && tilePasses t b then some b else none
  | none => none

/-- STAGE_COPY_WRITE (R299, R300): a copy in its turn; mapped tiles in the way are removed first; the copy writes once no read of them is in flight. -/
def execStageCopyWrite (die obj tile : Nat) (s : State) : Host.Outcome State Fault Refusal :=
  match (s.die die).stage.find? fun x => x.obj == obj && x.tile == tile && x.asked with
  | none => .next s
  | some x =>
    let drop (s : State) : State := s.modDie die fun d => { d with stage := d.stage.filter fun y => !(y.same x && !y.landed && y.readers == 0) }
    match s.obj obj with
    | none => .next (drop s)
    | some o =>
      match o.dir[tile]? with
      | none => .next (drop s)
      | some t =>
        if o.res == .arriving && !o.landed.contains tile && x.order == 1 then .next s
        else if s.after (x.order != 1) x.trig then .next s
        else match s.stageBytes x o t with
        | none => .next (drop s)
        | some b =>
          let s := if x.order = 1 then s else s.readTileCopy false obj t
          let way := ((s.die die).inWay x.addr x.bytes).filter fun y => !y.same x || y.landed
          if way.any fun y => (s.die die).coldNeeded y then .next s
          else
            let s := s.modDie die fun d => (way.foldl Die.unmap d).mapRoom
            if ((s.die die).inWay x.addr x.bytes).isEmpty && decide ((s.die die).held.length < 4096) then .next (s.stageLand die x x.addr t b)
            else .next s

/-! ## Cold experts (R341, R342) -/

/-- The `COLD_STAGE` space that cold copies of a stage do not hold: the lowest offset that fits. -/
def Die.coldRoom (d : Die) (st : Obj) (n : Nat) : Option Nat :=
  let base := poolBase st.die + st.extOff
  let occ := (d.stage.filter fun x => x.stage == st.id && (x.landed || decide (0 < x.readers))).map fun x => (x.addr - base, x.bytes)
  let ends := (0 :: occ.map fun (a, m) => a + m).filter fun a => decide (a + n ≤ st.size) && !occ.any fun r => overlaps a n r
  ends.foldl (fun b a => match b with
    | none => some a
    | some x => some (min x a)) none

/-- The tile fails: every step that waits for it on the die fails with TILE_CORRUPT, and it is not fetched (R342). -/
def State.coldLost (s : State) (k : Nat) (x : StageEnt) : State :=
  let reads (e : Tile) : Bool := e.rowBlock.isSome && fld e.args 0 4 == x.obj
  let slots := (((s.die k).tiles ++ (s.die k).ctxs.flatMap (·.later)).filter reads).map (·.slot)
  let s := s.modDie k fun d => { d with stage := d.stage.filter fun y => !(y.obj == x.obj && y.cold && !y.landed && y.readers == 0) }
  slots.eraseDups.foldl (fun s j => s.failSlot j stTileCorrupt) s

/-- COLD_TILE_LAND: the lowest cold tile of the object that has not landed comes from the flash copy, is checked and mapped; its
expert tiles become READY. It waits while the stage has no space. -/
def execColdTileLand (die obj tile : Nat) (s : State) : Host.Outcome State Fault Refusal :=
  let d := s.die die
  let mine := d.stage.filter fun x => x.obj == obj && x.cold && !x.landed && x.readers == 0
  match mine.find? fun x => x.tile == tile && mine.all fun y => decide (tile ≤ y.tile) with
  | none => .next s
  | some x =>
    if !d.coldNeeded x then .next (s.modDie die fun d => { d with stage := d.stage.filter fun y => !(y.same x && !y.landed && y.readers == 0) })
    else match s.obj obj, s.obj x.stage with
    | some o, some st =>
      match o.dir[tile]?, s.fcopyOf obj with
      | some t, some c =>
        let b := tileBytes (Memory.read c.body) t
        let s := s.readTileCopy true obj t
        if !c.durable || !tilePasses t b then .next (s.coldLost die x).killChecks
        else
          let free (d : Die) : Die := { d with stage := d.stage.filter fun y => !(y.stage == x.stage && y.cold && y.landed && y.readers == 0 && !d.coldNeeded y) }
          let d := if (d.coldRoom st x.bytes).isSome then d else free d
          let s := s.modDie die fun _ => d.mapRoom
          match (s.die die).coldRoom st x.bytes with
          | none => .next s
          | some a =>
            if 4096 ≤ (s.die die).held.length then .next s
            else
              let slots := ((s.die die).tiles.map (·.slot)).eraseDups
              let s := s.stageLand die x (poolBase st.die + st.extOff + a) t b
              .next (slots.foldl (fun s j => s.wakeCopy j) s)
      | _, _ => .next (s.coldLost die x).killChecks
    | _, _ => .next (s.coldLost die x).killChecks

/-- SWAP_WRITE_START: no step of an older view remains, and step 3 of R338 begins. -/
def execSwapWriteStart (model : Nat) (s : State) : Host.Outcome State Fault Refusal := .next ((s.swapStart model).killChecks)

/-! ## Repair (R325) -/

/-- The compute die whose memory holds a tile's first byte. -/
def State.tileDie (s : State) (o : Obj) (t : TileDir) : Nat :=
  match s.region (o.addr t.off) with
  | .win g _ _ => dieOfGroup g
  | .pool k _ => k
  | .unmapped => 0

/-- TILE_REPAIR: written again from the flash copy when that passes, else the object becomes ABSENT. -/
def execTileRepair (obj tile : Nat) (s : State) : Host.Outcome State Fault Refusal :=
  match s.obj obj with
  | none => .next s
  | some o =>
    match o.dir[tile]? with
    | none => .next s
    | some t =>
      if o.kind != .tileset || o.res != .resident || o.lost || (o.fcopy && !s.flash.ready) then .next s
      else
        let good := match s.fcopyOf obj with
          | some c => if o.fcopy && c.durable && tilePasses t (tileBytes (Memory.read c.body) t) then some (tileBytes (Memory.read c.body) t) else none
          | none => none
        match good with
        | some b =>
          let k := s.tileDie o t
          let s := s.readTileCopy false obj t
          let s := (s.objWrite o t.off (b.take t.bytes)).objWrite o t.scaleOff (b.drop t.bytes)
          .next ((s.modDie k fun d => { d with corrTile := satAdd 32 d.corrTile 1 }).raise (.cd k) 3)
        | none => .next (s.modObj obj fun o => { o with res := .absent, landed := [] })

end Sys2Proof.Machine
end

