-- ==== Sys2Proof/Machine/MemRows.lean ====
section
/-! DEFINITION. Loss of memory contents (R278 to R285), the LPDDR5X channels, the NAND dies and the translation layer
(spec/12_flash_tier.md). -/

namespace Sys2Proof.Machine

open Sys2Proof

/-! ## Loss of contents -/

/-- An object has an extent in a window of a group. -/
def Obj.inGroup (o : Obj) (g : Nat) : Bool := !o.dp && o.kind != .hostbuf && bitOf o.groups g

/-- Jobs with a step that runs on a lost pool, view or program stop with MEM_LOST (R278, R285, R378). -/
def State.lossChecks (s : State) : State :=
  s.steps.foldl (fun s t =>
    let prog := ((s.obj t.program).map (·.lost)).getD false
    if decide (1 ≤ t.phase) && decide (t.phase < 4) && t.killing.isNone && (s.startLost t || prog) then s.stopJob t.slice 5 s.coord.coord else s) s

/-- What a system extent with both copies lost takes with it (R285). -/
def State.sysLost (s : State) (x : SysExt) : State :=
  let gone (l : List Nat) : State := l.foldl (fun s id =>
    (s.modObj id fun o => { o with fcopy := false }).loseObj id) s
  match x.owner with
  | 0 => gone [x.key]
  | 1 =>
    s.modModel (x.key / 65536) fun m => m.modView (x.key % 65536) fun v => { v with lost := true }
  | 2 => gone (s.objs.map (·.id))
  | _ => { s with pfEnts := s.pfEnts.filter fun e => if x.key = 0 then e.kind != 3 else e.kind == 3 || e.model != x.key }

/-- Memory contents are lost: the module is in SERVICE at least (Table 21-3). -/
def State.contentLost (s : State) : State := (s.modHealth fun h => { h with memLost := true }).hltUpdate

/-- Memory is lost: every object `hit`, and the system extents in `dead` groups; surviving copies are doubled again where a group
has room, the jobs that use what is lost stop. -/
def State.loseMemory (s : State) (hit : Obj → Bool) (dead : Nat → Bool) : State :=
  let ids := (s.objs.filter fun o => hit o && !o.lost).map (·.id)
  let failing := (s.objs.filter fun o => ids.contains o.id && o.res == .arriving).map (·.id)
  let slots := (failing.flatMap s.waiters).eraseDups
  let s := ids.foldl (fun s id => (s.contentLost).loseObj id) s
  let s := slots.foldl (fun s j => s.failSlot j stTileCorrupt) s
  let alive (g : Option Nat) : Option Nat := g.bind fun g => if dead g then none else some g
  let cut (x : SysExt) : SysExt := { x with g0 := alive x.g0, g1 := alive x.g1 }
  let s := { s with sysExts := s.sysExts.map cut }
  let s := (s.sysExts.filter fun x => x.g0.isNone && x.g1.isNone).foldl (fun s x => s.sysLost x) s
  let s := { s with sysExts := s.sysExts.filter fun x => x.g0.isSome || x.g1.isSome }
  s.mendSys.swapChecks.lossChecks.killChecks

/-! ## Channels (R278 to R283) -/

def State.modChan (s : State) (c : Nat) (f : Chan → Chan) : State := { s with chans := s.chans.modify c f }

/-- A channel is declared failed (R279, R280, R282): the first of its group brings reconstruction, the second loses the group. -/
def State.channelFail (s : State) (c : Nat) : State :=
  let g := c / 16
  if (s.chan c).failed || decide (256 ≤ c) then s
  else
    let others := s.chFail g != 0
    let s := (s.modChan c fun x => { x with failed := true, trained := false }).modNor fun n => { n with chFails := addNew n.chFails c }
    if others then
      let s := (s.modGrp g fun x => { x with lost := true }).setCause hcGrpLost
      (s.loseMemory (fun o => o.inGroup g || ((o.pool.map fun p => p.metaGroup == g).getD false)) (fun x => x == g)).faultTrigger 2
    else
      let s := (s.modGrp g fun x => { x with recon := true }).setCause hcRecon
      (s.loseMemory (fun o => o.inGroup g && !o.prot) (fun _ => false)).faultTrigger 2

def execChannelFail (ch : Nat) (s : State) : Host.Outcome State Fault Refusal := .next (s.channelFail ch)

/-- A read of the channel needed R278; the fourth within 1 s declares it failed (R279). -/
def State.needR278 (s : State) (c : Nat) : State :=
  let l := ((s.chan c).recent.filter fun t => s.within t 1000000) ++ [s.now]
  let s := s.modChan c fun x => { x with recent := l }
  if 4 ≤ l.length then s.channelFail c else s

/-- MEM_READ_UNCORRECTABLE (R278): rebuilt from parity in a protected window that can rebuild, else the object is ABSENT or lost. -/
def execMemReadUncorrectable (addr : Nat) (s : State) : Host.Outcome State Fault Refusal :=
  match s.region addr with
  | .win g prot r =>
    let c := chanOf g prot r
    if (s.chan c).failed || (s.grp g).lost || (s.grp g).outOfService then .next s
    else if prot && !(s.grp g).recon then .next ((s.modChan c fun x => { x with rebuilt := satAdd 16 x.rebuilt 1 }).needR278 c)
    else .next ((s.loseMemory (fun o => o.ranges.any (inRange addr)) (fun _ => false)).needR278 c)
  | _ => .next s

/-- PATROL_SCRUB_MISMATCH (R283): a mismatch that persists and that no unit explains is counted for the group. A unit rewritten
from parity, and parity rewritten from the data, leave every byte of the window as it reads. -/
def execPatrolScrubMismatch (group _stripe : Nat) (persists : Bool) (unit : Option Nat) (s : State) : Host.Outcome State Fault Refusal :=
  if (s.grp group).lost || (s.grp group).outOfService || !persists || unit.isSome then .next s
  else .next (s.modGrp group fun x => { x with parityErr := x.parityErr + 1 })

/-! ## NAND dies (R302, R309, R310, R316) -/

/-- Spare thresholds of R316: 2 % and 0.5 % of the blocks. -/
def State.spareCheck (s : State) : State :=
  let s := if s.flash.spareBlocks < 10486 then (s.raise .fls 4).setCause hcNandSpare else s
  if s.flash.spareBlocks < 2622 then ((s.modFlash fun f => { f with readonly := true }).raise .fls 5).setCause hcFlashRo else s

/-- An object's flash copy is gone: ABSENT objects with no other copy are lost (R310). -/
def State.loseCopy (s : State) (id : Nat) : State :=
  let s := (s.dropCopy id).modObj id fun o => { o with fcopy := false }
  match s.obj id with
  | some o => if o.res == .absent || (o.res == .departing && o.released) then s.loseObj id else s
  | none => s

/-- A spilled page, or one on its way out, has its first extent at a new place: `SPILL_LOC` switches in one action (R314). -/
def State.setLoc (s : State) (pool page loc : Nat) : State :=
  let act := (s.pageOf pool page).spillAct
  let move (y : SpillExt) : SpillExt := if y.pool == pool && y.page == page then { y with loc := loc } else y
  let s := s.modFlash fun f => { f with spills := f.spills.map move }
  let s := s.modPage pool page fun d => if d.spillTier = 2 then { d with spillLoc := loc } else d
  if act then s.modPool pool fun p => { p with spillTo := p.spillTo.map fun x => if x.1 = 2 then (2, loc) else x } else s

/-- Copy the extents of a page to new places. -/
def State.moveExt (s : State) (pool page : Nat) : State :=
  let n := ((s.pool pool).map Pool.spillExts).getD 0
  let s := s.readExt false pool page
  match (s.modFlash fun f => f.dropRefs fun r => r.spill && r.obj == pool && r.unit == page).logSpill pool page n with
  | some (loc, s) => s.setLoc pool page loc
  | none => s

/-- Move a map unit or a spilled page. -/
def State.moveOwner (s : State) (x : Bool × Nat × Nat) : State := if x.1 then s.moveExt x.2.1 x.2.2 else s.moveUnit x.2.1 x.2.2

/-- The data of a stripe is lost (R310): a durable copy with a unit in it, a spilled page with an extent in it. What is still being
written is written again. -/
def State.loseOwner (s : State) (x : Bool × Nat × Nat) : State :=
  if x.1 then
    if s.flash.spills.any fun y => y.pool == x.2.1 && y.page == x.2.2 then s.modFlash fun f => { f.dropExt x.2.1 x.2.2 with unitLost := true }
    else s.moveOwner x
  else match s.fcopyOf x.2.1 with
  | some c => if c.durable then (s.loseCopy x.2.1).modFlash fun f => { f with unitLost := true } else s.moveOwner x
  | none => s

/-- Stripes with a second page that cannot be read before they are rebuilt (R310). -/
def State.stripesLost (s : State) (d : Nat) : State :=
  let f := s.flash
  let hit (t : Stripe) : Bool := t.pages.any (fun p => p.die == d) && decide (2 ≤ (t.pages.filter fun p => f.unbuilt.contains p.die).length)
  let l := f.owners hit
  let gone (x : Bool × Nat × Nat) : Bool :=
    if x.1 then f.spills.any fun y => y.pool == x.2.1 && y.page == x.2.2 else ((s.fcopyOf x.2.1).map (·.durable)).getD false
  let s := l.foldl (fun s x => s.loseOwner x) s
  if l.any gone then (s.raise .fls 2).lossChecks else s

/-- A NAND die is declared failed (R309): its log blocks close, its pages are served from their stripes, and a rebuild runs. -/
def State.nandFail (s : State) (d : Nat) : State :=
  if s.flash.failed.contains d || decide (128 ≤ d) then s
  else
    let s := s.modFlash fun f => { f.endOp d with
      failed := f.failed ++ [d], unbuilt := f.unbuilt ++ [d], rebuild := true, opens := f.opens.filter fun o => o.next.die != d }
    let s := (s.modNor fun n => { n with nandFailed := addNew n.nandFailed d }).raise .fls 0
    s.stripesLost d

def execNandDieFail (die : Nat) (s : State) : Host.Outcome State Fault Refusal := .next (s.nandFail die)

/-- NAND_OP_DONE (R302): the die's program or erase has completed. -/
def execNandOpDone (die : Nat) (s : State) : Host.Outcome State Fault Refusal :=
  .next (s.modFlash fun f => f.endOp die)

/-- NAND_PROGRAM_FAIL (R309): the block leaves use for a spare one and what lay in it is written again; eight such blocks of a die in
24 h fail the die. -/
def execNandProgramFail (die block : Nat) (s : State) : Host.Outcome State Fault Refusal :=
  if s.flash.failed.contains die || !nandBlock die block then .next s
  else
    let day := 24 * 3600 * 1000000
    let l := (s.flash.progFails.filter fun (_, _, t) => s.within t day) ++ [(die, block, s.now)]
    let here := s.flash.owners fun t => t.pages.any fun p => p.die == die && p.block == block
    let s := (s.modFlash fun f => { f.endOp die with
      progFails := l, spareBlocks := f.spareBlocks - 1, opens := f.opens.filter fun o => !(o.next.die == die && o.next.block == block) }).modBlock
      die block fun k => { k with used := false, bad := true }
    let s := (here.foldl (fun s x => s.moveOwner x) s).spareCheck
    let n := ((l.filter fun (d, _, _) => d == die).map fun (_, b, _) => b).eraseDups.length
    .next (if 8 ≤ n then s.nandFail die else s)

/-- Write the page that a stripe had on a failed die into another die of its channel (R309). -/
def State.rebuildStripe (s : State) (die : Nat) (t : Stripe) : State :=
  let n := if t.spill then 4 else 1
  let s := (t.pages.filter fun p => p.die != die).foldl (fun s p => s.readNand false n p) s
  match s.logPage t.spill (pkgOf die) n with
  | (none, s) => s
  | (some q, s) =>
    let put (x : Stripe) : Stripe := if x.no == t.no then { x with pages := x.pages.map fun p => if p.die == die then q else p } else x
    s.modFlash fun f => { f with stripes := f.stripes.map put }.startOp q.die

/-- Where the first extent of a page lies now. -/
def Flash.locOf (f : Flash) (pool page : Nat) : Option Nat :=
  f.stripes.findSome? fun t => t.dataPages.findSome? fun x =>
    if (x.2.map fun r => r.spill && r.obj == pool && r.unit == page && r.idx == 0).getD false then some x.1.loc else none

/-- The rebuild of a die (R309): into other dies of its channel, or, when none is left, whole units and pages into new stripes. -/
def State.rebuild (s : State) (die : Nat) : State :=
  let hit (t : Stripe) : Bool := t.pages.any fun p => p.die == die
  let l := s.flash.owners hit
  if s.flash.chans.contains (pkgOf die) then
    let s := (s.flash.stripes.filter hit).foldl (fun s t => s.rebuildStripe die t) s
    (l.filter (·.1)).foldl (fun s x => match s.flash.locOf x.2.1 x.2.2 with
      | some loc => s.setLoc x.2.1 x.2.2 loc
      | none => s) s
  else l.foldl (fun s x => s.moveOwner x) s

/-- NAND_REBUILD_DONE (R309): every stripe is rebuilt, or the spares ran out and the tier is read-only. How many spare blocks the
rebuild took is the log's own layout: a free number. No package that is paused programs (R315). -/
def execNandRebuildDone (die : Nat) (complete : Bool) (s : State) : Host.Outcome State Fault Refusal :=
  if !s.flash.unbuilt.contains die || !s.flash.rebuild || !s.flash.paused.isEmpty then .next s
  else
    let (v, s) := s.draw
    let s := if complete then s.rebuild die else s
    let s := s.modFlash fun f => { f with
      unbuilt := if complete then f.unbuilt.filter fun x => x != die else f.unbuilt
      rebuild := complete && !(f.unbuilt.filter fun x => x != die).isEmpty
      spareBlocks := if complete then v % (f.spareBlocks + 1) else 0 }
    let s := (s.raise .fls 1).spareCheck
    .next (if complete then s else ((s.modFlash fun f => { f with readonly := true }).raise .fls 5).setCause hcFlashRo)

/-! ## Read disturb, age and relocation (R311 to R317) -/

/-- READ_DISTURB_DUE (R311, R317). -/
def execReadDisturbDue (die block reads : Nat) (s : State) : Host.Outcome State Fault Refusal :=
  .next (s.countBlock die block fun k => { k with reads := reads })

/-- Weight of a package temperature (Table 12-2). -/
def ageWeight (t : Nat) : Nat := if t ≤ 40 then 1 else if t ≤ 50 then 2 else if t ≤ 60 then 4 else if t ≤ 70 then 8 else 16

/-- What the 16 package sensors read: free values, at most 85 °C on a package that runs and at least 80 °C on one that is paused. -/
def State.readTemps (s : State) : State :=
  (List.range 16).foldl (fun s p =>
    let (v, s) := s.draw
    s.modFlash fun f => { f with temps := f.temps.set p (if f.paused.contains p then 80 + v % 176 else v % 86) }) s

/-- THERMAL_AGE_TICK (R312, R317): the sensors are read, and the blocks that hold data age. -/
def execThermalAgeTick (minutes : Nat) (s : State) : Host.Outcome State Fault Refusal :=
  let s := s.readTemps
  let old := s.flash.blocks
  let s := s.modFlash fun f => { f with
    blocks := f.blocks.map fun (k : NBlock) => ({ k with age := k.age + minutes * ageWeight (f.temps.getD (pkgOf k.die) 0) } : NBlock).judge }
  .next (s.raiseIf ((old.zip s.flash.blocks).any fun x => !x.1.late && x.2.late) .fls 6)

/-- RELOCATION_DONE (R314): the map units and the spilled pages with a page in the block have new places, in one action each, and the
block is erased; while a page of it is ARRIVING, or on its way out, the block waits for that page. DESIGN CHOICE (log entry 130): a unit
or a page moves whole, with the stripes it lies in. Nothing is programmed or erased on a paused package (R315). -/
def execRelocationDone (die block : Nat) (s : State) : Host.Outcome State Fault Refusal :=
  let hit (t : Stripe) : Bool := t.pages.any fun p => p.die == die && p.block == block
  let l := s.flash.owners hit
  let away := l.any fun x => x.1 && (s.pageOf x.2.1 x.2.2).state != .spilled
  if !nandBlock die block || s.flash.failed.contains die || !s.flash.paused.isEmpty || away then .next s
  else
    let s := (l.foldl (fun s x => s.moveOwner x) s).modFlash fun f => { f with opens := f.opens.filter fun o => !(o.next.die == die && o.next.block == block) }
    .next (if s.flash.stripes.any hit then s
      else (s.modBlock die block fun k => { k with reads := 0, age := 0, due := false, urgent := false, used := false, erases := k.erases + 1 }).modFlash
        fun f => f.startOp die)

/-- NAND_OVERTEMP (R315): programs and erases of the package pause; its sensor reads above 85 °C. -/
def execNandOvertemp (pkg : Nat) (s : State) : Host.Outcome State Fault Refusal :=
  if 16 ≤ pkg then .next s
  else
    let (v, s) := s.draw
    .next ((s.modFlash fun f => { f with paused := addNew f.paused pkg, temps := f.temps.set pkg (86 + v % 170) }).raise .fls 7)

/-- NAND_TEMP_OK (R315): they resume; the sensor reads below 80 °C. -/
def execNandTempOk (pkg : Nat) (s : State) : Host.Outcome State Fault Refusal :=
  if s.flash.paused.contains pkg then
    let (v, s) := s.draw
    .next (s.modFlash fun f => { f with paused := f.paused.filter (fun x => x != pkg), temps := f.temps.set pkg (v % 80) })
  else .next s

/-- FLASH_SCRUB_PASS (R317, R313): a read of one page; eight corrected bits in a codeword make the block due. A block so read is off the
list of the scrub after boot (R542). -/
def execFlashScrubPass (die block corrected : Nat) (s : State) : Host.Outcome State Fault Refusal :=
  .next ((s.countBlock die block fun k => { k with reads := k.reads + 1, due := k.due || decide (8 ≤ corrected) }).modFlash fun f =>
    { f with scrub := f.scrub.filter fun x => x != (die, block) })

end Sys2Proof.Machine
end

