-- ==== Sys2Proof/Machine/Spillway.lean ====
section
/-! DEFINITION. The Spillway of a KV pool (R183 to R189), its endurance quota (R318) and its stalls (R440). -/

namespace Sys2Proof.Machine

open Sys2Proof

/-! ## Candidates (R184, R185) -/

/-- Sequences that map a page of a pool. -/
def State.mappers (s : State) (pool page : Nat) : List Seq :=
  s.seqs.filter fun q => q.pool == pool && !q.closed && q.map.any fun (_, id) => id == page

/-- A sequence is idle after `IDLE_STEPS` module commits without it. -/
def State.idleSeq (s : State) (p : Pool) (q : Seq) : Bool := decide (q.lastCommit + p.idleSteps ≤ s.commitC)

/-- A prefetch entry names the sequence for a step that has not started. -/
def State.scheduled (s : State) (h : Nat) : Bool := s.pfEnts.any fun e => e.kind == 3 && e.obj == h

/-- R184. -/
def State.spillable (s : State) (pool : Nat) (p : Pool) (page : Nat) : Bool :=
  let d := p.page page
  let l := s.mappers pool page
  d.state == .live && d.pins == 0 && !d.spillAct && !l.isEmpty && l.all fun q => s.idleSeq p q && !s.scheduled q.h

/-- The most recently active sequence of a page, and the page's logical number in it. -/
def State.spillKey (s : State) (pool page : Nat) : Nat × Nat :=
  match (s.mappers pool page).foldl (fun (b : Option Seq) q => match b with
      | none => some q
      | some x => if x.lastCommit < q.lastCommit then some q else some x) none with
  | some q => (q.lastCommit, ((q.map.find? fun (_, id) => id == page).map (·.1)).getD 0)
  | none => (0, 0)

/-- The first candidate of R185: least recent sequence, then lowest logical page. DESIGN CHOICE (log entry 129): among sequences that
last took part in one commit the lowest logical page comes first, and of equal pages the first in the pool's list. -/
def State.spillPick (s : State) (pool : Nat) (p : Pool) : Option Nat :=
  let c := ((p.pages.map (·.1)).filter (s.spillable pool p)).map fun id => (s.spillKey pool id, id)
  (c.foldl (fun (b : Option ((Nat × Nat) × Nat)) x => match b with
    | none => some x
    | some y => if x.1.1 < y.1.1 ∨ (x.1.1 = y.1.1 ∧ x.1.2 < y.1.2) then some x else some y) none).map (·.2)

/-! ## Targets (R183, R187, R318) -/

/-- Bytes of spill buffer in use: (offset, bytes) of every page spilled to it or on its way there. -/
def State.bufUsed (s : State) (buf : Nat) : List (Nat × Nat) :=
  s.objs.flatMap fun o => match o.pool with
    | some p =>
      if p.hostBuf = buf then
        (p.pages.filter fun (_, d) => d.spillTier == 1).map (fun (_, d) => (d.spillLoc, p.pageBytes)) ++
          (match p.spillTo with
           | some (1, a) => [(a, p.pageBytes)]
           | _ => [])
      else []
    | none => []

/-- Places of a page in the host buffer: multiples of `PAGE_BYTES` that are free; which one is the module's choice. -/
def State.bufPlaces (s : State) (p : Pool) : List Nat :=
  match s.obj p.hostBuf with
  | some h =>
    if h.kind != .hostbuf || s.down h.hostPort then []
    else ((List.range (h.size / p.pageBytes)).map (· * p.pageBytes)).filter fun a => !(s.bufUsed p.hostBuf).any fun r => overlaps a p.pageBytes r
  | none => []

/-- The quota is spent for the pool's next page (R318). -/
def State.quotaSpent (s : State) (p : Pool) : Bool := decide (s.bucketNow < p.spillExts * bucketExt) || s.flash.quota == 0

/-- The next page's write to flash may start: quota, room in the spill area and a tier that takes writes (R307, R316, R318). -/
def State.flashTakes (s : State) (p : Pool) : Bool :=
  !s.quotaSpent p && !s.flash.readonly && decide ((s.flash.extents + p.spillExts) * 65536 ≤ s.flash.spillGib * gib)

/-- Spilling of a pool stops: stalled until a resume (R187, R440). -/
def State.stall (s : State) (pool : Nat) : State :=
  ({ s.modPool pool (fun p => { p with stalled := true, spilling := false }) with spillPool := pool }).raise .spill 0

/-- The copy-out of a page to a place starts (R186). -/
def State.spillTo (s : State) (pool page tier place : Nat) : State :=
  (s.modPage pool page fun d => { d with spillAct := true }).modPool pool fun p => { p with spillTo := some (tier, place) }

/-- The copy-out of a page to the host buffer, or the pool stalls for room (R187). -/
def State.spillHost (s : State) (pool page : Nat) (p : Pool) : State :=
  match s.choose (s.bufPlaces p) with
  | (some a, s) => s.spillTo pool page 1 a
  | (none, s) => s.stall pool

/-- The copy-out of a page to flash: its whole cost leaves the bucket and its extents go into the log (R307, R318). -/
def State.spillFlash (s : State) (pool page : Nat) (p : Pool) : State :=
  match s.logSpill pool page p.spillExts with
  | some (loc, s) =>
    (s.modFlash fun f => { f with bucket := s.bucketNow - p.spillExts * bucketExt, bucketAt := s.now }).spillTo pool page 2 loc
  | none => s.stall pool

/-- Start the copy-out of the next candidate, one at a time for a pool; or stall; or end at `HIGH_FREE`. A write to flash waits while the
tier is not ready or a package is paused (R315, R503). -/
def State.spillNext (s : State) (pool : Nat) : State :=
  match s.pool pool with
  | none => s
  | some p =>
    if p.target = 0 || p.stalled || p.pages.any (fun (_, d) => d.spillAct) then s
    else if p.highFree ≤ p.freeFrames then s.modPool pool fun p => { p with spilling := false }
    else match s.spillPick pool p with
    | none => s
    | some page =>
      if p.target = 1 then s.spillHost pool page p
      else if !s.flash.ready || !s.flash.paused.isEmpty then s
      else if s.flashTakes p then s.spillFlash pool page p
      else
        let s := s.raiseIf (s.quotaSpent p) .fls 3
        if p.fallback && p.hostBuf != 0 then s.spillHost pool page p else s.stall pool

/-- SPILL_START (R185). -/
def execSpillStart (pool : Nat) (s : State) : Host.Outcome State Fault Refusal :=
  match s.pool pool with
  | none => .next s
  | some p =>
    if p.target = 0 || p.stalled || !(p.spilling || decide (p.freeFrames < p.lowFree)) then .next s
    else .next ((s.modPool pool fun p => { p with spilling := true }).spillNext pool)

/-! ## The end of a copy-out (R186) -/

/-- The spill space of a copy-out in progress is released (R186). -/
def State.spillEnd (s : State) (pool page : Nat) : State :=
  let p := s.pool pool
  let s := (s.modPage pool page fun d => { d with spillAct := false }).modPool pool fun p => { p with spillTo := none }
  match p.bind (·.spillTo) with
  | some (1, _) => s.hostRoom ((p.map (·.hostBuf)).getD 0)
  | some _ => s.modFlash fun f => f.dropExt pool page
  | none => s

/-- Write a page's bytes to its place; none when the host does not take them or the flash tier takes no writes. -/
def State.spillWrite (s : State) (p : Pool) (pool page tier place : Nat) (bytes : List Byte) : Option State :=
  if tier = 1 then
    match s.obj p.hostBuf with
    | some h => if h.kind != .hostbuf || s.down h.hostPort then none else some (s.hostWrite h.hostPort (h.hostAddr + place) bytes).1
    | none => none
  else if s.flash.readonly then none
  else
    let x : SpillExt := { pool := pool, page := page, loc := place, n := p.spillExts, bytes := bytes }
    some (s.modFlash fun f => { f with spills := f.spills ++ [x] })

/-- SPILL_WRITE_DONE: the page becomes SPILLED and gives its frame back; a pin taken meanwhile, or a page no longer mapped, keeps it
as it is and releases the spill space. A write that fails releases it too and stops spilling. The next candidate follows. -/
def execSpillWriteDone (pool page : Nat) (s : State) : Host.Outcome State Fault Refusal :=
  match s.obj pool with
  | none => .next s
  | some o =>
    match o.pool with
    | none => .next s
    | some p =>
      let d := p.page page
      match p.spillTo with
      | none => .next s
      | some (tier, place) =>
        if !d.spillAct || (tier == 2 && (!s.flash.ready || !s.flash.paused.isEmpty)) then .next s
        else if d.pins != 0 || d.refcnt == 0 || d.state != .live then .next (((s.spillEnd pool page).settlePage pool page).spillNext pool)
        else
          let bytes := Memory.read s.mem (o.frameAddr p d.frame 0) p.pageBytes
          match s.spillWrite p pool page tier place bytes with
          | none => .next (if tier = 1 then (s.spillEnd pool page).stall pool else (s.spillEnd pool page).spillNext pool)
          | some s =>
            .next (((s.modPage pool page fun d => { d with
              spillAct := false, state := .spilled, spillTier := tier, spillLoc := place, spillCrc := crc32c bytes, retried := false, lost := false }).modPool pool fun p => { p with spillTo := none }).spillNext pool)

/-! ## Returns (R188, R189) -/

/-- Order of a prefetch return: the step that its entry names, then the logical page. -/
def State.prefetchKey (s : State) (pool page : Nat) : Nat × Nat :=
  let l := (s.mappers pool page).flatMap fun q =>
    (s.pfEnts.filter fun e => e.kind == 3 && e.obj == q.h).map fun e => (e.stepId, ((q.map.find? fun (_, id) => id == page).map (·.1)).getD 0)
  l.foldl (fun (b : Nat × Nat) x => if x.1 < b.1 ∨ (x.1 = b.1 ∧ x.2 < b.2) then x else b) (2 ^ 64, 0)

/-- The SPILLED pages of a pool that a prefetch entry asks for: those of the sequences it names (R188). -/
def State.prefetchList (s : State) (pool : Nat) (p : Pool) : List Nat :=
  ((p.pages.map (·.1)).filter fun id => (p.page id).state == .spilled && (s.mappers pool id).any fun q => s.scheduled q.h)

/-- The next page to return: demand returns in order of request, then the prefetch returns, after every triggered entry (R188, R299). -/
def State.nextReturn (s : State) (pool : Nat) (p : Pool) : Option Nat :=
  match p.demand.find? fun id => (p.page id).state == .spilled with
  | some id => some id
  | none =>
    (((s.prefetchList pool p).filter fun id => !((p.page id).spillTier == 2 && s.after true (s.pfNo + 1))).foldl (fun (b : Option Nat) id => match b with
      | none => some id
      | some x =>
        let kx := s.prefetchKey pool x
        let k := s.prefetchKey pool id
        if k.1 < kx.1 ∨ (k.1 = kx.1 ∧ k.2 < kx.2) then some id else some x) none)

/-- PAGE_RETURN_START: the next page asked for takes a free frame; without one the return waits. A demand return from flash suspends what
its dies program or erase (R303). -/
def execPageReturnStart (pool page : Nat) (s : State) : Host.Outcome State Fault Refusal :=
  match s.pool pool with
  | none => .next s
  | some p =>
    let p := { p with demand := p.demand.filter fun id => (p.page id).state == .spilled }
    let s := s.modPool pool fun _ => p
    if (s.nextReturn pool p) == some page then
      match s.choose p.freeFrameList with
      | (some f, s) =>
        let s := if (p.page page).spillTier = 2 then s.readExt (p.demand.contains page) pool page else s
        .next ((s.modPage pool page fun d => { d with frame := f, state := .arriving }).modPool pool fun p => { p with
          demand := p.demand.filter fun x => x != page })
      | (none, s) => .next s
    else .next s

/-- The bytes of a spilled page as its place gives them; none when it cannot be reached. -/
def State.spillRead (s : State) (pool : Nat) (p : Pool) (page : Nat) : Option (List Byte) :=
  let d := p.page page
  if d.spillTier = 1 then (s.obj p.hostBuf).bind fun h => s.hostRead h.hostPort (h.hostAddr + d.spillLoc) p.pageBytes
  else if d.spillTier = 2 then (s.flash.spills.find? fun x => x.pool == pool && x.page == page).map (·.bytes)
  else none

/-- A step waits on a page: for the copy of a tail, or with an ATTN tile whose range holds it (R189). -/
def State.needsPage (s : State) (t : Step) (pool page : Nat) : Bool :=
  t.copies.any (fun c => !c.done && c.pool == pool && c.src == page) ||
  s.dies.any fun d => d.tiles.any fun e => e.slot == t.slot && e.role == 2 && !e.nop && e.state == .waiting &&
    (match s.seqOf (fld e.args 0 4) with
     | some q => q.pool == pool && q.map.any fun (lp, id) => id == page && decide (fld e.args 12 4 ≤ lp) && decide (lp < fld e.args 12 4 + fld e.args 16 2)
     | none => false)

/-- The place of a spilled page is free again. -/
def State.dropSpill (s : State) (pool page : Nat) : State :=
  let d := s.pageOf pool page
  let s := s.modPage pool page fun d => { d with spillTier := 0, retried := false }
  if d.spillTier = 1 then s.hostRoom (((s.pool pool).map (·.hostBuf)).getD 0)
  else s.modFlash fun f => f.dropExt pool page

/-- A page is lost: the steps that wait on it fail with KV_LOST, naming the page, and it stays SPILLED (R189). -/
def State.loseKv (s : State) (pool page : Nat) : State :=
  let s := (s.modPage pool page fun d => { d with state := .spilled, retried := false, lost := true }).raise .spill 2
  s.steps.foldl (fun s t => if t.killing.isNone && s.needsPage t pool page then (s.blame t.slot (.page pool page)).failStep t.slice t.id stKvLost else s) s

/-- PAGE_RETURN_DONE (R189): bytes that match `SPILL_CRC` make the page LIVE, or RETIRING when nothing maps it any more; else they are
read once more, and then the page is lost. -/
def execPageReturnDone (pool page : Nat) (readOk : Bool) (s : State) : Host.Outcome State Fault Refusal :=
  match s.obj pool with
  | none => .next s
  | some o =>
    match o.pool with
    | none => .next s
    | some p =>
      let d := p.page page
      if d.state != .arriving then .next s
      else if d.refcnt == 0 && !d.perm then
        .next (((s.modPage pool page fun d => { d with state := .retiring }).dropSpill pool page).settlePage pool page)
      else match s.spillRead pool p page with
      | none => .next (s.loseKv pool page)
      | some b =>
        if readOk && crc32c b == d.spillCrc then
          let s := s.modWrite (o.frameAddr p d.frame 0) b
          let s := (s.modPage pool page fun d => { d with state := .live }).dropSpill pool page
          .next ((s.steps.map (·.slot)).foldl (fun s j => s.wakeCopy j) s)
        else if d.retried then .next (s.loseKv pool page)
        else .next ((if d.spillTier = 2 then s.readExt false pool page else s).modPage pool page fun d => { d with retried := true })

/-- QUOTA_RETURN (R318, R440): the bucket holds the next page's cost again, and a stalled pool's Spillway resumes. -/
def execQuotaReturn (pool : Nat) (s : State) : Host.Outcome State Fault Refusal :=
  match s.pool pool with
  | none => .next s
  | some p =>
    if p.stalled && p.target == 2 && s.flash.ready && s.flashTakes p then
      .next ((({ s.modPool pool (fun p => { p with stalled := false, spilling := true }) with spillPool := pool }).raise .spill 1).spillNext pool)
    else .next s

end Sys2Proof.Machine
end

