-- ==== Sys2Proof/Machine/Links.lean ====
section
/-! DEFINITION. Chanex links and optical ports (spec/14_chanex_links.md): flits, retry, credits, training, the neighbour check, failover,
bundles; and the router with its transit budgets (R370, R373, R374). -/

namespace Sys2Proof.Machine

open Sys2Proof

/-! ## Sending (R346, R349, R356) -/

/-- Flits of a packet: pieces of 256 payload bytes. -/
def pktFlits (p : Packet) : Nat := max 1 ((p.hdr.len + 255) / 256)

/-- DATA flits that the replay buffer of a link holds. -/
def replayCap (i : Nat) : Nat := if i < 28 then 1024 else 2048

/-- `ACK` of a link: the last DATA flit received in order. -/
def Link.ackNo (l : Link) : Nat := (l.rxNext + 4095) % 4096

/-! ### The 264 bytes of a flit (Tables 14-2, 14-3, 14-5, 15-2) -/

/-- The 16 bytes of a route header. -/
def routeHdrBytes (h : RouteHdr) : List Byte :=
  leBytes 1 (h.dst % 64) ++ leBytes 1 (pack [(0, 6, h.src), (6, 1, h.bank), (7, 1, boolNat h.xt)]) ++ leBytes 2 (h.srcGsn % 512) ++
  leBytes 2 (pack [(0, 9, h.dstGdn), (9, 4, h.hops)]) ++ leBytes 2 h.tag ++ leBytes 3 h.len ++ leBytes 1 0 ++ leBytes 2 h.pseq ++ leBytes 2 0

/-- A flit of a type (0 DATA, 1 LINK) with its payload and CRC. -/
def flitBytes (seq ack cls type : Nat) (payload : List Byte) : List Byte :=
  let b := leBytes 4 (pack [(0, 12, seq), (12, 12, ack), (24, 2, cls), (26, 2, type)]) ++ padTo 256 payload
  b ++ leBytes 4 (crc32c b)

/-- A DATA flit carries the next 256 bytes of its packet, header first. -/
def flitWire (f : Flit) : List Byte :=
  flitBytes f.seq f.ack f.cls 0 (((routeHdrBytes f.pkt.hdr ++ f.pkt.bytes).drop (256 * f.part)).take 256)

/-- The contents of an IDENT. -/
def identBytes (x : Ident) : List Byte :=
  leBytes 1 (x.coord % 64) ++ leBytes 1 (x.link % 32) ++ leBytes 1 (pack [(0, 2, x.bkind), (2, 3, x.bdim)]) ++ leBytes 1 (x.foldMask % 64) ++
  leBytes 4 x.rack ++ leBytes 8 x.serial.toNat ++ leBytes 16 0

/-- The payload of a LINK flit. -/
def linkPayload (lkind : Nat) (cred : List Nat) (nakSeq : Nat) (ident : List Byte) : List Byte :=
  leBytes 1 lkind ++ leBytes 3 0 ++ (padTo 6 (cred.flatMap (leBytes 2))) ++ leBytes 2 nakSeq ++ padTo 32 ident

/-- Send a DATA flit with the present `ACK`; an IDENT; a NAK; the cumulative credits. Every flit acknowledges (R346). -/
def State.sendData (s : State) (i : Nat) (f : Flit) : State :=
  let f := { f with ack := (s.link i).ackNo }
  s.emit (.flit i f (flitWire f))

def State.sendIdent (s : State) (i : Nat) (x : Ident) : State :=
  s.emit (.ident i x (flitBytes 0 (s.link i).ackNo 0 1 (linkPayload 3 [] 0 (identBytes x))))

def State.emitNak (s : State) (i : Nat) : State :=
  let l := s.link i
  s.emit (.nak i l.rxNext (flitBytes 0 l.ackNo 0 1 (linkPayload 2 [] l.rxNext [])))

def State.sendCredit (s : State) (i : Nat) : State :=
  let l := s.link i
  let s := s.emit (.credit i (l.rel.getD 0 0) (l.rel.getD 1 0) (l.rel.getD 2 0) (flitBytes 0 l.ackNo 0 1 (linkPayload 1 l.rel 0 [])))
  s.modLink i fun l => { l with owed := [0, 0, 0] }

/-- The first held packet of a class. -/
def Link.front (l : Link) (cls : Nat) : Option Packet := l.held.find? fun p => p.cls == cls

/-- The class can send a flit: a packet waits and a credit is left (R349, R350). -/
def Link.ready (l : Link) (cls : Nat) : Bool := (l.front cls).isSome && decide (0 < l.cred.getD cls 0)

/-- The class whose turn it is: CONTROL first; TILE and BULK 3 to 1 while both wait; a class with nothing waiting or without credit leaves
its share (R23, R350). -/
def Link.turn (l : Link) : Option Nat :=
  if l.ready 0 then some 0
  else if l.ready 1 && l.ready 2 then some (if l.share.1 ≤ 3 * l.share.2 + 2 then 1 else 2)
  else if l.ready 1 then some 1 else if l.ready 2 then some 2 else none

/-- One flit of a class goes out; with its last flit a packet leaves the queue. The shares count while TILE and BULK both wait. -/
def Link.sendFlit (l : Link) (p : Packet) : Link × Flit :=
  let part := l.parts.getD p.cls 0
  let done := part + 1 == pktFlits p
  let f : Flit := { seq := l.txSeq, ack := l.ackNo, cls := p.cls, part := part, pkt := p }
  let both := l.ready 1 && l.ready 2
  let share := if !both then (0, 0) else if p.cls = 1 then (l.share.1 + 1, l.share.2) else if p.cls = 2 then (l.share.1, l.share.2 + 1) else l.share
  ({ l with held := if done then l.held.erase p else l.held, parts := l.parts.set p.cls (if done then 0 else part + 1), share := share,
            txSeq := (l.txSeq + 1) % 4096, unacked := l.unacked ++ [f], cred := l.cred.set p.cls (l.cred.getD p.cls 0 - 1) }, f)

/-- Send flits, each of the class whose turn it is, while the link is UP and the replay buffer has room; within a class in order. -/
def State.sendHeld (s : State) (i : Nat) : Nat → State
  | 0 => s
  | n + 1 =>
    let l := s.link i
    if l.state != .up || decide (replayCap i ≤ l.unacked.length) then s
    else match l.turn.bind l.front with
    | none => s
    | some p =>
      let x := l.sendFlit p
      ((s.modLink i fun _ => x.1).sendData i x.2).sendHeld i n

/-- Everything that a link can send now. -/
def State.pump (s : State) (i : Nat) : State := s.sendHeld i (((s.link i).held.map pktFlits).foldl (· + ·) 0)

/-- A packet leaves on a bundle, on the link that R356 gives it. -/
def State.sendOn (s : State) (b : Nat) (p : Packet) : State :=
  match s.linkFor b p.hdr.srcGsn p.hdr.dstGdn with
  | some i => (s.modLink i fun l => { l with held := l.held ++ [p] }).pump i
  | none => s

/-- The same, ahead of what the link holds: packets of a failed link (R358). A packet that the link has begun to send stays in front. -/
def State.sendFirst (s : State) (b : Nat) (ps : List Packet) : State :=
  ps.reverse.foldl (fun s p =>
    match s.linkFor b p.hdr.srcGsn p.hdr.dstGdn with
    | some i => s.modLink i fun l =>
        let begun := if l.parts.getD p.cls 0 = 0 then [] else (l.front p.cls).toList
        { l with held := begun ++ p :: l.held.filter fun q => !begun.contains q }
    | none => s) s

/-! ## The router (R370, R373, R374) -/

def State.dropMask (s : State) : State :=
  ({ s with router := { s.router with maskDrop := satAdd 16 s.router.maskDrop 1 } }).raise .rte 6

def State.dropForeign (s : State) : State :=
  ({ s with router := { s.router with foreignDrop := satAdd 16 s.router.foreignDrop 1 } }).raise .rte 6

/-- Forward over a bundle: one link more crossed; beyond 7 the packet is dropped (R370). -/
def State.forward (s : State) (b : Nat) (p : Packet) : State :=
  if 7 ≤ p.hdr.hops then s.dropForeign else s.sendOn b { p with hdr := { p.hdr with hops := p.hdr.hops + 1 } }

/-- Bytes of a tag that the window has carried on a bundle. -/
def Router.usedOn (r : Router) (tag b : Nat) : Nat := ((r.used.filter fun (t, d, _) => t == tag && d == b).map fun (_, _, n) => n).foldl (· + ·) 0

/-- Bytes of the first waiting packet of a tag on a bundle that earlier windows have carried. -/
def Router.partOn (r : Router) (tag b : Nat) : Nat := ((r.part.find? fun (t, d, _) => t == tag && d == b).map fun (_, _, n) => n).getD 0

/-- Count bytes of a tag on a bundle in this window, and how much of the first waiting packet is through. -/
def Router.spend (r : Router) (tag b n part : Nat) : Router :=
  { r with used := r.used ++ [(tag, b, n)], part := (r.part.filter fun (t, d, _) => !(t == tag && d == b)) ++ (if part = 0 then [] else [(tag, b, part)]) }

/-- A packet of a tag that the module has not joined (R373): forwarded once the budgets of the windows have carried all its bytes, held
till then, or dropped. The flag says whether it waits. -/
def State.transit (s : State) (p : Packet) : State × Bool :=
  match assocGet s.router.transit p.hdr.tag, dimHop s.coord.coord p.hdr.dst with
  | some tb, some d =>
    let lim := tb.getD d 0 * 1000
    let waits := s.router.heldT.any fun (_, q) => q.hdr.tag == p.hdr.tag && dimHop s.coord.coord q.hdr.dst == some d
    let got := s.router.partOn p.hdr.tag d
    let left := lim - s.router.usedOn p.hdr.tag d
    if lim = 0 then (s.dropForeign, false)
    else if waits then (s, true)
    else if p.hdr.len - got ≤ left then (({ s with router := s.router.spend p.hdr.tag d (p.hdr.len - got) 0 }).forward d p, false)
    else ({ s with router := s.router.spend p.hdr.tag d left (got + left) }, true)
  | _, _ => (s.dropForeign, false)

/-- A packet of a joined slice that is not for this module: its bundle by R370, or none where it is dropped, and the packet with `XT`. -/
def State.nextHop (s : State) (h : Nat) (p : Packet) : Option (Nat × Packet) :=
  let x := s.slc h
  match x.rt.getD (if p.hdr.bank = 0 then 0 else 1) none with
  | none => none
  | some t =>
    let n := t.next.getD p.hdr.dst 0xF
    if n = 0xF then none
    else
      let b := if p.hdr.hops = 0 then some n else dimHop s.coord.coord p.hdr.dst
      b.bind fun b =>
        if 6 < b then none
        else if bitOf t.mask (s.bundlePeer b) then some (b, p)
        else if x.union && x.transit && decide (b < 6) then some (b, { p with hdr := { p.hdr with xt := true } })
        else none

/-- Handle a packet in the router; it came in on link `i` (30: from a die of the module). The flag says whether it waits here for a
transit window. -/
def State.routePacket (s : State) (p : Packet) : State × Bool :=
  match s.sliceOfTag p.hdr.tag with
  | none => s.transit p
  | some h =>
    if p.hdr.dst = s.coord.coord then (s.emit (.deliver (p.hdr.dstGdn % 8) p), false)
    else match s.nextHop h p with
    | some (b, p) => (s.forward b p, false)
    | none => (s.dropMask, false)

/-- Route a packet, or keep it for the next window with the link that it came in on. -/
def State.route (s : State) (i : Nat) (p : Packet) : State × Bool :=
  let (s, waits) := s.routePacket p
  if waits then (({ s with router := { s.router with heldT := s.router.heldT ++ [(i, p)] } }).raise .rte 7, true) else (s, false)

/-- PACKET_ROUTE: a packet of the module's own dies comes to the router. -/
def execPacketRoute (p : Packet) (s : State) : Host.Outcome State Fault Refusal := .next (s.route 30 p).1

/-- Flits that an `ACK` covers leave the replay buffer. -/
def Link.acked (l : Link) (ack : Nat) : Link :=
  match l.unacked.findIdx? fun f => f.seq == ack with
  | some k => { l with unacked := l.unacked.drop (k + 1), inRow := 0 }
  | none => l

/-- The `ACK` that a flit of any type brings (R346): the room it makes in the replay buffer of an UP link lets waiting flits go. -/
def State.ackIn (s : State) (i ack : Nat) : State :=
  let s := s.modLink i fun l => l.acked ack
  if (s.link i).state == .up then s.pump i else s

/-! ## Credits (R349) -/

/-- Return the credits of a packet's flits to its sender; 64 owed send a CREDIT flit at once. -/
def State.giveBack (s : State) (i cls n : Nat) : State :=
  let s := s.modLink i fun l => { l with rel := l.rel.set cls ((l.rel.getD cls 0 + n) % 65536), owed := l.owed.set cls (l.owed.getD cls 0 + n) }
  let l := s.link i
  if l.owed.any fun x => decide (64 ≤ x) then
    s.sendCredit i
  else s

/-- Flits of the receiver's buffer of a class (R349). -/
def rxBuf (cls : Nat) : Nat := [64, 1024, 512].getD cls 0

/-- Credits that a packet still holds when its last flit has come: a packet longer than the buffer gives them back flit by flit. -/
def heldCred (p : Packet) : Nat := if rxBuf p.cls < pktFlits p then 1 else pktFlits p

/-- CREDIT_TIMER: 1 µs with any credit owed. -/
def execCreditTimer (link : Nat) (s : State) : Host.Outcome State Fault Refusal :=
  .next (if (s.link link).owed.any fun x => decide (0 < x) then s.sendCredit link else s)

/-- CREDIT_RECEIVED: cumulative counts, modulo 65,536. -/
def execCreditReceived (rx : RxHead) (c0 c1 c2 : Nat) (s : State) : Host.Outcome State Fault Refusal :=
  let up (l : Link) (k c : Nat) : Nat := l.cred.getD k 0 + (c + 65536 - l.credSeen.getD k 0) % 65536
  .next (((s.ackIn rx.link rx.ack).modLink rx.link fun l => { l with
    cred := [up l 0 (c0 % 65536), up l 1 (c1 % 65536), up l 2 (c2 % 65536)]
    credSeen := [c0 % 65536, c1 % 65536, c2 % 65536] }).pump rx.link)

/-- TRANSIT_WINDOW (R374): the budgets start again and packets that waited go on in order, returning their credits. -/
def execTransitWindow (s : State) : Host.Outcome State Fault Refusal :=
  let l := s.router.heldT
  let s := { s with router := { s.router with used := [], heldT := [] } }
  .next (l.foldl (fun s (i, p) =>
    let (s, waits) := s.route i p
    if waits || decide (30 ≤ i) then s else s.giveBack i p.cls (heldCred p)) s)

/-! ## Links going down and coming up -/

/-- Slices whose routes cross a bundle stop with cause 2: it has no live link left (R358, R378). -/
def State.bundleLost (s : State) (b : Nat) : State :=
  if b < 7 && (s.liveLinks b).isEmpty then
    (List.range 8).foldl (fun s h => if (s.routeBundles h).contains b then s.stopJob h 2 s.coord.coord else s) s
  else s

/-- BUNDLE_SET commands complete once each changed link is UP, MISWIRE or FAILED (R355). -/
def State.bundleChecks (s : State) : State :=
  let settled (i : Nat) : Bool := match (s.link i).state with
    | .up | .miswire | .failed | .disabled => true
    | _ => false
  let (fin, wait) := s.bundleW.partition fun (_, l) => l.all settled
  s.bundleW.foldl (fun s (r, l) => if l.all settled then s.finish r stOK else s) { s with bundleW := if fin.isEmpty then s.bundleW else wait }

/-- A link leaves service for a state: `DOWN` when it was UP. -/
def State.linkTo (s : State) (i : Nat) (st : LState) : State :=
  let was := (s.link i).state == .up
  (s.modLink i fun l => { l with state := st }).raiseIf was (.lnk i) 1

/-- A link starts afresh: both ends begin at sequence 0 with every credit. -/
def Link.fresh (l : Link) : Link :=
  { l with unacked := [], held := [], parts := [0, 0, 0], share := (0, 0), txSeq := 0, rxNext := 0, nakSent := false, inRow := 0, cred := [64, 1024, 512], credSeen := [0, 0, 0],
           rel := [0, 0, 0], owed := [0, 0, 0], lanes := 0, pol := 0, reversed := false, narrow := false, peer := none }

/-- The same in the state: packets that came in on the link and wait for a transit window no longer hold its credits. -/
def State.freshLink (s : State) (i : Nat) : State :=
  ({ s with router := { s.router with heldT := s.router.heldT.map fun x => if x.1 == i then (30, x.2) else x } } : State).modLink i Link.fresh

/-- Train a link again from the start, at full width. -/
def State.retrain (s : State) (i : Nat) : State :=
  (((s.linkTo i .train).freshLink i).narrowCause).bundleChecks

/-- A link is FAILED or off (R358): its traffic goes to the other links of the bundle, whole packets again, in order and first. -/
def State.linkGone (s : State) (i : Nat) (st : LState) : State :=
  let l := s.link i
  let again := ((l.unacked.map (·.pkt)).eraseDups).filter fun p => !l.held.contains p
  let s := (s.linkTo i st).freshLink i
  let s := if i < 28 then s.sendFirst l.bundle (again ++ l.held) else s
  let s := (s.liveLinks l.bundle).foldl (fun s j => s.pump j) s
  ((s.narrowCause).bundleLost l.bundle).bundleChecks

/-- LINK_FAIL (R358): a failed link of any kind, with its event, cause and Still class. -/
def State.linkFail (s : State) (i : Nat) : State :=
  match (s.link i).state with
  | .failed | .disabled | .waitCoord => s
  | _ => ((s.linkGone i .failed).raise (.lnk i) 3).faultTrigger 3

def execLinkFail (link : Nat) (s : State) : Host.Outcome State Fault Refusal := .next (s.linkFail link)

/-! ## Receiving DATA (R347, R348, R358, R360) -/

/-- The key of the duplicate check. -/
def pktKey (p : Packet) : Nat × Nat × Nat × Nat := (p.hdr.srcGsn, p.hdr.dstGdn, p.cls, p.hdr.pseq)

/-- Remember a delivered packet: the latest 2,048 of its source, destination and class. -/
def Router.remember (r : Router) (k : Nat × Nat × Nat × Nat) : Router :=
  let mine := r.seen.filter fun x => x.1 == k.1 && x.2.1 == k.2.1 && x.2.2.1 == k.2.2.1
  let other := r.seen.filter fun x => !(x.1 == k.1 && x.2.1 == k.2.1 && x.2.2.1 == k.2.2.1)
  { r with seen := other ++ (mine ++ [k]).drop (mine.length + 1 - 2048) }

/-- The last piece of a packet has come: replica traffic only on an optical port; a duplicate is discarded; else it is routed. -/
def State.takePacket (s : State) (i : Nat) (p : Packet) : State :=
  if 28 ≤ i then
    if p.kind == .tileReq || p.kind == .tileData then (s.emit (.deliver 8 p)).giveBack i p.cls (heldCred p)
    else ((s.modLink i fun l => { l with foreignCnt := satAdd 16 l.foreignCnt 1 }).raise (.lnk i) 7).giveBack i p.cls (heldCred p)
  else if s.router.seen.contains (pktKey p) then
    (s.modLink i fun l => { l with dupCnt := satAdd 16 l.dupCnt 1 }).giveBack i p.cls (heldCred p)
  else
    let s := { s with router := s.router.remember (pktKey p) }
    let (s, waits) := s.route i p
    if waits then s else s.giveBack i p.cls (heldCred p)

/-- One NAK for each gap (R347). -/
def State.sendNak (s : State) (i : Nat) : State :=
  if (s.link i).nakSent then s else (s.emitNak i).modLink i fun l => { l with nakSent := true }

/-- DATA_FLIT_RECEIVED. Whether a flit that is not intact failed in the FEC code or in its CRC alone the event does not say: a free
choice decides whether `UNCORR` counts it; so does one whether the flit brings the next thousand of corrected codewords to `CORR`. -/
def execDataFlitReceived (link : Nat) (f : Flit) (intact : Bool) (s : State) : Host.Outcome State Fault Refusal :=
  let l := s.link link
  if l.state != .up then .next s
  else if !intact then
    let (v, s) := s.draw
    .next ((s.modLink link fun l => { l with uncorr := if v % 2 = 1 then satAdd 16 l.uncorr 1 else l.uncorr }).sendNak link)
  else
    let (v, s) := (s.ackIn link f.ack).draw
    let s := s.modLink link fun l => { l with corr := if v % 2 = 1 then satAdd 16 l.corr 1 else l.corr }
    if f.seq = l.rxNext then
      let s := s.modLink link fun l => { l with rxNext := (l.rxNext + 1) % 4096, nakSent := false }
      .next (if 3 ≤ f.cls then s
        else if f.part + 1 = pktFlits f.pkt then s.takePacket link f.pkt
        else if rxBuf f.cls < pktFlits f.pkt then s.giveBack link f.cls 1 else s)
    else if (f.seq + 4096 - l.rxNext) % 4096 < 2048 then .next (s.sendNak link)
    else .next s

/-- Send unacknowledged flits again from one on (R347); the eighth replay in a row of one flit fails the link (R358). -/
def State.replay (s : State) (i : Nat) (fs : List Flit) : State :=
  match fs with
  | [] => s
  | _ =>
    let s := fs.foldl (fun s f => s.sendData i f) s
    let s := s.modLink i fun l => { l with replays := satAdd 32 l.replays fs.length, inRow := l.inRow + 1 }
    if 8 ≤ (s.link i).inRow then s.linkFail i else s

def execNakReceived (rx : RxHead) (nakSeq : Nat) (s : State) : Host.Outcome State Fault Refusal :=
  let s := s.modLink rx.link fun l => l.acked rx.ack
  let l := s.link rx.link
  .next (if l.state == .up then (s.replay rx.link (l.unacked.dropWhile fun f => f.seq != nakSeq)).pump rx.link else s)

/-- ACK_TIMEOUT: as a NAK for the first unacknowledged flit. -/
def execAckTimeout (link : Nat) (s : State) : Host.Outcome State Fault Refusal :=
  .next (if (s.link link).state == .up then s.replay link (s.link link).unacked else s)

/-! ## Training and the neighbour check (R352 to R354, R357) -/

/-- What the module's own IDENT says of a link. -/
def State.ownIdent (s : State) (i : Nat) : Ident :=
  { coord := s.coord.coord, link := i, bkind := bundleKind (s.link i).bundle, bdim := bundleDim (s.link i).bundle, foldMask := s.coord.foldMask,
    rack := s.coord.rack, serial := s.sec.serial }

/-- R354. -/
def State.identPasses (s : State) (i : Nat) (p : Ident) : Bool :=
  let own := s.ownIdent i
  if 28 ≤ i then p.coord == own.coord && p.rack != own.rack
  else p.bkind == own.bkind && (own.bkind != 0 || p.bdim == own.bdim) && p.coord == s.bundlePeer (s.link i).bundle

/-- Lowest `n` lanes of a mask. -/
def lowLanes (mask n : Nat) : Nat := ((((List.range 8).filter fun k => bitOf mask k).take n).map fun k => 2 ^ k).foldl (· + ·) 0

def laneCount (mask : Nat) : Nat := ((List.range 8).filter fun k => bitOf mask k).length

/-- LINK_TRAIN_DONE (R353, R357): lanes, polarity and order are reported and IDENT goes out; with too few good lanes the link fails. -/
def execLinkTrainDone (link good pol : Nat) (reversed : Bool) (s : State) : Host.Outcome State Fault Refusal :=
  let l := s.link link
  let full := if link < 28 then 4 else 8
  let good := good % 2 ^ full
  let fast := l.state == .retrain && l.lanes == 0
  if l.state != .train && !fast then .next s
  else if laneCount good < full / 2 then .next (s.linkFail link)
  else
    let wide := !fast && laneCount good == full
    let set (l : Link) : Link := { l with lanes := if wide then good else lowLanes good (full / 2), narrow := !wide, pol := pol % 2 ^ full, reversed := reversed,
                                          state := if fast then .retrain else .check }
    let s := s.modLink link set
    .next ((s.sendIdent link (s.ownIdent link)).narrowCause)

/-- LINK_TRAIN_TIMEOUT: training starts again after 1 s; a fast retrain that does not end fails the link. -/
def execLinkTrainTimeout (link : Nat) (s : State) : Host.Outcome State Fault Refusal :=
  let l := s.link link
  .next (if l.state == .retrain then s.linkFail link else s)

/-- A link passes its check: UP; after a fast retrain it replays and sends what it held (R357). -/
def State.linkUp (s : State) (i : Nat) : State :=
  let fast := (s.link i).state == .retrain
  let s := (s.modLink i fun l => { l with state := .up }).raise (.lnk i) 0
  let s := if fast then (s.link i).unacked.foldl (fun s f => s.sendData i f) ((s.raise (.lnk i) 2).faultTrigger 3) else s
  let s := if fast then s.modLink i fun l => { l with replays := satAdd 32 l.replays l.unacked.length } else s
  ((s.pump i).narrowCause).bundleChecks

/-- IDENT_RECEIVED: the peer is kept; in CHECK it decides between UP and MISWIRE, after a fast retrain between UP and FAILED. -/
def execIdentReceived (rx : RxHead) (i : Ident) (s : State) : Host.Outcome State Fault Refusal :=
  let link := rx.link
  let s := s.ackIn link rx.ack
  let l := s.link link
  let s := match l.state with
    | .check | .retrain | .miswire | .up => s.modLink link fun l => { l with peer := some i }
    | _ => s
  match l.state with
  | .check =>
    .next (if s.identPasses link i then s.linkUp link
      else (((s.modLink link fun l => { l with state := .miswire }).raise (.lnk link) 4).bundleChecks))
  | .retrain => .next (if l.lanes == 0 then s else if s.identPasses link i then s.linkUp link else s.linkFail link)
  | _ => .next s

/-- MISWIRE_RECHECK: the IDENT goes out again, and the last one received decides. -/
def execMiswireRecheck (link : Nat) (s : State) : Host.Outcome State Fault Refusal :=
  let l := s.link link
  if l.state != .miswire then .next s
  else
    let s := s.sendIdent link (s.ownIdent link)
    .next (match l.peer with
      | some p => if s.identPasses link p then s.linkUp link else s
      | none => s)

/-- LANE_FAULT (R357): a fast retrain on half the lanes; in a narrowed link it fails the link. Whether the error ratio or a lost signal
was the symptom the event does not say: a free choice decides `FEC_HIGH`. -/
def execLaneFault (link lane : Nat) (s : State) : Host.Outcome State Fault Refusal :=
  let l := s.link link
  if l.state != .up || !bitOf l.lanes lane then .next s
  else
    let (v, s) := s.draw
    let s := s.raiseIf (v % 2 == 1) (.lnk link) 5
    if l.narrow then .next (s.linkFail link)
    else .next ((s.linkTo link .retrain).modLink link fun l => { l with lanes := 0 })

/-! ## Retries and returns (R359) -/

/-- LINK_RETRY_TIMER: a FAILED link is tried again; it rejoins only while no slice routes over its bundle. -/
def execLinkRetryTimer (link : Nat) (s : State) : Host.Outcome State Fault Refusal :=
  .next (if (s.link link).state == .failed && !s.routedLink link then s.retrain link else s)

/-- LINK_RESTORE: no slice routes over the bundle any more; a narrowed link trains at full width and a FAILED one once more. -/
def execLinkRestore (link : Nat) (s : State) : Host.Outcome State Fault Refusal :=
  let l := s.link link
  .next (if !s.routedLink link && (l.state == .failed || (l.state == .up && l.narrow)) then s.retrain link else s)

/-- A write of `RETRAIN` (LNK_CTL): at once, or ignored while a slice routes over the bundle. -/
def State.lnkRetrain (s : State) (link : Nat) : State :=
  match (s.link link).state with
  | .disabled | .waitCoord => s
  | _ => if s.routedLink link then s.raise (.lnk link) 6 else s.retrain link

def execLnkRetrain (m : Master) (link : Nat) (s : State) : Host.Outcome State Fault Refusal :=
  .next (if s.reaches m then s.lnkRetrain link else s)

/-- An enabled link of a bundle starts: in TRAIN with a valid coordinate, else it waits for one (R352). -/
def State.linkStart (s : State) (i : Nat) : State :=
  let l := s.link i
  if l.en && l.bundle != 15 && l.state == .disabled then
    if s.coord.valid then s.retrain i else s.modLink i fun l => { l with state := .waitCoord }
  else s

/-- A write of `EN` (LNK_CTL): refused and counted while the register is locked (R436). -/
def State.lnkEnable (s : State) (link : Nat) (en : Bool) : State :=
  let l := s.link link
  if l.lock then { s with lkIgnore := satAdd 16 s.lkIgnore 1 }
  else
    let s := s.modLink link fun l => { l with en := en }
    if en then s.linkStart link
    else if l.state == .disabled then s
    else s.linkGone link .disabled

def execLnkEnableWrite (m : Master) (link : Nat) (en : Bool) (s : State) : Host.Outcome State Fault Refusal :=
  .next (if s.reaches m then s.lnkEnable link en else s)

/-! ## BUNDLE_SET (R355) -/

/-- BUNDLE_SET: refused, or every link whose bundle or mask changes retrains, or goes off when it belongs to no bundle. -/
def opBundleSet (r : Ref) (b : List Byte) (s : State) : State :=
  let asg (i : Nat) : Nat := fld b i 1
  let mask := fld b 28 1
  let changed := (List.range 28).filter fun i => asg i != (s.link i).bundle || (asg i == 6 && mask != s.coord.foldMask)
  let sizes := (List.range 7).map fun d => ((List.range 28).filter fun i => asg i == d).length
  if !onlyUses b [(0, 29)] || (List.range 28).any (fun i => !(decide (asg i ≤ 6) || asg i == 15)) || sizes.any (fun n => decide (8 < n)) ||
      mask != 2 ^ s.coord.dims - 1 then s.finish r stBadField
  else if changed.any fun i => s.routedLink i then s.finish r stDrain
  else
    let s := changed.foldl (fun s i =>
      let s := ((s.linkTo i .disabled).freshLink i).modLink i fun l => { l with bundle := asg i }
      s.linkStart i) s
    let s := { s with coord := { s.coord with foldMask := mask } }
    (({ s with bundleW := s.bundleW ++ [(r, changed)] }).narrowCause).bundleChecks

/-! ## Replica traffic (R361, R410) -/

/-- TWIN_TILE_REQUEST: from the object when it is RESIDENT, else from its flash copy, else NO_SOURCE. -/
def execTwinTileRequest (obj tile : Nat) (s : State) : Host.Outcome State Fault Refusal :=
  match s.obj obj with
  | none => .next (s.emit (.noSource obj))
  | some o =>
    let copy := (s.fcopyOf obj).filter fun c => c.durable
    let get (rd : Nat → Nat → List Byte) : Option (List Byte) :=
      if o.tiles = 0 then some (rd 0 o.size) else (o.dir[tile]?).map fun t => tileBytes rd t
    let own := o.res == .resident && !o.lost && o.movable
    let bytes := if own then get (s.objRead o) else copy.bind fun c => get (Memory.read c.body)
    let s := if own then s else match o.dir[tile]? with
      | some t => s.readTileCopy false obj t
      | none => s.readCopy false obj 0 o.size
    .next (s.emit (match bytes with
      | some x => .tileAns obj tile x
      | none => .noSource obj))

/-- NO_SOURCE_ANSWER: the twin has neither the object nor a flash copy of it; the arrival fails. -/
def execNoSourceAnswer (obj : Nat) (s : State) : Host.Outcome State Fault Refusal :=
  match s.obj obj with
  | some o => .next (if o.res == .arriving && o.src == some .twin then s.arrivalLost obj stNoSource else s)
  | none => .next s

/-! ## The coordinate (R364, R365) -/

/-- Every enabled link of a bundle waits for the coordinate, and with a valid one trains. -/
def State.linksAgain (s : State) : State :=
  (List.range 30).foldl (fun s i =>
    if (s.link i).state == .disabled then s
    else if s.coord.valid then s.retrain i
    else (s.linkTo i .waitCoord).freshLink i) s

/-- A write of RTE_COORD (R364, R365), by a privileged master. -/
def State.writeCoord (s : State) (v : Nat) : State :=
  let c := bitsOf v 5 0
  let n := bitsOf v 13 8
  let dims := bitsOf v 16 14
  let lock := bitOf v 31
  if s.coord.lock || s.slices.any (fun x => x.state == .joined) then
    ({ s with coord := { s.coord with lock := s.coord.lock || lock } } : State).raise .rte 2
  else
    let ok := n == 63 - c && decide (c < 2 ^ dims) && decide (1 ≤ dims) && decide (dims ≤ 6) && s.coord.rackWritten
    let same := s.coord.valid && s.coord.coord == c && s.coord.dims == dims
    let s := { s with coord := { s.coord with coordW := c, coordN := n, dimsW := dims, lock := lock } }
    if ok then
      let s := ({ s with coord := { s.coord with valid := true, coord := c, dims := dims, foldMask := if dims < 6 then 2 ^ dims - 1 else s.coord.foldMask } }).raise .rte 0
      if same then s else s.linksAgain
    else
      let was := s.coord.valid
      let s := ({ s with coord := { s.coord with valid := false, coord := 0, dims := 0 } }).raise .rte 1
      if was then s.linksAgain else s

def execRteCoordWrite (m : Master) (v : W32) (s : State) : Host.Outcome State Fault Refusal :=
  .next (if masterPriv m && s.reaches m then s.writeCoord v.toNat else s)

/-! ## Still (R449 to R452) -/

/-- STILL_TOKEN: forwarded within its slice the first time its origin and number are seen, then a capture when armed. -/
def execStillToken (tag origin capNo : Nat) (s : State) : Host.Outcome State Fault Refusal :=
  match s.sliceOfTag tag with
  | none => .next s
  | some h =>
    if (s.slc h).state != .joined || s.snap.pairs.contains (origin, capNo) then .next s
    else
      let s := s.modSnap fun n => { n with pairs := keepPair n.pairs (origin, capNo), fwd := satAdd 16 n.fwd 1 }
      let s := s.emits ((s.neighbours h).map fun c => .still c tag origin capNo)
      .next (if s.snap.armed then s.capture 3 0 origin else s.modSnap fun n => { n with missed := satAdd 16 n.missed 1 })

/-- STILL_IN_FALL: a trigger when the pin was high for at least 1 µs. -/
def execStillInFall (highNs : Nat) (s : State) : Host.Outcome State Fault Refusal :=
  .next (if 1000 ≤ highNs && !s.clk.inReset then s.trigger 1 0 else s)

/-- STILL_OUT_PULSE_END: the pin is high again after 1 µs. -/
def execStillOutPulseEnd (s : State) : Host.Outcome State Fault Refusal := .next (s.modSnap fun n => { n with stillOutLow := false })

end Sys2Proof.Machine
end

