-- ==== Sys2Proof/Machine/Ports.lean ====
section
/-! DEFINITION. The host ports (spec/16_pcie_ports.md): resets, link state, power states, IDE, configuration requests and
BAR4 accesses. -/

namespace Sys2Proof.Machine

open Sys2Proof

/-! ## Ports going down and coming back (R386 to R388, R548) -/

/-- An event of PCI_EVT; a module reset records none. -/
def State.portEvt (s : State) (p : Port) (b : Nat) : State := s.raiseIf (!s.clk.inReset) (.pci p) b

/-- A movement still needs a host buffer behind a port (R294). -/
def State.loadsFrom (s : State) (p : Port) (o : Obj) : Bool :=
  o.res == .arriving && (match o.src with
    | some (.host s0 s1 split) =>
      let onPort (id : Nat) : Bool := (s.obj id).any fun h => h.hostPort == p
      let left (l : Nat) : Bool := (List.range (max 1 o.tiles)).any fun i => !o.landed.contains i && (LoadSrc.host s0 s1 split).lane i == l
      (onPort s0 && left 0) || (s1 != 0 && onPort s1 && left 1)
    | _ => false)

/-- What a port's going down does at once (Table 16-2): its ring waits for RING_SETUP, arrivals from its HOSTBUF objects fail
under R293, and flash copies written from one are discarded with NO_SOURCE (R294). -/
def State.portDownEffects (s : State) (p : Port) : State :=
  let s := s.modPort p fun x => { x with ring := x.ring.map fun r => { r with live := false } }
  let s := ((s.objs.filter fun o => s.loadsFrom p o).map (·.id)).foldl (fun s id => s.arrivalLost id) s
  let copies := s.objs.filter fun o => o.stagePort == some p && !o.stageW.isEmpty
  copies.foldl (fun s o =>
    let s := s.dropCopy o.id
    let s := s.modObj o.id fun o => { o with stageW := [], stagePort := none }
    s.finishWaiters (o.stageW.map fun w => { w with alt := stOK }) o.id stNoSource) s

/-- Change a port; when that takes it down, record DOWN and do what Table 16-2 says. -/
def State.portChange (s : State) (p : Port) (f : PortSt → PortSt) : State :=
  let was := s.down p
  let s := s.modPort p f
  if !was && s.down p then (s.portEvt p 1).portDownEffects p else s

/-- The function's settings that every port reset clears (R386): memory space and power state, BAR4 size, MSI-X table, IDE keys. -/
def PortSt.funcReset (x : PortSt) : PortSt :=
  { x with memEn := false, d3 := false, bar4Log2 := 34, msix := [], ide := 0, ideKeyed := [], ideFailed := [] }

/-- The link leaves L0. -/
def PortSt.linkOff (x : PortSt) : PortSt := { x with linkUp := false, rate := 0, width := 0, flit := false, reversed := false }

/-- PERST_ASSERT: the port alone is reset. -/
def execPerstAssert (p : Port) (s : State) : Host.Outcome State Fault Refusal :=
  .next ((s.portChange p fun x => { x.funcReset.linkOff with perst := true, cfgReady := false, flr := false }).portEvt p 2)

/-- PERST_DEASSERT: configuration space answers from now on (R387), except in module reset (R493). -/
def execPerstDeassert (p : Port) (s : State) : Host.Outcome State Fault Refusal :=
  .next (s.modPort p fun x => { x with perst := false, cfgReady := !s.clk.inReset })

/-- PCIE_HOT_RESET: a hot reset or link disable (R386); the link leaves L0. -/
def execPcieHotReset (p : Port) (_how : PortReset) (s : State) : Host.Outcome State Fault Refusal :=
  .next ((s.portChange p fun x => { x.funcReset.linkOff with flr := false }).portEvt p 2)

/-- PCIE_FLR: the function is reset and answers with Retry Status until it is ready (R387, Table 16-4). -/
def execPcieFlr (p : Port) (s : State) : Host.Outcome State Fault Refusal :=
  .next ((s.portChange p fun x => { x.funcReset with flr := true, cfgReady := false }).portEvt p 3)

/-- PCIE_LINK_UP: the link reaches L0 (R388), except while PERST holds the port or the module is in reset. -/
def execPcieLinkUp (p : Port) (rate width : Nat) (flit reversed bestRate : Bool) (s : State) : Host.Outcome State Fault Refusal :=
  if (s.port p).perst || s.clk.inReset then .next s
  else
    let s := s.modPort p fun x => { x with linkUp := true, rate := rate % 8, width := width % 32, flit := flit, reversed := reversed }
    .next ((s.raise (.pci p) 0).raiseIf (decide (width < 16) || !bestRate) (.pci p) 5)

def execPcieLinkDown (p : Port) (s : State) : Host.Outcome State Fault Refusal := .next (s.portChange p PortSt.linkOff)

/-- D3HOT_ENTRY: the port decodes no BAR and counts as down (R384). -/
def execD3hotEntry (p : Port) (s : State) : Host.Outcome State Fault Refusal :=
  .next (s.portChange p fun x => { x with d3 := x.d3 || (x.linkUp && x.cfgReady) })

def execD3hotExit (p : Port) (s : State) : Host.Outcome State Fault Refusal := .next (s.modPort p fun x => { x with d3 := false })

/-- IDE_FAIL: a keyed stream becomes insecure, and the port is down until new keys (R385). Stream 0 is the link stream. -/
def execIdeFail (p : Port) (stream : Nat) (s : State) : Host.Outcome State Fault Refusal :=
  if !(s.port p).ideKeyed.contains stream || !(s.port p).linkUp then .next s
  else .next ((s.portChange p fun x => { x with ide := 2, ideFailed := addNew x.ideFailed stream }).portEvt p 4)

/-- IDE_KEY_PROGRAM: the stream has keys again; the port is secure once no failed stream is left (R385). -/
def execIdeKeyProgram (p : Port) (stream : Nat) (s : State) : Host.Outcome State Fault Refusal :=
  if !(s.port p).linkUp || !(s.port p).cfgReady || 4 < stream then .next s
  else .next (s.modPort p fun x =>
    let l := x.ideFailed.filter fun k => k != stream
    { x with ideKeyed := addNew x.ideKeyed stream, ideFailed := l, ide := if l.isEmpty then 1 else 2 })

/-! ## Configuration requests (R387, R389, R547) -/

/-- A configuration request reaches the function. -/
def PortSt.cfgReaches (x : PortSt) : Bool := x.linkUp && !x.perst && !x.ideFailed.contains 0

/-- CONFIGURATION_REQUEST. A function under FLR is ready at a moment the spec only bounds (R387): whether this request finds it
ready is free. -/
def execConfigurationRequest (p : Port) (r : CfgReq) (s : State) : Host.Outcome State Fault Refusal :=
  if !(s.port p).cfgReaches || s.clk.inReset then .next s
  else
    let (ready, s) :=
      if (s.port p).flr then
        let (n, s) := s.draw
        (n % 2 == 1, s.modPort p fun x => if n % 2 == 1 then { x with flr := false, cfgReady := true } else x)
      else ((s.port p).cfgReady, s)
    if !ready then .next s
    else match r with
      | .memEnable on => .next (s.modPort p fun x => { x with memEn := on })
      | .bar4Size l => .next (if 30 ≤ l ∧ l ≤ 42 then s.modPort p fun x => { x with bar4Log2 := l } else s)

/-! ## BAR4 (R391 to R393, R547) -/

/-- Module address of BAR4 offset `off`: `WIN_BASE` with its bits below the BAR4 size cleared, plus the offset (R391). -/
def PortSt.winAddr (x : PortSt) (off : Nat) : Nat := x.winBase / 2 ^ x.bar4Log2 * 2 ^ x.bar4Log2 + off

/-- The parts of `[a, a + n)` in each aligned 64-byte unit: address and length (R393). -/
def unitsOf (a n : Nat) : List (Nat × Nat) :=
  (List.range ((a % 64 + n + 63) / 64)).map fun i =>
    let lo := max a ((a / 64 + i) * 64)
    (lo, min (a + n) ((a / 64 + i + 1) * 64) - lo)

/-- BAR4_READ: each 64-byte unit is read whole; a unit that is unmapped or in a system area reads as ones, as all do until memory
is trained (R387, R392). -/
def execBar4Read (p : Port) (off n : Nat) (s : State) : Host.Outcome State Fault Refusal :=
  match s.barAns p with
  | .absent | .discard => .next s
  | .unsupported => .next (s.emit (.unsupported p))
  | .serve =>
    if 2 ^ (s.port p).bar4Log2 < off + n then .next s
    else
      let us := unitsOf ((s.port p).winAddr off) n
      let ok (u : Nat × Nat) : Bool := s.memReady && s.rangeOk u.1 u.2
      let b := us.flatMap fun u => if ok u then s.modRead u.1 u.2 else List.replicate u.2 255
      let s := s.emit (.bar4 p b)
      .next (if us.all ok then s else s.modPort p fun x => { x with rdOnes := satAdd 16 x.rdOnes 1 })

/-- BAR4_WRITE: each 64-byte unit lands whole in a BUFFER object or is dropped (R392, R393); before memory is trained writes are
dropped (R387). -/
def execBar4Write (p : Port) (off : Nat) (bytes : List Byte) (s : State) : Host.Outcome State Fault Refusal :=
  match s.barAns p with
  | .absent | .discard | .unsupported => .next s
  | .serve =>
    if 2 ^ (s.port p).bar4Log2 < off + bytes.length || !s.memReady then .next s
    else
      let a := (s.port p).winAddr off
      let us := unitsOf a bytes.length
      let ok (u : Nat × Nat) : Bool := (s.bufferAt u.1 u.2).isSome && s.rangeOk u.1 u.2
      let s' := (us.filter ok).foldl (fun t u => t.modWrite u.1 ((bytes.drop (u.1 - a)).take u.2)) s
      .next (if us.all ok then s' else s'.modPort p fun x => { x with wrDrop := satAdd 16 x.wrDrop 1 })

end Sys2Proof.Machine
end

