-- ==== Sys2Proof/Machine/Readback.lean ====
section
/-! DEFINITION. The readback apertures (spec/19_readback_snapshots.md): the entries of Tables 19-1 to 19-5, the commands that
copy them to host memory, and the SNAP controls. -/

namespace Sys2Proof.Machine

open Sys2Proof

/-! ## Entries -/

/-- Port `p` of aperture 1. -/
def State.ringBytes (s : State) (p : Port) : List Byte :=
  let x := s.port p
  let f (g : Ring → Nat) : Nat := (x.ring.map g).getD 0
  leBytes 8 (f Ring.sqAddr) ++ leBytes 8 (f Ring.cqAddr) ++ leBytes 1 (f Ring.sqLog2) ++ leBytes 1 (f Ring.cqLog2) ++
  leBytes 2 (f Ring.fetch) ++ leBytes 2 (f Ring.post) ++
  leBytes 1 (pack [(0, 1, f fun r => boolNat r.phase), (1, 1, boolNat x.ring.isSome), (2, 1, boolNat x.taken), (3, 1, boolNat x.down)]) ++
  leBytes 1 (f Ring.vec) ++ leBytes 4 x.nextCseq ++ leBytes 2 x.held.length ++ leBytes 2 (f Ring.coalUs) ++ leBytes 2 (s.inFlight p)

def CmdState.num : CmdState → Nat
  | .waiting => 1 | .executing => 2 | .held => 3

/-- A COMMANDS slot (Table 19-2). -/
def CmdSlot.bytes (c : CmdSlot) : List Byte :=
  let h := c.state == .held
  leBytes 8 c.src.tag.toNat ++ leBytes 1 c.opcode ++ leBytes 1 (portNum c.src.port + 2 * c.state.num) ++ leBytes 2 c.src.sqIndex ++
  leBytes 4 (if h then c.cseq else 0) ++ leBytes 8 c.stepId ++ leBytes 1 c.slice ++ leBytes 1 0 ++ leBytes 2 (if h then c.status else 0)

/-- A SEQUENCES slot, 512 bytes (Table 19-3). -/
def State.seqBytes (s : State) (q : Seq) : List Byte :=
  let st := if q.closed then 3 else if q.closing || !q.closeHeld.isEmpty then 2 else if q.step != 0 then 1 else 0
  let root := ((s.pool q.pool).map fun p => tableAddr p q.rootSlot).getD 0
  let top := leBytes 4 q.h ++ leBytes 1 st ++ leBytes 1 q.spread ++ leBytes 1 q.zeroAcc ++ leBytes 1 0 ++ leBytes 4 q.pool ++
    leBytes 4 q.len ++ leBytes 4 q.prefixLen ++ leBytes 6 root ++ leBytes 6 0 ++ leBytes 8 q.step ++ leBytes 8 q.lastStep ++
    leBytes 2 q.nOut ++ leBytes 1 (q.rflags.toNat + 16 * boolNat q.tokValid) ++ leBytes 1 0 ++ leBytes 4 q.stamp ++ leBytes 8 0 ++
    q.toks.flatMap (leBytes 4)
  padTo 508 top ++ leBytes 4 q.stamp

/-- The bytes of a view slot from its start: header and map (Table 19-4). -/
def View.bytes (m : Model) (v : View) : List Byte :=
  leBytes 2 m.h ++ leBytes 2 v.no ++ leBytes 1 v.state ++ leBytes 3 0 ++ leBytes 4 v.holders ++ leBytes 4 v.map.length ++
  padTo 32 v.man.digest ++ leBytes 4 (v.map.filter fun (_, _, k) => k).length ++ leBytes 12 0 ++
  v.map.flatMap fun (i, x, k) => leBytes 4 (i % 2 ^ 31 + (if k then 2 ^ 31 else 0)) ++ leBytes 4 x

/-- A slice record (Table 19-5). -/
def State.sliceBytes (s : State) (h : Nat) : List Byte :=
  let x := s.slc h
  if x.state == .free then leBytes 1 0
  else
    let top := leBytes 1 x.state.num ++ leBytes 1 x.member ++ leBytes 1 x.master ++ leBytes 1 x.count ++ padTo 44 x.joinBody ++
      padTo 32 (s.activeDigest x) ++ leBytes 4 (x.rgenOf x.rbank) ++ leBytes 4 (x.pgenOf x.pbank) ++
      leBytes 1 (x.rbank % 2 + 2 * (x.pbank % 2)) ++ leBytes 1 x.stopCause ++ leBytes 1 x.stopCoord
    let ent (t : Step) : List Byte := padTo 16 (leBytes 8 t.id ++ leBytes 1 t.run ++ leBytes 1 t.phase ++ leBytes 1 t.tenant)
    padTo 128 top ++ ((s.steps.filter fun t => t.slice == h).take 16).flatMap ent

/-- A routing bank as loaded (Table 15-3). -/
def RTable.bytes (tag : Nat) (t : RTable) : List Byte :=
  leBytes 2 tag ++ leBytes 2 0 ++ leBytes 4 t.rgen ++ leBytes 8 t.mask ++ leBytes 48 0 ++ t.next.flatMap (leBytes 1)

/-- A placement bank: layer directory and entries (R195, Table 08-1). -/
def PTable.bytes (t : PTable) : List Byte :=
  padTo 1024 (t.dir.flatMap fun (first, n, moe) => leBytes 4 (pack [(0, 17, first), (17, 13, n), (31, 1, boolNat moe)])) ++
  t.ents.flatMap fun e => padTo 16 (leBytes 1 (e.copies.length + 8 * boolNat e.cold) ++ leBytes 3 0 ++
    e.copies.flatMap fun (m, d, l) => leBytes 3 (pack [(0, 6, m), (6, 3, d), (9, 6, l)]))

/-- A tile-list entry of compute die `k` (Table 05-2); `CORE` is the global core number (R24), zero while no core has claimed the tile. -/
def Tile.bytes (k : Nat) (e : Tile) : List Byte :=
  let c (i : Nat) (en : Bool) : List Byte := leBytes 2 (i % 2 ^ 14 + (if en then 2 ^ 15 else 0))
  leBytes 1 (e.slot % 16 + 16 * (e.prio % 4)) ++ leBytes 1 e.pal ++ leBytes 1 (pack [(0, 4, e.role), (4, 1, boolNat e.reduce), (5, 1, boolNat e.nop)]) ++
  leBytes 1 e.pool ++ leBytes 4 e.tileSeq ++ c e.wait e.waitEn ++ c e.sig0 e.sig0En ++ c e.sig1 e.sig1En ++ leBytes 2 e.group ++
  leBytes 8 e.stepId ++ leBytes 1 e.state.num ++ leBytes 1 (e.attempts + 8 * boolNat e.wrote) ++ leBytes 2 (if e.attempts = 0 then 0 else 120 * k + e.core) ++ leBytes 1 e.status ++
  leBytes 1 e.flags.toNat ++ leBytes 2 0 ++ padTo 32 e.args

/-! ## Units (R442, R443) -/

/-- `n` bytes of a list from an offset, zeros beyond its end. -/
def sliceAt (b : List Byte) (off n : Nat) : List Byte := padTo n (b.drop off)

/-- The aligned 64-byte unit of an aperture at unit offset `u`, as its owner shows it. -/
def State.apEntry (s : State) (a u : Nat) : List Byte :=
  match a with
  | 0 => sliceAt s.indexBytes u 64
  | 1 => if u = 0 then padTo 64 (s.ringBytes .a) else if u = 64 then padTo 64 (s.ringBytes .b) else List.replicate 64 0
  | 2 => ((s.cmds.find? fun c => c.idx == u / 64).map fun c => padTo 64 c.bytes).getD (List.replicate 64 0)
  | 3 =>
    match s.seqs.find? fun q => q.slice == u / 2 ^ 25 && q.slotNo == u % 2 ^ 25 / 512 with
    | some q => sliceAt (s.seqBytes q) (u % 512) 64
    | none => List.replicate 64 0
  | 4 =>
    match s.pool (u / 2 ^ 32) with
    | some p => (List.range 64).map fun i =>
        let o := u % 2 ^ 32 + i
        if o / 32 = 0 ∨ p.pageIds < o / 32 then 0 else (p.page (o / 32)).bytes.getD (o % 32) 0
    | none => List.replicate 64 0
  | 5 =>
    match s.objs.findSome? fun o => o.pool.bind fun p => if inRange u (metaBase p, metaBytes p) then some p else none with
    | some p => (List.range 64).map fun i => s.metaByte p (u + i - metaBase p)
    | none => List.replicate 64 0
  | 6 =>
    match s.objs.find? fun o => o.slotNo == u / 64 with
    | some o => o.entry.set 48 (if (o.pool.map (·.stalled)).getD false then 1 else 0)
    | none => List.replicate 64 0
  | 7 =>
    let sl := u / 2 ^ 24
    match s.models.findSome? fun m => if m.slotNo == sl / 4 then (m.views.find? fun v => v.slot == sl % 4).map fun v => (m, v) else none with
    | some (m, v) => sliceAt (View.bytes m v) (u % 2 ^ 24) 64
    | none => List.replicate 64 0
  | 8 => if u < 8 * 4096 then sliceAt (s.sliceBytes (u / 4096)) (u % 4096) 64 else List.replicate 64 0
  | 9 =>
    if u < 8 * 2 ^ 23 then
      let x := s.slc (u / 2 ^ 23)
      let o := u % 2 ^ 23
      let place (b : Nat) : List Byte := ((x.pt.getD b none).map PTable.bytes).getD []
      if o < 0x100 then
        match x.rt.getD (o / 0x80) none with
        | some t => sliceAt (RTable.bytes x.tag t) (o % 0x80) 64
        | none => List.replicate 64 0
      else if o < 0x200 then
        sliceAt (s.router.transit.flatMap fun (t, bs) => leBytes 2 t ++ leBytes 2 0 ++ bs.flatMap (leBytes 2)) (o - 0x100) 64
      else if 0x100000 ≤ o ∧ o < 0x400000 then sliceAt (place 0) (o - 0x100000) 64
      else if 0x400000 ≤ o then sliceAt (place 1) (o - 0x400000) 64
      else List.replicate 64 0
    else List.replicate 64 0
  | 10 =>
    if u < 8 * 2 ^ 23 then
      let k := u / 2 ^ 23
      let o := u % 2 ^ 23
      let d := s.die k
      if o < 0x400000 then ((d.tiles.find? fun e => e.idx == o / 64).map (Tile.bytes k)).getD (List.replicate 64 0)
      else if o < 0x400400 then s.slotBytes k ((o - 0x400000) / 64)
      else if 0x410000 ≤ o ∧ o < 0x420000 then
        (List.range 16).flatMap fun i => leBytes 4 (((d.ctrs.find? fun (n, _, _) => n == (o - 0x410000) / 4 + i).map fun (_, v, _) => v).getD 0)
      else List.replicate 64 0
    else List.replicate 64 0
  | 11 =>
    if u < 0x1000 then (List.range 16).flatMap fun i =>
      match (s.die (u / 512)).phys[u % 512 / 4 + i]? with
      | some p => leBytes 4 (pack [(0, 2, p.state), (2, 7, p.logical), (16, 8, p.cause)])
      | none => leBytes 4 0
    else if u < 0x1100 then (List.range 64).map fun i => if (s.chan (u - 0x1000 + i)).failed then 1 else 0
    else if u < 0x1180 then (List.range 64).map fun i => if s.flash.failed.contains (u - 0x1100 + i) then 1 else 0
    else if u = 0x1200 then padTo 64 ((List.range 6).flatMap fun i => leBytes 4 (hltVal s (4 * i)))
    else List.replicate 64 0
  | 12 => (List.range 16).flatMap fun i => leBytes 4 ((assocGet s.snap.image (u + 4 * i)).getD 0).toNat
  | _ => List.replicate 64 0

/-- The die that serves a unit (Table 19-1): a compute die 0 to 7, or 8 to 11 for IO0 to IO3; none where no die can (R442). -/
def State.apOwner (s : State) (a u : Nat) : Option Nat :=
  let lowest : Option Nat := (List.range 8).find? fun k => !(s.die k).lost
  match a with
  | 3 => some 0
  | 4 => some (((s.pool (u / 2 ^ 32)).map fun p => dieOfGroup p.metaGroup).getD 8)
  | 5 => some ((s.objs.findSome? fun o => o.pool.bind fun p =>
      if inRange u (metaBase p, metaBytes p) then some (dieOfGroup p.metaGroup) else none).getD 8)
  | 9 => lowest
  | 10 => some (if u < 8 * 2 ^ 23 then u / 2 ^ 23 else 8)
  | 12 => some (if 0x400000 ≤ u ∧ u < 0x800000 then (u - 0x400000) / 0x80000
      else if 0x200000 ≤ u ∧ u < 0x240000 then (u - 0x200000) / 0x8000
      else if 0x240000 ≤ u ∧ u < 0x241000 then (u - 0x240000) / 0x200
      else if 0x800000 ≤ u ∧ u < 0x900000 then 8 + (u - 0x800000) / 0x40000
      else if 0x100000 ≤ u ∧ u < 0x11E000 then 8 + linkIo ((u - 0x100000) / 0x1000)
      else if 0x81000 ≤ u ∧ u < 0x82000 then 8 + portIo .b
      else if 0x1001000 ≤ u ∧ u < 0x1003000 then (u - 0x1001000) / 1024
      else 8)
  | _ => some 8

/-- The die that owns a unit is lost. -/
def State.apLost (s : State) (a u : Nat) : Bool :=
  match s.apOwner a u with
  | some k => if k < 8 then (s.die k).lost else s.health.ioLost.contains (k - 8)
  | none => true

/-- The unit as a reader sees it: all ones when its owner is lost (R442). -/
def State.apUnit (s : State) (a u : Nat) : List Byte := if s.apLost a u then List.replicate 64 255 else s.apEntry a u

/-- `n` bytes of aperture space from an offset. -/
def State.apRead (s : State) (a off n : Nat) : List Byte :=
  ((((List.range ((off % 64 + n + 63) / 64)).flatMap fun i => s.apUnit a ((off / 64 * 64 + 64 * i) % 2 ^ 64)).drop (off % 64))).take n

/-- What a BAR0 read of `size` bytes answers a master: all ones unless it is a naturally aligned 32-bit read (R419), the aperture space
at the master's own selector within an aperture window (R441), which answers once memory is trained (R387), the register elsewhere. The
Easel has no part in it (R29). -/
def State.bar0Read (s : State) (m : Master) (off size : Nat) : Option Nat :=
  if size != 4 || off % 4 != 0 then some (2 ^ 32 - 1)
  else if 0x1000000 ≤ off ∧ off < 0x2000000 then
    if !s.memReady then none
    else
    let a := (off - 0x1000000) / 0x100000
    let b := s.master m
    let sel := ((b.selLo.getD a 0).toNat + 2 ^ 32 * (b.selHi.getD a 0).toNat) % 2 ^ 44
    some (ofLe (s.apRead a (sel * 2 ^ 20 + off % 0x100000) 4))
  else some (regVal s m off)

/-! ## Commands (Table 17-7) -/

/-- Write a result to host memory and complete with the bytes written. -/
def State.dumpTo (s : State) (r : Ref) (dst : Nat) (b more : List Byte) : State :=
  let (s, lost) := s.hostWrite r.src.port dst b
  s.finishWith r stOK (leBytes 4 (if lost then 0 else b.length) ++ more) lost

/-- STATE_DUMP: a range of an aperture goes to host memory (R441). -/
def opStateDump (r : Ref) (b : List Byte) (s : State) : State :=
  let n := fld b 24 4
  if !onlyUses b [(0, 1), (8, 8), (16, 8), (24, 4)] || decide (15 < fld b 0 1) || n % 64 != 0 || decide (2 ^ 24 < n) then s.finish r stBadField
  else s.dumpTo r (fld b 16 8) (s.apRead (fld b 0 1) (fld b 8 8) n) []

/-- Bytes of aperture 12 from its start to the last step-slot table. -/
def stillBytes : Nat := 0x1003000

/-- SNAP_READ: the Still image goes to host memory, at most `BYTES` of it (R448). -/
def opSnapRead (r : Ref) (b : List Byte) (s : State) : State :=
  if !onlyUses b [(0, 12)] then s.finish r stBadField
  else s.dumpTo r (fld b 0 8) (s.apRead 12 0 (min (fld b 8 4) stillBytes)) (leBytes 4 s.snap.capNo)

/-! ## SNAP controls (R449, R451) -/

/-- SNAP_TRIG: a write of `TRIG`. -/
def execSnapTrig (m : Master) (s : State) : Host.Outcome State Fault Refusal := .next (if s.reaches m then s.trigger 0 0 else s)

def State.rearm (s : State) : State := s.modSnap fun n => { n with armed := true }

/-- SNAP_REARM: a write of `REARM`. -/
def execSnapRearm (m : Master) (s : State) : Host.Outcome State Fault Refusal := .next (if s.reaches m then s.rearm else s)

end Sys2Proof.Machine
end

