-- ==== Sys2Proof/Machine/Faults.lean ====
section
/-! DEFINITION. Faults and health (spec/21_faults_health.md): loss of dies and of the module's Easel, replays on the package,
correctable-error rates, the status pins and the health messages. -/

namespace Sys2Proof.Machine

open Sys2Proof

/-! ## FAILED (R486) -/

/-- The module enters FAILED: the routers send STOP with cause 1 on every JOINED slice over every UP bundle, and the Easel stops
when the fault is its own (R27, R481, R486). -/
def State.fail (s : State) (easel : Bool) : State :=
  if s.health.failed then s.modHealth fun h => { h with easelStop := h.easelStop || easel }
  else
    let joined := (List.range 8).filter fun h => (s.slc h).state == .joined
    let s := joined.foldl (fun s h =>
      s.sendSlice .stop (s.neighbours h) (s.slcMsg h 1 s.coord.coord)) s
    let s := (s.modHealth fun h => { h with failed := true, easelStop := h.easelStop || easel }).hltUpdate
    if joined.isEmpty then s else s.jobStopPins.faultTrigger 4

/-- LOCKSTEP_MISMATCH (R27): logged in the health record; the pair stops. -/
def State.mismatch (s : State) : State :=
  if s.clk.inReset || s.health.easelStop then s else (s.modNor fun n => { n with mismatches := n.mismatches + 1 }).fail true

def execLockstepMismatch (s : State) : Host.Outcome State Fault Refusal := .next s.mismatch

/-- EASEL_SRAM_ERROR is handled as a lockstep mismatch (R481). -/
def execEaselSramError (s : State) : Host.Outcome State Fault Refusal := .next s.mismatch

/-- What sits on an I/O die goes with it (R13, R15, R16): its links and optical port, its host port, and the flash tier, whose stripes lie on the
channels of every I/O die. -/
def State.ioParts (s : State) (m : Nat) : State :=
  let off (i : Nat) (l : Link) : Link := if linkIo i = m && l.state != .disabled then { l.fresh with state := .failed } else l
  let s := { s with links := s.links.mapIdx off }
  let s := [Port.a, Port.b].foldl (fun s p => if portIo p = m then s.modPort p fun x => { x with linkUp := false } else s) s
  (s.modFlash fun f => { f with ready := false }).narrowCause

/-- An I/O die is lost (R486); with IO0 the Easel goes too. -/
def State.ioLose (s : State) (m : Nat) : State :=
  if s.health.ioLost.contains m || s.clk.inReset then s
  else ((s.ioParts m).modHealth fun h => { h with ioLost := h.ioLost ++ [m] }).fail (m == 0)

/-! ## Loss of a compute die (R485) -/

/-- A compute die is lost: its groups leave service, what lies in them or in its die pool is lost or ABSENT, and every job stops
with cause 3. -/
def State.dieLose (s : State) (k : Nat) : State :=
  if (s.die k).lost || decide (8 ≤ k) || s.clk.inReset then s
  else
    let s := (s.modDie k fun d => { d with lost := true, inReset := false }).modNor fun n => { n with lostDies := addNew n.lostDies k }
    let out (g : Nat) (x : Grp) : Grp := if g / 2 = k then { x with outOfService := true } else x
    let s := { s with grps := s.grps.mapIdx out, noc := s.noc.filter fun m => m.src != k && m.dst != k }
    let dead (g : Nat) : Bool := g / 2 == k
    let hit (o : Obj) : Bool := (o.dp && o.die == k) || o.inGroup (2 * k) || o.inGroup (2 * k + 1) || ((o.pool.map fun p => dead p.metaGroup).getD false)
    let s := (s.setCause hcDieLost).stopAll 3
    s.loseMemory hit dead

def execDieLost (die : Nat) (s : State) : Host.Outcome State Fault Refusal := .next (s.dieLose die)

/-! ## Replays (R18, R19, R478) -/

/-- How many CRC errors in a row one flit or packet has now had: whether this error struck the same one again is not in the event
and is left free. -/
def State.nextInRow (s : State) (n : Nat) : Nat × State :=
  if n = 0 then (1, s)
  else
    let (v, s) := s.draw
    (if v % 2 = 1 then n + 1 else 1, s)

def State.modD2d (s : State) (i : Nat) (f : D2d → D2d) : State := { s with d2d := s.d2d.modify i f }

/-- A die-to-die port is declared failed (R19): the jobs stop as for the loss of a die, the port is marked down; an I/O die whose
two ring ports are down is lost (R486). -/
def State.d2dFail (s : State) (i : Nat) : State :=
  let s := (s.modD2d i fun d => { d with down := true, inRow := 0 }).stopAll 3
  let s := s.setCause hcD2d
  (List.range 4).foldl (fun s m => if (s.d2dAt (18 + m)).down && (s.d2dAt (18 + (m + 3) % 4)).down then s.ioLose m else s) s

/-- D2D_CRC_ERROR: the flit is replayed; a flit that has failed 8 replays fails the port (R18). -/
def execD2dCrcError (port : D2dPort) (s : State) : Host.Outcome State Fault Refusal :=
  let d := s.d2dAt port
  if d.down || decide (22 ≤ port) || s.clk.inReset then .next s
  else
    let (n, s) := s.nextInRow d.inRow
    if 8 < n then .next (s.d2dFail port)
    else .next (s.modD2d port fun d => { d with inRow := n, replays := satAdd (if port < 10 then 31 else 32) d.replays 1 })

/-- NOD_CRC_ERROR: the packet is replayed; one that has failed 8 replays loses the die (R478). -/
def execNodCrcError (die : Nat) (s : State) : Host.Outcome State Fault Refusal :=
  if (s.die die).lost || decide (8 ≤ die) then .next s
  else
    let (n, s) := s.nextInRow (s.die die).nodRow
    if 8 < n then .next (s.dieLose die) else .next (s.modDie die fun d => { d with nodRow := n })

/-! ## Die agents and die pools (R479, R480) -/

/-- A die agent restarts: its walks begin again and every step with a slot runs again; within 1 s of the last restart the die is
lost. -/
def State.agentRestart (s : State) (k : Nat) : State :=
  if (s.die k).lost || decide (8 ≤ k) then s
  else if s.again1s (s.die k).agentAt then s.dieLose k
  else (s.modDie k fun d => { d with agentAt := some s.now }).rerunSteps

/-- DIE_AGENT_WATCHDOG (R479); it does not count in HELD (R461). -/
def execDieAgentWatchdog (die : Nat) (s : State) : Host.Outcome State Fault Refusal := .next (if s.power.held then s else s.agentRestart die)

/-- Every tile-list entry of a die becomes FREE (R480, R502). -/
def Die.freeList (d : Die) : Die :=
  { d with tiles := [], open_ := [], cores := d.cores.map fun c => { c with running := none, loaded := none } }

/-- DIE_POOL_UNCORRECTABLE at an offset of the die pool (R480). -/
def execDiePoolUncorrectable (die off : Nat) (s : State) : Host.Outcome State Fault Refusal :=
  let a := poolBase die + off
  if (s.die die).lost || decide (8 ≤ die) || decide (0x4000000 ≤ off) then .next s
  else if off < 0x1000000 then
    let s := s.agentRestart die
    if (s.die die).lost then .next s else .next ((s.modDie die Die.freeList).killChecks)
  else
    match s.objs.find? fun o => o.dp && o.die == die && o.extents.any (inRange a) with
    | some o =>
      if o.kind == .stage then
        .next (((s.die die).stage.filter fun x => x.landed && inRange a (x.addr, x.bytes)).foldl (fun s x => s.modDie die fun d => d.unmap x) s)
      else .next (s.loseMemory (fun x => x.id == o.id) fun _ => false)
    | none => .next s

/-! ## Correctable-error rates (R492) -/

/-- The counters of Table 21-6: class, threshold and the value of each unit. -/
def State.ceCounters (s : State) : List (Nat × Nat × List Nat) :=
  [(0, 10000, s.dies.map (·.csCe)), (1, 1000, s.dies.map (·.poolCe)), (2, 100, s.dies.map (·.tlHwErr)),
   (3, 100000, s.chans.map (·.corr)), (4, 10, s.chans.map (·.rebuilt)), (5, 10000, s.d2d.map (·.replays)),
   (6, 1000, s.links.map (·.uncorr)), (7, 10, [s.regFix])]

/-- One unit's sample: the history of 24 h in 60 s steps grows by one, and the class passes when the increase exceeds its
threshold. Units whose counter has never moved keep no history. -/
def State.ceUnitSample (s : State) (cls lim u v : Nat) : State :=
  let old := ((s.health.ceHist.find? fun (c, k, _) => c == cls && k == u).map fun (_, _, l) => l).getD []
  if v = 0 && old.isEmpty then s
  else
    let base := if old.length < 1440 then 0 else old.getLastD 0
    let keep := (v :: old).take 1440
    let s := s.modHealth fun h => { h with
      ceHist := (h.ceHist.filter fun (c, k, _) => !(c == cls && k == u)) ++ [(cls, u, keep)] }
    if lim < v - base && !s.health.ceClass.getLsbD cls then
      let first := s.health.ceClass == 0
      let s := s.modHealth fun h => { h with
        ceClass := h.ceClass ||| (1 <<< cls), ceFirst := if first then cls else h.ceFirst, ceUnit := if first then u else h.ceUnit }
      s.setCause hcCeRate
    else s

/-- CE_SAMPLE: the Easel samples every counter. -/
def execCeSample (s : State) : Host.Outcome State Fault Refusal :=
  .next (if s.easelUp then
    s.ceCounters.foldl (fun s (cls, lim, l) => l.zipIdx.foldl (fun s (v, u) => s.ceUnitSample cls lim u v) s) s
  else s)

/-! ## Register scrub (R423) -/

/-- REGISTER_SCRUB: every register that differs from the Easel's copy is rewritten and counted. -/
def execRegisterScrub (s : State) : Host.Outcome State Fault Refusal :=
  .next (if s.easelUp then { s with regFix := satAdd 32 s.regFix s.upsets.length, upsets := [] } else s)

/-! ## Health messages (R491) -/

/-- The body of a health message (Table 21-5). -/
def State.healthBody (s : State) (aseq : Nat) : List Byte :=
  leBytes 4 Config.iana.toNat ++ leBytes 1 0x21 ++ leBytes 1 s.health.state ++ leBytes 2 aseq ++ leBytes 4 s.health.cause.toNat ++
  leBytes 3 s.health.alertEvt.toNat ++ leBytes 1 (s.coord.coord + 64 * boolNat s.coord.valid) ++ leBytes 8 s.now

/-- Send a health message: over I3C an In-Band Interrupt with 0xA1 comes first. -/
def State.sendAlert (s : State) (body : List Byte) : State :=
  (if s.side.dyn.isSome then s.emit (.ibi 0xA1) else s).emit (.mctp 0x21 body)

/-- HEALTH_MESSAGE: a message that is due goes out with a new number and the state of now. -/
def execHealthMessage (s : State) : Host.Outcome State Fault Refusal :=
  if !s.health.alertDue || !s.sidebandUp then .next s
  else
    let n := (s.health.aseq + 1) % 65536
    let b := s.healthBody n
    .next ((s.modHealth fun h => { h with aseq := n, alertDue := false, alertOut := true, alertNew := 0, alertBody := b }).sendAlert b)

/-- HEALTH_REPEAT_TIMER: the latest message again, until it is acknowledged. -/
def execHealthRepeatTimer (s : State) : Host.Outcome State Fault Refusal :=
  .next (if s.health.alertOut && s.sidebandUp then s.sendAlert s.health.alertBody else s)

/-- FAULT_PULSE_END: `FAULT_N` stays asserted only in FAILED (R490). -/
def execFaultPulseEnd (s : State) : Host.Outcome State Fault Refusal :=
  .next (s.modHealth fun h => { h with faultPulse := false, faultN := h.state == 3 })

end Sys2Proof.Machine
end

