-- ==== Sys2Proof/Machine/Power.lean ====
section
/-! DEFINITION. Power, cooling and monitors (spec/20_power_cooling.md): Weir caps and throttling, HELD, Millpond, input sags,
regulator phases, the thermal loop and the coolant rules. -/

namespace Sys2Proof.Machine

open Sys2Proof

/-! ## Caps (R457) -/

/-- The lowest thermal or coolant cap; 4,400 stands for none. -/
def Power.coolCap (p : Power) : Nat := min p.inletCap (min p.flowCap (min p.revCap p.pairCap))

/-- The caps in force with their codes (Table 20-3), in ascending code; a cap above 4,000 W acts as 4,000 W. -/
def Power.caps (p : Power) : List (Nat × Nat) :=
  ([(0, p.rackCap), (1, p.hostCap)] ++ (if p.orphan then [(2, p.orphanCap)] else []) ++ (if p.brake then [(3, 1400)] else []) ++
   (if p.coolCap < 4400 then [(4, p.coolCap)] else []) ++ (if 2 ≤ p.sag then [(5, 1400)] else [])).map fun (c, v) => (c, min v 4000)

/-- The effective cap: the lowest of all in force. -/
def Power.lowest (p : Power) : Nat := (p.caps.map (·.2)).foldl min 4000

/-- The code that sets it: the lowest among equal caps; 4 while the thermal loop throttles (R468). -/
def State.capSource (s : State) : Nat :=
  if s.mon.tj then 4 else ((s.power.caps.find? fun (_, v) => v == s.power.lowest).map (·.1)).getD 0

/-! ## Throttling (R460) -/

/-- Pulses per 16 that a die may have at most: under its rail's phases, its thermal loop and its failed sensors (R455, R468, R475). -/
def State.dieLimit (s : State) (k : Nat) : Nat :=
  let d := s.die k
  min (min d.railCap d.thermPulses) (if 8 < ((dieSensors k).filter s.mon.fail.contains).length then 12 else 16)

/-- The operating point for a pulse count: the lowest voltage that allows it (Table 20-4). -/
def pointFor (n : Nat) : Nat := if n ≤ 8 then 8 else if n ≤ 10 then 10 else if n ≤ 12 then 12 else if n ≤ 14 then 14 else 16

/-- Give a die a pulse count, within its limit. -/
def State.setPulses (s : State) (k n : Nat) : State :=
  let lim := s.dieLimit k
  s.modDie k fun d => { d with pulses := min n lim }

/-- Throttling engages or ends: `THROTTLE` when it first engages after full rate. -/
def State.setThrottled (s : State) (on : Bool) : State :=
  let was := s.power.throttled
  (s.modPower fun p => { p with throttled := on }).raiseIf (on && !was) .pwr 6

/-- The lowest of the effective cap and the Millpond ceiling (R464). -/
def Power.limit (p : Power) : Nat := min p.effCap p.ceiling

/-- Stretch: every compute die drops to `n` of 16 pulses. Which `n` meets the limit depends on the load and is left free. -/
def State.stretch (s : State) : State :=
  if s.power.pIn ≤ s.power.limit then s
  else
    let (v, s) := s.draw
    let n := 1 + v % 16
    let s := (List.range 8).foldl (fun s k => s.setPulses k (min n (s.die k).pulses)) s
    s.setThrottled (s.power.throttled || decide (n < 16))

/-- VOLTAGE_STAGE_SETTLE: each die stands at the highest effective rate at which the load fits and at the lowest voltage for it;
full rate when the limit is 4,000 W or nothing throttles and the draw fits. -/
def execVoltageStageSettle (s : State) : Host.Outcome State Fault Refusal :=
  let full := decide (4000 ≤ s.power.limit) || (!s.power.throttled && decide (s.power.pIn ≤ s.power.limit))
  let settle (s : State) (k : Nat) : State :=
    let (v, s) := if full then (15, s) else s.draw
    let s := s.setPulses k (1 + v % 16)
    s.modDie k fun d => { d with point := pointFor d.pulses }
  let s := (List.range 8).foldl settle s
  .next (s.setThrottled (!full && s.dies.any fun d => !d.lost && decide (d.pulses < 16)))

/-! ## HELD (R461) -/

/-- Some rule holds the module: a cap below 420 W, an overvoltage or a long sag. -/
def Power.mustHold (p : Power) : Bool := decide (p.effCap < 420) || p.overV || p.sag == 3

/-- HELD ends: watchdogs and heartbeat checks count from zero, start barriers are reached and cores go on. -/
def State.heldEnd (s : State) : State :=
  let s := s.modPower fun p => { p with held := false }
  let fresh (c : Core) : Core := { c with lastBeat := s.now, lastProgress := s.now }
  let s := s.modDies fun d => { d with cores := d.cores.map fresh }
  let s := (s.steps.filter fun t => t.phase == 0 && t.killing.isNone && t.status == 0).foldl (fun s t => s.sendStart t.slice t.id) s
  (List.range 8).foldl (fun s k => (List.range 120).foldl (fun s j =>
    let s := (List.range 4).foldl (fun s e => (List.range (s.core k j).jobQ.length).foldl (fun s _ => s.nextJob k j e) s) s
    s.drain k j (s.core k j).seqQ.length) s) s

/-- Enter or leave HELD as the causes say; `HOLD` when an orderly hold begins, `CAP_UNREACHABLE` when a cap causes it, or falls below
420 W in it. -/
def State.holdCheck (s : State) : State :=
  let p := s.power
  if p.mustHold && !p.held then
    ((s.modPower fun p => { p with held := true, ballast := false }).raise .pwr 5).raiseIf (decide (p.effCap < 420)) .pwr 1
  else if !p.mustHold && p.held then s.heldEnd
  else s

/-- The effective cap as the caps in force now give it (R457, R458): a change is reported, a fall takes the ceiling down and
throttles at once, a rise starts the ceiling again at the 10 ms mean (R459, R465). -/
def State.pwrUpdate (s : State) : State :=
  let old := s.power.effCap
  let new := s.power.lowest
  let src := s.capSource
  let ceil := if old < new then min (min new s.power.bandHi) (min s.power.ceiling s.power.p10) else min new s.power.ceiling
  let s := s.modPower fun p => { p with effCap := new, capSrc := src, ceiling := if old = new then p.ceiling else ceil }
  ((s.raiseIf (old != new) .pwr 0).raiseIf (decide (new < 420) && decide (420 ≤ old)) .pwr 1).stretch.holdCheck

/-- HELD_EXIT: the cause of HELD has ended; an overvoltage is over (R453). -/
def execHeldExit (s : State) : Host.Outcome State Fault Refusal := .next ((s.modPower fun p => { p with overV := false }).holdCheck)

/-! ## Cap writes (R435, R462) -/

def State.setRackCap (s : State) (v : Nat) : State := (s.modPower fun p => { p with rackCap := v % 65536 }).pwrUpdate

def State.setHostCap (s : State) (v : Nat) : State := (s.modPower fun p => { p with hostCap := v % 65536 }).pwrUpdate

/-- RACK_CAP_WRITE: privileged, as it lands. -/
def execRackCapWrite (m : Master) (v : W32) (s : State) : Host.Outcome State Fault Refusal :=
  .next (if masterPriv m && s.reaches m then s.setRackCap v.toNat else s)

/-- HOST_CAP_WRITE: any master, as it lands. -/
def execHostCapWrite (m : Master) (v : W32) (s : State) : Host.Outcome State Fault Refusal :=
  .next (if s.reaches m then s.setHostCap v.toNat else s)

/-- POWER_POLICY (R414): 0xFFFF_FFFF leaves a setting; values are checked as the registers' generation is (R463). -/
def opPowerPolicy (r : Ref) (b : List Byte) (s : State) : State :=
  let keep (v old : Nat) : Nat := if v = 0xFFFFFFFF then old else v
  let p := s.power
  let host := fld b 0 4
  let lo := keep (fld b 4 4) p.bandLo
  let hi := keep (fld b 8 4) p.bandHi
  let slew := keep (fld b 12 4) p.slew
  let f := fld b 16 1
  if !onlyUses b [(0, 17)] || decide (3 < f) || (host != 0xFFFFFFFF && decide (4400 < host)) || decide (4400 < lo) || decide (4400 < hi) ||
      decide (hi < lo) || decide (slew < 100) || decide (5000 < slew) then s.finish r stBadField
  else
    let s := s.modPower fun p => { p with bandLo := lo, bandHi := hi, slew := slew, fill := if bitOf f 1 then bitOf f 0 else p.fill }
    let s := if host = 0xFFFFFFFF then s else s.setHostCap host
    s.finish r (if host < 420 then stCapUnreachable else stOK)

def execWeirNAssert (s : State) : Host.Outcome State Fault Refusal :=
  .next (if s.clk.inReset || s.power.brake then s
    else (((s.modPower fun p => { p with brake := true }).raise .pwr 2).pwrUpdate).faultTrigger 6)

def execWeirNRelease (s : State) : Host.Outcome State Fault Refusal := .next ((s.modPower fun p => { p with brake := false }).pwrUpdate)

/-- An MCTP message of the management controller arrives: the heartbeat of R462. -/
def State.beat (s : State) : State :=
  (({ s with side := { s.side with lastBeat := s.now } } : State).modPower fun p => { p with orphan := false }).pwrUpdate

/-- SIDEBAND_HEARTBEAT: no message reaches a module whose lines are stuck (R535). -/
def execSidebandHeartbeat (s : State) : Host.Outcome State Fault Refusal := .next (if s.sidebandUp then s.beat else s)

/-- HEALTH_ACK: a message with `CODE` 0x22 and the latest `ASEQ` ends the repeats (R491); it is a heartbeat too. -/
def execHealthAck (aseq : Nat) (s : State) : Host.Outcome State Fault Refusal :=
  if !s.sidebandUp then .next s
  else
    let s := s.beat
    .next (if s.health.alertOut && s.health.aseq == aseq then
      s.modHealth fun h => { h with alertOut := false, alertEvt := h.alertNew } else s)

/-- ORPHAN_TIMEOUT: `HB_MS` has passed without a heartbeat. -/
def execOrphanTimeout (s : State) : Host.Outcome State Fault Refusal :=
  .next (if s.clk.inReset || s.power.orphan then s else ((s.modPower fun p => { p with orphan := true }).raise .pwr 3).pwrUpdate)

/-! ## Millpond (R463 to R467) -/

/-- The ceiling after 100 µs. It rises by `SLEW` ÷ 100 while the draw follows it, and otherwise from the 10 ms mean (R464, R465). -/
def Power.nextCeiling (p : Power) (p1 p10 : Nat) : Nat :=
  let from_ := if p.ceiling ≤ p1 + p.slew / 10 then p.ceiling else min p.ceiling p10
  min (min p.effCap p.bandHi) (from_ + p.slew / 100)

/-- MILLPOND_TICK: the means are reported, the ceiling moves, and troughs and ballast are judged (R466, R467). Ballast starts only in
a tick that finds background work already running and the floor still not held. -/
def execMillpondTick (p1ms p10ms v1ms : Nat) (coresFull : Bool) (s : State) : Host.Outcome State Fault Refusal :=
  if s.clk.inReset then .next s
  else
    let p := s.power
    let trough := p.fill && decide (p1ms < p.bandLo) && !coresFull && !p.held
    let low := p.balEn && decide (p1ms < min p.floor (min p.bandHi p.effCap)) && !p.held
    let s := s.modPower fun p => { p with
      pIn := p1ms, vIn := v1ms, p10 := p10ms, ceiling := p.nextCeiling p1ms p10ms, trough := trough,
      ballast := (low || (p.ballast && p.balEn && !p.held && decide (p1ms ≤ min p.floor (min p.bandHi p.effCap)))) && (!trough || p.trough) }
    .next s.stretch

/-! ## Input (R453, R454) -/

/-- INPUT_SAG: below 40 V; nothing changes but `SAG`. -/
def execInputSag (s : State) : Host.Outcome State Fault Refusal :=
  .next (if s.power.sag = 0 then (s.modPower fun p => { p with sag := 1 }).raiseIf (!s.clk.inReset) .pwr 4 else s)

/-- SAG_CAP_TIMER: the input cap of 1,400 W after 200 µs. -/
def execSagCapTimer (s : State) : Host.Outcome State Fault Refusal :=
  .next (if s.power.sag = 1 then (s.modPower fun p => { p with sag := 2 }).pwrUpdate else s)

/-- SAG_HOLD_TIMER: HELD after 10 ms, or below 34 V once the input cap applies. -/
def execSagHoldTimer (s : State) : Host.Outcome State Fault Refusal :=
  .next (if s.power.sag = 2 then (s.modPower fun p => { p with sag := 3 }).pwrUpdate else s)

/-- INPUT_RECOVER: the input cap goes, and with it a HELD that the sag brought. -/
def execInputRecover (s : State) : Host.Outcome State Fault Refusal := .next ((s.modPower fun p => { p with sag := 0 }).pwrUpdate)

/-- INPUT_OVERVOLTAGE: HELD until HELD_EXIT (R453). -/
def execInputOvervoltage (s : State) : Host.Outcome State Fault Refusal :=
  .next (if s.clk.inReset then s else (s.modPower fun p => { p with overV := true }).holdCheck)

/-! ## Rails (R455, R456) -/

/-- PHASE_FAIL: a spare takes the load, or, with none left, the rail's die is limited to what the remaining phases carry, which the
spec gives no figure for. -/
def execPhaseFail (r : Rail) (s : State) : Host.Outcome State Fault Refusal :=
  let n := s.railLost r + 1
  if railPhases r < n || !railAll.contains r then .next s
  else
    let s := s.modPower fun p => { p with phasesLost := assocSet p.phasesLost r n }
    let s := (s.modNor fun x => { x with phases := assocSet x.phases r n }).raise .mon 7
    if n ≤ railSpares r then .next (s.setCause hcPhase)
    else
      let s := (s.modHealth fun h => { h with limitedPhase := true }).setCause hcPhase
      match r with
      | .compute k =>
        let (v, s) := s.draw
        let s := s.modDie k fun d => { d with railCap := min d.railCap (1 + v % 16) }
        .next (s.setPulses k (s.die k).pulses)
      | _ => .next s

/-- RAIL_SHORT: the dies that the rail feeds are lost: a compute die, an I/O die, or those of the rail's quadrant whose memory or
interfaces it feeds (R456). -/
def execRailShort (r : Rail) (s : State) : Host.Outcome State Fault Refusal :=
  if s.clk.inReset || s.power.shorted.contains r || !railAll.contains r then .next s
  else
    let s := s.modPower fun p => { p with shorted := p.shorted ++ [r] }
    match r with
    | .compute k => .next (s.dieLose k)
    | .io m => .next (s.ioLose m)
    | .lpddr q => .next ((s.dieLose (2 * q)).dieLose (2 * q + 1))
    | .aux q => .next (s.ioLose q)

/-! ## Thermal loop and trip (R468, R469, R475) -/

/-- A reading in 0.125 °C that is out of −20 °C to 150 °C. -/
def outOfRange (t : Int) : Bool := decide (t < -160) || decide (1200 < t)

/-- Whether a sensor's reading differs by more than 15 K from every neighbour. Which sensors are neighbours is not stated: it is
certain when it differs so from every other sensor of its die, certainly not when from none, and free in between. -/
def State.apart (s : State) (i : Nat) : Bool × State :=
  let t := s.mon.reading i
  let far := ((dieSensors (sensorDie i)).filter fun j => j != i && !s.mon.fail.contains j).map fun j => decide (120 < (t - s.mon.reading j).natAbs)
  if far.isEmpty || far.all (!·) then (false, s)
  else if far.all id then (true, s)
  else
    let (v, s) := s.draw
    (v % 2 == 1, s)

/-- A sensor is marked failed where its reading says so; it stays failed until module reset. -/
def State.judgeSensor (s : State) (i : Nat) : State :=
  if s.mon.fail.contains i then s
  else
    let (bad, s) := if outOfRange (s.mon.reading i) then (true, s) else s.apart i
    if bad then (s.modMon fun m => { m with fail := m.fail ++ [i] }).raise .mon 6 else s

/-- The thermal loop on one compute die: above 103 °C it throttles, and when it is cooler it may let pulses return; how far is the
loop's own law, which is left free. -/
def State.thermDie (s : State) (k : Nat) : State :=
  let hot := ((s.mon.hottest (dieSensors k)).map fun (_, t) => decide (824 < t)).getD false
  let d := s.die k
  if !hot && d.thermPulses = 16 then s.setPulses k d.pulses
  else
    let (v, s) := s.draw
    let n := if hot then 1 + v % min 15 d.thermPulses else 1 + v % 16
    let s := s.modDie k fun d => { d with thermPulses := n }
    s.setPulses k (if s.power.throttled then d.pulses else 16)

/-- The process monitors: the mean speed index of each die, whose value the spec leaves to the part (Table 20-6). -/
def State.readSpeed (s : State) : State :=
  (List.range 12).foldl (fun s k =>
    let (v, s) := s.draw
    s.modMon fun m => { m with proc := m.proc.set k (v % 65536) }) s

/-- THERMAL_SAMPLE: the readings stand, the process monitors' too, failed sensors are found, and hot dies throttle. -/
def execThermalSample (readings : List (Nat × Int)) (s : State) : Host.Outcome State Fault Refusal :=
  if s.clk.inReset then .next s
  else
    let new := readings.filter fun (i, _) => i < 864
    let s := s.readSpeed.modMon fun m => { m with sense := new.foldl (fun l (i, t) => assocSet l i t) m.sense }
    let s := (new.map (·.1)).foldl State.judgeSensor s
    let s := (List.range 8).foldl (fun s k => if (s.die k).lost then s else s.thermDie k) s
    let tj := s.dies.any fun d => !d.lost && decide (d.thermPulses < 16)
    let s := s.raiseIf (tj && !s.mon.tj) .mon 0
    .next ((s.modMon fun m => { m with tj := tj }).pwrUpdate)

/-- THERMTRIP: `THERMTRIP_N` asserts, the trip is recorded, and every die rail goes off: memory, links and ports with it (R469, R486). -/
def execThermtrip (sensor : Nat) (s : State) : Host.Outcome State Fault Refusal :=
  if s.clk.inReset || s.health.thermtripN || decide (864 ≤ sensor) then .next s
  else
    let s := (s.modNor fun n => { n with trips := n.trips + 1 }).fail true
    let s := s.modHealth fun h => { h with thermtripN := true }
    let s := (s.portChange .a PortSt.linkOff).portChange .b PortSt.linkOff
    let s := { s with links := s.links.map fun l => { Link.fresh l with state := .disabled } }
    .next ({ s.loseMemory (fun _ => true) (fun _ => true) with mem := [] })

/-- DROOP_TRIP: counted; on a compute die half the pulses of the region go missing for 32 cycles (R476). -/
def execDroopTrip (die : Nat) (s : State) : Host.Outcome State Fault Refusal :=
  .next (if s.clk.inReset then s else s.modMon fun m => { m with droop := m.droop.modify die fun n => satAdd 32 n 1 })

/-! ## Coolant (R470 to R474) -/

/-- A thermistor outside 0 °C to 100 °C is failed (R474). -/
def thermBad (t : Int) : Bool := decide (t < 0) || decide (800 < t)

/-- Twice the mean of a pair's valid readings, in 0.125 °C. -/
def pairMean (a b : Int) (fa fb : Bool) : Option Int :=
  if fa && fb then none else if fa then some (2 * b) else if fb then some (2 * a) else some (a + b)

/-- The coolant cap at a mean inlet (twice, in 0.125 °C) above 45 °C: 4,000 − 200 × (inlet − 45) W. -/
def inletCapOf (x : Int) : Nat := ((8000 - 25 * (x - 720)) / 2).toNat

/-- Heat capacity flow from 1 s input power and twice the temperature difference in 0.125 °C: none while not valid (R471). -/
def capFlow (p : Nat) (dt : Int) : Option Nat := if p < 1000 ∨ dt ≤ 0 then none else some ((p - 40) * 16 / dt.toNat)

/-- The inlet rules of R470. -/
def Mon.inletRules (m : Mon) (inn : Option Int) : Mon :=
  { m with inletHigh := (inn.map fun x => decide (720 < x)).getD false, inletLow := (inn.map fun x => decide (x < 320)).getD false }

/-- The low-flow rule of R471: `C` below `C_MIN` for 2 s; it ends when `C` is valid and at least `C_MIN`. -/
def Mon.lowRule (m : Mon) (c : Option Nat) : Mon :=
  match c with
  | some v =>
    let n := if v < m.cMin then m.lowFor + 1 else 0
    { m with cEst := min v 65535, lowFor := n, flowLow := if v < m.cMin then m.flowLow || decide (20 ≤ n) else false }
  | none => { m with cEst := 0, lowFor := 0 }

/-- The flow-loss rule of R472 over windows of 2 s, and its end after 10 s of valid `C`. -/
def Mon.lossRule (m : Mon) (p1s : Nat) (inn out : Option Int) (c : Option Nat) : Mon :=
  let ok := (c.map fun v => decide (m.cMin ≤ v)).getD false
  let okN := if ok then m.okFor + 1 else 0
  let m := { m with okFor := okN, flowLoss := m.flowLoss && decide (okN < 100) }
  match inn, out with
  | some i, some o =>
    let nom : Int := if m.fluid then 265 else 279
    if (o - i) * 3 * nom < 16 * p1s then
      let start := if m.lossFor = 0 then i else m.lastIn
      let n := m.lossFor + 1
      if n < 20 then { m with lossFor := n, lastIn := start }
      else { m with lossFor := 0, lastIn := i, flowLoss := m.flowLoss || decide (32 ≤ 5 * (i - start)) }
    else { m with lossFor := 0, lastIn := i }
  | _, _ => { m with lossFor := 0 }

/-- The reversed-hose rule of R473: 2 K the wrong way for 10 s, until 60 s of the normal gradient. -/
def Mon.revRule (m : Mon) (p1s : Nat) (inn out : Option Int) : Mon :=
  match inn, out with
  | some i, some o =>
    let n := if 32 ≤ i - o ∧ 1000 ≤ p1s then m.revFor + 1 else 0
    let k := if i < o then m.normFor + 1 else 0
    { m with revFor := n, normFor := k, reversed := if m.reversed then decide (k < 600) else decide (100 ≤ n) }
  | _, _ => { m with revFor := 0, normFor := 0 }

/-- COOLANT_ESTIMATE, every 100 ms: readings in 0.125 °C and the 1 s mean of input power. -/
def execCoolantEstimate (inA inB outA outB : Int) (p1s : Nat) (s : State) : Host.Outcome State Fault Refusal :=
  if s.clk.inReset then .next s
  else
    let old := s.mon
    let m := { old with inA := inA, inB := inB, outA := outA, outB := outB, inFailA := thermBad inA, inFailB := thermBad inB,
                        outFailA := thermBad outA, outFailB := thermBad outB }
    let rawIn := pairMean inA inB m.inFailA m.inFailB
    let rawOut := pairMean outA outB m.outFailA m.outFailB
    let m := m.revRule p1s rawIn rawOut
    let swap := m.reversed && ((rawIn.bind fun i => rawOut.map fun o => decide (i < o)).getD false)
    let inn := if swap then rawOut else rawIn
    let out := if swap then rawIn else rawOut
    let c := inn.bind fun i => out.bind fun o => capFlow p1s (o - i)
    let m := ((m.inletRules inn).lowRule c).lossRule p1s rawIn rawOut c
    let pairOut := (m.inFailA && m.inFailB) || (m.outFailA && m.outFailB)
    let newBad := (m.inFailA && !old.inFailA) || (m.inFailB && !old.inFailB) || (m.outFailA && !old.outFailA) || (m.outFailB && !old.outFailB)
    let s := s.modMon fun _ => m
    let s := s.modPower fun p => { p with
      inletCap := if m.inletHigh then inletCapOf (inn.getD 0) else 4400
      flowCap := if m.flowLoss then 1400 else 4400
      revCap := if m.reversed then 2800 else 4400
      pairCap := if pairOut then 2800 else 4400 }
    let s := s.raiseIf (m.flowLow && !old.flowLow) .mon 1
    let s := s.raiseIf (m.flowLoss && !old.flowLoss) .mon 2
    let s := s.raiseIf (m.reversed && !old.reversed) .mon 3
    let s := s.raiseIf (m.inletHigh && !old.inletHigh) .mon 4
    let s := s.raiseIf (m.inletLow && !old.inletLow) .mon 5
    let s := s.raiseIf newBad .mon 6
    .next (s.coolCause.pwrUpdate)

end Sys2Proof.Machine
end

