-- ==== Sys2Proof/Machine/Security.lean ====
section
/-! DEFINITION. Security and attestation (spec/23_security_attestation.md, R111 to R114): firmware images and updates, rollback
and revocation, allowlists, palettes and attestation reports. -/

namespace Sys2Proof.Machine

open Sys2Proof

/-! ## Firmware images (R510, R511) -/

def sigBytes : Nat := 29792

/-- The header fields of an image, and whether its signature verifies, from its bytes (Table 23-2). -/
def parseImage (b : List Byte) : FwImage :=
  let body := fld b 16 4
  let vkey := (b.drop 24).take 64
  let signed := b.take (128 + body)
  { maj := fld b 4 1, min := fld b 5 1, patch := fld b 6 2, svn := fld b 8 1, keySlot := fld b 9 1,
    rsvZero := onlyUses (b.take 128) [(0, 10), (16, 4), (24, 64)], keyHash := shake256 vkey, digest := shake256 signed,
    hdrDigest := shake256 (b.take 128), sigOk := Config.slhVerify vkey signed ((b.drop (128 + body)).take sigBytes) }

/-- The form that FW_UPDATE checks before the key: version, field ranges and the image's size (R516, Table 23-2). -/
def imageFormOk (b : List Byte) : Bool :=
  let body := fld b 16 4
  decide (b.length = 128 + body + sigBytes) && fld b 0 4 == 0x00010000 && decide (fld b 8 1 ≤ 64) && decide (4096 ≤ body) &&
  decide (body ≤ 8 * 2 ^ 20) && body % 4096 == 0 && onlyUses (b.take 128) [(0, 10), (16, 4), (24, 64)]

/-- The key that vouches for an image is a fuse slot's and not revoked, and the signature verifies (R511). -/
def Sec.keyOk (c : Sec) (x : FwImage) : Bool :=
  decide (x.keySlot < 2) && c.vkeyFw[x.keySlot]? == some x.keyHash && !c.revoked.getLsbD x.keySlot && x.sigOk

/-- An image verifies (R511). -/
def Sec.verifies (c : Sec) (x : FwImage) : Bool := x.rsvZero && c.keyOk x && decide (c.svn ≤ x.svn)

/-- The status of an image that does not verify (R513, R516). -/
def Sec.imageStatus (c : Sec) (x : FwImage) : Nat := if !c.keyOk x then stAuthFail else if x.svn < c.svn then stRollback else stBadField

/-! ## Firmware update (R413, R516) -/

/-- FW_UPDATE: checks the image and starts writing it into the slot that did not boot. -/
def opFwUpdate (r : Ref) (b : List Byte) (s : State) : State :=
  let n := fld b 8 4
  let slot := fld b 12 1
  let act := fld b 13 1
  if !onlyUses b [(0, 14)] || decide (1 < slot) || decide (1 < act) then s.finish r stBadField
  else if s.sec.upd.isSome || (slot == 1) == s.clk.image then s.finish r stBusy
  else match s.hostRead r.src.port (fld b 0 8) n with
  | none => s.finish r stHostUnreachable
  | some img =>
    let x := parseImage img
    if !imageFormOk img then s.finish r stBadField
    else if !s.sec.verifies x then s.finish r (s.sec.imageStatus x)
    else s.modSec fun c => { c with
      upd := some { ref := r, slotB := slot == 1, activate := act == 1, img := x }
      imgA := if slot = 0 then none else c.imgA
      imgB := if slot = 1 then none else c.imgB
      aOk := c.aOk && slot != 0
      bOk := c.bOk && slot != 1 }

/-- UPDATE_DONE: the slot holds the image, which is verified again from the NOR; the boot record follows. -/
def execUpdateDone (s : State) : Host.Outcome State Fault Refusal :=
  match s.sec.upd with
  | none => .next s
  | some u =>
    if !s.easelUp then .next s
    else
      let ok := s.sec.verifies u.img
      let s := s.modSec fun c => { c with
        upd := none
        imgA := if u.slotB then c.imgA else some u.img
        imgB := if u.slotB then some u.img else c.imgB
        aOk := if u.slotB then c.aOk else ok
        bOk := if u.slotB then ok else c.bOk
        bootB := if ok && u.activate then u.slotB else c.bootB }
      let s := s.raise .sec (if ok then 1 else 2)
      .next (s.finish u.ref (if ok then stOK else s.sec.imageStatus u.img))

/-! ## Rollback and revocation (R514, R515) -/

def State.svnCommit (s : State) : State :=
  match s.sec.running with
  | some x =>
    if s.clk.stage < 5 ∨ x.svn ≤ s.sec.svn then s
    else ((s.modSec fun c => { c with svn := x.svn }).measure 6 x.svn x.hdrDigest).raise .sec 3
  | none => s

/-- SVN_COMMIT: privileged. -/
def execSvnCommit (m : Master) (s : State) : Host.Outcome State Fault Refusal :=
  .next (if masterPriv m && s.reaches m then s.svnCommit else s)

/-- Burn a `REVOKE` fuse, unless it is the running image's slot or the last of its kind. -/
def State.keyRevoke (s : State) (slot : Nat) : State :=
  let c := s.sec
  let other := if slot % 2 = 0 then slot + 1 else slot - 1
  if 3 < slot ∨ c.revoked.getLsbD slot ∨ c.revoked.getLsbD other ∨ (slot < 2 ∧ (c.running.map (·.keySlot)) = some slot) then s
  else
    let hash := if slot < 2 then c.vkeyFw.getD slot [] else c.vkeyPal.getD (slot - 2) []
    ((s.modSec fun c => { c with revoked := c.revoked ||| (1 <<< slot) }).measure 7 slot (shake256 hash)).raise .sec 4

/-- KEY_REVOKE: privileged. -/
def execKeyRevoke (m : Master) (slot : Nat) (s : State) : Host.Outcome State Fault Refusal :=
  .next (if masterPriv m && s.reaches m then s.keyRevoke slot else s)

/-! ## Allowlists (R524) -/

/-- The digest in SEC_AL_DATA. -/
def Sec.alDigest (c : Sec) : List Byte := c.alData.flatMap fun w => leBytes 4 w.toNat

def Sec.alOf (c : Sec) (man : Bool) : List (List Byte) := if man then c.manAl else c.palAl

/-- Store a changed list: logged and reported. -/
def State.alChange (s : State) (man : Bool) (l : List (List Byte)) : State :=
  let s := s.modSec fun c => if man then { c with manAl := l } else { c with palAl := l }
  (s.measure 4 (boolNat man) (shake256 l.flatten)).raise .sec 5

/-- Add the digest in SEC_AL_DATA, unless the list is full or holds it. -/
def State.alAdd (s : State) (man : Bool) : State :=
  let l := s.sec.alOf man
  let full := decide (256 ≤ l.length)
  let s := s.modSec fun c => { c with full := full }
  if full || l.contains s.sec.alDigest then s else s.alChange man (l ++ [s.sec.alDigest])

def State.alRemove (s : State) (man : Bool) : State :=
  let l := s.sec.alOf man
  if l.contains s.sec.alDigest then s.alChange man (l.filter fun d => d != s.sec.alDigest) else s

def State.alClear (s : State) (man : Bool) : State := if (s.sec.alOf man).isEmpty then s else s.alChange man []

def execAllowlistAdd (m : Master) (manifest : Bool) (s : State) : Host.Outcome State Fault Refusal :=
  .next (if masterPriv m && s.reaches m then s.alAdd manifest else s)

def execAllowlistRemove (m : Master) (manifest : Bool) (s : State) : Host.Outcome State Fault Refusal :=
  .next (if masterPriv m && s.reaches m then s.alRemove manifest else s)

def execAllowlistClear (m : Master) (manifest : Bool) (s : State) : Host.Outcome State Fault Refusal :=
  .next (if masterPriv m && s.reaches m then s.alClear manifest else s)

/-- A write of SEC_CTL: `MAN_ENF` and `LOCK` unless locked, then the write-only bits. -/
def State.writeSecCtl (s : State) (v : Nat) : State :=
  let s := if s.sec.lock then { s with lkIgnore := satAdd 16 s.lkIgnore 1 }
    else s.modSec fun c => { c with manEnf := bitOf v 0, lock := bitOf v 31 }
  let s := if bitOf v 1 then s.svnCommit else s
  (List.range 4).foldl (fun s i => if bitOf v (2 + i) then s.keyRevoke i else s) s

/-- A write of SEC_AL_CMD. -/
def State.writeAlCmd (s : State) (v : Nat) : State :=
  match bitsOf v 1 0 with
  | 1 => s.alAdd (bitOf v 2)
  | 2 => s.alRemove (bitOf v 2)
  | 3 => s.alClear (bitOf v 2)
  | _ => s

/-! ## Palettes (R111 to R114, R522) -/

/-- A joined slice's palette set contains a palette. -/
def State.palUsed (s : State) (id : Nat) : Bool := id != 0 && s.slices.any fun x => x.state == .joined && x.palset.contains id

/-- Cores drop a palette from their program slots and from the loads that wait. -/
def Core.dropPal (id : Nat) (c : Core) : Core :=
  let c := if c.pal0 == id then { c with pal0 := 0, prog0 := [] } else c
  let c := if c.pal1 == id then { c with pal1 := 0, prog1 := [] } else c
  let next := c.nextPal.filter fun p => p != id
  if c.loadingPal == id then { c with loadingPal := next.headD 0, nextPal := next.tail } else { c with nextPal := next }

/-- PALETTE_LOAD with `REMOVE` = 1 (R114). -/
def State.removePalette (s : State) (r : Ref) (b : List Byte) : State :=
  let id := fld b 13 1
  if fld b 0 12 != 0 || fld b 16 12 != 0 then s.finish r stBadField
  else if s.palUsed id then s.finish r stBusy
  else if !s.pals.any fun p => p.id == id then s.finish r stNotFound
  else
    let s := { s with pals := s.pals.filter fun p => p.id != id }
    (s.modDies fun d => { d with cores := d.cores.map (Core.dropPal id) }).finish r stOK (leBytes 1 id)

/-- The form of a palette image (R112, Table 04-4). -/
def palFormOk (img : List Byte) (sigN : Nat) : Bool :=
  let role := bitsOf (fld img 1 1) 3 0
  let code := fld img 4 4
  let vendor := bitOf (fld img 1 1) 4
  decide (1 ≤ fld img 0 1) && decide (fld img 0 1 ≤ 254) && decide (1 ≤ role) && decide (role ≤ 7) && decide (fld img 1 1 < 32) &&
  decide (64 ≤ code) && decide (code ≤ 32768) && code % 64 == 0 && decide (img.length = 64 + code) && fld img 8 4 == 0x00010000 &&
  onlyUses (img.take 64) [(0, 12)] && sigN == (if vendor then 29856 else 0)

/-- The vendor signature of an image: key, then signature over the image (R522). -/
def Sec.palSigned (c : Sec) (img sig : List Byte) : Bool :=
  let key := sig.take 64
  ((List.range 2).any fun i => c.vkeyPal[i]? == some (shake256 key) && !c.revoked.getLsbD (2 + i)) &&
  Config.slhVerify key img (sig.drop 64)

/-- Place an admitted palette in the store (R113); cores that hold the palette it replaces drop that one, as at a removal. -/
def State.admitPalette (s : State) (r : Ref) (img : List Byte) : State :=
  let id := fld img 0 1
  let p : Palette := { id := id, role := bitsOf (fld img 1 1) 3 0, vendor := bitOf (fld img 1 1) 4, ver := fld img 2 2, digest := shake256 img, code := img.drop 64 }
  let logged (s : State) : State := (s.measure 3 (id + 256 * boolNat p.vendor) p.digest).finish r stOK (leBytes 1 id)
  match s.pals.find? fun q => q.id == id with
  | some q =>
    if q.digest == p.digest then s.finish r stOK (leBytes 1 id)
    else if s.palUsed id then s.finish r stBusy
    else
      let put (q : Palette) : Palette := if q.id == id then p else q
      logged (({ s with pals := s.pals.map put } : State).modDies fun d => { d with cores := d.cores.map (Core.dropPal id) })
  | none => if 32 ≤ s.pals.length then s.finish r stNoSpace else logged { s with pals := s.pals ++ [p] }

/-- PALETTE_LOAD (R112, R113). -/
def opPaletteLoad (r : Ref) (b : List Byte) (s : State) : State :=
  let n := fld b 8 4
  let sigN := fld b 24 4
  if !onlyUses b [(0, 14), (16, 12)] || decide (1 < fld b 12 1) then s.finish r stBadField
  else if fld b 12 1 = 1 then s.removePalette r b
  else if fld b 13 1 != 0 || decide (32832 < n) || (sigN != 0 && sigN != 29856) then s.finish r stBadField
  else match s.hostRead r.src.port (fld b 0 8) n, s.hostRead r.src.port (fld b 16 8) sigN with
  | some img, some sig =>
    if !palFormOk img sigN then s.finish r stBadField
    else if (if sigN = 0 then s.sec.palAl.contains (shake256 img) else s.sec.palSigned img sig) then s.admitPalette r img
    else s.finish r stNotAdmitted
  | _, _ => s.finish r stHostUnreachable

/-! ## Attestation reports (R519 to R521) -/

def rptSigBytes : Nat := 49856

/-- Bytes of a report, signature included. -/
def State.rptTotal (s : State) : Nat := 128 + 64 * s.sec.log.length + s.sec.cert.length + rptSigBytes

/-- The report as it stands, without its signature (Table 23-5). -/
def State.rptBody (s : State) (nonce : List Byte) : List Byte :=
  let c := s.sec
  let f (g : FwImage → Nat) : Nat := (c.running.map g).getD 0
  padTo 128 (leBytes 4 0x00010000 ++ leBytes 4 s.rptTotal ++ padTo 32 nonce ++ leBytes 8 c.serial.toNat ++
    leBytes 1 (f FwImage.maj) ++ leBytes 1 (f FwImage.min) ++ leBytes 2 (f FwImage.patch) ++ leBytes 1 (f FwImage.svn) ++ leBytes 1 c.svn ++
    leBytes 1 (pack [(0, 1, boolNat s.clk.image), (1, 1, f FwImage.keySlot), (2, 2, s.health.state), (4, 1, boolNat c.manEnf)]) ++
    leBytes 1 (s.coord.coord + 64 * boolNat s.coord.valid) ++ leBytes 8 s.now ++ padTo 32 c.aggregate ++ leBytes 4 c.log.length ++
    leBytes 4 c.logLost ++ leBytes 4 c.cert.length) ++
  c.log.flatMap LogEnt.bytes ++ c.cert

/-- The signing engine has one report in hand and 8 waiting. -/
def Sec.rptFull (c : Sec) : Bool := decide (9 ≤ c.rpts.length)

def State.askReport (s : State) (q : RptReq) : State := s.modSec fun c => { c with rpts := c.rpts ++ [q] }

/-- ATTEST. -/
def opAttest (r : Ref) (b : List Byte) (s : State) : State :=
  if !onlyUses b [(0, 44)] || decide (fld b 40 4 < s.rptTotal) then s.finish r stBadField
  else if s.sec.rptFull then s.finish r stBusy
  else s.askReport { ref := some r, spdm := false, dst := fld b 32 8, unsigned := s.rptBody (b.take 32) }

/-- Fragments of a report for the sideband: a 4-byte offset, then report bytes (R521). -/
def fragments (n off : Nat) : Nat → List Byte → List (List Byte)
  | 0, _ => []
  | k + 1, b => if b.isEmpty then [] else (leBytes 4 off ++ b.take n) :: fragments n (off + n) k (b.drop n)

/-- REPORT_SIGNED: the report in hand gets its signature and goes where it was asked for; the next begins. The size of sideband
fragments is free. -/
def execReportSigned (s : State) : Host.Outcome State Fault Refusal :=
  match s.sec.rpts with
  | [] => .next s
  | q :: t =>
    if !s.easelUp then .next s
    else
      let s := s.modSec fun c => { c with rpts := t }
      let rpt := q.unsigned ++ padTo rptSigBytes (Config.slhSign q.unsigned)
      match q.ref with
      | some r =>
        let (s, lost) := s.hostWrite r.src.port q.dst rpt
        .next (s.finishWith r stOK (leBytes 4 (if lost then 0 else rpt.length)) lost)
      | none =>
        if q.spdm then .next (s.emit (.spdm (Config.spdmFrame rpt)))
        else
          let (v, s) := s.draw
          .next (s.emits ((fragments (1 + v % 65536) 0 rpt.length rpt).map fun f => .mctp 0x32 f))

/-- SIDEBAND_ATTEST_REQUEST: a report is asked for; a request that finds 8 waiting is not served. -/
def execSidebandAttestRequest (nonce : List Byte) (s : State) : Host.Outcome State Fault Refusal :=
  if !s.sidebandUp || s.health.failed then .next s
  else
    let s := s.beat
    .next (if s.sec.rptFull then s else s.askReport { ref := none, spdm := false, dst := 0, unsigned := s.rptBody nonce })

/-- SPDM_REQUEST on a port's DOE mailbox: answered with the same identity and the log entries (R521). -/
def execSpdmRequest (p : Port) (nonce : List Byte) (s : State) : Host.Outcome State Fault Refusal :=
  let x := s.port p
  .next (if !x.cfgReaches || !x.cfgReady || !s.easelUp || s.sec.rptFull then s
    else s.askReport { ref := none, spdm := true, dst := 0, unsigned := s.rptBody nonce })

end Sys2Proof.Machine
end

