-- ==== Sys2Proof/Machine/Registers.lean ====
section
/-! DEFINITION. Register writes (spec/18_registers.md): sequenced status, posted writes, generations, locks, and what a write
that lands does at each offset. -/

namespace Sys2Proof.Machine

open Sys2Proof

/-! ## Sequenced status (R424 to R426) -/

/-- A master may see the register: SEC is privileged (R437). -/
def sqSeen (m : Master) (r : SqReg) : Bool := r != .sec || masterPriv m

/-- A read returns events and `SEQ` and lets the master clear what it saw. -/
def State.sqRead (s : State) (m : Master) (r : SqReg) : State :=
  if sqSeen m r then
    let q := s.sqGet r
    ({ s with sq := assocSet s.sq r { q with perm := addNew q.perm m } } : State).emit (.read m (BitVec.ofNat 32 q.val))
  else s.emit (.read m 0)

/-- SQ_EVENT_READ. -/
def execSqEventRead (m : Master) (r : SqReg) (s : State) : Host.Outcome State Fault Refusal := .next (if s.reaches m then s.sqRead m r else s)

/-- A write clears the events it names when `SEQ` matches and has not moved since the master's last read; else `SEQ_MISS`. -/
def State.sqClear (s : State) (m : Master) (r : SqReg) (v : W32) : State :=
  let q := s.sqGet r
  if !sqSeen m r then s
  else if v.toNat / 2 ^ 24 == q.seq.toNat && q.perm.contains m then
    { s with sq := assocSet s.sq r { q with ev := q.ev &&& ~~~(v.setWidth 24) } }
  else { s with seqMiss := satAdd 16 s.seqMiss 1 }

/-- SQ_EVENT_CLEAR, as it lands. -/
def execSqEventClear (m : Master) (r : SqReg) (v : W32) (s : State) : Host.Outcome State Fault Refusal :=
  .next (if s.reaches m then s.sqClear m r v else s)

/-! ## Generations (R430 to R434) -/

/-- A BF write collects in a shadow list; a later write of one register counts. -/
def addShadow (l : List ShadowW) (off : Nat) (v : W32) : List ShadowW := (l.filter fun w => w.off != off) ++ [{ off := off, val := v }]

/-- A BF write of a master: into the generation that waits for writes posted before its GO, or into the shadows (R430, R431). -/
def State.bfWrite (s : State) (m : Master) (off : Nat) (v : W32) (early : Bool) : State :=
  s.modMaster m fun b =>
    if early && b.pending && !b.checked then { b with taken := b.taken.map fun l => addShadow l off v }
    else { b with shadow := addShadow b.shadow off v }

/-- BF_WRITE. -/
def execBfWrite (m : Master) (off : Nat) (v : W32) (s : State) : Host.Outcome State Fault Refusal :=
  .next (if s.reaches m && (scopeOf off).isSome then s.bfWrite m off v false else s)

/-- The value that a generation gives a register, or the active one. -/
def genVal (s : State) (l : List ShadowW) (off : Nat) : Nat := ((l.find? fun w => w.off == off).map fun w => w.val.toNat).getD (regTrue s .easel off)

/-- Objects or metadata lie in a group. -/
def State.groupUsed (s : State) (g : Nat) : Bool :=
  s.objs.any (fun o => o.ranges.any fun (a, _) => decide (s.region a ≠ .unmapped) && (match s.region a with
    | .win k _ _ => k == g
    | _ => false)) ||
  s.sysExts.any fun x => x.g0 == some g || x.g1 == some g

/-- Bytes of flash that durable and unfinished copies hold, and spill space in use, in GiB rounded up. -/
def Flash.copyGib (f : Flash) : Nat := ((f.copies.map (·.size)).foldl (· + ·) 0 + gib - 1) / gib

def Flash.spillGibUsed (f : Flash) : Nat := (f.extents * 65536 + gib - 1) / gib

/-- The fields of a BF register in ascending bit: lowest bit, and why the field fails, if it does: 1 range, 2 inconsistent,
3 drain (R433 with R242, R276, R319, R394, R463). -/
def State.fieldChecks (s : State) (l : List ShadowW) (off : Nat) : List (Nat × Nat) :=
  let v := genVal s l off
  let pick (r i d : Bool) : Nat := if r then 1 else if i then 2 else if d then 3 else 0
  if 0x240000 ≤ off ∧ off < 0x241000 then
    let g := (off - 0x240000) / 0x100
    [(0, pick (decide (8 < v % 16)) false (v % 16 != (s.grp g).protGib && s.groupUsed g))]
  else if off = 0x300010 then
    [(0, pick (decide (4096 < v % 65536)) (decide (28672 < v % 65536 + s.flash.copyGib)) (decide (v % 65536 < s.flash.spillGibUsed))),
     (16, pick (decide (20 < bitsOf v 23 16)) false false)]
  else if off = 0x300014 then [(0, pick (decide (16384 < v % 65536)) false false)]
  else if off = 0x30010 then
    [(0, pick (decide (4400 < v % 65536)) (decide (bitsOf v 31 16 < v % 65536)) false), (16, pick (decide (4400 < bitsOf v 31 16)) false false)]
  else if off = 0x30014 then [(0, pick (decide (v % 65536 < 100) || decide (5000 < v % 65536)) false false)]
  else if 0x100 ≤ off ∧ off < 0x300 then
    let q := v % 2 ^ 20
    [(0, pick (q != 0 && (decide (q < 100) || decide (1000000 < q))) false false)]
  else []

/-- R394: the generation's window base is a multiple of the port's BAR4 size; a failure names `BASE_LO`. -/
def State.winOk (s : State) (l : List ShadowW) (p : Port) : Bool :=
  let b := pwBase (.pci p)
  (genVal s l (b + 0x10) % 65536 * 2 ^ 32 + bitsOf (genVal s l (b + 0xC)) 31 30 * 2 ^ 30) % 2 ^ (s.port p).bar4Log2 == 0

/-- The first failing field of a generation in the order of R433: offset, lowest bit and reason; a generation of two scopes fails for that,
at the first field of the second one (4, R432). -/
def State.genFault (s : State) (l : List ShadowW) : Option (Nat × Nat × Nat) :=
  let l := sortLe (fun a b => decide (a.off ≤ b.off)) l
  let first := l.head?.bind fun w => scopeOf w.off
  match l.find? fun w => scopeOf w.off != first with
  | some w => some (w.off, (if w.off = 0x8000C ∨ w.off = 0x8100C then 30 else 0), 4)
  | none => l.findSome? fun w =>
    match first with
      | some (1, k) =>
        if s.winOk l (portOf k) then none else some (pwBase (.pci (portOf k)) + 0xC, 30, 2)
      | _ => (s.fieldChecks l w.off).findSome? fun (lsb, why) => if why = 0 then none else some (w.off, lsb, why)

/-- Check a master's taken generation (R431 step 2, R433). -/
def State.genCheck (s : State) (m : Master) : State :=
  let l := (s.master m).taken.getD []
  let s := s.modMaster m fun b => { b with rejected := false, busy := false }
  if l.isEmpty then s.modMaster m fun b => { b with taken := none, pending := false }
  else
    let sc := ((sortLe (fun a b => decide (a.off ≤ b.off)) l).head?.bind fun w => scopeOf w.off).map (·.1)
    match s.genFault l with
    | none => s.modMaster m fun b => { b with checked := true, scope := sc.getD 0 }
    | some (off, lsb, why) => s.modMaster m fun b => { b with
        taken := none, pending := false, rejected := true, scope := sc.getD 0, reason := why, rejOff := off, rejLsb := lsb, rejValid := true }

/-- Posted writes of a master from before its GO have landed. -/
def State.goReady (s : State) (m : Master) : Bool :=
  !s.accs.any fun (m', _, a) => m' == m && a.busy && decide (a.seqNo < (s.master m).goSeq)

/-- Generations are checked in the order of their GO writes; one that still waits for posted writes holds the later ones (R434). -/
def State.genChecks (s : State) : Nat → State
  | 0 => s
  | n + 1 =>
    match s.goOrder.find? fun m => (s.master m).pending && !(s.master m).checked with
    | some m => if s.goReady m then (s.genCheck m).genChecks n else s
    | none => s

/-- `GO` in GLB_CFG_COMMIT (R431, R434). -/
def State.cfgGo (s : State) (m : Master) : State :=
  if (s.master m).pending then s.modMaster m fun b => { b with busy := true }
  else
    let n := s.accNo
    let s := ({ s with accNo := n + 1 } : State).modMaster m fun b => { b with
      pending := true, checked := false, taken := some b.shadow, shadow := [], goSeq := n }
    s.genChecks 4

def State.cfgDiscard (s : State) (m : Master) : State := s.modMaster m fun b => { b with shadow := [] }

def execCfgCommitGo (m : Master) (s : State) : Host.Outcome State Fault Refusal := .next (if s.reaches m then s.cfgGo m else s)

def execCfgCommitDiscard (m : Master) (s : State) : Host.Outcome State Fault Refusal := .next (if s.reaches m then s.cfgDiscard m else s)

/-- GENERATION_APPLY: the boundary of the scope has come; quanta wait for a change of turn while a tenant holds one, and an earlier
generation of the same scope goes first (Table 18-3, R434). -/
def execGenerationApply (m : Master) (s : State) : Host.Outcome State Fault Refusal :=
  match s.genScope m with
  | some sc =>
    if sc.1 = 4 && s.curTenant.isSome then .next s
    else if masterAll.any fun k => s.genScope k == some sc && decide ((s.master k).goSeq < (s.master m).goSeq) then .next s
    else .next (s.applyGen m)
  | none => .next s

/-! ## Units with LOCK (R436) -/

/-- RTE_RACK (R364, R365): frozen while a slice is joined or the coordinate is locked. -/
def State.writeRack (s : State) (v : Nat) : State :=
  if s.coord.lock || s.slices.any (fun x => x.state == .joined) then s.raise .rte 2
  else { s with coord := { s.coord with rack := v, rackWritten := true } }

/-- A write of LNK_CTL. -/
def State.writeLnkCtl (s : State) (i v : Nat) : State :=
  let locked := (s.link i).lock
  let s := s.lnkEnable i (bitOf v 0)
  let s := if locked then s else s.modLink i fun l => { l with lock := bitOf v 31 }
  if bitOf v 1 then s.lnkRetrain i else s

/-- LOCK_SET: bit 31 of a unit's CTL register is written 1; a locked unit ignores and counts the write. -/
def State.lockSet (s : State) (m : Master) (off : Nat) : State :=
  let ignored : State := { s with lkIgnore := satAdd 16 s.lkIgnore 1 }
  if off = 0x140004 then (if masterPriv m then { s with coord := { s.coord with lock := true } } else s)
  else if off = 0x70004 then
    if !masterPriv m then s else if s.sec.lock then ignored else s.modSec fun c => { c with lock := true }
  else match pwAt off with
    | some (.lnk i) =>
      if off != pwBase (.lnk i) + 4 then s else if (s.link i).lock then ignored else s.modLink i fun l => { l with lock := true }
    | _ => s

def execLockSet (m : Master) (off : Nat) (s : State) : Host.Outcome State Fault Refusal := .next (if s.reaches m then s.lockSet m off else s)

/-! ## What a write does where it lands -/

/-- A write of SNAP_CTL. -/
def State.writeSnapCtl (s : State) (v : Nat) : State :=
  let s := s.modSnap fun n => { n with prop := bitOf v 2 }
  let s := if bitOf v 0 then s.trigger 0 0 else s
  if bitOf v 1 then s.rearm else s

/-- A privileged register's write, which a port's write is not (R437). -/
def State.privWrite (s : State) (m : Master) (f : State → State) : State := if masterPriv m then f s else s

/-- A 32-bit write by a master takes effect at a BAR0 offset. `early` marks one posted before the master's GO. An offset with no
writable field ignores it (R419). -/
def State.landWrite (s : State) (m : Master) (off : Nat) (w : W32) (early : Bool) : State :=
  let v := w.toNat
  if (scopeOf off).isSome then s.bfWrite m off w early
  else match sqAt off with
  | some r => s.sqClear m r w
  | none =>
    if off = 0x10 then (if bitOf v 0 then s.cfgGo m else if bitOf v 1 then s.cfgDiscard m else s)
    else if off = 0x30004 then s.privWrite m fun s => s.setRackCap v
    else if off = 0x30008 then s.setHostCap v
    else if off = 0x3000C then s.privWrite m fun s => (s.modPower fun p => { p with orphanCap := v % 65536, hbMs := bitsOf v 31 16 }).pwrUpdate
    else if off = 0x30018 then s.privWrite m fun s => s.modPower fun p => { p with floor := v % 65536, balEn := bitOf v 16 }
    else if off = 0x40048 then s.modMon fun c => { c with fluid := bitOf v 0, cMin := bitsOf v 15 8 }
    else if off = 0x60000 then s.writeSnapCtl v
    else if off = 0x60014 then s.modSnap fun n => { n with faultEn := BitVec.ofNat 7 v }
    else if 0x60100 ≤ off ∧ off < 0x60180 then
      let i := (off - 0x60100) / 8
      s.modMaster m fun b => if off % 8 = 0 then { b with selLo := b.selLo.set i w } else { b with selHi := b.selHi.set i (BitVec.ofNat 32 (v % 4096)) }
    else if off = 0x70004 then s.privWrite m fun s => s.writeSecCtl v
    else if off = 0x70008 then s.privWrite m fun s => s.writeAlCmd v
    else if 0x70010 ≤ off ∧ off < 0x70030 then s.privWrite m fun s => s.modSec fun c => { c with alData := c.alData.set ((off - 0x70010) / 4) w }
    else if off = 0x140004 then s.privWrite m fun s => s.writeCoord v
    else if off = 0x140008 then s.privWrite m fun s => s.writeRack v
    else match pwAt off with
      | some (.lnk i) => if off = pwBase (.lnk i) + 4 then s.writeLnkCtl i v else s
      | _ => s

/-! ## Posted writes (R427, R428) -/

/-- A write of 1 to `ACC_DROP` clears it; a write to `ACC` is never posted. -/
def State.accClear (s : State) (m : Master) (blk : PwBlk) : State := s.setAcc m blk { s.accOf m blk with drop := false }

/-- A posted write takes the master's slot of the block, or is dropped and counted while the slot is busy. -/
def State.postWrite (s : State) (m : Master) (blk : PwBlk) (off : Nat) (v : W32) : State :=
  let a := s.accOf m blk
  if a.busy then s.setAcc m blk { a with drop := true, dropN := satAdd 16 a.dropN 1 }
  else ({ s with accNo := s.accNo + 1 } : State).setAcc m blk { a with busy := true, off := off, val := v, seqNo := s.accNo }

/-- A BAR0 write into a posted-write block. -/
def State.pwWrite (s : State) (m : Master) (blk : PwBlk) (off : Nat) (v : W32) : State :=
  if off = pwBase blk then (if v.getLsbD 1 then s.accClear m blk else s)
  else if regOffsets.contains off then s.postWrite m blk off v
  else s

/-- PW_WRITE. -/
def execPwWrite (m : Master) (off : Nat) (v : W32) (s : State) : Host.Outcome State Fault Refusal :=
  match pwAt off with
  | some b => .next (if s.reaches m && off % 4 == 0 then s.pwWrite m b off v else s)
  | none => .next s

/-- PW_WRITE_LAND: a block's writes land in the order of their arrival (R427); a generation that waited for this one is checked. -/
def execPwWriteLand (m : Master) (blk : PwBlk) (s : State) : Host.Outcome State Fault Refusal :=
  let a := s.accOf m blk
  let earlier := s.accs.any fun (m', b, x) => m' != m && b == blk && x.busy && decide (x.seqNo < a.seqNo)
  if !a.busy || earlier then .next s
  else
    let early := decide (a.seqNo < (s.master m).goSeq)
    let s := s.setAcc m blk { a with busy := false }
    .next ((s.landWrite m a.off a.val early).genChecks 4)

/-- ACC_DROP_CLEAR. -/
def execAccDropClear (m : Master) (blk : PwBlk) (s : State) : Host.Outcome State Fault Refusal := .next (if s.reaches m then s.accClear m blk else s)

/-! ## The module counter (R439) -/

/-- TIME_LO_READ: the low word, and the high word is latched for the master. -/
def execTimeLoRead (m : Master) (s : State) : Host.Outcome State Fault Refusal :=
  .next (if s.reaches m then
    (s.modMaster m fun b => { b with timeHi := BitVec.ofNat 32 (s.now / 2 ^ 32) }).emit (.read m (BitVec.ofNat 32 (s.now % 2 ^ 32)))
  else s)

end Sys2Proof.Machine
end

