-- ==== Sys2Proof/Machine/Boot.lean ====
section
/-! DEFINITION. Clocks, resets and boot (spec/22_clocks_reset_boot.md), ROM recovery (R513), the sideband bus (R534, R535) and the
test access port (R537). -/

namespace Sys2Proof.Machine

open Sys2Proof

/-! ## Module reset (R500, R501, R504, Table 22-4) -/

/-- Flash across a module reset: durable copies under their OBJ_ID and digest, the wear history and spare blocks of the FTL journal,
and the bucket; the spill area is emptied. -/
def State.flashKept (s : State) : Flash :=
  let f := s.flash
  let kept (c : FCopy) : FCopy := { c with claimed := false }
  let durable (id : Nat) : Bool := f.copies.any fun c => c.obj == id && c.durable
  { State.flash0 with
    unbuilt := f.unbuilt, spareBlocks := f.spareBlocks, failed := s.nor.nandFailed, blocks := f.blocks, temps := f.temps, paused := f.paused,
    stripes := (f.dropRefs fun r => r.spill || !durable r.obj).stripes, logNo := f.logNo, map := f.map.filter fun x => durable x.obj,
    copies := (f.copies.filter (·.durable)).map kept, bucket := s.bucketNow, bucketAt := 0 }

/-- Security across a module reset: fuses, certificates, image slots and the boot record. -/
def Sec.kept (c : Sec) : Sec :=
  { State.sec0 with
    vkeyFw := c.vkeyFw, vkeyPal := c.vkeyPal, serial := c.serial, cert := c.cert, svn := c.svn, revoked := c.revoked,
    imgA := c.imgA, imgB := c.imgB, bootB := c.bootB, aOk := c.aOk, bOk := c.bOk }

/-- Physical cores of a die from the health record: quarantined ones, and the mapping kept with it (R25, R118). -/
def Nor.phys (n : Nor) (k : Nat) : List Phys :=
  let map : Option (List Nat) := assocGet n.map k
  (List.range 128).map fun q =>
    match n.quar.find? fun (d, p, _) => d == k && p == q with
    | some (_, _, cause) => { state := 2, logical := 0, cause := cause }
    | none =>
      match map with
      | none => State.phys0.getD q { state := 1, logical := 0, cause := 0 }
      | some l =>
        match l.findIdx? fun p => p == q with
        | some j => { state := 0, logical := j, cause := 0 }
        | none => { state := 1, logical := 0, cause := 0 }

/-- A compute die in module reset: lost as the record says, its cores as mapped; its rail carries what its phases carry. -/
def State.dieKept (s : State) (k : Nat) : Die :=
  let phys := s.nor.phys k
  let core (j : Nat) : Core := { State.core0 with empty := !(phys.any fun p => p.state == 0 && p.logical == j) }
  { State.die0 with
    lost := s.nor.lostDies.contains k, phys := phys, cores := (List.range 120).map core, railCap := (s.die k).railCap }

/-- Power across a module reset: the pins and the input as they are, and the phases that are lost. -/
def Power.kept (p : Power) (phases : List (Rail × Nat)) : Power :=
  { State.power0 with brake := p.brake, sag := p.sag, overV := p.overV, phasesLost := phases, shorted := p.shorted }

/-- A module reset begins (R500): every register goes to its reset value and everything volatile is lost. `FAILED` and a thermal trip
last until MOD_RST_N or a power cycle (R469, R486). -/
def State.moduleReset (s : State) (cause : Nat) : State :=
  let stays := decide (2 ≤ cause)
  let h := s.health
  let port (x : PortSt) : PortSt := { State.port0 with perst := x.perst }
  { State.reset with
    pending := s.pending, fresh := s.fresh, hostA := s.hostA, hostB := s.hostB, pa := port s.pa, pb := port s.pb,
    dies := (List.range 8).map s.dieKept, d2d := s.d2d.map fun (d : D2d) => { d2d0 with down := d.down },
    flash := s.flashKept, power := s.power.kept s.nor.phases, nor := s.nor, sec := s.sec.kept,
    health := { State.health0 with
      failed := h.failed && stays, easelStop := h.easelStop && stays, ioLost := if stays then h.ioLost else [],
      thermtripN := h.thermtripN && stays },
    clk := { State.clk0 with cause := cause, refLost := s.clk.refLost, powered := s.clk.powered },
    side := { State.reset.side with straps := s.side.straps, stuck := s.side.stuck, tapIr := s.side.tapIr },
    tx := s.tx }

/-- MOD_RST_N_ASSERT (R500). -/
def execModRstNAssert (s : State) : Host.Outcome State Fault Refusal := .next (if s.clk.powered then s.moduleReset 1 else s)

/-- POWER_OFF (R453): every rail falls; the volatile state is lost as in a module reset. -/
def execPowerOff (s : State) : Host.Outcome State Fault Refusal :=
  .next ((s.moduleReset 0).modClk fun c => { c with powered := false })

/-- POWER_ON (R527): the rails are in regulation, and the module is in reset until MODULE_RESET_END. -/
def execPowerOn (s : State) : Host.Outcome State Fault Refusal :=
  .next (if s.clk.powered then s else (s.moduleReset 0).modClk fun c => { c with powered := true })

/-- RESET_SCOPE_DELAY_EXPIRE (R415): the module reset that a RESET_SCOPE asked for begins. -/
def execResetScopeDelayExpire (s : State) : Host.Outcome State Fault Refusal := .next (if s.clk.resetDue then s.moduleReset 2 else s)

/-- MODULE_RESET_END (R493, R497, R500): with a good reference the PLLs lock, the counter starts at zero, boot stage 1 begins and
configuration space answers on each port that PERST does not hold. -/
def execModuleResetEnd (s : State) : Host.Outcome State Fault Refusal :=
  if !s.clk.inReset || !s.clk.powered || s.clk.refLost || s.health.thermtripN then .next s
  else
    let open1 (x : PortSt) : PortSt := { x with cfgReady := !x.perst }
    let s := { s with now := 0, pa := open1 s.pa, pb := open1 s.pb }
    .next (((s.modClk fun c => { c with inReset := false, stage := 1, refOk := true, pllLock := 0xFFF }).emit (.console 0 1)).pwrUpdate)

/-! ## The reference and the root PLLs (R498) -/

def execRefClockLoss (s : State) : Host.Outcome State Fault Refusal := .next (s.modClk fun c => { c with refLost := true, refOk := false })

/-- REF_HOLDOVER_EXPIRE: the reference has been gone for 100 µs. -/
def execRefHoldoverExpire (s : State) : Host.Outcome State Fault Refusal :=
  .next (if s.clk.refLost && !s.clk.inReset then s.moduleReset 3 else s)

/-- REF_CLOCK_RETURN: within the holdover nothing changes but `REF_GLITCH`; in a REF_LOSS reset the reset may now end. -/
def execRefClockReturn (s : State) : Host.Outcome State Fault Refusal :=
  if !s.clk.refLost then .next s
  else if s.clk.inReset then .next (s.modClk fun c => { c with refLost := false })
  else .next ((s.modClk fun c => { c with refLost := false, refOk := true }).raise .clk 1)

/-- PLL_UNLOCK with a good reference: that die is lost. -/
def execPllUnlock (die : Nat) (s : State) : Host.Outcome State Fault Refusal :=
  if s.clk.inReset || !s.clk.refOk || decide (12 ≤ die) then .next s
  else
    let s := (s.modClk fun c => { c with pllLock := c.pllLock &&& ~~~((1 : BitVec 12) <<< die) }).raise .clk 0
    .next (if die < 8 then s.dieLose die else s.ioLose (die - 8))

/-! ## RESET_SCOPE (R499, R502, R503) -/

/-- A compute die in reset (R502): cores, list, contexts and agents start again; counters, core mapping and pool objects stay. -/
def State.dieReset (s : State) (k : Nat) : State :=
  let core (c : Core) : Core := { State.core0 with closed := c.closed, empty := c.empty, lastBeat := s.now, lastProgress := s.now }
  s.modDie k fun d => { d with
    inReset := true, agentAt := none, nodRow := 0, tiles := [], ctrs := [], groups := [], merges := [], ctxs := [], moePars := [],
    agents := [], open_ := [], cores := d.cores.map core, early := [], heldBack := [] }

/-- The flash tier may be reset (Table 22-3). -/
def State.flashIdle (s : State) : Bool :=
  let busy (o : Obj) : Bool :=
    (o.res == .arriving && (match o.src with
      | some .flash | some (.flashOf _) => true
      | _ => false)) ||
    (o.res == .departing && (o.writeOut || s.flash.copies.any fun c => c.obj == o.id && !c.durable)) ||
    ((o.pool.map fun p => p.target == 2 && p.pages.any fun (_, d) => d.spillAct).getD false)
  s.steps.isEmpty && !s.objs.any busy

/-- RESET_SCOPE: the completion comes first; a die or the flash tier then resets, a module reset follows with
RESET_SCOPE_DELAY_EXPIRE. -/
def opResetScope (r : Ref) (b : List Byte) (s : State) : State :=
  let code := fld b 0 1
  if !onlyUses b [(0, 1)] then s.finish r stBadField
  else if code = 1 then (s.finish r stOK).modClk fun c => { c with resetDue := true }
  else if 0x10 ≤ code ∧ code < 0x18 then
    if (s.die (code - 0x10)).lost then s.finish r stBadField
    else if slotsUsed s != 0 then s.finish r stBusy
    else (s.finish r stOK).dieReset (code - 0x10)
  else if code = 0x20 then
    if !s.flashIdle then s.finish r stBusy
    else ((s.finish r stOK).modClk fun c => { c with flsRst := true }).modFlash fun f => { f with ready := false }
  else s.finish r stBadField

/-- DIE_RESET_DONE (R502). -/
def execDieResetDone (die : Nat) (s : State) : Host.Outcome State Fault Refusal :=
  .next (if (s.die die).inReset then (s.modDie die fun d => { d with inReset := false }).raise .clk 2 else s)

/-- FLASH_RESET_DONE (R503). -/
def execFlashResetDone (s : State) : Host.Outcome State Fault Refusal :=
  .next (if s.clk.flsRst then
    ((s.modClk fun c => { c with flsRst := false }).modFlash fun f => { f with ready := true }).raise .clk 3
  else s)

/-! ## Boot (R505, R506, R512, R517, R488) -/

/-- The readable fuse fields in the order of Table 23-1; `SVN` is thermometer coded. -/
def Sec.fuseBytes (c : Sec) : List Byte :=
  (c.vkeyFw ++ c.vkeyPal).flatten ++ leBytes 1 c.revoked.toNat ++ leBytes 8 (2 ^ c.svn - 1) ++ leBytes 8 c.serial.toNat

def State.setStage (s : State) (n : Nat) : State := (s.modClk fun c => { c with stage := n }).emit (.console 0 n)

def Sec.img (c : Sec) (b : Bool) : Option FwImage := if b then c.imgB else c.imgA

/-- Check a slot and note the result in `A_OK` or `B_OK`. -/
def State.checkSlot (s : State) (b : Bool) : Bool × State :=
  let ok := ((s.sec.img b).map s.sec.verifies).getD false
  (ok, s.modSec fun c => if b then { c with bOk := ok } else { c with aOk := ok })

/-- A die-to-die port that was down tries to train again: whether it does is free, but one that has failed at three successive resets
stays down (R488). -/
def State.retrainD2d (s : State) (i : Nat) : State :=
  if !(s.d2dAt i).down then s
  else
    let n := (assocGet s.nor.d2dRetrain i).getD 0
    let (v, s) := s.draw
    if v % 2 = 1 && decide (n < 3) then (s.modD2d i fun d => { d with down := false }).modNor fun x => { x with d2dRetrain := assocDel x.d2dRetrain i }
    else s.modNor fun x => { x with d2dRetrain := assocSet x.d2dRetrain i (n + 1) }

/-- The causes that the record and the hardware found set (R488). -/
def State.healthFromRecord (s : State) : State :=
  let s := (List.range 22).foldl State.retrainD2d s
  let s := if s.d2d.any D2d.down then s.setCause hcD2d else s
  let out (g : Nat) (x : Grp) : Grp := if s.nor.lostDies.contains (g / 2) then { x with outOfService := true } else x
  let s := { s with grps := s.grps.mapIdx out }
  let s := if s.nor.lostDies.isEmpty then s else s.setCause hcDieLost
  let beyond := s.nor.phases.any fun (r, n) => decide (railSpares r < n)
  let s := s.modHealth fun h => { h with limitedPhase := beyond }
  let s := if s.nor.phases.isEmpty then s else s.setCause hcPhase
  let s := (List.range 8).foldl (fun s k => s.setPulses k 16) s
  let short (s : State) (r : Rail) : State := match r with
    | .io m | .aux m => s.ioLose m
    | .compute _ | .lpddr _ => s
  (s.power.shorted.foldl short s).hltUpdate

/-- The ROM runs the first image that verifies, the preferred slot first (R512). -/
def State.verifyBoot (s : State) : State :=
  let p := s.sec.bootB
  let start (s : State) (b : Bool) : State :=
    match s.sec.img b with
    | some x =>
      let s := (s.modSec fun c => { c with running := some x }).modClk fun c => { c with image := b }
      ((s.setStage 3).measure 2 (boolNat b) x.digest).healthFromRecord
    | none => s
  let (ok, s) := s.checkSlot p
  if ok then start s p
  else
    let (ok, s) := s.checkSlot (!p)
    if ok then start (s.raise .sec 0) (!p)
    else s.modClk fun c => { c with noImage := true }

/-- BOOT_STAGE_DONE: stages 1 to 3 end; stage 4 ends with MEMORY_TRAINING_DONE. -/
def execBootStageDone (s : State) : Host.Outcome State Fault Refusal :=
  if s.clk.inReset then .next s
  else match s.clk.stage with
  | 1 => .next ((s.setStage 2).measure 1 s.sec.svn (shake256 s.sec.fuseBytes))
  | 2 => .next (if s.clk.noImage then s else s.verifyBoot)
  | 3 => .next (s.setStage 4)
  | _ => .next s

/-- MEMORY_TRAINING_DONE: the channels listed have failed, the others are trained, and boot ends (R279, R26, R488). -/
def execMemoryTrainingDone (failed : List Nat) (s : State) : Host.Outcome State Fault Refusal :=
  if s.clk.inReset || s.clk.stage != 4 then .next s
  else
    let live (c : Nat) : Bool := !(s.die (c / 32)).lost
    let train (c : Nat) (x : Chan) : Chan := { x with trained := live c && !failed.contains c }
    let s := { s with chans := s.chans.mapIdx train }
    let s := s.modNor fun n => { n with chFails := [] }
    let s := (failed.filter live).foldl State.channelFail s
    let s := (s.setStage 5).modClk fun c => { c with bootT := min (s.now / 1050000) 65535 }
    let s := if s.flash.ready then s.bootScrub else s
    .next ((s.jobStart).raise .clk 4)

/-- FTL_READY: the map is loaded (R506), and after stage 5 the scrub starts (R542); a rebuild that the reset cut short goes on, and the spares are judged again (R309, R316). -/
def execFtlReady (s : State) : Host.Outcome State Fault Refusal :=
  if s.clk.inReset || decide (s.clk.stage < 3) || s.flash.ready || s.clk.flsRst || !s.health.ioLost.isEmpty then .next s
  else
    let s := (s.modFlash fun f => { f with ready := true, rebuild := !f.unbuilt.isEmpty && f.spareBlocks != 0 }).spareCheck
    .next (if s.clk.stage = 5 then s.bootScrub else s)

/-- RECOVERY_IMAGE_MESSAGE (R513): in ROM recovery, CODE 0x40 delivers a part of an image and CODE 0x41 its last part. -/
def execRecoveryImageMessage (last : Bool) (bytes : List Byte) (s : State) : Host.Outcome State Fault Refusal :=
  if s.clk.inReset || s.clk.stage != 2 || !s.clk.noImage || s.side.stuck then .next s
  else
    let b := s.sec.recBuf ++ bytes
    if !last then .next (s.modSec fun c => { c with recBuf := b })
    else
      let x := parseImage b
      if imageFormOk b && s.sec.verifies x then .next ((s.modSec fun c => { c with imgA := some x, bootB := false }).moduleReset 2)
      else
        let st := if s.sec.keyOk x && decide (x.svn < s.sec.svn) then stRollback else stAuthFail
        .next ((s.modSec fun c => { c with recBuf := [] }).emit (.mctp 0x41 (leBytes 2 st)))

/-! ## The sideband bus (R534, R535) -/

/-- SIDEBAND_BUS_STUCK: the target interface is reset and no message reaches the module. -/
def execSidebandBusStuck (s : State) : Host.Outcome State Fault Refusal :=
  .next { s with side := { s.side with stuck := true, dyn := none } }

/-- SIDEBAND_LINES_HIGH: the module answers again at its static address. -/
def execSidebandLinesHigh (s : State) : Host.Outcome State Fault Refusal := .next { s with side := { s.side with stuck := false } }

/-- DYNAMIC_ADDRESS_ASSIGN: SETDASA or ENTDAA. -/
def execDynamicAddressAssign (addr : Nat) (s : State) : Host.Outcome State Fault Refusal :=
  .next (if s.sidebandUp then { s with side := { s.side with dyn := some (addr % 128) } } else s)

/-- DYNAMIC_ADDRESS_RESET: RSTDAA. -/
def execDynamicAddressReset (s : State) : Host.Outcome State Fault Refusal :=
  .next (if s.sidebandUp then { s with side := { s.side with dyn := none } } else s)

/-! ## The test access port (R537) -/

/-- The instructions that run while MOD_RST_N is high, by the model's numbers: 0 BYPASS, 1 IDCODE, 2 SAMPLE. -/
def tapRuns (ir : Nat) : Bool := decide (ir ≤ 2)

/-- TAP_INSTRUCTION: with MOD_RST_N high anything but BYPASS, IDCODE and SAMPLE acts as BYPASS. IDCODE shows 0x0D2E_A001. -/
def execTapInstruction (ir : Nat) (s : State) : Host.Outcome State Fault Refusal :=
  let low := s.clk.inReset && s.clk.cause == 1
  let ir := if low || tapRuns ir then ir else 0
  let s := { s with side := { s.side with tapIr := ir } }
  .next (if ir = 1 then s.emit (.tap 0x0D2EA001) else s)

end Sys2Proof.Machine
end

