-- ==== Sys2Proof/Machine/Operands.lean ====
section
/-! DEFINITION. The operand forms of commands: the submission entry (Table 17-1), the opcodes, what a command names, and the body
fields that the COMMANDS aperture shows. -/

namespace Sys2Proof.Machine

open Sys2Proof

/-- Opcodes of Tables 17-4 to 17-7. -/
def opcodeOk (op : Nat) : Bool :=
  [0x01, 0x02, 0x03, 0x10, 0x11, 0x12, 0x13, 0x14, 0x15, 0x16, 0x17, 0x20, 0x21, 0x22, 0x23, 0x30, 0x31, 0x32, 0x33,
   0x40, 0x41, 0x42, 0x43, 0x44, 0x45, 0x46, 0x50, 0x60, 0x61, 0x70, 0x71, 0x80].contains op

/-- Commands that the mailbox accepts (R403). -/
def mailboxOk (op : Nat) : Bool := [0x01, 0x02, 0x03, 0x71].contains op

/-- Commands that run before memory is trained (R409). -/
def earlyOk (op : Nat) : Bool := [0x01, 0x02, 0x03, 0x70, 0x71].contains op

/-- A submission entry as read from memory: tag, opcode, fence, and the body; an entry with a reserved bit set has no body. -/
structure Entry where
  tag : W64
  opcode : Nat
  fence : Bool
  body : List Byte
deriving DecidableEq, Repr

def parseEntry (b : List Byte) : Entry :=
  { tag := BitVec.ofNat 64 (fld b 0 8), opcode := fld b 8 1, fence := bitOf (fld b 9 1) 0,
    body := if decide (fld b 9 1 < 2) && fld b 10 6 == 0 then padTo 112 (b.drop 16) else [] }

/-- `STEP_ID` and `SLICE` of a step command (Table 19-2). -/
def stepFields (op : Nat) (b : List Byte) : Nat × Nat :=
  if op = 0x40 then (fld b 0 8, fld b 8 1 % 8) else if op = 0x41 then (fld b 8 8, fld b 0 1 % 8) else (0, 0)

/-- The sequences that a command names (R408). -/
def State.namedSeqs (s : State) (p : Port) (op : Nat) (b : List Byte) : List Nat :=
  if op = 0x42 ∨ op = 0x43 then [fld b 0 4]
  else if op = 0x44 then [fld b 0 4, fld b 4 4]
  else if op = 0x40 then
    let (st, l) := s.readList p b
    if st = stOK then (chunks 64 (fld b 12 2) l).map fun e => fld e 0 4 else []
  else []

end Sys2Proof.Machine
end

