-- ==== Sys2Proof/Machine/Command.lean ====
section
/-! DEFINITION. Commands (spec/17_mailbox_commands.md): rings, doorbells, the mailbox, ring setup and takeover, the order of
execution, and each command's way from its source to its meaning; and plain register writes (R419). -/

namespace Sys2Proof.Machine

open Sys2Proof

/-! ## DEV_INFO (Table 17-4) -/

/-- Fewest spare cores on any die that is not lost. -/
def State.fewestSpares (s : State) : Nat :=
  match (s.dies.filter fun d => !d.lost).map Die.spares with
  | [] => 0
  | x :: t => t.foldl min x

def State.devInfo (s : State) : List Byte :=
  let f (g : FwImage → Nat) : Nat := (s.sec.running.map g).getD 0
  leBytes 8 s.sec.serial.toNat ++ leBytes 1 (f FwImage.maj) ++ leBytes 1 (f FwImage.min) ++ leBytes 2 (f FwImage.patch) ++
  leBytes 1 (s.coord.coord + 64 * boolNat s.coord.valid) ++
  leBytes 1 (pack [(0, 2, s.health.state), (2, 1, boolNat s.memReady), (3, 1, boolNat s.flash.ready)]) ++ leBytes 1 s.fewestSpares

def opDevInfo (r : Ref) (b : List Byte) (s : State) : State :=
  if !onlyUses b [] then s.finish r stBadField else s.finish r stOK s.devInfo

/-! ## Ring setup and takeover (R404, R405) -/

/-- Lowest `CSEQ` of a port's own completions held for it, or its counter's next value. -/
def PortSt.lowCseq (x : PortSt) (p : Port) : Nat :=
  ((x.held.filter fun c => c.orig == p).map (·.cseq)).foldl min x.nextCseq

/-- The result of RING_SETUP. -/
def ringResult (next adopted heldN : Nat) : List Byte := leBytes 4 next ++ leBytes 4 adopted ++ leBytes 4 heldN

/-- The fields of a new ring pair are in range (R397, Table 17-4). -/
def ringForm (b : List Byte) : Bool :=
  let sq := fld b 16 1
  let cq := fld b 17 1
  decide (6 ≤ sq) && decide (sq ≤ 16) && decide (6 ≤ cq) && decide (cq ≤ 16) && fld b 0 8 % 4096 == 0 && fld b 8 8 % 4096 == 0 &&
  decide (fld b 18 1 < 64) && decide (fld b 20 2 ≤ 1000)

/-- A fresh ring pair from the body of RING_SETUP: first pass, `PHASE` 1. -/
def ringOf (b : List Byte) : Ring :=
  { sqAddr := fld b 0 8, cqAddr := fld b 8 8, sqLog2 := fld b 16 1, cqLog2 := fld b 17 1, vec := fld b 18 1, coalUs := fld b 20 2,
    fetch := 0, tail := 0, post := 0, head := 0, phase := true, live := true }

/-- TAKEOVER = 0: the port's ring pair is installed; held completions are posted first. -/
def State.installRing (s : State) (r : Ref) (b : List Byte) : State :=
  let p := r.src.port
  let next := (s.port p).lowCseq p
  let s := s.modPort p fun x => { x with ring := some (ringOf b), dbErr := false, taken := false, coalRun := false }
  (s.finish r stOK (ringResult next 0 0)).flushHeld p (s.port p).held.length

/-- A completion held for the adopted port goes to the issuing port's ring, or is held for that port. -/
def State.adoptHeld (s : State) (p : Port) (c : Cpl) : State :=
  if (s.port p).canPost && (s.port p).held.isEmpty then s.postCpl p c else s.holdCpl p c

/-- TAKEOVER = 1: the other port's ring is adopted (R405). -/
def State.takeover (s : State) (r : Ref) : State :=
  let p := r.src.port
  let q := otherPort p
  let x := s.port q
  let held := x.held
  let mine := s.cmds.filter fun c => c.src.port == q && c.inFlight
  let s := s.finish r stOK (ringResult (x.lowCseq q) mine.length held.length)
  let move (c : CmdSlot) : CmdSlot := if c.postOn == q then { c with postOn := p } else c
  let s := { s with cmds := s.cmds.map move }
  let s := s.modPort q fun x => { x with ring := none, held := [], taken := true, coalRun := false }
  held.foldl (fun s c => s.adoptHeld p c) s

/-- RING_SETUP. -/
def opRingSetup (r : Ref) (b : List Byte) (s : State) : State :=
  if !onlyUses b [(0, 20), (20, 2)] || decide (1 < fld b 19 1) || decide (63 < fld b 18 1) then s.finish r stBadField
  else if fld b 19 1 = 1 then
    if s.down (otherPort r.src.port) then s.takeover r else s.finish r stBusy
  else if !r.src.mailbox || !ringForm b then s.finish r stBadField
  else s.installRing r b

/-! ## From opcode to meaning (R409) -/

/-- Why a command may not run yet: memory before stage 5, the coordinate. -/
def State.tooEarly (s : State) (op : Nat) : Bool := (!s.memReady && !earlyOk op) || (op == 0x33 && !s.coord.valid)

/-- The command of an opcode. -/
def opOf (op : Nat) (r : Ref) (b : List Byte) (s : State) : State :=
  match op with
  | 0x01 => opDevInfo r b s
  | 0x02 => opResetScope r b s
  | 0x03 => opRingSetup r b s
  | 0x10 => opObjCreate r b s
  | 0x11 => opObjLoadHost r b s
  | 0x12 => opObjStageFlash r b s
  | 0x13 => opObjPromote r b s
  | 0x14 => opObjEvict r b s
  | 0x15 => opObjPin r b s
  | 0x16 => opObjUnpin r b s
  | 0x17 => opObjQuery r b s
  | 0x20 => opModelBind r b s
  | 0x21 => opViewSwitch r b s
  | 0x22 => opLayerSwap r b s
  | 0x23 => opModelRelease r b s
  | 0x30 => opSliceJoin r b s
  | 0x31 => opSliceLeave r b s
  | 0x32 => opRouteLoad r b s
  | 0x33 => opBundleSet r b s
  | 0x40 => opStepSubmit r b s
  | 0x41 => opStepKill r b s
  | 0x42 => opSeqOpen r b s
  | 0x43 => opSeqClose r b s
  | 0x44 => opPageShare r b s
  | 0x45 => opPrefetchSched r b s
  | 0x46 => opSpillPolicy r b s
  | 0x50 => opPaletteLoad r b s
  | 0x60 => opStateDump r b s
  | 0x61 => opSnapRead r b s
  | 0x70 => opFwUpdate r b s
  | 0x71 => opAttest r b s
  | 0x80 => opPowerPolicy r b s
  | _ => s.finish r stBadOpcode

/-- Execution of a command whose turn has come: `BAD_OPCODE`, `NOT_READY`, a reserved entry bit, then its own rules. -/
def runOp (r : Ref) (b : List Byte) (s : State) : State :=
  if !opcodeOk r.opcode || (r.src.mailbox && !mailboxOk r.opcode) then s.finish r stBadOpcode
  else if s.tooEarly r.opcode then s.finish r stNotReady
  else if b.length != 112 then s.finish r stBadField
  else opOf r.opcode r b s

/-! ## Order of execution (R406 to R408) -/

/-- A slot that has not executed. -/
def CmdSlot.idle (c : CmdSlot) : Bool := c.state == .waiting && !c.shareWait

/-- Commands fetched earlier from the same ring. -/
def State.before (s : State) (c : CmdSlot) : List CmdSlot := s.cmds.filter fun e => e.src.port == c.src.port && decide (e.order < c.order)

/-- A PAGE_SHARE of the ring, fetched earlier, waits and the command names one of its sequences (R408). -/
def State.behindShare (s : State) (c : CmdSlot) : Bool :=
  (s.before c).any fun e => e.shareWait && (s.namedSeqs c.src.port c.opcode c.body).any fun q => q == fld e.body 0 4 || q == fld e.body 4 4

/-- A command may execute now. -/
def State.mayRun (s : State) (c : CmdSlot) : Bool :=
  c.idle && !s.behindShare c && !((s.before c).any fun e => e.idle && (e.src.fence || !s.behindShare e)) && (!c.src.fence || !((s.before c).any CmdSlot.inFlight))

def CmdSlot.ref (c : CmdSlot) : Ref := { src := c.src, opcode := c.opcode, slot := some c.idx }

/-- Execute a command in its slot. -/
def State.runSlot (s : State) (c : CmdSlot) : State :=
  let go (e : CmdSlot) : CmdSlot := if e.idx == c.idx then { e with state := .executing } else e
  runOp c.ref c.body { s with cmds := s.cmds.map go }

/-- Lowest COMMANDS slot that is free, of 8,192. -/
def State.freeCmd (s : State) : Option Nat :=
  (List.range (min (s.cmds.length + 1) 8192)).find? fun i => !s.cmds.any fun c => c.idx == i

/-- The Easel may take one more command from a port's ring (R401). -/
def State.takes (s : State) (p : Port) : Bool :=
  s.easelUp && !s.down p &&
  (match (s.port p).ring with
   | some r => r.live && decide (s.inFlight p < min 4096 (2 ^ r.cqLog2 - 1))
   | none => false)

/-- A fetched command takes a slot and executes when nothing keeps it waiting. -/
def State.accept (s : State) (src : Src) (op : Nat) (b : List Byte) : State :=
  match s.freeCmd with
  | none => s
  | some i =>
    let (id, h) := stepFields op b
    let c : CmdSlot := { idx := i, src := src, opcode := op, state := .waiting, cseq := 0, stepId := id, slice := h, status := 0, body := b,
                         postOn := src.port, order := s.cmdNo, shareWait := false }
    let s := { s with cmds := s.cmds ++ [c], cmdNo := s.cmdNo + 1 }
    if s.mayRun c then s.runSlot c else s

/-- A mailbox command: accepted while the mailbox serves and is not busy, else dropped (R403). -/
def State.mailbox (s : State) (src : Src) (op : Nat) (b : List Byte) : State :=
  let p := src.port
  if !s.easelUp || (s.port p).mbBusy then s.modPort p fun x => { x with mbDropped := true }
  else
    let s := s.modPort p fun x => { x with mbDone := false, mbDropped := false, mbBusy := true }
    runOp { src := src, opcode := op, slot := none } b s

/-- A command that a row brings, with its body padded to 112 bytes: from the mailbox, or fetched from the port's ring. -/
def State.command (s : State) (src : Src) (op : Nat) (b : List Byte) : State :=
  if src.mailbox then (if s.barAns src.port == .serve then s.mailbox src op (padTo 112 b) else s)
  else if s.takes src.port then s.accept src op (padTo 112 b)
  else s

/-! ## The command rows -/

def execDevInfo (src : Src) (body : List Byte) (s : State) : Host.Outcome State Fault Refusal := .next (s.command src 0x01 body)

def execResetScope (src : Src) (body : List Byte) (s : State) : Host.Outcome State Fault Refusal := .next (s.command src 0x02 body)

/-- A body with bit 0 of one byte set, its reserved bits as they came (R9). -/
def withBit (b : List Byte) (i : Nat) : List Byte := (padTo 112 b).set i ((padTo 112 b).getD i 0 ||| 1)

/-- RING_SETUP with TAKEOVER = 0. -/
def execRingSetup (src : Src) (body : List Byte) (s : State) : Host.Outcome State Fault Refusal := .next (s.command src 0x03 body)

/-- RING_SETUP with TAKEOVER = 1. -/
def execRingSetupTakeover (src : Src) (body : List Byte) (s : State) : Host.Outcome State Fault Refusal :=
  .next (s.command src 0x03 (withBit body 19))

def execObjCreate (src : Src) (body : List Byte) (s : State) : Host.Outcome State Fault Refusal := .next (s.command src 0x10 body)

def execObjLoadHost (src : Src) (body : List Byte) (s : State) : Host.Outcome State Fault Refusal := .next (s.command src 0x11 body)

def execObjStageFlash (src : Src) (body : List Byte) (s : State) : Host.Outcome State Fault Refusal := .next (s.command src 0x12 body)

def execObjPromote (src : Src) (body : List Byte) (s : State) : Host.Outcome State Fault Refusal := .next (s.command src 0x13 body)

def execObjEvict (src : Src) (body : List Byte) (s : State) : Host.Outcome State Fault Refusal := .next (s.command src 0x14 body)

def execObjPin (src : Src) (body : List Byte) (s : State) : Host.Outcome State Fault Refusal := .next (s.command src 0x15 body)

def execObjUnpin (src : Src) (body : List Byte) (s : State) : Host.Outcome State Fault Refusal := .next (s.command src 0x16 body)

def execObjQuery (src : Src) (body : List Byte) (s : State) : Host.Outcome State Fault Refusal := .next (s.command src 0x17 body)

def execModelBind (src : Src) (body : List Byte) (s : State) : Host.Outcome State Fault Refusal := .next (s.command src 0x20 body)

def execViewSwitch (src : Src) (body : List Byte) (s : State) : Host.Outcome State Fault Refusal := .next (s.command src 0x21 body)

def execLayerSwap (src : Src) (body : List Byte) (s : State) : Host.Outcome State Fault Refusal := .next (s.command src 0x22 body)

def execModelRelease (src : Src) (body : List Byte) (s : State) : Host.Outcome State Fault Refusal := .next (s.command src 0x23 body)

def execSliceJoin (src : Src) (body : List Byte) (s : State) : Host.Outcome State Fault Refusal := .next (s.command src 0x30 body)

def execSliceLeave (src : Src) (body : List Byte) (s : State) : Host.Outcome State Fault Refusal := .next (s.command src 0x31 body)

def execRouteLoad (src : Src) (body : List Byte) (s : State) : Host.Outcome State Fault Refusal := .next (s.command src 0x32 body)

def execBundleSet (src : Src) (body : List Byte) (s : State) : Host.Outcome State Fault Refusal := .next (s.command src 0x33 body)

def execStepSubmit (src : Src) (body : List Byte) (s : State) : Host.Outcome State Fault Refusal := .next (s.command src 0x40 body)

def execStepKill (src : Src) (body : List Byte) (s : State) : Host.Outcome State Fault Refusal := .next (s.command src 0x41 body)

def execSeqOpen (src : Src) (body : List Byte) (s : State) : Host.Outcome State Fault Refusal := .next (s.command src 0x42 body)

def execSeqClose (src : Src) (body : List Byte) (s : State) : Host.Outcome State Fault Refusal := .next (s.command src 0x43 body)

def execPageShare (src : Src) (body : List Byte) (s : State) : Host.Outcome State Fault Refusal := .next (s.command src 0x44 body)

/-- PAGE_SHARE_ACT (R182): a waiting share acts once its source is in no step. -/
def execPageShareAct (slot : Nat) (s : State) : Host.Outcome State Fault Refusal :=
  match s.cmds.find? fun c => c.idx == slot && c.shareWait with
  | none => .next s
  | some c =>
    let src := fld c.body 0 4
    if !s.easelUp || ((s.seqOf src).map fun q => q.step != 0).getD false then .next s
    else
      let go (e : CmdSlot) : CmdSlot := if e.idx == slot then { e with shareWait := false, state := .executing } else e
      .next (actShare c.ref src (fld c.body 4 4) (fld c.body 8 4) { s with cmds := s.cmds.map go })

def execPrefetchSched (src : Src) (body : List Byte) (s : State) : Host.Outcome State Fault Refusal := .next (s.command src 0x45 body)

def execSpillPolicy (src : Src) (body : List Byte) (s : State) : Host.Outcome State Fault Refusal := .next (s.command src 0x46 body)

def execPaletteLoad (src : Src) (body : List Byte) (s : State) : Host.Outcome State Fault Refusal := .next (s.command src 0x50 body)

/-- PALETTE_LOAD with REMOVE = 1 (R114). -/
def execPaletteRemove (src : Src) (body : List Byte) (s : State) : Host.Outcome State Fault Refusal :=
  .next (s.command src 0x50 (withBit body 12))

def execStateDump (src : Src) (body : List Byte) (s : State) : Host.Outcome State Fault Refusal := .next (s.command src 0x60 body)

def execSnapRead (src : Src) (body : List Byte) (s : State) : Host.Outcome State Fault Refusal := .next (s.command src 0x61 body)

def execFwUpdate (src : Src) (body : List Byte) (s : State) : Host.Outcome State Fault Refusal := .next (s.command src 0x70 body)

def execAttest (src : Src) (body : List Byte) (s : State) : Host.Outcome State Fault Refusal := .next (s.command src 0x71 body)

def execPowerPolicy (src : Src) (body : List Byte) (s : State) : Host.Outcome State Fault Refusal := .next (s.command src 0x80 body)

/-! ## Mailbox, doorbells and fetch (R401 to R403, R406) -/

/-- GO: the command in `MB_CMD`. The fence bit has no ring to act on. -/
def State.mbGo (s : State) (p : Port) : State :=
  let e := parseEntry (s.port p).mbCmd
  s.mailbox { port := p, mailbox := true, tag := e.tag, fence := false, sqIndex := 0 } e.opcode e.body

/-- MB_GO. -/
def execMbGo (p : Port) (s : State) : Host.Outcome State Fault Refusal := .next (if s.barAns p == .serve then s.mbGo p else s)

/-- A tail or head at or beyond its ring's size is ignored and sets `DB_ERR`; without a ring there is nothing to ring. -/
def State.sqTail (s : State) (p : Port) (v : Nat) : State :=
  match (s.port p).ring with
  | none => s
  | some r =>
    if 2 ^ r.sqLog2 ≤ v then s.modPort p fun x => { x with dbErr := true }
    else s.modPort p fun x => { x with ring := some { r with tail := v } }

def State.cqHead (s : State) (p : Port) (v : Nat) : State :=
  match (s.port p).ring with
  | none => s
  | some r =>
    if 2 ^ r.cqLog2 ≤ v then s.modPort p fun x => { x with dbErr := true }
    else (s.modPort p fun x => { x with ring := some { r with head := v } }).flushHeld p (s.port p).held.length

/-- SQ_TAIL_WRITE. -/
def execSqTailWrite (p : Port) (v : W32) (s : State) : Host.Outcome State Fault Refusal :=
  .next (if s.barAns p == .serve then s.sqTail p (v.toNat % 65536) else s)

/-- CQ_HEAD_WRITE: held completions are posted as entries come free. -/
def execCqHeadWrite (p : Port) (v : W32) (s : State) : Host.Outcome State Fault Refusal :=
  .next (if s.barAns p == .serve then s.cqHead p (v.toNat % 65536) else s)

/-- An entry waits for fetch on a port. -/
def State.canFetch (s : State) (p : Port) : Bool :=
  s.takes p && s.freeCmd.isSome && (match (s.port p).ring with
    | some r => r.fetch != r.tail
    | none => false)

/-- Fetch one entry from a port's ring. -/
def State.fetchFrom (s : State) (p : Port) : State :=
  match (s.port p).ring with
  | none => s
  | some r =>
    let e := parseEntry (Memory.read (s.hostMem p) (r.sqAddr + 128 * r.fetch) 128)
    let src : Src := { port := p, mailbox := false, tag := e.tag, fence := e.fence, sqIndex := r.fetch }
    let s := s.modPort p fun x => { x with ring := some { r with fetch := (r.fetch + 1) % 2 ^ r.sqLog2 } }
    ({ s with lastFetch := p } : State).accept src e.opcode e.body

/-- COMMAND_FETCH: from the two rings alternately. -/
def execCommandFetch (s : State) : Host.Outcome State Fault Refusal :=
  let q := otherPort s.lastFetch
  .next (if s.canFetch q then s.fetchFrom q else if s.canFetch s.lastFetch then s.fetchFrom s.lastFetch else s)

/-- FENCED_COMMAND_EXECUTE: a waiting command whose turn has come executes (R407, R408). -/
def execFencedCommandExecute (slot : Nat) (s : State) : Host.Outcome State Fault Refusal :=
  match s.cmds.find? fun c => c.idx == slot with
  | none => .next s
  | some c => .next (if s.easelUp && s.mayRun c then s.runSlot c else s)

/-- COAL_TIMER_EXPIRE: signal the entries posted beyond `HEAD` (R402). -/
def execCoalTimerExpire (p : Port) (s : State) : Host.Outcome State Fault Refusal :=
  match (s.port p).ring with
  | none => .next s
  | some r =>
    if !(s.port p).coalRun then .next s
    else
      let s := s.modPort p fun x => { x with coalRun := false }
      .next (if r.post = r.head then s else s.emit (.msix p r.vec))

/-! ## REGISTER_WRITE (R419, R403, R386) -/

/-- Set bytes of a list. -/
def setBytes (l : List Byte) (off : Nat) : List Byte → List Byte
  | [] => l
  | b :: t => setBytes (l.set off b) (off + 1) t

/-- A write to BAR2: `MB_CMD`, `MB_CTL`, a doorbell or the MSI-X table. -/
def State.bar2Write (s : State) (p : Port) (off size : Nat) (v : W32) : State :=
  if off + size ≤ 0x80 then
    s.modPort p fun x =>
      if x.mbBusy || !s.easelUp then { x with mbDropped := true } else { x with mbCmd := setBytes x.mbCmd off (leBytes size v.toNat) }
  else if size != 4 || off % 4 != 0 then s
  else if off = 0x80 then (if v.getLsbD 0 then s.mbGo p else s)
  else if off = 0x1000 then s.sqTail p (v.toNat % 65536)
  else if off = 0x1004 then s.cqHead p (v.toNat % 65536)
  else if 0x80000 ≤ off ∧ off < 0x80400 then s.modPort p fun x => { x with msix := assocSet x.msix (off - 0x80000) v }
  else s

/-- A write to BAR0: dropped unless it is aligned and of 32 bits. -/
def State.bar0Write (s : State) (m : Master) (off size : Nat) (v : W32) : State :=
  if size != 4 || off % 4 != 0 || decide (0x2000000 ≤ off) then s
  else match pwAt off with
  | some b => s.pwWrite m b off v
  | none => s.landWrite m off v false

/-- REGISTER_WRITE: the sideband and the Easel reach BAR0 only. -/
def execRegisterWrite (m : Master) (bar : Bar) (off size : Nat) (v : W32) (s : State) : Host.Outcome State Fault Refusal :=
  if !s.reaches m then .next s
  else match bar, m with
  | .bar0, _ => .next (s.bar0Write m off size v)
  | .bar2, .portA => .next (s.bar2Write .a off size v)
  | .bar2, .portB => .next (s.bar2Write .b off size v)
  | .bar2, _ => .next s

end Sys2Proof.Machine
end

