-- ==== Sys2Proof/Machine/Dispatch.lean ====
section
/-! DEFINITION. The dispatch: one arm for each command, each a direct call of the meaning of that command. -/

namespace Sys2Proof.Machine

/-- The effect of one command on everything but the queue. -/
def exec (i : Instr) (s : State) : Host.Outcome State Fault Refusal :=
  match i with
  | .devInfo src body => Sys2Proof.Machine.execDevInfo src body s
  | .resetScope src body => Sys2Proof.Machine.execResetScope src body s
  | .resetScopeDelayExpire => Sys2Proof.Machine.execResetScopeDelayExpire s
  | .ringSetup src body => Sys2Proof.Machine.execRingSetup src body s
  | .ringSetupTakeover src body => Sys2Proof.Machine.execRingSetupTakeover src body s
  | .objCreate src body => Sys2Proof.Machine.execObjCreate src body s
  | .objLoadHost src body => Sys2Proof.Machine.execObjLoadHost src body s
  | .objStageFlash src body => Sys2Proof.Machine.execObjStageFlash src body s
  | .objPromote src body => Sys2Proof.Machine.execObjPromote src body s
  | .objEvict src body => Sys2Proof.Machine.execObjEvict src body s
  | .objPin src body => Sys2Proof.Machine.execObjPin src body s
  | .objUnpin src body => Sys2Proof.Machine.execObjUnpin src body s
  | .objQuery src body => Sys2Proof.Machine.execObjQuery src body s
  | .modelBind src body => Sys2Proof.Machine.execModelBind src body s
  | .viewSwitch src body => Sys2Proof.Machine.execViewSwitch src body s
  | .layerSwap src body => Sys2Proof.Machine.execLayerSwap src body s
  | .modelRelease src body => Sys2Proof.Machine.execModelRelease src body s
  | .sliceJoin src body => Sys2Proof.Machine.execSliceJoin src body s
  | .sliceLeave src body => Sys2Proof.Machine.execSliceLeave src body s
  | .routeLoad src body => Sys2Proof.Machine.execRouteLoad src body s
  | .bundleSet src body => Sys2Proof.Machine.execBundleSet src body s
  | .stepSubmit src body => Sys2Proof.Machine.execStepSubmit src body s
  | .stepKill src body => Sys2Proof.Machine.execStepKill src body s
  | .seqOpen src body => Sys2Proof.Machine.execSeqOpen src body s
  | .seqClose src body => Sys2Proof.Machine.execSeqClose src body s
  | .pageShare src body => Sys2Proof.Machine.execPageShare src body s
  | .pageShareAct slot => Sys2Proof.Machine.execPageShareAct slot s
  | .prefetchSched src body => Sys2Proof.Machine.execPrefetchSched src body s
  | .spillPolicy src body => Sys2Proof.Machine.execSpillPolicy src body s
  | .paletteLoad src body => Sys2Proof.Machine.execPaletteLoad src body s
  | .paletteRemove src body => Sys2Proof.Machine.execPaletteRemove src body s
  | .stateDump src body => Sys2Proof.Machine.execStateDump src body s
  | .snapRead src body => Sys2Proof.Machine.execSnapRead src body s
  | .fwUpdate src body => Sys2Proof.Machine.execFwUpdate src body s
  | .attest src body => Sys2Proof.Machine.execAttest src body s
  | .powerPolicy src body => Sys2Proof.Machine.execPowerPolicy src body s
  | .mbGo p => Sys2Proof.Machine.execMbGo p s
  | .sqTailWrite p v => Sys2Proof.Machine.execSqTailWrite p v s
  | .cqHeadWrite p v => Sys2Proof.Machine.execCqHeadWrite p v s
  | .commandFetch => Sys2Proof.Machine.execCommandFetch s
  | .fencedCommandExecute slot => Sys2Proof.Machine.execFencedCommandExecute slot s
  | .coalTimerExpire p => Sys2Proof.Machine.execCoalTimerExpire p s
  | .cfgCommitGo m => Sys2Proof.Machine.execCfgCommitGo m s
  | .cfgCommitDiscard m => Sys2Proof.Machine.execCfgCommitDiscard m s
  | .generationApply m => Sys2Proof.Machine.execGenerationApply m s
  | .bfWrite m off v => Sys2Proof.Machine.execBfWrite m off v s
  | .pwWrite m off v => Sys2Proof.Machine.execPwWrite m off v s
  | .pwWriteLand m blk => Sys2Proof.Machine.execPwWriteLand m blk s
  | .accDropClear m blk => Sys2Proof.Machine.execAccDropClear m blk s
  | .sqEventRead m r => Sys2Proof.Machine.execSqEventRead m r s
  | .sqEventClear m r v => Sys2Proof.Machine.execSqEventClear m r v s
  | .lockSet m off => Sys2Proof.Machine.execLockSet m off s
  | .timeLoRead m => Sys2Proof.Machine.execTimeLoRead m s
  | .rackCapWrite m v => Sys2Proof.Machine.execRackCapWrite m v s
  | .hostCapWrite m v => Sys2Proof.Machine.execHostCapWrite m v s
  | .rteCoordWrite m v => Sys2Proof.Machine.execRteCoordWrite m v s
  | .lnkRetrain m link => Sys2Proof.Machine.execLnkRetrain m link s
  | .lnkEnableWrite m link en => Sys2Proof.Machine.execLnkEnableWrite m link en s
  | .snapTrig m => Sys2Proof.Machine.execSnapTrig m s
  | .snapRearm m => Sys2Proof.Machine.execSnapRearm m s
  | .svnCommit m => Sys2Proof.Machine.execSvnCommit m s
  | .keyRevoke m slot => Sys2Proof.Machine.execKeyRevoke m slot s
  | .allowlistAdd m manifest => Sys2Proof.Machine.execAllowlistAdd m manifest s
  | .allowlistRemove m manifest => Sys2Proof.Machine.execAllowlistRemove m manifest s
  | .allowlistClear m manifest => Sys2Proof.Machine.execAllowlistClear m manifest s
  | .registerWrite m bar off size v => Sys2Proof.Machine.execRegisterWrite m bar off size v s
  | .bar4Read p off n => Sys2Proof.Machine.execBar4Read p off n s
  | .bar4Write p off bytes => Sys2Proof.Machine.execBar4Write p off bytes s
  | .perstAssert p => Sys2Proof.Machine.execPerstAssert p s
  | .perstDeassert p => Sys2Proof.Machine.execPerstDeassert p s
  | .pcieHotReset p how => Sys2Proof.Machine.execPcieHotReset p how s
  | .pcieFlr p => Sys2Proof.Machine.execPcieFlr p s
  | .pcieLinkUp p rate width flit reversed bestRate => Sys2Proof.Machine.execPcieLinkUp p rate width flit reversed bestRate s
  | .pcieLinkDown p => Sys2Proof.Machine.execPcieLinkDown p s
  | .d3hotEntry p => Sys2Proof.Machine.execD3hotEntry p s
  | .d3hotExit p => Sys2Proof.Machine.execD3hotExit p s
  | .ideFail p stream => Sys2Proof.Machine.execIdeFail p stream s
  | .ideKeyProgram p stream => Sys2Proof.Machine.execIdeKeyProgram p stream s
  | .spdmRequest p nonce => Sys2Proof.Machine.execSpdmRequest p nonce s
  | .arrive t => Sys2Proof.Machine.execArrive t s
  | .release t => Sys2Proof.Machine.execRelease t s
  | .preparedSend slice stepId => Sys2Proof.Machine.execPreparedSend slice stepId s
  | .prepared t flags ovfPairs ovfRounds => Sys2Proof.Machine.execPrepared t flags ovfPairs ovfRounds s
  | .commitPoint slice stepId => Sys2Proof.Machine.execCommitPoint slice stepId s
  | .commit t body => Sys2Proof.Machine.execCommit t body s
  | .committed t => Sys2Proof.Machine.execCommitted t s
  | .killReq t => Sys2Proof.Machine.execKillReq t s
  | .kill t => Sys2Proof.Machine.execKill t s
  | .killed t => Sys2Proof.Machine.execKilled t s
  | .startWaitExpire slice stepId => Sys2Proof.Machine.execStartWaitExpire slice stepId s
  | .barrierWaitExpire slice stepId barrier => Sys2Proof.Machine.execBarrierWaitExpire slice stepId barrier s
  | .quantumExpire => Sys2Proof.Machine.execQuantumExpire s
  | .candidateList tag c => Sys2Proof.Machine.execCandidateList tag c s
  | .progTile die slot => Sys2Proof.Machine.execProgTile die slot s
  | .appendStallResume die slot => Sys2Proof.Machine.execAppendStallResume die slot s
  | .progCounter die slot => Sys2Proof.Machine.execProgCounter die slot s
  | .progMoeCtx die slot => Sys2Proof.Machine.execProgMoeCtx die slot s
  | .moeCtxDeferredOpen die slot => Sys2Proof.Machine.execMoeCtxDeferredOpen die slot s
  | .progMerge die slot => Sys2Proof.Machine.execProgMerge die slot s
  | .progBarrier die slot => Sys2Proof.Machine.execProgBarrier die slot s
  | .progPoolmask die slot => Sys2Proof.Machine.execProgPoolmask die slot s
  | .progReduce die slot => Sys2Proof.Machine.execProgReduce die slot s
  | .progSend die slot => Sys2Proof.Machine.execProgSend die slot s
  | .sendMessage die slot idx => Sys2Proof.Machine.execSendMessage die slot idx s
  | .tileClaim die core => Sys2Proof.Machine.execTileClaim die core s
  | .claimGrant die => Sys2Proof.Machine.execClaimGrant die s
  | .tileComplete die core entry tileSeq attempt flags => Sys2Proof.Machine.execTileComplete die core entry tileSeq attempt flags s
  | .tileFail die core entry tileSeq status wrote => Sys2Proof.Machine.execTileFail die core entry tileSeq status wrote s
  | .failedTileDecide die entry => Sys2Proof.Machine.execFailedTileDecide die entry s
  | .nopTileComplete die entry => Sys2Proof.Machine.execNopTileComplete die entry s
  | .reduceGroupReset die group => Sys2Proof.Machine.execReduceGroupReset die group s
  | .abandonConfirm die core entry => Sys2Proof.Machine.execAbandonConfirm die core entry s
  | .heartbeat die core => Sys2Proof.Machine.execHeartbeat die core s
  | .coreLost die core => Sys2Proof.Machine.execCoreLost die core s
  | .seqWatchdog die core => Sys2Proof.Machine.execSeqWatchdog die core s
  | .cellJobStart die core engine job => Sys2Proof.Machine.execCellJobStart die core engine job s
  | .cellJobDone die core engine cell => Sys2Proof.Machine.execCellJobDone die core engine cell s
  | .vectorInstruction die core op => Sys2Proof.Machine.execVectorInstruction die core op s
  | .dmaTransfer die core d => Sys2Proof.Machine.execDmaTransfer die core d s
  | .dmaComplete die core ctx srcError => Sys2Proof.Machine.execDmaComplete die core ctx srcError s
  | .fence die core => Sys2Proof.Machine.execFence die core s
  | .paletteSlotLoadDone die core => Sys2Proof.Machine.execPaletteSlotLoadDone die core s
  | .gtTileDone die core engine cell pass => Sys2Proof.Machine.execGtTileDone die core engine cell pass s
  | .gtForceTimer die core engine cell => Sys2Proof.Machine.execGtForceTimer die core engine cell s
  | .cellParityError die core engine cell => Sys2Proof.Machine.execCellParityError die core engine cell s
  | .bufferEccError die core engine double => Sys2Proof.Machine.execBufferEccError die core engine double s
  | .coreStoreEccError die core double => Sys2Proof.Machine.execCoreStoreEccError die core double s
  | .unpackError die core entry => Sys2Proof.Machine.execUnpackError die core entry s
  | .unpackRereadDone die entry => Sys2Proof.Machine.execUnpackRereadDone die entry s
  | .count die e counts => Sys2Proof.Machine.execCount die e counts s
  | .grant die e round grants => Sys2Proof.Machine.execGrant die e round grants s
  | .row die e slotNo bytes => Sys2Proof.Machine.execRow die e slotNo bytes s
  | .returnMsg die e addr ctr bytes => Sys2Proof.Machine.execReturnMsg die e addr ctr bytes s
  | .record die e mergeEntry part bytes => Sys2Proof.Machine.execRecord die e mergeEntry part bytes s
  | .qrow die e addr ctr bytes => Sys2Proof.Machine.execQrow die e addr ctr bytes s
  | .kvrow die e addr ctr bytes => Sys2Proof.Machine.execKvrow die e addr ctr bytes s
  | .nextRound die slot layer => Sys2Proof.Machine.execNextRound die slot layer s
  | .tailCopyDone slot seq => Sys2Proof.Machine.execTailCopyDone slot seq s
  | .spillStart pool => Sys2Proof.Machine.execSpillStart pool s
  | .spillWriteDone pool page => Sys2Proof.Machine.execSpillWriteDone pool page s
  | .pageReturnStart pool page => Sys2Proof.Machine.execPageReturnStart pool page s
  | .pageReturnDone pool page readOk => Sys2Proof.Machine.execPageReturnDone pool page readOk s
  | .tileLand obj tile bytes => Sys2Proof.Machine.execTileLand obj tile bytes s
  | .departWriteoutDone obj => Sys2Proof.Machine.execDepartWriteoutDone obj s
  | .departRelease obj => Sys2Proof.Machine.execDepartRelease obj s
  | .flashCopyDurable obj => Sys2Proof.Machine.execFlashCopyDurable obj s
  | .stageCopyWrite die obj tile => Sys2Proof.Machine.execStageCopyWrite die obj tile s
  | .coldTileLand die obj tile => Sys2Proof.Machine.execColdTileLand die obj tile s
  | .swapWriteStart model => Sys2Proof.Machine.execSwapWriteStart model s
  | .tileRepair obj tile => Sys2Proof.Machine.execTileRepair obj tile s
  | .memReadUncorrectable addr => Sys2Proof.Machine.execMemReadUncorrectable addr s
  | .channelFail ch => Sys2Proof.Machine.execChannelFail ch s
  | .patrolScrubMismatch group stripe persists unit => Sys2Proof.Machine.execPatrolScrubMismatch group stripe persists unit s
  | .nandOpDone die => Sys2Proof.Machine.execNandOpDone die s
  | .nandProgramFail die block => Sys2Proof.Machine.execNandProgramFail die block s
  | .nandDieFail die => Sys2Proof.Machine.execNandDieFail die s
  | .nandRebuildDone die complete => Sys2Proof.Machine.execNandRebuildDone die complete s
  | .readDisturbDue die block reads => Sys2Proof.Machine.execReadDisturbDue die block reads s
  | .thermalAgeTick minutes => Sys2Proof.Machine.execThermalAgeTick minutes s
  | .relocationDone die block => Sys2Proof.Machine.execRelocationDone die block s
  | .nandOvertemp pkg => Sys2Proof.Machine.execNandOvertemp pkg s
  | .nandTempOk pkg => Sys2Proof.Machine.execNandTempOk pkg s
  | .flashScrubPass die block corrected => Sys2Proof.Machine.execFlashScrubPass die block corrected s
  | .linkTrainDone link good pol reversed => Sys2Proof.Machine.execLinkTrainDone link good pol reversed s
  | .linkTrainTimeout link => Sys2Proof.Machine.execLinkTrainTimeout link s
  | .identReceived link ident => Sys2Proof.Machine.execIdentReceived link ident s
  | .miswireRecheck link => Sys2Proof.Machine.execMiswireRecheck link s
  | .dataFlitReceived link f intact => Sys2Proof.Machine.execDataFlitReceived link f intact s
  | .nakReceived link nakSeq => Sys2Proof.Machine.execNakReceived link nakSeq s
  | .creditReceived link c0 c1 c2 => Sys2Proof.Machine.execCreditReceived link c0 c1 c2 s
  | .ackTimeout link => Sys2Proof.Machine.execAckTimeout link s
  | .creditTimer link => Sys2Proof.Machine.execCreditTimer link s
  | .laneFault link lane => Sys2Proof.Machine.execLaneFault link lane s
  | .linkFail link => Sys2Proof.Machine.execLinkFail link s
  | .linkRetryTimer link => Sys2Proof.Machine.execLinkRetryTimer link s
  | .linkRestore link => Sys2Proof.Machine.execLinkRestore link s
  | .packetRoute p => Sys2Proof.Machine.execPacketRoute p s
  | .transitWindow => Sys2Proof.Machine.execTransitWindow s
  | .twinTileRequest obj tile => Sys2Proof.Machine.execTwinTileRequest obj tile s
  | .join m => Sys2Proof.Machine.execJoin m s
  | .joinAck m => Sys2Proof.Machine.execJoinAck m s
  | .joinFail m => Sys2Proof.Machine.execJoinFail m s
  | .joinWaitExpire slice => Sys2Proof.Machine.execJoinWaitExpire slice s
  | .stop m => Sys2Proof.Machine.execStop m s
  | .stillToken tag origin capNo => Sys2Proof.Machine.execStillToken tag origin capNo s
  | .stillInFall highNs => Sys2Proof.Machine.execStillInFall highNs s
  | .stillOutPulseEnd => Sys2Proof.Machine.execStillOutPulseEnd s
  | .d2dCrcError port => Sys2Proof.Machine.execD2dCrcError port s
  | .nodCrcError die => Sys2Proof.Machine.execNodCrcError die s
  | .dieAgentWatchdog die => Sys2Proof.Machine.execDieAgentWatchdog die s
  | .diePoolUncorrectable die off => Sys2Proof.Machine.execDiePoolUncorrectable die off s
  | .dieLost die => Sys2Proof.Machine.execDieLost die s
  | .lockstepMismatch => Sys2Proof.Machine.execLockstepMismatch s
  | .easelSramError => Sys2Proof.Machine.execEaselSramError s
  | .ceSample => Sys2Proof.Machine.execCeSample s
  | .registerScrub => Sys2Proof.Machine.execRegisterScrub s
  | .healthMessage => Sys2Proof.Machine.execHealthMessage s
  | .healthRepeatTimer => Sys2Proof.Machine.execHealthRepeatTimer s
  | .healthAck aseq => Sys2Proof.Machine.execHealthAck aseq s
  | .faultPulseEnd => Sys2Proof.Machine.execFaultPulseEnd s
  | .sidebandHeartbeat => Sys2Proof.Machine.execSidebandHeartbeat s
  | .orphanTimeout => Sys2Proof.Machine.execOrphanTimeout s
  | .sidebandBusStuck => Sys2Proof.Machine.execSidebandBusStuck s
  | .recoveryImageMessage last bytes => Sys2Proof.Machine.execRecoveryImageMessage last bytes s
  | .sidebandAttestRequest nonce => Sys2Proof.Machine.execSidebandAttestRequest nonce s
  | .weirNAssert => Sys2Proof.Machine.execWeirNAssert s
  | .weirNRelease => Sys2Proof.Machine.execWeirNRelease s
  | .voltageStageSettle => Sys2Proof.Machine.execVoltageStageSettle s
  | .heldExit => Sys2Proof.Machine.execHeldExit s
  | .millpondTick p1ms p10ms v1ms coresFull => Sys2Proof.Machine.execMillpondTick p1ms p10ms v1ms coresFull s
  | .inputSag => Sys2Proof.Machine.execInputSag s
  | .sagCapTimer => Sys2Proof.Machine.execSagCapTimer s
  | .sagHoldTimer => Sys2Proof.Machine.execSagHoldTimer s
  | .inputRecover => Sys2Proof.Machine.execInputRecover s
  | .inputOvervoltage => Sys2Proof.Machine.execInputOvervoltage s
  | .powerOff => Sys2Proof.Machine.execPowerOff s
  | .phaseFail r => Sys2Proof.Machine.execPhaseFail r s
  | .railShort r => Sys2Proof.Machine.execRailShort r s
  | .thermalSample readings => Sys2Proof.Machine.execThermalSample readings s
  | .thermtrip sensor => Sys2Proof.Machine.execThermtrip sensor s
  | .coolantEstimate inA inB outA outB p1s => Sys2Proof.Machine.execCoolantEstimate inA inB outA outB p1s s
  | .droopTrip die => Sys2Proof.Machine.execDroopTrip die s
  | .refClockLoss => Sys2Proof.Machine.execRefClockLoss s
  | .refHoldoverExpire => Sys2Proof.Machine.execRefHoldoverExpire s
  | .pllUnlock die => Sys2Proof.Machine.execPllUnlock die s
  | .powerOn => Sys2Proof.Machine.execPowerOn s
  | .modRstNAssert => Sys2Proof.Machine.execModRstNAssert s
  | .moduleResetEnd => Sys2Proof.Machine.execModuleResetEnd s
  | .bootStageDone => Sys2Proof.Machine.execBootStageDone s
  | .memoryTrainingDone failed => Sys2Proof.Machine.execMemoryTrainingDone failed s
  | .ftlReady => Sys2Proof.Machine.execFtlReady s
  | .dieResetDone die => Sys2Proof.Machine.execDieResetDone die s
  | .flashResetDone => Sys2Proof.Machine.execFlashResetDone s
  | .configurationRequest p r => Sys2Proof.Machine.execConfigurationRequest p r s
  | .refClockReturn => Sys2Proof.Machine.execRefClockReturn s
  | .quotaReturn pool => Sys2Proof.Machine.execQuotaReturn pool s
  | .vectorParityError die core => Sys2Proof.Machine.execVectorParityError die core s
  | .sequencerEccError die core => Sys2Proof.Machine.execSequencerEccError die core s
  | .sidebandLinesHigh => Sys2Proof.Machine.execSidebandLinesHigh s
  | .dynamicAddressAssign addr => Sys2Proof.Machine.execDynamicAddressAssign addr s
  | .dynamicAddressReset => Sys2Proof.Machine.execDynamicAddressReset s
  | .tapInstruction ir => Sys2Proof.Machine.execTapInstruction ir s
  | .noSourceAnswer obj => Sys2Proof.Machine.execNoSourceAnswer obj s
  | .reportSigned => Sys2Proof.Machine.execReportSigned s
  | .updateDone => Sys2Proof.Machine.execUpdateDone s

end Sys2Proof.Machine
end

