-- ==== Sys2Proof/Safety.lean ====
section
/-! DEFINITION. What counts as a safe run, in the terms that claims use: properties of a state that every command keeps. -/

namespace Sys2Proof.Machine

/-- The module's memory and both hosts' memories are in canonical form: two memories that read alike are the same data. -/
def State.memOk (s : State) : Bool := Memory.wf s.mem && Memory.wf s.hostA && Memory.wf s.hostB

/-- At least one key slot of each kind is not revoked (R515): slots 0 and 1 vouch for firmware, 2 and 3 for palettes. -/
def Sec.keysOk (c : Sec) : Bool := !(c.revoked.getLsbD 0 && c.revoked.getLsbD 1) && !(c.revoked.getLsbD 2 && c.revoked.getLsbD 3)

/-- The parts that the module has: 8 compute dies, 22 die-to-die ports, 8 slice handles, 256 channels in 16 groups, 30 links. -/
def State.shapeOk (s : State) : Bool :=
  s.dies.length == 8 && s.d2d.length == 22 && s.slices.length == 8 && s.chans.length == 256 && s.grps.length == 16 && s.links.length == 30

/-- The fuses that nothing burns after manufacture (Table 23-1). -/
def Sec.fixedFuses (c : Sec) : List (List Byte) × List (List Byte) × W64 × List Byte := (c.vkeyFw, c.vkeyPal, c.serial, c.cert)

/-- An outcome is a next state: the step is neither a fault nor a refusal. -/
def goesOn (o : Host.Outcome State Fault Refusal) : Bool :=
  match o with
  | .next _ => true
  | _ => false

/-! ## Commands whose turn has come -/

/-- How a completion names the command that a row brings: its source, its opcode and the COMMANDS slot that it takes. -/
def State.refFor (s : State) (src : Src) (op : Nat) : Ref := { src := src, opcode := op, slot := s.freeCmd }

/-- The COMMANDS slot of a command fetched now. -/
def State.slotFor (s : State) (src : Src) (op : Nat) (b : List Byte) (st : CmdState) : CmdSlot :=
  { idx := s.freeCmd.getD 0, src := src, opcode := op, state := st, cseq := 0, stepId := (stepFields op b).1, slice := (stepFields op b).2,
    status := 0, body := b, postOn := src.port, order := s.cmdNo, shareWait := false }

/-- The state in which a command fetched from a ring executes: its COMMANDS slot is taken. -/
def State.started (s : State) (src : Src) (op : Nat) (b : List Byte) : State :=
  { s with cmds := s.cmds ++ [s.slotFor src op b .executing], cmdNo := s.cmdNo + 1 }

/-- A ring command executes as soon as it is fetched: the ring takes it (R401), a slot is free, every command fetched from the ring before it
has executed and none is a waiting PAGE_SHARE (R407, R408), with FENCE every one has completed, and memory is ready. -/
def State.turn (s : State) (src : Src) : Bool :=
  !src.mailbox && s.takes src.port && s.freeCmd.isSome && s.memReady &&
  s.cmds.all fun c => c.src.port != src.port || (c.state != .waiting && !c.shareWait && (!src.fence || !c.inFlight))

/-- What the sequencer of a core issues takes effect at once: the core can run, nothing waits before it and the module is not HELD. -/
def State.issues (s : State) (k j : Nat) : Bool :=
  decide (k < s.dies.length) && decide (j < (s.die k).cores.length) && decide (j < 120) && (s.core k j).able && (s.core k j).seqQ.isEmpty && !s.power.held

/-- A token reaches the step that it names (R227): the slice is JOINED here, the run and the slice digest are the step's own, and the step has
not been committed or ended. -/
def State.tokenFor (s : State) (tok : Token) (h : Nat) (t : Step) : Prop :=
  s.easelUp = true ∧ s.sliceOfTag tok.tag = some h ∧ s.stepOf h tok.stepId = some t ∧ (s.slc h).state = .joined ∧ t.run % 256 = tok.run ∧
    t.phase < 4 ∧ tok.sliceDigest = s.stepDigest t

/-- A token of a member reaches the master's record of the step that it names, in its present run. -/
def State.masterFor (s : State) (tok : Token) (h : Nat) (m : MasterStep) : Prop :=
  s.easelUp = true ∧ s.sliceOfTag tok.tag = some h ∧ s.mstOf h tok.stepId = some m ∧ (s.slc h).state = .joined ∧ (s.slc h).isMaster = true ∧
    tok.member < (s.slc h).count ∧ m.run % 256 = tok.run ∧ ∀ t, s.stepOf h tok.stepId = some t → tok.sliceDigest = s.stepDigest t

/-- A die agent stands at a record of a kind and may act on it: the step's walk is open, nothing stalls it, the module is not HELD, and only the
used bytes of the record are nonzero. -/
def State.atRecord (s : State) (k slot kind : Nat) (uses : List (Nat × Nat)) (t : Step) (a : Agent) (b : List Byte) : Prop :=
  k < s.dies.length ∧ s.nextRecord k slot = some (t, a, b) ∧ a.stalled = false ∧ a.ctxWait = false ∧ s.power.held = false ∧ s.expertStall k slot = false ∧ 1 ≤ kind ∧ kind ≤ 8 ∧
    fld b 0 1 = kind ∧ recOk b uses = true

/-- An intact DATA flit has come: its `ACK` frees room in the replay buffer (R346), and a free value says whether `CORR` counts. -/
def State.flitIn (s : State) (i ack : Nat) : State :=
  let (v, s) := (s.ackIn i ack).draw
  s.modLink i fun l => { l with corr := if v % 2 = 1 then satAdd 16 l.corr 1 else l.corr }

/-- A Distributary message of a die: the state in which it is delivered, none when no such message is there to be delivered (R202). -/
def State.delivered (s : State) (k kind : Nat) (e : Envelope) (a b : Nat) (nums : List Nat) (bytes : List Byte) : Option State :=
  s.arrives (s.fromFar e) { src := 0, dst := k, kind := kind, env := e, a := a, b := b, nums := nums, bytes := bytes }

/-- `s` with what fetching a command and posting completions change as they are in `t`: host memory, the ports' rings and counters, the COMMANDS
slots, the events and the pins. -/
def State.posted (s t : State) : State :=
  { s with hostA := t.hostA, hostB := t.hostB, pa := t.pa, pb := t.pb, cmds := t.cmds, cmdNo := t.cmdNo, sq := t.sq, tx := t.tx }

end Sys2Proof.Machine
end

