-- ==== Sys2Proof/Certificates/Slice0/Obligations.lean ====
section
/-! DEFINITION. The statements about the module: rules of the spec as claims about the model. -/

open Sys2Proof Sys2Proof.Machine

/-- Object commands (Table 17-4, Table 11-5): fetched with their turn come, each has its effect on the object and completes OK, or waits for
the end of the movement that it starts.
Says that exec answers a next state for: objCreate, objLoadHost, objStageFlash, objPromote, objEvict, objPin, objUnpin, objQuery.
Model's choices: log entries 6, 114. -/
def Obligations.ObjectCommandsTakeEffect : Prop :=
  ∀ (s : State) (src : Src) (b : List Byte), s.turn src = true → b.length = 112 →
    -- a nonzero reserved bit ends in BAD_FIELD (R9)
    (onlyUses b [(0, 16)] = false → exec (.objLoadHost src b) s = .next ((s.started src 0x11 b).finish (s.refFor src 0x11) stBadField)) ∧
    (onlyUses b [(0, 8)] = false → exec (.objStageFlash src b) s = .next ((s.started src 0x12 b).finish (s.refFor src 0x12) stBadField)) ∧
    (onlyUses b [(0, 5)] = false → exec (.objPromote src b) s = .next ((s.started src 0x13 b).finish (s.refFor src 0x13) stBadField)) ∧
    (onlyUses b [(0, 5)] = false → exec (.objEvict src b) s = .next ((s.started src 0x14 b).finish (s.refFor src 0x14) stBadField)) ∧
    (onlyUses b [(0, 4)] = false → exec (.objPin src b) s = .next ((s.started src 0x15 b).finish (s.refFor src 0x15) stBadField)) ∧
    (onlyUses b [(0, 4)] = false → exec (.objUnpin src b) s = .next ((s.started src 0x16 b).finish (s.refFor src 0x16) stBadField)) ∧
    (onlyUses b [(0, 4), (8, 8)] = false → exec (.objQuery src b) s = .next ((s.started src 0x17 b).finish (s.refFor src 0x17) stBadField)) ∧
    -- OBJ_PIN adds one pin and cancels a departure that has not released
    (∀ o, onlyUses b [(0, 4)] = true → s.obj (fld b 0 4) = some o → o.lost = false → o.res ≠ .absent →
      (o.res = .departing → o.released = false) → o.pins ≠ 65535 →
      exec (.objPin src b) s = .next (((if o.res == .departing then (s.started src 0x15 b).cancelDepart o.id else s.started src 0x15 b).modObj o.id
        fun o => { o with pins := o.pins + 1, opins := o.opins + 1 }).finishObj (s.refFor src 0x15) o.id stOK)) ∧
    -- OBJ_UNPIN takes one of OBJ_PIN's pins away
    (∀ o, onlyUses b [(0, 4)] = true → s.obj (fld b 0 4) = some o → o.opins ≠ 0 →
      exec (.objUnpin src b) s = .next (((s.started src 0x16 b).modObj o.id
        fun o => { o with pins := o.pins - 1, opins := o.opins - 1 }).finishObj (s.refFor src 0x16) o.id stOK)) ∧
    -- OBJ_QUERY writes the directory entry to RESP_ADDR
    (∀ o, onlyUses b [(0, 4), (8, 8)] = true → s.obj (fld b 0 4) = some o →
      exec (.objQuery src b) s = .next (((s.started src 0x17 b).setHostMem src.port (Memory.write (s.hostMem src.port) (fld b 8 8) o.entry)).finishWith
        (s.refFor src 0x17) stOK o.result false)) ∧
    -- OBJ_EVICT to nowhere destroys an idle object
    (∀ o, onlyUses b [(0, 5)] = true → fld b 4 1 = 2 → s.obj (fld b 0 4) = some o → o.pins = 0 → o.res ≠ .arriving → o.res ≠ .departing →
      s.poolInUse o.id = false →
      exec (.objEvict src b) s = .next (((s.started src 0x14 b).destroyObj o.id).finish (s.refFor src 0x14) stOK
        (({ o with landed := [] } : Obj).result))) ∧
    -- OBJ_EVICT of a resident object to flash or to its copy starts a departure
    (∀ o, onlyUses b [(0, 5)] = true → fld b 4 1 < 2 → s.obj (fld b 0 4) = some o → o.movable = true → o.lost = false → o.res = .resident →
      o.pins = 0 → o.fcopy = true →
      exec (.objEvict src b) s = .next ((s.started src 0x14 b).startDepart o.id (fld b 4 1) [{ ref := s.refFor src 0x14, alt := stOK }])) ∧
    -- OBJ_LOAD_HOST of an absent object starts an arrival from its sources
    (∀ o, onlyUses b [(0, 16)] = true → s.obj (fld b 0 4) = some o → o.movable = true → o.lost = false → o.res = .absent →
      s.hostSrcOk o.tiles o.size (fld b 4 4) (fld b 8 4) (fld b 12 4) (o.kind == .program) = true →
      exec (.objLoadHost src b) s = .next ((s.started src 0x11 b).startArrival o.id (.host (fld b 4 4) (fld b 8 4) (fld b 12 4))
        [{ ref := s.refFor src 0x11, alt := stOK }])) ∧
    -- OBJ_PROMOTE of an absent object with a flash copy starts an arrival from flash
    (∀ o, onlyUses b [(0, 5)] = true → fld b 4 1 = 0 → s.obj (fld b 0 4) = some o → o.movable = true → o.lost = false → o.res = .absent →
      o.fcopy = true → s.flash.ready = true →
      exec (.objPromote src b) s = .next ((s.started src 0x13 b).startArrival o.id .flash [{ ref := s.refFor src 0x13, alt := stOK }])) ∧
    -- OBJ_STAGE_FLASH of a resident object starts a copy of its body
    (∀ o, onlyUses b [(0, 8)] = true → fld b 4 4 = 0 → s.obj (fld b 0 4) = some o → o.movable = true → o.lost = false → o.res = .resident →
      s.flash.ready = true → o.fcopy = false → s.copyFits o.id o.size = true → o.stageW = [] →
      exec (.objStageFlash src b) s = .next (((s.started src 0x12 b).startCopy o (s.objBody o)).modObj o.id fun o => { o with
        stageW := o.stageW ++ [{ ref := s.refFor src 0x12, alt := stOK }], stagePort := none })) ∧
    -- OBJ_CREATE of a buffer in a die pool takes the lowest free bytes there
    (∀ off, onlyUses b [(0, 16)] = true → fld b 0 4 ≠ 0 → fld b 4 1 = 4 → fld b 5 1 < 8 → fld b 6 2 = 0 → s.obj (fld b 0 4) = none →
      (s.die (fld b 5 1)).lost = false → lowOff (s.occPool (fld b 5 1)) 0x1000000 (up64k (fld b 8 8)) 0x4000000 = some off →
      exec (.objCreate src b) s = .next ((s.started src 0x10 b).addObj (s.refFor src 0x10)
        { obj0 (fld b 0 4) .buffer s.freeObjSlot with size := fld b 8 8, dp := true, die := fld b 5 1, extOff := off, extBytes := up64k (fld b 8 8) } []))

/-- Model commands (R328 to R339): each has its effect and completes OK; MODEL_RELEASE and LAYER_SWAP complete when the release or the swap
ends.
Says that exec answers a next state for: modelBind, viewSwitch, layerSwap, modelRelease, prefetchSched.
Model's choices: log entries 6, 102. -/
def Obligations.ModelCommandsTakeEffect : Prop :=
  ∀ (s : State) (src : Src) (b : List Byte), s.turn src = true → b.length = 112 →
    -- a nonzero reserved bit ends in BAD_FIELD (R9)
    (onlyUses b [(0, 3), (4, 24), (32, 64)] = false → exec (.modelBind src b) s = .next ((s.started src 0x20 b).finish (s.refFor src 0x20) stBadField)) ∧
    (onlyUses b [(0, 2), (4, 24), (32, 65)] = false → exec (.viewSwitch src b) s = .next ((s.started src 0x21 b).finish (s.refFor src 0x21) stBadField)) ∧
    (onlyUses b [(0, 65)] = false → exec (.layerSwap src b) s = .next ((s.started src 0x22 b).finish (s.refFor src 0x22) stBadField)) ∧
    (onlyUses b [(0, 3)] = false → exec (.modelRelease src b) s = .next ((s.started src 0x23 b).finish (s.refFor src 0x23) stBadField)) ∧
    (onlyUses b [(0, 3), (4, 12)] = false → exec (.prefetchSched src b) s = .next ((s.started src 0x45 b).finish (s.refFor src 0x45) stBadField)) ∧
    -- MODEL_BIND makes a model with view 0
    (∀ man map s2 st, onlyUses b [(0, 3), (4, 24), (32, 64)] = true → fld b 0 2 ≠ 0 → fld b 2 1 ≤ 63 → s.model (fld b 0 2) = none →
      (s.models.filter fun m => !m.dead).length < 16 → (s.started src 0x20 b).readView src.port b (fld b 2 1) = (st, some (man, map)) →
      (s.started src 0x20 b).placeSys 1 (65536 * fld b 0 2) (viewBytes b) = some s2 →
      ∃ t, exec (.modelBind src b) s = .next t ∧ ∃ m, t.model (fld b 0 2) = some m ∧ m.member = fld b 2 1 ∧ m.cur = 0 ∧ m.curView.map (·.man) = some man) ∧
    -- VIEW_SWITCH makes the next view current and measures its manifest
    (∀ m man map s2 st, onlyUses b [(0, 2), (4, 24), (32, 65)] = true → s.model (fld b 0 2) = some m → m.releasing = none → fld b 96 1 % 4 ≤ 1 →
      fld b 96 1 < 4 → (s.started src 0x21 b).readView src.port b m.member = (st, some (man, map)) → m.viewsAfter ≤ 4 →
      (s.started src 0x21 b).placeSys 1 (65536 * fld b 0 2 + m.nextView) (viewBytes b) = some s2 →
      exec (.viewSwitch src b) s = .next (((s2.newView (fld b 0 2) man map (coldOf b) (fld b 96 1 % 4)).measure 5 (fld b 0 2) man.digest).finish
        (s.refFor src 0x21) stOK (leBytes 2 m.nextView))) ∧
    -- a dry LAYER_SWAP answers its bound
    (∀ m cur man eb tg w st, onlyUses b [(0, 65)] = true → s.model (fld b 0 2) = some m → m.curView = some cur → m.releasing = none → m.swap = none →
      fld b 64 1 = 1 → fld b 28 4 ≠ 0 → fld b 28 4 ≤ 10000000 → fld b 24 4 ≤ 4096 → 128 ≤ fld b 4 4 → fld b 4 4 ≤ 67108864 →
      (s.started src 0x22 b).readManifest src.port (fld b 8 8) (fld b 4 4) ((b.drop 32).take 32) = (st, some man) →
      swapManOk cur.man man (fld b 2 2) = true → fld b 2 2 < man.nLayers →
      ((man.own m.member).filter fun (e, _) => e.layer == fld b 2 2).length = fld b 24 4 →
      (s.started src 0x22 b).hostRead src.port (fld b 16 8) (32 * fld b 24 4) = some eb →
      (s.started src 0x22 b).swapEntries src.port (fld b 0 2) (fld b 2 2) man cur (chunks 32 (fld b 24 4) eb) = (stOK, tg, w) →
      (tg.map (·.obj)).Nodup → (w + 11616000 - 1) / 11616000 + 200 ≤ fld b 28 4 →
      exec (.layerSwap src b) s = .next ((s.started src 0x22 b).finish (s.refFor src 0x22) stOK (leBytes 4 ((w + 11616000 - 1) / 11616000 + 200)))) ∧
    -- MODEL_RELEASE of a model that steps still use waits for them
    (∀ m v, onlyUses b [(0, 3)] = true → s.model (fld b 0 2) = some m → m.releasing = none → fld b 2 1 ≤ 1 → m.curView = some v → v.holders ≠ 0 →
      ∃ t, exec (.modelRelease src b) s = .next t ∧ ∃ m', t.model (fld b 0 2) = some m' ∧ m'.releasing = some (s.refFor src 0x23) ∧
        m'.releaseAction = fld b 2 1) ∧
    -- PREFETCH_SCHED without entries drops the model's schedule
    (∀ m, onlyUses b [(0, 3), (4, 12)] = true → fld b 2 1 = 0 → fld b 4 4 = 0 → s.model (fld b 0 2) = some m → m.releasing = none →
      ∃ t, exec (.prefetchSched src b) s = .next t ∧ t.pfEnts = s.pfEnts.filter fun e => e.kind == 3 || e.model != fld b 0 2)

/-- Slice and fabric commands (R367, R376 to R381, R412, R413): SLICE_JOIN fills its handle and sends JOIN to the master, SLICE_LEAVE frees the
handle, ROUTE_LOAD loads the idle bank or the transit table, BUNDLE_SET lets every changed link start again.
Says that exec answers a next state for: sliceJoin, sliceLeave, routeLoad, bundleSet.
Model's choices: log entries 6, 90, 91. -/
def Obligations.SliceCommandsTakeEffect : Prop :=
  ∀ (s : State) (src : Src) (b : List Byte), s.turn src = true → b.length = 112 →
    -- a nonzero reserved bit ends in BAD_FIELD (R9)
    (onlyUses b [(0, 19), (20, 24)] = false → exec (.sliceJoin src b) s = .next ((s.started src 0x30 b).finish (s.refFor src 0x30) stBadField)) ∧
    (onlyUses b [(0, 1)] = false → exec (.sliceLeave src b) s = .next ((s.started src 0x31 b).finish (s.refFor src 0x31) stBadField)) ∧
    (onlyUses b [(0, 2), (4, 24)] = false → exec (.routeLoad src b) s = .next ((s.started src 0x32 b).finish (s.refFor src 0x32) stBadField)) ∧
    (onlyUses b [(0, 29)] = false → s.coord.valid = true → exec (.bundleSet src b) s = .next ((s.started src 0x33 b).finish (s.refFor src 0x33) stBadField)) ∧
    -- SLICE_JOIN: a well-formed slice of a bound model sends JOIN to its master
    (∀ v tb tag rt, onlyUses b [(0, 19), (20, 24)] = true → fld b 0 1 ≤ 7 → s.coord.valid = true → (s.slc (fld b 0 1)).state = .free →
      (s.model (sliceOfBody b).model).bind Model.curView = some v → (s.model (sliceOfBody b).model).bind (·.releasing) = none →
      (s.started src 0x30 b).joinOk b (sliceOfBody b) v.man.members = true → fld b 40 4 ≠ 0 →
      (s.started src 0x30 b).hostRead src.port (fld b 32 8) 128 = some tb → parseRoute tb = some (tag, rt) →
      (s.started src 0x30 b).routeOk (sliceOfBody b) tag rt = true →
      fld b 0 1 < s.slices.length →
      ∃ t c m, exec (.sliceJoin src b) s = .next t ∧ t.tx = s.tx ++ [.slice .join c m (sliceMsgBytes .join m)] ∧ (t.slc (fld b 0 1)).state = .joining) ∧
    -- SLICE_LEAVE of a stopped slice that no step uses frees its handle
    (onlyUses b [(0, 1)] = true → fld b 0 1 ≤ 7 → (s.slc (fld b 0 1)).state = .stopped → (s.steps.any fun t => t.slice == fld b 0 1) = false →
      s.seqsIn (fld b 0 1) = [] →
      exec (.sliceLeave src b) s = .next (((s.started src 0x31 b).modSlc (fld b 0 1) fun _ => { State.slice0 with
        keptSts := (s.slc (fld b 0 1)).sts, keptGen := (s.slc (fld b 0 1)).genVal, stopCause := (s.slc (fld b 0 1)).stopCause,
        stopCoord := (s.slc (fld b 0 1)).stopCoord }).finish (s.refFor src 0x31) stOK)) ∧
    -- ROUTE_LOAD of the transit table
    (∀ tb, onlyUses b [(0, 2), (4, 24)] = true → fld b 1 1 = 2 → fld b 24 4 % 16 = 0 → fld b 24 4 ≤ 256 →
      (s.started src 0x32 b).hostRead src.port (fld b 16 8) (fld b 24 4) = some tb → (chunks 16 (fld b 24 4 / 16) tb).all transitOk = true →
      ((chunks 16 (fld b 24 4 / 16) tb).map fun e => fld e 0 2).Nodup →
      exec (.routeLoad src b) s = .next (State.finish { s.started src 0x32 b with
        router := { s.router with transit := (chunks 16 (fld b 24 4 / 16) tb).map transitEnt } } (s.refFor src 0x32) stOK)) ∧
    -- BUNDLE_SET that changes no link only takes the fold mask and completes when its bundles are up
    (onlyUses b [(0, 29)] = true → s.coord.valid = true → (∀ i, i < 28 → fld b i 1 = (s.link i).bundle) →
      (∀ i, i < 28 → fld b i 1 ≤ 6 ∨ fld b i 1 = 15) → (∀ d, d < 7 → ((List.range 28).filter fun i => fld b i 1 == d).length ≤ 8) →
      fld b 28 1 = 2 ^ s.coord.dims - 1 → (∀ i, i < 28 → fld b i 1 = 6 → fld b 28 1 = s.coord.foldMask) →
      exec (.bundleSet src b) s = .next ((State.narrowCause { s.started src 0x33 b with
        coord := { s.coord with foldMask := fld b 28 1 }, bundleW := s.bundleW ++ [(s.refFor src 0x33, [])] }).bundleChecks))

/-- Step and sequence commands (R181, R182, R183, R222, R371, R411).
Says that exec answers a next state for: stepSubmit, stepKill, seqOpen, seqClose, pageShare, pageShareAct, spillPolicy.
Model's choices: log entries 6, 109. -/
def Obligations.StepCommandsTakeEffect : Prop :=
  (∀ (s : State) (src : Src) (b : List Byte), s.turn src = true → b.length = 112 →
    -- a nonzero reserved bit ends in BAD_FIELD (R9)
    (onlyUses b [(0, 15), (16, 4), (24, 40)] = false → exec (.stepSubmit src b) s = .next ((s.started src 0x40 b).finish (s.refFor src 0x40) stBadField)) ∧
    (onlyUses b [(0, 1), (8, 8)] = false → exec (.stepKill src b) s = .next ((s.started src 0x41 b).finish (s.refFor src 0x41) stBadField)) ∧
    (onlyUses b [(0, 6), (8, 32)] = false → exec (.seqOpen src b) s = .next ((s.started src 0x42 b).finish (s.refFor src 0x42) stBadField)) ∧
    (onlyUses b [(0, 4)] = false → exec (.seqClose src b) s = .next ((s.started src 0x43 b).finish (s.refFor src 0x43) stBadField)) ∧
    (onlyUses b [(0, 12)] = false → exec (.pageShare src b) s = .next ((s.started src 0x44 b).finish (s.refFor src 0x44) stBadField)) ∧
    (onlyUses b [(0, 20)] = false → exec (.spillPolicy src b) s = .next ((s.started src 0x46 b).finish (s.refFor src 0x46) stBadField)) ∧
    -- STEP_SUBMIT of a well-formed step with a free slot starts the step on this member
    (∀ m v lb st es slot, onlyUses b [(0, 15), (16, 4), (24, 40)] = true → fld b 0 8 ≠ 0 → fld b 8 1 ≤ 7 → fld b 9 1 ≤ 63 → fld b 12 2 ≠ 0 →
      fld b 12 2 ≤ 8192 → fld b 14 1 ≤ 1 → (s.slc (fld b 8 1)).state = .joined → s.model (fld b 10 2) = some m → m.curView = some v → m.releasing = none →
      (s.obj (fld b 16 4)).map (·.kind) = some .program → (s.started src 0x40 b).readList src.port b = (st, lb) → st = stOK →
      (chunks 64 (fld b 12 2) lb).all seqEntForm = true → ((chunks 64 (fld b 12 2) lb).map seqEntOf).all (specOk v.man) = true →
      (((chunks 64 (fld b 12 2) lb).map seqEntOf).map (·.seq)).Nodup → (((chunks 64 (fld b 12 2) lb).map seqEntOf).map (·.nTok)).foldl (· + ·) 0 ≤ 262144 →
      ((chunks 64 (fld b 12 2) lb).map seqEntOf).all ((s.started src 0x40 b).seqOk (fld b 8 1)) = true →
      (s.started src 0x40 b).treeBytes ((chunks 64 (fld b 12 2) lb).map seqEntOf) ≤ 64 * 2 ^ 28 →
      allSome ((s.started src 0x40 b).readToks src.port (fld b 32 8)) ((chunks 64 (fld b 12 2) lb).map seqEntOf) = some es →
      (es.any fun e => ((s.seqOf e.seq).map (·.step)) != some 0) = false → (s.slc (fld b 8 1)).lastStep < fld b 0 8 →
      (s.dies.any fun d => d.inReset) = false → s.freeStepSlot = some slot →
      exec (.stepSubmit src b) s = .next ((s.started src 0x40 b).acceptStep (s.refFor src 0x40) b m es slot)) ∧
    -- STEP_KILL of a step that has not committed asks the master to kill it
    (∀ x, onlyUses b [(0, 1), (8, 8)] = true → fld b 0 1 ≤ 7 → (s.slc (fld b 0 1)).state ≠ .stopped → s.stepOf (fld b 0 1) (fld b 8 8) = some x →
      x.phase ≤ 3 →
      exec (.stepKill src b) s = .next (((s.started src 0x41 b).modStep (fld b 0 1) (fld b 8 8) fun t => { t with
        killRefs := t.killRefs ++ [s.refFor src 0x41] }).toMaster (fld b 0 1) .killReq { s.tokOf x with cause := 1 })) ∧
    -- SEQ_OPEN of a sequence of one page owner takes a root table and answers its address
    (∀ o p i, onlyUses b [(0, 6), (8, 32)] = true → fld b 4 1 ≤ 7 → (s.slc (fld b 4 1)).state = .joined → fld b 0 4 ≠ 0 → s.seqOf (fld b 0 4) = none →
      s.obj (fld b 8 4) = some o → o.pool = some p → o.lost = false → fld b 12 4 ≤ 2097152 → fld b 5 1 = 1 → fld b 32 8 = 0 →
      1 ≤ (s.slc (fld b 4 1)).count → (s.seqsIn (fld b 4 1)).length < 65536 → p.lowSlot = some i →
      ∃ t, exec (.seqOpen src b) s = .next t ∧ ∃ q, t.seqOf (fld b 0 4) = some q ∧ q.slice = fld b 4 1 ∧ q.pool = fld b 8 4 ∧ q.prefixLen = fld b 12 4 ∧
        q.len = 0 ∧ q.map = [] ∧ q.rootSlot = i ∧ q.seed = fld b 16 16) ∧
    -- SEQ_CLOSE of a sequence in no step is applied at once
    (∀ q, onlyUses b [(0, 4)] = true → s.seqOf (fld b 0 4) = some q → (s.slc q.slice).state ≠ .stopped → q.step = 0 →
      exec (.seqClose src b) s = .next (((s.started src 0x43 b).modSeq (fld b 0 4) fun q => { q with
        closing := true, closeHeld := q.closeHeld ++ [s.refFor src 0x43] }).applyClose (fld b 0 4))) ∧
    -- PAGE_SHARE acts at once when its source is in no step
    (∀ a, onlyUses b [(0, 12)] = true → s.seqOf (fld b 0 4) = some a → a.step = 0 →
      exec (.pageShare src b) s = .next (actShare (s.refFor src 0x44) (fld b 0 4) (fld b 4 4) (fld b 8 4) (s.started src 0x44 b))) ∧
    -- SPILL_POLICY sets the pool's policy
    (∀ o p, onlyUses b [(0, 20)] = true → s.obj (fld b 0 4) = some o → o.pool = some p → o.lost = false → fld b 4 1 = 0 → fld b 5 1 ≤ 1 → fld b 6 2 ≠ 0 →
      fld b 8 4 = 0 → fld b 16 4 ≤ p.frames → fld b 12 4 ≤ fld b 16 4 →
      ∃ t, exec (.spillPolicy src b) s = .next t ∧ ∃ p', t.pool (fld b 0 4) = some p' ∧ p'.target = 0 ∧ p'.idleSteps = fld b 6 2 ∧ p'.hostBuf = 0 ∧
        p'.lowFree = fld b 12 4 ∧ p'.highFree = fld b 16 4)) ∧
  -- a PAGE_SHARE that waits for its source acts once the source is in no step (R182)
  (∀ (s : State) (slot : Nat) (c : CmdSlot) (q : Seq), s.easelUp = true → (s.cmds.find? fun c => c.idx == slot && c.shareWait) = some c →
    s.seqOf (fld c.body 0 4) = some q → q.step = 0 →
    exec (.pageShareAct slot) s = .next (actShare c.ref (fld c.body 0 4) (fld c.body 4 4) (fld c.body 8 4)
      { s with cmds := s.cmds.map fun e => if e.idx == slot then { e with shareWait := false, state := .executing } else e }))

/-- Palette, readback and security commands (R113, R114, R441, R448, R510 to R514): the store, host memory, or the work that the command starts.
Says that exec answers a next state for: paletteLoad, paletteRemove, stateDump, snapRead, fwUpdate, attest.
Model's choices: log entries 6, 34, 48, 50, 107. -/
def Obligations.StoreCommandsTakeEffect : Prop :=
  ∀ (s : State) (src : Src) (b : List Byte), s.turn src = true → b.length = 112 →
    -- a nonzero reserved bit ends in BAD_FIELD (R9)
    (onlyUses b [(0, 14), (16, 12)] = false → exec (.paletteLoad src b) s = .next ((s.started src 0x50 b).finish (s.refFor src 0x50) stBadField)) ∧
    (onlyUses b [(0, 1), (8, 8), (16, 8), (24, 4)] = false → exec (.stateDump src b) s = .next ((s.started src 0x60 b).finish (s.refFor src 0x60) stBadField)) ∧
    (onlyUses b [(0, 12)] = false → exec (.snapRead src b) s = .next ((s.started src 0x61 b).finish (s.refFor src 0x61) stBadField)) ∧
    (onlyUses b [(0, 14)] = false → exec (.fwUpdate src b) s = .next ((s.started src 0x70 b).finish (s.refFor src 0x70) stBadField)) ∧
    (onlyUses b [(0, 44)] = false → exec (.attest src b) s = .next ((s.started src 0x71 b).finish (s.refFor src 0x71) stBadField)) ∧
    -- PALETTE_LOAD of an image that the allowlist or a signature admits places it
    (∀ img sig, onlyUses b [(0, 14), (16, 12)] = true → fld b 12 1 = 0 → fld b 13 1 = 0 → fld b 8 4 ≤ 32832 → (fld b 24 4 = 0 ∨ fld b 24 4 = 29856) →
      (s.started src 0x50 b).hostRead src.port (fld b 0 8) (fld b 8 4) = some img →
      (s.started src 0x50 b).hostRead src.port (fld b 16 8) (fld b 24 4) = some sig → palFormOk img (fld b 24 4) = true →
      (if fld b 24 4 = 0 then s.sec.palAl.contains (shake256 img) else s.sec.palSigned img sig) = true →
      exec (.paletteLoad src b) s = .next ((s.started src 0x50 b).admitPalette (s.refFor src 0x50) img)) ∧
    -- PALETTE_REMOVE of a palette that nothing uses takes it out of the store and of every core
    (onlyUses (withBit b 12) [(0, 14), (16, 12)] = true → fld (withBit b 12) 12 1 = 1 → fld (withBit b 12) 0 12 = 0 → fld (withBit b 12) 16 12 = 0 →
      s.palUsed (fld (withBit b 12) 13 1) = false → (s.pals.any fun p => p.id == fld (withBit b 12) 13 1) = true →
      ∃ t, exec (.paletteRemove src b) s = .next t ∧ t.pals = s.pals.filter fun p => p.id != fld (withBit b 12) 13 1) ∧
    -- with a reserved bit of the byte of REMOVE set it is refused (R9)
    (1 < fld (withBit b 12) 12 1 →
      exec (.paletteRemove src b) s = .next ((s.started src 0x50 (withBit b 12)).finish (s.refFor src 0x50) stBadField)) ∧
    -- STATE_DUMP writes a range of an aperture to host memory
    (onlyUses b [(0, 1), (8, 8), (16, 8), (24, 4)] = true → fld b 0 1 ≤ 15 → fld b 24 4 % 64 = 0 → fld b 24 4 ≤ 2 ^ 24 →
      exec (.stateDump src b) s = .next (((s.started src 0x60 b).setHostMem src.port (Memory.write (s.hostMem src.port) (fld b 16 8)
          ((s.started src 0x60 b).apRead (fld b 0 1) (fld b 8 8) (fld b 24 4)))).finishWith (s.refFor src 0x60) stOK
            (leBytes 4 ((s.started src 0x60 b).apRead (fld b 0 1) (fld b 8 8) (fld b 24 4)).length) false)) ∧
    -- SNAP_READ writes the Still image to host memory and answers its capture number
    (onlyUses b [(0, 12)] = true →
      exec (.snapRead src b) s = .next (((s.started src 0x61 b).setHostMem src.port (Memory.write (s.hostMem src.port) (fld b 0 8)
          ((s.started src 0x61 b).apRead 12 0 (min (fld b 8 4) stillBytes)))).finishWith (s.refFor src 0x61) stOK
            (leBytes 4 ((s.started src 0x61 b).apRead 12 0 (min (fld b 8 4) stillBytes)).length ++ leBytes 4 s.snap.capNo) false)) ∧
    -- FW_UPDATE of an image that verifies starts writing it into the slot that did not boot, which holds no image until the write ends; one that
    -- does not verify is refused with its status
    (∀ img, onlyUses b [(0, 14)] = true → fld b 12 1 ≤ 1 → fld b 13 1 ≤ 1 → s.sec.upd = none → ((fld b 12 1 == 1) == s.clk.image) = false →
      (s.started src 0x70 b).hostRead src.port (fld b 0 8) (fld b 8 4) = some img → imageFormOk img = true →
      ∃ t, exec (.fwUpdate src b) s = .next t ∧ if s.sec.verifies (parseImage img) = true then
          t.sec.upd = some { ref := s.refFor src 0x70, slotB := fld b 12 1 == 1, activate := fld b 13 1 == 1, img := parseImage img } ∧
          t.sec.imgA = (if fld b 12 1 = 0 then none else s.sec.imgA) ∧ t.sec.imgB = (if fld b 12 1 = 1 then none else s.sec.imgB)
        else t = (s.started src 0x70 b).finish (s.refFor src 0x70) (s.sec.imageStatus (parseImage img))) ∧
    -- ATTEST queues a report over its nonce
    (onlyUses b [(0, 44)] = true → s.rptTotal ≤ fld b 40 4 → s.sec.rptFull = false →
      ∃ t, exec (.attest src b) s = .next t ∧
        t.sec.rpts = s.sec.rpts ++ [{ ref := some (s.refFor src 0x71), spdm := false, dst := fld b 32 8, unsigned := s.rptBody (b.take 32) }])

/-- Commands on the module itself (R404, R405, R414, R415, Table 17-4).
Says that exec answers a next state for: devInfo, resetScope, ringSetup, ringSetupTakeover, powerPolicy.
Model's choices: log entries 6, 10, 13, 16, 17. -/
def Obligations.DeviceCommandsTakeEffect : Prop :=
  (∀ (s : State) (src : Src) (b : List Byte), s.turn src = true → b.length = 112 →
    -- a nonzero reserved bit ends in BAD_FIELD (R9)
    (onlyUses b [] = false → exec (.devInfo src b) s = .next ((s.started src 0x01 b).finish (s.refFor src 0x01) stBadField)) ∧
    (onlyUses b [(0, 1)] = false → exec (.resetScope src b) s = .next ((s.started src 0x02 b).finish (s.refFor src 0x02) stBadField)) ∧
    (onlyUses b [(0, 17)] = false → exec (.powerPolicy src b) s = .next ((s.started src 0x80 b).finish (s.refFor src 0x80) stBadField)) ∧
    -- DEV_INFO answers the identity of the module
    (onlyUses b [] = true → exec (.devInfo src b) s = .next ((s.started src 0x01 b).finish (s.refFor src 0x01) stOK s.devInfo)) ∧
    -- RESET_SCOPE: the completion comes first; the module reset is then due, or the die is in reset, or the flash tier is
    (onlyUses b [(0, 1)] = true → fld b 0 1 = 1 → ∃ t, exec (.resetScope src b) s = .next t ∧ t.clk = { s.clk with resetDue := true }) ∧
    (∀ k, onlyUses b [(0, 1)] = true → k < 8 → fld b 0 1 = 0x10 + k → (s.die k).lost = false → slotsUsed s = 0 →
      exec (.resetScope src b) s = .next (((s.started src 0x02 b).finish (s.refFor src 0x02) stOK).dieReset k)) ∧
    (onlyUses b [(0, 1)] = true → fld b 0 1 = 0x20 → s.flashIdle = true →
      ∃ t, exec (.resetScope src b) s = .next t ∧ t.clk.flsRst = true ∧ t.flash.ready = false) ∧
    -- RING_SETUP of a ring through a ring is refused: only the mailbox sets one up
    (onlyUses b [(0, 20), (20, 2)] = true → fld b 19 1 = 0 →
      exec (.ringSetup src b) s = .next ((s.started src 0x03 b).finish (s.refFor src 0x03) stBadField)) ∧
    -- RING_SETUP with TAKEOVER adopts the ring of a port that is down
    (onlyUses (withBit b 19) [(0, 20), (20, 2)] = true → fld (withBit b 19) 19 1 = 1 → fld (withBit b 19) 18 1 ≤ 63 → s.down (otherPort src.port) = true →
      exec (.ringSetupTakeover src b) s = .next ((s.started src 0x03 (withBit b 19)).takeover (s.refFor src 0x03))) ∧
    -- with a reserved bit of the byte of TAKEOVER set it is refused (R9)
    (1 < fld (withBit b 19) 19 1 →
      exec (.ringSetupTakeover src b) s = .next ((s.started src 0x03 (withBit b 19)).finish (s.refFor src 0x03) stBadField)) ∧
    -- POWER_POLICY that keeps the cap changes the band
    (onlyUses b [(0, 17)] = true → fld b 0 4 = 0xFFFFFFFF → fld b 4 4 ≤ fld b 8 4 → fld b 8 4 ≤ 4400 → 100 ≤ fld b 12 4 → fld b 12 4 ≤ 5000 → fld b 16 1 = 0 →
      ∃ t, exec (.powerPolicy src b) s = .next t ∧ t.power = { s.power with bandLo := fld b 4 4, bandHi := fld b 8 4, slew := fld b 12 4 })) ∧
  -- RING_SETUP by mailbox (R404) installs the ring pair that the body describes, live, in its first pass
  (∀ (s : State) (src : Src) (b : List Byte), src.mailbox = true → s.barAns src.port = .serve → s.easelUp = true → (s.port src.port).mbBusy = false →
    b.length = 112 → onlyUses b [(0, 20), (20, 2)] = true → fld b 19 1 = 0 → fld b 18 1 ≤ 63 → ringForm b = true → (s.port src.port).held = [] →
    ∃ t, exec (.ringSetup src b) s = .next t ∧ (t.port src.port).ring = some (ringOf b) ∧ (t.port src.port).mbDone = true ∧ (t.port src.port).mbBusy = false ∧
      (t.port src.port).taken = false)

/-- Mailbox, doorbells and fetch (R401 to R403, R406 to R408).
Says that exec answers a next state for: mbGo, sqTailWrite, cqHeadWrite, commandFetch, fencedCommandExecute, coalTimerExpire.
Model's choices: log entries 9, 11, 15. -/
def Obligations.RingTransportTakesEffect : Prop :=
  -- MB_GO runs the command in MB_CMD: DEV_INFO answers in MB_CPL
  (∀ (s : State) (p : Port), s.barAns p = .serve → s.easelUp = true → (s.port p).mbBusy = false → (parseEntry (s.port p).mbCmd).opcode = 1 →
    (parseEntry (s.port p).mbCmd).body.length = 112 → onlyUses (parseEntry (s.port p).mbCmd).body [] = true →
    ∃ t, exec (.mbGo p) s = .next t ∧ (t.port p).mbDone = true ∧ (t.port p).mbBusy = false ∧
      ∃ c, (t.port p).mbCpl = some c ∧ c.status = stOK ∧ c.opcode = 1 ∧ c.tag = (parseEntry (s.port p).mbCmd).tag) ∧
  -- SQ_TAIL: an index within the ring is taken, one beyond it is ignored and sets DB_ERR
  (∀ (s : State) (p : Port) (v : W32) (r : Ring), s.barAns p = .serve → (s.port p).ring = some r →
    exec (.sqTailWrite p v) s = .next (s.modPort p fun x =>
      if 2 ^ r.sqLog2 ≤ v.toNat % 65536 then { x with dbErr := true } else { x with ring := some { r with tail := v.toNat % 65536 } })) ∧
  -- CQ_HEAD: the same, and completions held for the port are posted
  (∀ (s : State) (p : Port) (v : W32) (r : Ring), s.barAns p = .serve → (s.port p).ring = some r → v.toNat % 65536 < 2 ^ r.cqLog2 → (s.port p).held = [] →
    exec (.cqHeadWrite p v) s = .next (s.modPort p fun x => { x with ring := some { r with head := v.toNat % 65536 } })) ∧
  -- COMMAND_FETCH takes the ring whose turn it is
  (∀ (s : State), s.canFetch (otherPort s.lastFetch) = true →
    exec .commandFetch s = .next (s.fetchFrom (otherPort s.lastFetch))) ∧
  -- FENCED_COMMAND_EXECUTE executes a waiting command whose turn has come
  (∀ (s : State) (slot : Nat) (c : CmdSlot), (s.cmds.find? fun c => c.idx == slot) = some c → s.easelUp = true → s.mayRun c = true →
    exec (.fencedCommandExecute slot) s = .next (runOp c.ref c.body
      { s with cmds := s.cmds.map fun e => if e.idx == c.idx then { e with state := .executing } else e })) ∧
  -- COAL_TIMER_EXPIRE signals entries posted beyond HEAD
  (∀ (s : State) (p : Port) (r : Ring), (s.port p).ring = some r → (s.port p).coalRun = true → r.post ≠ r.head →
    exec (.coalTimerExpire p) s = .next ((s.modPort p fun x => { x with coalRun := false }).emit (.msix p r.vec)))

/-- Sequenced status (R424 to R426): an event that is not yet recorded is recorded with SEQ one higher and no master may clear it before reading
again; a read lets its master clear; a write clears what it names when SEQ matches and nothing has moved since, and else counts a miss.
Says that exec answers a next state for: sqEventRead, sqEventClear. -/
def Obligations.SequencedStatus : Prop :=
  (∀ (s : State) (r : SqReg) (b : Nat), (s.sqGet r).ev.getLsbD b = false →
    (s.raise r b).sqGet r = { ev := (s.sqGet r).ev ||| (1 <<< b), seq := (s.sqGet r).seq + 1, perm := [] }) ∧
  (∀ (s : State) (m : Master) (r : SqReg), s.reaches m = true → sqSeen m r = true →
    ∃ t, exec (.sqEventRead m r) s = .next t ∧ t.tx = s.tx ++ [.read m (BitVec.ofNat 32 (s.sqGet r).val)] ∧
      t.sqGet r = { s.sqGet r with perm := addNew (s.sqGet r).perm m }) ∧
  (∀ (s : State) (m : Master) (r : SqReg) (v : W32), s.reaches m = true → sqSeen m r = true → v.toNat / 2 ^ 24 = (s.sqGet r).seq.toNat → m ∈ (s.sqGet r).perm →
    ∃ t, exec (.sqEventClear m r v) s = .next t ∧ t.sqGet r = { s.sqGet r with ev := (s.sqGet r).ev &&& ~~~(v.setWidth 24) } ∧ t.seqMiss = s.seqMiss) ∧
  (∀ (s : State) (m : Master) (r : SqReg) (v : W32), s.reaches m = true → sqSeen m r = true → (v.toNat / 2 ^ 24 ≠ (s.sqGet r).seq.toNat ∨ m ∉ (s.sqGet r).perm) →
    ∃ t, exec (.sqEventClear m r v) s = .next t ∧ t.sqGet r = s.sqGet r ∧ t.seqMiss = min (s.seqMiss + 1) 65535)

/-- Posted writes (R427, R428): a write takes its master's slot of the block or, while that is busy, is dropped and counted; writes of a block
land in the order of their arrival; ACC_DROP clears by a write of 1.
Says that exec answers a next state for: pwWrite, pwWriteLand, accDropClear.
Model's choices: log entry 52. -/
def Obligations.PostedWrites : Prop :=
  (∀ (s : State) (m : Master) (off : Nat) (v : W32) (k : PwBlk), s.reaches m = true → pwAt off = some k → off % 4 = 0 → off ≠ pwBase k →
    regOffsets.contains off = true → (s.accOf m k).busy = false →
    ∃ t, exec (.pwWrite m off v) s = .next t ∧ t.accOf m k = { s.accOf m k with busy := true, off := off, val := v, seqNo := s.accNo } ∧ t.accNo = s.accNo + 1) ∧
  (∀ (s : State) (m : Master) (off : Nat) (v : W32) (k : PwBlk), s.reaches m = true → pwAt off = some k → off % 4 = 0 → off ≠ pwBase k →
    regOffsets.contains off = true → (s.accOf m k).busy = true →
    ∃ t, exec (.pwWrite m off v) s = .next t ∧ t.accOf m k = { s.accOf m k with drop := true, dropN := min ((s.accOf m k).dropN + 1) 65535 } ∧ t.accNo = s.accNo) ∧
  (∀ (s : State) (m : Master) (k : PwBlk), (s.accOf m k).busy = true →
    (s.accs.any fun (m', b, x) => m' != m && b == k && x.busy && decide (x.seqNo < (s.accOf m k).seqNo)) = false →
    exec (.pwWriteLand m k) s = .next (((s.setAcc m k { s.accOf m k with busy := false }).landWrite m (s.accOf m k).off (s.accOf m k).val
      (decide ((s.accOf m k).seqNo < (s.master m).goSeq))).genChecks 4)) ∧
  (∀ (s : State) (m : Master) (k : PwBlk), s.reaches m = true →
    ∃ t, exec (.accDropClear m k) s = .next t ∧ t.accOf m k = { s.accOf m k with drop := false })

/-- Generations (R430, R431, R434): writes collect in the master's shadows until GO takes them, DISCARD drops them, and a generation that has
passed its checks becomes active as a whole at its boundary.
Says that exec answers a next state for: cfgCommitGo, cfgCommitDiscard, generationApply, bfWrite.
Model's choices: log entry 51. -/
def Obligations.Generations : Prop :=
  (∀ (s : State) (m : Master) (off : Nat) (v : W32), s.reaches m = true → (scopeOf off).isSome = true →
    ∃ t, exec (.bfWrite m off v) s = .next t ∧ (t.master m).shadow = (s.master m).shadow.filter (fun w => w.off != off) ++ [{ off := off, val := v }] ∧
      (t.master m).taken = (s.master m).taken) ∧
  (∀ (s : State) (m : Master), s.reaches m = true → (s.master m).pending = true →
    ∃ t, exec (.cfgCommitGo m) s = .next t ∧ t.master m = { s.master m with busy := true }) ∧
  (∀ (s : State) (m : Master), s.reaches m = true → (s.master m).pending = false →
    exec (.cfgCommitGo m) s = .next ((State.modMaster { s with accNo := s.accNo + 1 } m fun b => { b with
      pending := true, checked := false, taken := some b.shadow, shadow := [], goSeq := s.accNo }).genChecks 4)) ∧
  (∀ (s : State) (m : Master), s.reaches m = true →
    ∃ t, exec (.cfgCommitDiscard m) s = .next t ∧ t.master m = { s.master m with shadow := [] }) ∧
  (∀ (s : State) (m : Master) (sc : Nat × Nat) (l : List ShadowW), s.genScope m = some sc → (sc.1 = 4 → s.curTenant = none) →
    (masterAll.any fun k => s.genScope k == some sc && decide ((s.master k).goSeq < (s.master m).goSeq)) = false → (s.master m).taken = some l →
    exec (.generationApply m) s = .next ((l.foldl State.activate s).modMaster m fun b => { b with
      taken := none, pending := false, checked := false, gen := (b.gen + 1) % 65536 }))

/-- Register writes that act where they land (R436, R437, R439, R448 to R451, R461, R463).
Says that exec answers a next state for: lockSet, timeLoRead, rackCapWrite, hostCapWrite, snapTrig, snapRearm.
Model's choices: log entries 16, 53, 54. -/
def Obligations.RegisterWritesTakeEffect : Prop :=
  -- LOCK of a unit that is not locked
  (∀ (s : State) (m : Master), s.reaches m = true → masterPriv m = true → ∃ t, exec (.lockSet m 0x140004) s = .next t ∧ t.coord = { s.coord with lock := true }) ∧
  (∀ (s : State) (m : Master), s.reaches m = true → masterPriv m = true → s.sec.lock = false →
    ∃ t, exec (.lockSet m 0x70004) s = .next t ∧ t.sec = { s.sec with lock := true }) ∧
  (∀ (s : State) (m : Master) (i : Nat), s.reaches m = true → i < 30 → (s.link i).lock = false → i < s.links.length →
    ∃ t, exec (.lockSet m (0x100004 + 0x1000 * i)) s = .next t ∧ t.link i = { s.link i with lock := true }) ∧
  -- TIME_LO latches the high word
  (∀ (s : State) (m : Master), s.reaches m = true →
    ∃ t, exec (.timeLoRead m) s = .next t ∧ t.tx = s.tx ++ [.read m (BitVec.ofNat 32 (s.now % 2 ^ 32))] ∧ (t.master m).timeHi = BitVec.ofNat 32 (s.now / 2 ^ 32)) ∧
  -- caps
  (∀ (s : State) (m : Master) (v : W32), s.reaches m = true → masterPriv m = true →
    exec (.rackCapWrite m v) s = .next (s.modPower fun p => { p with rackCap := v.toNat % 65536 }).pwrUpdate) ∧
  (∀ (s : State) (m : Master) (v : W32), masterPriv m = false → exec (.rackCapWrite m v) s = .next s) ∧
  (∀ (s : State) (m : Master) (v : W32), s.reaches m = true →
    exec (.hostCapWrite m v) s = .next (s.modPower fun p => { p with hostCap := v.toNat % 65536 }).pwrUpdate) ∧
  -- Still
  (∀ (s : State) (m : Master), s.reaches m = true → s.snap.armed = false →
    ∃ t, exec (.snapTrig m) s = .next t ∧ t.snap = { s.snap with missed := min (s.snap.missed + 1) 65535 }) ∧
  (∀ (s : State) (m : Master), s.reaches m = true → s.snap.armed = true → s.snap.prop = false →
    ∃ t, exec (.snapTrig m) s = .next t ∧ t.snap.armed = false ∧ t.snap.valid = true ∧ t.snap.src = 1 ∧ t.snap.capNo = (s.snap.capNo + 1) % 2 ^ 32 ∧
      t.snap.time = s.now ∧ t.snap.image = s.stillImage ∧ t.snap.stillOutLow = true) ∧
  (∀ (s : State) (m : Master), s.reaches m = true → ∃ t, exec (.snapRearm m) s = .next t ∧ t.snap = { s.snap with armed := true })

/-- RTE_COORD and LNK_CTL (R356, R364, R365, R436): a coordinate with its complement is taken; one in use is frozen and recorded; EN 0 takes the
link to DISABLED; RETRAIN of a link that routes nothing trains it again.
Says that exec answers a next state for: rteCoordWrite, lnkRetrain, lnkEnableWrite.
Model's choices: log entries 68, 69, 70. -/
def Obligations.FabricRegisterWrites : Prop :=
  (∀ (s : State) (m : Master) (v : W32), s.reaches m = true → masterPriv m = true → s.coord.lock = false → (s.slices.any fun x => x.state == .joined) = false →
    s.coord.rackWritten = true → bitsOf v.toNat 13 8 = 63 - bitsOf v.toNat 5 0 → bitsOf v.toNat 5 0 < 2 ^ bitsOf v.toNat 16 14 → 1 ≤ bitsOf v.toNat 16 14 →
    bitsOf v.toNat 16 14 ≤ 6 →
    ∃ t, exec (.rteCoordWrite m v) s = .next t ∧ t.coord.valid = true ∧ t.coord.coord = bitsOf v.toNat 5 0 ∧ t.coord.dims = bitsOf v.toNat 16 14 ∧
      t.coord.foldMask = (if bitsOf v.toNat 16 14 < 6 then 2 ^ bitsOf v.toNat 16 14 - 1 else s.coord.foldMask) ∧ t.coord.lock = bitOf v.toNat 31) ∧
  -- a write that fails the checks leaves no valid coordinate
  (∀ (s : State) (m : Master) (v : W32), s.reaches m = true → masterPriv m = true → s.coord.lock = false → (s.slices.any fun x => x.state == .joined) = false →
    (s.coord.rackWritten = false ∨ bitsOf v.toNat 13 8 ≠ 63 - bitsOf v.toNat 5 0 ∨ 2 ^ bitsOf v.toNat 16 14 ≤ bitsOf v.toNat 5 0 ∨ bitsOf v.toNat 16 14 = 0 ∨
      6 < bitsOf v.toNat 16 14) →
    ∃ t, exec (.rteCoordWrite m v) s = .next t ∧ t.coord.valid = false ∧ t.coord.coord = 0 ∧ t.coord.dims = 0) ∧
  (∀ (s : State) (m : Master) (v : W32), s.reaches m = true → masterPriv m = true → s.coord.lock = true →
    exec (.rteCoordWrite m v) s = .next (s.raise .rte 2)) ∧
  (∀ (s : State) (m : Master) (v : W32), s.reaches m = true → masterPriv m = true → (s.slices.any fun x => x.state == .joined) = true →
    ∃ t, exec (.rteCoordWrite m v) s = .next t ∧ t.coord = { s.coord with lock := s.coord.lock || bitOf v.toNat 31 } ∧ t.links = s.links) ∧
  (∀ (s : State) (m : Master) (v : W32), masterPriv m = false → exec (.rteCoordWrite m v) s = .next s) ∧
  (∀ (s : State) (m : Master) (i : Nat), s.reaches m = true → (s.link i).lock = true →
    ∀ en, ∃ t, exec (.lnkEnableWrite m i en) s = .next t ∧ t.links = s.links ∧ t.lkIgnore = min (s.lkIgnore + 1) 65535) ∧
  (∀ (s : State) (m : Master) (i : Nat), s.reaches m = true → (s.link i).lock = false → (s.link i).state ≠ .disabled →
    exec (.lnkEnableWrite m i false) s = .next ((s.modLink i fun l => { l with en := false }).linkGone i .disabled)) ∧
  (∀ (s : State) (m : Master) (i : Nat), s.reaches m = true → (s.link i).lock = false → (s.link i).state = .disabled →
    exec (.lnkEnableWrite m i false) s = .next (s.modLink i fun l => { l with en := false })) ∧
  (∀ (s : State) (m : Master) (i : Nat), s.reaches m = true → (s.link i).lock = false →
    exec (.lnkEnableWrite m i true) s = .next ((s.modLink i fun l => { l with en := true }).linkStart i)) ∧
  (∀ (s : State) (m : Master) (i : Nat), s.reaches m = true → (s.link i).state ≠ .disabled → (s.link i).state ≠ .waitCoord →
    exec (.lnkRetrain m i) s = .next (if s.routedLink i then s.raise (.lnk i) 6 else s.retrain i)) ∧
  -- a link that is off or waits for its coordinate has nothing to train
  (∀ (s : State) (m : Master) (i : Nat), s.reaches m = true → ((s.link i).state = .disabled ∨ (s.link i).state = .waitCoord) →
    exec (.lnkRetrain m i) s = .next s)

/-- Security register writes (R509, R514, R515): SVN_COMMIT raises the fused count to the running image's, KEY_REVOKE burns a slot whose pair is
whole and that did not vouch for the running image, and the allowlists take, lose and forget digests.
Says that exec answers a next state for: svnCommit, keyRevoke, allowlistAdd, allowlistRemove, allowlistClear. -/
def Obligations.SecurityRegisterWrites : Prop :=
  (∀ (s : State) (m : Master) (x : FwImage), s.reaches m = true → masterPriv m = true → s.sec.running = some x → 5 ≤ s.clk.stage → s.sec.svn < x.svn →
    ∃ t, exec (.svnCommit m) s = .next t ∧ t.sec.svn = x.svn) ∧
  (∀ (s : State) (m : Master) (k : Nat), s.reaches m = true → masterPriv m = true → k < 4 → s.sec.revoked.getLsbD k = false →
    s.sec.revoked.getLsbD (if k % 2 = 0 then k + 1 else k - 1) = false → (k < 2 → s.sec.running.map (·.keySlot) ≠ some k) →
    ∃ t, exec (.keyRevoke m k) s = .next t ∧ t.sec.revoked = s.sec.revoked ||| 1 <<< k) ∧
  (∀ (s : State) (m : Master) (man : Bool), s.reaches m = true → masterPriv m = true → (s.sec.alOf man).length < 256 → s.sec.alDigest ∉ s.sec.alOf man →
    ∃ t, exec (.allowlistAdd m man) s = .next t ∧ t.sec.alOf man = s.sec.alOf man ++ [s.sec.alDigest] ∧ t.sec.full = false) ∧
  (∀ (s : State) (m : Master) (man : Bool), s.reaches m = true → masterPriv m = true → s.sec.alDigest ∈ s.sec.alOf man →
    ∃ t, exec (.allowlistRemove m man) s = .next t ∧ t.sec.alOf man = (s.sec.alOf man).filter fun d => d != s.sec.alDigest) ∧
  (∀ (s : State) (m : Master) (man : Bool), s.reaches m = true → masterPriv m = true → s.sec.alOf man ≠ [] →
    ∃ t, exec (.allowlistClear m man) s = .next t ∧ t.sec.alOf man = [])

/-- Plain accesses (R387, R391 to R393, R403, R419): a register write of 4 aligned bytes to BAR0 lands as its offset says, a write to MB_CMD
collects bytes, and BAR4 reads and writes the module's memory through the port's window.
Says that exec answers a next state for: registerWrite, bar4Read, bar4Write.
Model's choices: log entries 2, 28. -/
def Obligations.PlainAccesses : Prop :=
  (∀ (s : State) (m : Master) (off : Nat) (v : W32), s.reaches m = true → off % 4 = 0 → off < 0x2000000 →
    exec (.registerWrite m .bar0 off 4 v) s = .next (match pwAt off with
      | some k => s.pwWrite m k off v
      | none => s.landWrite m off v false)) ∧
  (∀ (s : State) (off size : Nat) (v : W32), s.barAns .a = .serve → off + size ≤ 0x80 → s.pa.mbBusy = false → s.easelUp = true →
    ∃ t, exec (.registerWrite .portA .bar2 off size v) s = .next t ∧ t.pa.mbCmd = setBytes s.pa.mbCmd off (leBytes size v.toNat)) ∧
  (∀ (s : State) (p : Port) (off n : Nat), s.barAns p = .serve → off + n ≤ 2 ^ (s.port p).bar4Log2 → off % 64 + n ≤ 64 → 1 ≤ n → s.memReady = true →
    64 ≤ 2 ^ (s.port p).bar4Log2 → s.rangeOk ((s.port p).winAddr off) n = true →
    exec (.bar4Read p off n) s = .next (s.emit (.bar4 p (s.modRead ((s.port p).winAddr off) n)))) ∧
  (∀ (s : State) (p : Port) (off n : Nat), s.barAns p = .serve → off + n ≤ 2 ^ (s.port p).bar4Log2 → off % 64 + n ≤ 64 → 1 ≤ n → s.memReady = false →
    64 ≤ 2 ^ (s.port p).bar4Log2 →
    exec (.bar4Read p off n) s = .next ((s.emit (.bar4 p (List.replicate n 255))).modPort p fun x => { x with rdOnes := satAdd 16 x.rdOnes 1 })) ∧
  (∀ (s : State) (p : Port) (off : Nat) (b : List Byte), s.barAns p = .serve → off + b.length ≤ 2 ^ (s.port p).bar4Log2 → off % 64 + b.length ≤ 64 →
    1 ≤ b.length → s.memReady = true → 64 ≤ 2 ^ (s.port p).bar4Log2 → (s.bufferAt ((s.port p).winAddr off) b.length).isSome = true →
    s.rangeOk ((s.port p).winAddr off) b.length = true →
    exec (.bar4Write p off b) s = .next (s.modWrite ((s.port p).winAddr off) b))

/-- Host ports (R384 to R389): what each reset, link, power-state, key and configuration event does to the port. A change that takes a port down
goes through `portChange`, which records DOWN and does what Table 16-2 says.
Says that exec answers a next state for: perstAssert, perstDeassert, pcieHotReset, pcieFlr, pcieLinkUp, pcieLinkDown, d3hotEntry, d3hotExit, ideFail, ideKeyProgram, configurationRequest.
Model's choices: log entries 24, 26, 27. -/
def Obligations.PortEventsTakeEffect : Prop :=
  (∀ (s : State) (p : Port), exec (.perstAssert p) s = .next ((s.portChange p fun x => { x.funcReset.linkOff with perst := true, cfgReady := false, flr := false }).portEvt p 2)) ∧
  (∀ (s : State) (p : Port), ∃ t, exec (.perstDeassert p) s = .next t ∧ t.port p = { s.port p with perst := false, cfgReady := !s.clk.inReset }) ∧
  (∀ (s : State) (p : Port) (how : PortReset), exec (.pcieHotReset p how) s = .next ((s.portChange p fun x => { x.funcReset.linkOff with flr := false }).portEvt p 2)) ∧
  (∀ (s : State) (p : Port), exec (.pcieFlr p) s = .next ((s.portChange p fun x => { x.funcReset with flr := true, cfgReady := false }).portEvt p 3)) ∧
  (∀ (s : State) (p : Port) (rate width : Nat) (flit rev best : Bool), (s.port p).perst = false → s.clk.inReset = false → rate < 8 → width < 32 →
    ∃ t, exec (.pcieLinkUp p rate width flit rev best) s = .next t ∧
      t.port p = { s.port p with linkUp := true, rate := rate, width := width, flit := flit, reversed := rev }) ∧
  (∀ (s : State) (p : Port), exec (.pcieLinkDown p) s = .next (s.portChange p PortSt.linkOff)) ∧
  (∀ (s : State) (p : Port), exec (.d3hotEntry p) s = .next (s.portChange p fun x => { x with d3 := x.d3 || (x.linkUp && x.cfgReady) })) ∧
  (∀ (s : State) (p : Port), ∃ t, exec (.d3hotExit p) s = .next t ∧ t.port p = { s.port p with d3 := false }) ∧
  (∀ (s : State) (p : Port) (k : Nat), k ∈ (s.port p).ideKeyed → (s.port p).linkUp = true →
    exec (.ideFail p k) s = .next ((s.portChange p fun x => { x with ide := 2, ideFailed := addNew x.ideFailed k }).portEvt p 4)) ∧
  (∀ (s : State) (p : Port) (k : Nat), (s.port p).linkUp = true → (s.port p).cfgReady = true → k ≤ 4 → (∀ j ∈ (s.port p).ideFailed, j = k) →
    ∃ t, exec (.ideKeyProgram p k) s = .next t ∧ t.port p = { s.port p with ideKeyed := addNew (s.port p).ideKeyed k, ideFailed := [], ide := 1 }) ∧
  -- another failed stream keeps the port insecure
  (∀ (s : State) (p : Port) (k j : Nat), (s.port p).linkUp = true → (s.port p).cfgReady = true → k ≤ 4 → j ∈ (s.port p).ideFailed → j ≠ k →
    ∃ t, exec (.ideKeyProgram p k) s = .next t ∧ (t.port p).ide = 2 ∧ j ∈ (t.port p).ideFailed) ∧
  (∀ (s : State) (p : Port) (on : Bool), (s.port p).cfgReaches = true → s.clk.inReset = false → (s.port p).flr = false → (s.port p).cfgReady = true →
    ∃ t, exec (.configurationRequest p (.memEnable on)) s = .next t ∧ t.port p = { s.port p with memEn := on }) ∧
  (∀ (s : State) (p : Port) (l : Nat), (s.port p).cfgReaches = true → s.clk.inReset = false → (s.port p).flr = false → (s.port p).cfgReady = true → 30 ≤ l → l ≤ 42 →
    ∃ t, exec (.configurationRequest p (.bar4Size l)) s = .next t ∧ t.port p = { s.port p with bar4Log2 := l })

/-- What a port going down does (R388, Table 16-2): from up to down PCI_EVT records DOWN and the ring pair waits for RING_SETUP; a port that was
down already only takes its new settings.
Model's choices: log entry 29. -/
def Obligations.PortGoingDown : Prop :=
  (∀ (s : State) (p : Port) (f : PortSt → PortSt), s.down p = true → s.portChange p f = s.modPort p f) ∧
  (∀ (s : State) (p : Port) (f : PortSt → PortSt), s.down p = false → (f (s.port p)).down = true →
    s.portChange p f = ((s.modPort p f).portEvt p 1).portDownEffects p) ∧
  (∀ (s : State) (p : Port), s.objs = [] → (s.portDownEffects p).port p = { s.port p with ring := (s.port p).ring.map fun r => { r with live := false } })

/-- Reports and identity (R519 to R521): a request is queued, the report in hand is signed and delivered, a slot that was written is verified again.
Says that exec answers a next state for: spdmRequest, sidebandAttestRequest, reportSigned, updateDone.
Model's choices: log entries 49, 107. -/
def Obligations.ReportsAndUpdates : Prop :=
  (∀ (s : State) (p : Port) (nonce : List Byte), (s.port p).cfgReaches = true → (s.port p).cfgReady = true → s.easelUp = true → s.sec.rptFull = false →
    ∃ t, exec (.spdmRequest p nonce) s = .next t ∧ t.sec.rpts = s.sec.rpts ++ [{ ref := none, spdm := true, dst := 0, unsigned := s.rptBody nonce }]) ∧
  (∀ (s : State) (nonce : List Byte), s.sidebandUp = true → s.health.failed = false → s.beat.sec.rptFull = false →
    ∃ t, exec (.sidebandAttestRequest nonce) s = .next t ∧
      t.sec.rpts = s.beat.sec.rpts ++ [{ ref := none, spdm := false, dst := 0, unsigned := s.beat.rptBody nonce }]) ∧
  (∀ (s : State) (q : RptReq) (rest : List RptReq), s.sec.rpts = q :: rest → s.easelUp = true → q.ref = none → q.spdm = true →
    ∃ t, exec .reportSigned s = .next t ∧ t.sec.rpts = rest ∧
      t.tx = s.tx ++ [.spdm (Config.spdmFrame (q.unsigned ++ padTo rptSigBytes (Config.slhSign q.unsigned)))]) ∧
  (∀ (s : State) (u : Upd), s.sec.upd = some u → s.easelUp = true → s.sec.verifies u.img = true → u.slotB = true →
    ∃ t, exec .updateDone s = .next t ∧ t.sec.upd = none ∧ t.sec.imgB = some u.img ∧ t.sec.bOk = true ∧ t.sec.imgA = s.sec.imgA ∧
      t.sec.bootB = (u.activate || s.sec.bootB))

/-- Faults inside the module (R18, R477 to R482): replays, the loss of a die or a port, the Easel's stop, restarts of a die's agent.
Says that exec answers a next state for: d2dCrcError, nodCrcError, dieAgentWatchdog, diePoolUncorrectable, dieLost, lockstepMismatch, easelSramError, ceSample, registerScrub.
Model's choices: log entries 36, 37, 145. -/
def Obligations.FaultsTakeEffect : Prop :=
  -- a D2D or NoD CRC error replays; the ninth replay of one flit fails the port, or loses the die
  (∀ (s : State) (k : Nat), (s.d2dAt k).down = false → k < 22 → s.clk.inReset = false → k < s.d2d.length →
    ∃ t, exec (.d2dCrcError k) s = .next t ∧ ((s.nextInRow (s.d2dAt k).inRow).1 ≤ 8 →
      (t.d2dAt k).replays = satAdd (if k < 10 then 31 else 32) (s.d2dAt k).replays 1) ∧
      (8 < (s.nextInRow (s.d2dAt k).inRow).1 → t = (s.nextInRow (s.d2dAt k).inRow).2.d2dFail k)) ∧
  (∀ (s : State) (k : Nat), (s.die k).lost = false → k < 8 → k < s.dies.length →
    ∃ t, exec (.nodCrcError k) s = .next t ∧ ((s.nextInRow (s.die k).nodRow).1 ≤ 8 → (t.die k).nodRow = (s.nextInRow (s.die k).nodRow).1) ∧
      (8 < (s.nextInRow (s.die k).nodRow).1 → t = (s.nextInRow (s.die k).nodRow).2.dieLose k)) ∧
  (∀ (s : State) (k : Nat), s.power.held = false → exec (.dieAgentWatchdog k) s = .next (s.agentRestart k)) ∧
  (∀ (s : State) (k : Nat), s.power.held = true → exec (.dieAgentWatchdog k) s = .next s) ∧
  (∀ (s : State) (k off : Nat) (o : Obj), (s.die k).lost = false → k < 8 → 0x1000000 ≤ off → off < 0x4000000 →
    (s.objs.find? fun o => o.dp && o.die == k && o.extents.any (inRange (poolBase k + off))) = some o → o.kind ≠ .stage →
    exec (.diePoolUncorrectable k off) s = .next (s.loseMemory (fun x => x.id == o.id) fun _ => false)) ∧
  (∀ (s : State) (k : Nat), (s.die k).lost = false → k < 8 → s.clk.inReset = false →
    ∃ t, exec (.dieLost k) s = .next t ∧ k ∈ t.nor.lostDies) ∧
  (∀ (s : State), s.clk.inReset = false → s.health.easelStop = false →
    ∃ t, exec .lockstepMismatch s = .next t ∧ t.nor.mismatches = s.nor.mismatches + 1 ∧ t.health.failed = true ∧ t.health.easelStop = true) ∧
  (∀ (s : State), s.clk.inReset = false → s.health.easelStop = false →
    ∃ t, exec .easelSramError s = .next t ∧ t.nor.mismatches = s.nor.mismatches + 1 ∧ t.health.failed = true ∧ t.health.easelStop = true) ∧
  (∀ (s : State), s.easelUp = true → ∃ t, exec .registerScrub s = .next t ∧ t.upsets = [] ∧ t.regFix = satAdd 32 s.regFix s.upsets.length) ∧
  (∀ (s : State), s.easelUp = true → exec .ceSample s = .next (s.ceCounters.foldl (fun s (cls, lim, l) =>
    l.zipIdx.foldl (fun s (v, u) => s.ceUnitSample cls lim u v) s) s))

/-- Health messages and the sideband (R490, R491, R534, R535, R537, R461): a due message goes out numbered, repeats until its number is
acknowledged, a heartbeat ends the orphan state's wait, stuck lines silence the sideband, the test port answers IDCODE.
Says that exec answers a next state for: healthMessage, healthRepeatTimer, healthAck, faultPulseEnd, sidebandHeartbeat, orphanTimeout, sidebandBusStuck, sidebandLinesHigh, dynamicAddressAssign, dynamicAddressReset, tapInstruction.
Model's choices: log entries 22, 39. -/
def Obligations.HealthAndSideband : Prop :=
  (∀ (s : State), s.health.alertDue = true → s.sidebandUp = true →
    exec .healthMessage s = .next ((s.modHealth fun h => { h with
      aseq := (s.health.aseq + 1) % 65536, alertDue := false, alertOut := true, alertNew := 0, alertBody := s.healthBody ((s.health.aseq + 1) % 65536) }).sendAlert
        (s.healthBody ((s.health.aseq + 1) % 65536)))) ∧
  (∀ (s : State), s.health.alertOut = true → s.sidebandUp = true → exec .healthRepeatTimer s = .next (s.sendAlert s.health.alertBody)) ∧
  (∀ (s : State) (n : Nat), s.sidebandUp = true → s.beat.health.alertOut = true → s.beat.health.aseq = n →
    ∃ t, exec (.healthAck n) s = .next t ∧ t.health.alertOut = false ∧ t.health.aseq = n) ∧
  (∀ (s : State), ∃ t, exec .faultPulseEnd s = .next t ∧ t.health = { s.health with faultPulse := false, faultN := s.health.state == 3 }) ∧
  (∀ (s : State), s.sidebandUp = true → exec .sidebandHeartbeat s = .next s.beat) ∧
  (∀ (s : State), s.clk.inReset = false → s.power.orphan = false →
    exec .orphanTimeout s = .next ((s.modPower fun p => { p with orphan := true }).raise .pwr 3).pwrUpdate) ∧
  (∀ (s : State), ∃ t, exec .sidebandBusStuck s = .next t ∧ t.side = { s.side with stuck := true, dyn := none }) ∧
  (∀ (s : State), ∃ t, exec .sidebandLinesHigh s = .next t ∧ t.side = { s.side with stuck := false }) ∧
  (∀ (s : State) (a : Nat), s.sidebandUp = true → a < 128 → ∃ t, exec (.dynamicAddressAssign a) s = .next t ∧ t.side = { s.side with dyn := some a }) ∧
  (∀ (s : State), s.sidebandUp = true → ∃ t, exec .dynamicAddressReset s = .next t ∧ t.side = { s.side with dyn := none }) ∧
  (∀ (s : State), ∃ t, exec (.tapInstruction 1) s = .next t ∧ t.tx = s.tx ++ [.tap 0x0D2EA001] ∧ t.side = { s.side with tapIr := 1 })

/-- Resets, supplies and clocks (R453, R456, R493, R494, R500 to R503, R527): what begins a module reset and with which cause, how it ends, and
what the reference clock and the PLLs do.
Says that exec answers a next state for: resetScopeDelayExpire, powerOff, refClockLoss, refHoldoverExpire, pllUnlock, powerOn, modRstNAssert, moduleResetEnd, dieResetDone, flashResetDone, refClockReturn.
Model's choices: log entry 19. -/
def Obligations.ResetsAndClocks : Prop :=
  (∀ (s : State), s.clk.powered = true → exec .modRstNAssert s = .next (s.moduleReset 1)) ∧
  (∀ (s : State), s.clk.resetDue = true → exec .resetScopeDelayExpire s = .next (s.moduleReset 2)) ∧
  (∀ (s : State), s.clk.refLost = true → s.clk.inReset = false → exec .refHoldoverExpire s = .next (s.moduleReset 3)) ∧
  (∀ (s : State), ∃ t, exec .powerOff s = .next t ∧ t.clk.powered = false ∧ t.clk.inReset = true ∧ t.mem = [] ∧ t.objs = []) ∧
  (∀ (s : State), s.clk.powered = false → ∃ t, exec .powerOn s = .next t ∧ t.clk.powered = true ∧ t.clk.inReset = true ∧ t.clk.cause = 0) ∧
  (∀ (s : State), s.clk.inReset = true → s.clk.powered = true → s.clk.refLost = false → s.health.thermtripN = false →
    ∃ t, exec .moduleResetEnd s = .next t ∧ t.now = 0 ∧ t.clk = { s.clk with inReset := false, stage := 1, refOk := true, pllLock := 0xFFF }) ∧
  (∀ (s : State), ∃ t, exec .refClockLoss s = .next t ∧ t.clk = { s.clk with refLost := true, refOk := false }) ∧
  (∀ (s : State), s.clk.refLost = true → s.clk.inReset = false →
    exec .refClockReturn s = .next ((s.modClk fun c => { c with refLost := false, refOk := true }).raise .clk 1)) ∧
  (∀ (s : State) (k : Nat), s.clk.inReset = false → s.clk.refOk = true → k < 8 →
    exec (.pllUnlock k) s = .next (((s.modClk fun c => { c with pllLock := c.pllLock &&& ~~~((1 : BitVec 12) <<< k) }).raise .clk 0).dieLose k)) ∧
  (∀ (s : State) (k : Nat), s.clk.inReset = false → s.clk.refOk = true → k < 4 →
    exec (.pllUnlock (8 + k)) s =
      .next (((s.modClk fun c => { c with pllLock := c.pllLock &&& ~~~((1 : BitVec 12) <<< (8 + k)) }).raise .clk 0).ioLose k)) ∧
  (∀ (s : State) (k : Nat), (s.die k).inReset = true → k < s.dies.length →
    ∃ t, exec (.dieResetDone k) s = .next t ∧ t.die k = { s.die k with inReset := false } ∧ t.sqGet .clk = (s.raise .clk 2).sqGet .clk) ∧
  (∀ (s : State), s.clk.flsRst = true →
    ∃ t, exec .flashResetDone s = .next t ∧ t.clk.flsRst = false ∧ t.flash = { s.flash with ready := true } ∧ t.sqGet .clk = (s.raise .clk 3).sqGet .clk)

/-- The boot stages (R504 to R506, R512, R513): stage 1 ends with measurement 1, stage 2 runs the first image that verifies, the preferred slot
first, stage 4 ends with the training of memory, and a recovery image that verifies goes into slot A and resets the module, while another
is forgotten.
Says that exec answers a next state for: recoveryImageMessage, bootStageDone, memoryTrainingDone, ftlReady.
Model's choices: log entries 19, 21, 107. -/
def Obligations.BootStages : Prop :=
  (∀ (s : State), s.clk.inReset = false → s.clk.stage = 1 →
    ∃ t, exec .bootStageDone s = .next t ∧ t.clk.stage = 2 ∧ (s.sec.log.length < 4096 → t.sec.log = s.sec.log ++
      [{ index := s.sec.logCount, kind := 1, time := s.now, detail := s.sec.svn, digest := shake256 s.sec.fuseBytes }])) ∧
  (∀ (s : State) (x : FwImage), s.clk.inReset = false → s.clk.stage = 2 → s.clk.noImage = false → s.sec.img s.sec.bootB = some x → s.sec.verifies x = true →
    ∃ t, exec .bootStageDone s = .next t ∧ t.clk.stage = 3 ∧ t.clk.image = s.sec.bootB ∧ t.sec.running = some x) ∧
  (∀ (s : State) (x y : FwImage), s.clk.inReset = false → s.clk.stage = 2 → s.clk.noImage = false → s.sec.img s.sec.bootB = some x → s.sec.verifies x = false →
    s.sec.img (!s.sec.bootB) = some y → s.sec.verifies y = true →
    ∃ t, exec .bootStageDone s = .next t ∧ t.clk.stage = 3 ∧ t.clk.image = (!s.sec.bootB) ∧ t.sec.running = some y) ∧
  (∀ (s : State), s.clk.inReset = false → s.clk.stage = 2 → s.sec.img s.sec.bootB = none → s.sec.img (!s.sec.bootB) = none →
    ∃ t, exec .bootStageDone s = .next t ∧ t.clk.stage = 2 ∧ t.clk.noImage = true) ∧
  (∀ (s : State), s.clk.inReset = false → s.clk.stage = 3 → ∃ t, exec .bootStageDone s = .next t ∧ t.clk.stage = 4 ∧ t.sec = s.sec) ∧
  (∀ (s : State), s.clk.inReset = false → s.clk.stage = 4 →
    ∃ t, exec (.memoryTrainingDone []) s = .next t ∧ t.clk.stage = 5 ∧
      t.chans = s.chans.mapIdx fun c x => { x with trained := !(s.die (c / 32)).lost }) ∧
  (∀ (s : State), s.clk.inReset = false → 3 ≤ s.clk.stage → s.flash.ready = false → s.clk.flsRst = false →
    ∃ t, exec .ftlReady s = .next t ∧ t.flash.ready = true ∧ t.flash.copies = s.flash.copies) ∧
  (∀ (s : State) (b : List Byte), s.clk.inReset = false → s.clk.stage = 2 → s.clk.noImage = true → s.side.stuck = false →
    ∃ t, exec (.recoveryImageMessage false b) s = .next t ∧ t.sec.recBuf = s.sec.recBuf ++ b) ∧
  (∀ (s : State) (b : List Byte), s.clk.inReset = false → s.clk.stage = 2 → s.clk.noImage = true → s.side.stuck = false →
    imageFormOk (s.sec.recBuf ++ b) = true →
    ∃ t, exec (.recoveryImageMessage true b) s = .next t ∧ if s.sec.verifies (parseImage (s.sec.recBuf ++ b)) = true then
        t.sec.imgA = some (parseImage (s.sec.recBuf ++ b)) ∧ t.sec.bootB = false ∧ t.clk.inReset = true ∧ t.clk.cause = 2
      else t.sec.imgA = s.sec.imgA ∧ t.sec.recBuf = [])

/-- Power and the input (R453 to R467): the brake, sags and overvoltage put their cap in force or hold the module, a lost phase is carried by a
spare, a shorted rail loses its dies, Millpond reports the means and moves its ceiling, and dies settle at full rate when no limit binds.
Says that exec answers a next state for: weirNAssert, weirNRelease, voltageStageSettle, heldExit, millpondTick, inputSag, sagCapTimer, sagHoldTimer, inputRecover, inputOvervoltage, phaseFail, railShort.
Model's choices: log entries 40, 41, 42, 43, 44. -/
def Obligations.PowerEventsTakeEffect : Prop :=
  (∀ (s : State), s.clk.inReset = false → s.power.brake = false →
    exec .weirNAssert s = .next ((((s.modPower fun p => { p with brake := true }).raise .pwr 2).pwrUpdate).faultTrigger 6)) ∧
  (∀ (s : State), exec .weirNRelease s = .next ((s.modPower fun p => { p with brake := false }).pwrUpdate)) ∧
  (∀ (s : State), s.power.sag = 0 → s.clk.inReset = false → exec .inputSag s = .next ((s.modPower fun p => { p with sag := 1 }).raise .pwr 4)) ∧
  (∀ (s : State), s.power.sag = 1 → exec .sagCapTimer s = .next ((s.modPower fun p => { p with sag := 2 }).pwrUpdate)) ∧
  (∀ (s : State), s.power.sag = 2 → exec .sagHoldTimer s = .next ((s.modPower fun p => { p with sag := 3 }).pwrUpdate)) ∧
  (∀ (s : State), exec .inputRecover s = .next ((s.modPower fun p => { p with sag := 0 }).pwrUpdate)) ∧
  (∀ (s : State), s.clk.inReset = false → s.power.held = false → 420 ≤ s.power.effCap →
    ∃ t, exec .inputOvervoltage s = .next t ∧ t.power = { s.power with overV := true, held := true, ballast := false } ∧
      t.sqGet .pwr = (s.raise .pwr 5).sqGet .pwr) ∧
  (∀ (s : State), s.power.held = true → s.power.sag ≠ 3 → 420 ≤ s.power.effCap →
    exec .heldExit s = .next ((s.modPower fun p => { p with overV := false }).heldEnd)) ∧
  (∀ (s : State) (r : Rail), r ∈ railAll → s.railLost r + 1 ≤ railSpares r →
    exec (.phaseFail r) s = .next ((((s.modPower fun p => { p with phasesLost := assocSet p.phasesLost r (s.railLost r + 1) }).modNor fun x =>
      { x with phases := assocSet x.phases r (s.railLost r + 1) }).raise .mon 7).setCause hcPhase)) ∧
  (∀ (s : State) (k : Nat), s.clk.inReset = false → k < 8 → Rail.compute k ∉ s.power.shorted →
    exec (.railShort (.compute k)) s = .next ((s.modPower fun p => { p with shorted := p.shorted ++ [.compute k] }).dieLose k)) ∧
  (∀ (s : State) (p1 p10 v : Nat) (full : Bool), s.clk.inReset = false →
    ∃ t, exec (.millpondTick p1 p10 v full) s = .next t ∧ t.power.pIn = p1 ∧ t.power.p10 = p10 ∧ t.power.vIn = v ∧
      t.power.ceiling = s.power.nextCeiling p1 p10 ∧ t.power.trough = (s.power.fill && decide (p1 < s.power.bandLo) && !full && !s.power.held)) ∧
  (∀ (s : State), 4000 ≤ s.power.limit → s.dies.length = 8 →
    ∃ t, exec .voltageStageSettle s = .next t ∧ t.power.throttled = false ∧
      ∀ k, k < 8 → t.die k = { s.die k with pulses := s.dieLimit k, point := pointFor (s.dieLimit k) })

/-- Temperature and coolant (R468 to R476, R486): a sample's readings stand and a sensor out of range fails, the trip takes the module's rails and
memory, the thermistors are reported and judged, a droop is counted.
Says that exec answers a next state for: thermalSample, thermtrip, coolantEstimate, droopTrip.
Model's choices: log entries 41, 45, 46. -/
def Obligations.ThermalEventsTakeEffect : Prop :=
  (∀ (s : State) (i : Nat) (v : Int), s.clk.inReset = false → i < 864 →
    ∃ t, exec (.thermalSample [(i, v)]) s = .next t ∧ t.mon.sense = assocSet s.mon.sense i v ∧ (outOfRange v = true → i ∈ t.mon.fail)) ∧
  (∀ (s : State) (i : Nat), s.clk.inReset = false → s.health.thermtripN = false → i < 864 →
    ∃ t, exec (.thermtrip i) s = .next t ∧ t.mem = [] ∧ t.nor.trips = s.nor.trips + 1 ∧ t.health.thermtripN = true ∧ t.health.failed = true) ∧
  (∀ (s : State) (a b c d : Int) (p : Nat), s.clk.inReset = false →
    ∃ t, exec (.coolantEstimate a b c d p) s = .next t ∧ (t.mon.inA, t.mon.inB, t.mon.outA, t.mon.outB) = (a, b, c, d) ∧
      (t.mon.inFailA, t.mon.inFailB, t.mon.outFailA, t.mon.outFailB) = (thermBad a, thermBad b, thermBad c, thermBad d)) ∧
  (∀ (s : State) (k : Nat), s.clk.inReset = false → ∃ t, exec (.droopTrip k) s = .next t ∧ t.mon = { s.mon with droop := s.mon.droop.modify k fun n => satAdd 32 n 1 })

/-- Training and the link states (R353 to R358): training reports its lanes and sends the IDENT, the peer's IDENT brings UP or MISWIRE, a lane
fault retrains on half the lanes, failures and retries move the link between its states.
Says that exec answers a next state for: linkTrainDone, linkTrainTimeout, identReceived, miswireRecheck, laneFault, linkFail, linkRetryTimer, linkRestore.
Model's choices: log entries 64, 67. -/
def Obligations.LinkStates : Prop :=
  (∀ (s : State) (i good pol : Nat) (rev : Bool), (s.link i).state = .train → i < s.links.length →
    laneCount (good % 2 ^ (if i < 28 then 4 else 8)) = (if i < 28 then 4 else 8) →
    ∃ t, exec (.linkTrainDone i good pol rev) s = .next t ∧ t.link i = { s.link i with
      lanes := good % 2 ^ (if i < 28 then 4 else 8), narrow := false, pol := pol % 2 ^ (if i < 28 then 4 else 8), reversed := rev, state := .check }) ∧
  (∀ (s : State) (i good pol : Nat) (rev : Bool), (s.link i).state = .train → laneCount (good % 2 ^ (if i < 28 then 4 else 8)) < (if i < 28 then 4 else 8) / 2 →
    exec (.linkTrainDone i good pol rev) s = .next (s.linkFail i)) ∧
  (∀ (s : State) (i : Nat), (s.link i).state = .retrain → exec (.linkTrainTimeout i) s = .next (s.linkFail i)) ∧
  (∀ (s : State) (i ack : Nat) (x : Ident), ((s.ackIn i ack).link i).state = .check → ((s.ackIn i ack).modLink i fun l => { l with peer := some x }).identPasses i x = true →
    exec (.identReceived ⟨i, ack⟩ x) s = .next (((s.ackIn i ack).modLink i fun l => { l with peer := some x }).linkUp i)) ∧
  (∀ (s : State) (i ack : Nat) (x : Ident), ((s.ackIn i ack).link i).state = .check → ((s.ackIn i ack).modLink i fun l => { l with peer := some x }).identPasses i x = false →
    exec (.identReceived ⟨i, ack⟩ x) s =
      .next (((((s.ackIn i ack).modLink i fun l => { l with peer := some x }).modLink i fun l => { l with state := .miswire }).raise (.lnk i) 4).bundleChecks)) ∧
  (∀ (s : State) (i : Nat) (x : Ident), (s.link i).state = .miswire → (s.link i).peer = some x → (s.sendIdent i (s.ownIdent i)).identPasses i x = true →
    exec (.miswireRecheck i) s = .next ((s.sendIdent i (s.ownIdent i)).linkUp i)) ∧
  (∀ (s : State) (i lane : Nat), (s.link i).state = .up → bitOf (s.link i).lanes lane = true → (s.link i).narrow = false → i < s.links.length →
    ∃ t, exec (.laneFault i lane) s = .next t ∧ t.link i = { s.link i with state := .retrain, lanes := 0 }) ∧
  (∀ (s : State) (i : Nat), (s.link i).state = .up → exec (.linkFail i) s = .next (((s.linkGone i .failed).raise (.lnk i) 3).faultTrigger 3)) ∧
  (∀ (s : State) (i : Nat), (s.link i).state = .failed → s.routedLink i = false → exec (.linkRetryTimer i) s = .next (s.retrain i)) ∧
  (∀ (s : State) (i : Nat), (s.link i).state = .up → (s.link i).narrow = true → s.routedLink i = false → exec (.linkRestore i) s = .next (s.retrain i))

/-- Flits and credits (R345 to R349): a flit acknowledges, the expected one is taken, a gap brings one NAK, a NAK and the timeout replay from the
first flit concerned, credits are cumulative. Whether an intact flit brings the next thousand of corrected codewords is a free value.
Says that exec answers a next state for: dataFlitReceived, nakReceived, creditReceived, ackTimeout, creditTimer.
Model's choices: log entry 67. -/
def Obligations.FlitsAndCredits : Prop :=
  (∀ (s : State) (i : Nat) (f : Flit), (s.link i).state = .up → f.seq = (s.link i).rxNext → f.cls < 3 → f.part + 1 = pktFlits f.pkt →
    exec (.dataFlitReceived i f true) s = .next (((s.flitIn i f.ack).modLink i fun l => { l with
      rxNext := (l.rxNext + 1) % 4096, nakSent := false }).takePacket i f.pkt)) ∧
  (∀ (s : State) (i : Nat) (f : Flit), (s.link i).state = .up → f.seq = (s.link i).rxNext → f.cls < 3 → f.part + 1 ≠ pktFlits f.pkt →
    pktFlits f.pkt ≤ rxBuf f.cls →
    exec (.dataFlitReceived i f true) s = .next ((s.flitIn i f.ack).modLink i fun l => { l with rxNext := (l.rxNext + 1) % 4096, nakSent := false })) ∧
  (∀ (s : State) (i : Nat) (f : Flit), (s.link i).state = .up → f.seq = (s.link i).rxNext → f.cls < 3 → f.part + 1 ≠ pktFlits f.pkt →
    rxBuf f.cls < pktFlits f.pkt →
    exec (.dataFlitReceived i f true) s = .next (((s.flitIn i f.ack).modLink i fun l => { l with
      rxNext := (l.rxNext + 1) % 4096, nakSent := false }).giveBack i f.cls 1)) ∧
  (∀ (s : State) (i : Nat) (f : Flit), (s.link i).state = .up → f.seq ≠ (s.link i).rxNext → (f.seq + 4096 - (s.link i).rxNext) % 4096 < 2048 →
    exec (.dataFlitReceived i f true) s = .next ((s.flitIn i f.ack).sendNak i)) ∧
  (∀ (s : State) (i ack n : Nat), ((s.modLink i fun l => l.acked ack).link i).state = .up →
    exec (.nakReceived ⟨i, ack⟩ n) s = .next (((s.modLink i fun l => l.acked ack).replay i
      (((s.modLink i fun l => l.acked ack).link i).unacked.dropWhile fun f => f.seq != n)).pump i)) ∧
  (∀ (s : State) (i : Nat), (s.link i).state = .up → exec (.ackTimeout i) s = .next (s.replay i (s.link i).unacked)) ∧
  (∀ (s : State) (i ack c0 c1 c2 : Nat), c0 < 65536 → c1 < 65536 → c2 < 65536 →
    exec (.creditReceived ⟨i, ack⟩ c0 c1 c2) s = .next (((s.ackIn i ack).modLink i fun l => { l with
      cred := [l.cred.getD 0 0 + (c0 + 65536 - l.credSeen.getD 0 0) % 65536, l.cred.getD 1 0 + (c1 + 65536 - l.credSeen.getD 1 0) % 65536,
               l.cred.getD 2 0 + (c2 + 65536 - l.credSeen.getD 2 0) % 65536],
      credSeen := [c0, c1, c2] }).pump i)) ∧
  (∀ (s : State) (i a b c : Nat), (s.link i).owed = [a, b, c] → 0 < a + b + c →
    exec (.creditTimer i) s = .next (s.sendCredit i)) ∧
  -- the flit that returns credits carries every count that has been freed, and nothing is owed then
  (∀ (s : State) (i : Nat), i < s.links.length → ((s.sendCredit i).link i).owed = [0, 0, 0] ∧
    ∃ w, (s.sendCredit i).tx = s.tx ++ [.credit i ((s.link i).rel.getD 0 0) ((s.link i).rel.getD 1 0) ((s.link i).rel.getD 2 0) w])

/-- The router (R370, R373, R374) and the twin (R360, R361): a packet of a slice is delivered, forwarded or dropped, transit waits for its
window, a twin's request is answered from the object or from nothing.
Says that exec answers a next state for: packetRoute, transitWindow, twinTileRequest, noSourceAnswer.
Model's choices: log entry 69. -/
def Obligations.RouterTakesEffect : Prop :=
  (∀ (s : State) (p : Packet) (h : Nat), s.sliceOfTag p.hdr.tag = some h → p.hdr.dst = s.coord.coord →
    exec (.packetRoute p) s = .next (s.emit (.deliver (p.hdr.dstGdn % 8) p))) ∧
  (∀ (s : State) (p q : Packet) (h b : Nat), s.sliceOfTag p.hdr.tag = some h → p.hdr.dst ≠ s.coord.coord → s.nextHop h p = some (b, q) →
    exec (.packetRoute p) s = .next (s.forward b q)) ∧
  (∀ (s : State) (p : Packet) (h : Nat), s.sliceOfTag p.hdr.tag = some h → p.hdr.dst ≠ s.coord.coord → s.nextHop h p = none →
    exec (.packetRoute p) s = .next s.dropMask) ∧
  (∀ (s : State), s.router.heldT = [] → ∃ t, exec .transitWindow s = .next t ∧ t = { s with router := { s.router with used := [], heldT := [] } }) ∧
  (∀ (s t : State) (i : Nat) (p : Packet), s.router.heldT = [(i, p)] → i < 30 →
    ({ s with router := { s.router with used := [], heldT := [] } } : State).route i p = (t, false) →
    exec .transitWindow s = .next (t.giveBack i p.cls (heldCred p))) ∧
  (∀ (s : State) (obj tile : Nat), s.obj obj = none → exec (.twinTileRequest obj tile) s = .next (s.emit (.noSource obj))) ∧
  (∀ (s : State) (obj tile : Nat) (o : Obj), s.obj obj = some o → o.res = .resident → o.lost = false → o.movable = true → o.tiles = 0 →
    exec (.twinTileRequest obj tile) s = .next (s.emit (.tileAns obj tile (s.objRead o 0 o.size)))) ∧
  (∀ (s : State) (obj : Nat) (o : Obj), s.obj obj = some o → o.res = .arriving → o.src = some .twin →
    exec (.noSourceAnswer obj) s = .next (s.arrivalLost obj stNoSource))

/-- Slice messages (R377 to R379): a JOIN is kept by the master or waits, JOIN_ACK makes the member JOINED, JOIN_FAIL and the end of
JOIN_WAIT free the handle, STOP stops the slice's job.
Says that exec answers a next state for: join, joinAck, joinFail, joinWaitExpire.
Model's choices: log entry 92. -/
def Obligations.SliceMessages : Prop :=
  (∀ (s : State) (m : SliceMsg) (h : Nat), s.easelUp = true → s.sliceOfTag m.tag = some h → (s.slc h).state = .joining → (s.slc h).isMaster = true →
    exec (.join m) s = .next ((s.modSlc h fun x => { x with
      joins := (x.joins.filter fun y => !(y.tag == m.tag && y.member == m.member && y.coord == m.coord)) ++ [m] }).joinCheck h)) ∧
  (∀ (s : State) (m : SliceMsg), s.easelUp = true → s.sliceOfTag m.tag = none → ∃ t, exec (.join m) s = .next t ∧ m ∈ t.joinQ) ∧
  (∀ (s : State) (m : SliceMsg) (h : Nat) (r : Ref), s.easelUp = true → s.sliceOfTag m.tag = some h → (s.slc h).state = .joining → (s.slc h).ref = some r →
    exec (.joinAck m) s = .next (((s.modSlc h fun x => { x with state := .joined, ref := none, joins := [] }).jobStart).finish r stOK
      (leBytes 1 (s.slc h).member ++ leBytes 1 (s.slc h).master ++ leBytes 1 (s.slc h).count))) ∧
  (∀ (s : State) (m : SliceMsg) (h : Nat) (r : Ref), s.easelUp = true → s.sliceOfTag m.tag = some h → (s.slc h).state = .joining → (s.slc h).ref = some r →
    (s.slc h).waitLoads = [] →
    exec (.joinFail m) s = .next ((((s.modSlc h fun _ => State.slice0).raise .rte 3).finishAll [] stNotFound).finish r stSliceDisagree)) ∧
  (∀ (s : State) (h : Nat) (r : Ref), s.easelUp = true → (s.slc h).state = .joining → (s.slc h).ref = some r → (s.slc h).waitLoads = [] →
    exec (.joinWaitExpire h) s = .next ((((s.modSlc h fun _ => State.slice0).raise .rte 3).finishAll [] stNotFound).finish r stMemberAbsent))

/-- Stills (R448 to R452): a token of the module's slice is passed on once and captures when armed, STILL_IN triggers after 1 µs high.
Says that exec answers a next state for: stillToken, stillInFall, stillOutPulseEnd.
Model's choices: log entry 70. -/
def Obligations.StillsTakeEffect : Prop :=
  (∀ (s : State) (tag origin n h : Nat), s.sliceOfTag tag = some h → (s.slc h).state = .joined → (origin, n) ∉ s.snap.pairs → s.snap.armed = true →
    exec (.stillToken tag origin n) s = .next (((s.modSnap fun x => { x with pairs := keepPair x.pairs (origin, n), fwd := satAdd 16 x.fwd 1 }).emits
      ((s.neighbours h).map fun c => .still c tag origin n)).capture 3 0 origin)) ∧
  (∀ (s : State) (tag origin n h : Nat), s.sliceOfTag tag = some h → (s.slc h).state = .joined → (origin, n) ∉ s.snap.pairs → s.snap.armed = false →
    ∃ t, exec (.stillToken tag origin n) s = .next t ∧ t.snap.missed = satAdd 16 s.snap.missed 1 ∧ t.snap.fwd = satAdd 16 s.snap.fwd 1 ∧
      t.tx = s.tx ++ (s.neighbours h).map fun c => .still c tag origin n) ∧
  (∀ (s : State) (ns : Nat), 1000 ≤ ns → s.clk.inReset = false → exec (.stillInFall ns) s = .next (s.trigger 1 0)) ∧
  (∀ (s : State), ∃ t, exec .stillOutPulseEnd s = .next t ∧ t.snap = { s.snap with stillOutLow := false })

/-- Movement of objects (R290, R292, R293, R300, R306, R323, R338): a tile that passes its checks lands, one that fails twice ends the arrival, a
departure writes out, releases and ends with its durable copy, stage copies and cold tiles are written and mapped, a swap's writing begins.
Says that exec answers a next state for: tileLand, departWriteoutDone, departRelease, flashCopyDurable, stageCopyWrite, coldTileLand, swapWriteStart.
Model's choices: log entries 57, 58, 60, 131. -/
def Obligations.MovementTakesEffect : Prop :=
  (∀ (s : State) (id i : Nat) (b : List Byte) (o : Obj) (src : LoadSrc) (rd : Nat → Nat → List Byte) (t : TileDir), s.obj id = some o → o.src = some src →
    o.res = .arriving → src ≠ .twin → o.tiles ≠ 0 → s.landNext o src i = true → o.dir[i]? = some t → s.sourceRead o src i = some rd →
    (tileBytes rd t).length = t.bytes + t.scaleBytes → tilePasses t (tileBytes rd t) = true → o.landed.length + 1 ≠ o.tiles →
    exec (.tileLand id i b) s = .next (((((s.readSource src id (s.wanted o.id i) t.off t.bytes).readSource src id (s.wanted o.id i) t.scaleOff
      t.scaleBytes).objWrite o t.off ((tileBytes rd t).take t.bytes)).objWrite o t.scaleOff ((tileBytes rd t).drop t.bytes)).modObj id
      fun o => { o with landed := o.landed ++ [i] })) ∧
  (∀ (s : State) (id i : Nat) (b : List Byte) (o : Obj) (src : LoadSrc) (rd : Nat → Nat → List Byte) (t : TileDir), s.obj id = some o → o.src = some src →
    o.res = .arriving → src ≠ .twin → o.tiles ≠ 0 → s.landNext o src i = true → o.dir[i]? = some t → s.sourceRead o src i = some rd →
    tilePasses t (tileBytes rd t) = false → i ∉ o.retried →
    exec (.tileLand id i b) s = .next (((s.readSource src id (s.wanted o.id i) t.off t.bytes).readSource src id (s.wanted o.id i) t.scaleOff
      t.scaleBytes).modObj id fun o => { o with retried := o.retried ++ [i] })) ∧
  (∀ (s : State) (id i : Nat) (b : List Byte) (o : Obj) (src : LoadSrc) (rd : Nat → Nat → List Byte) (t : TileDir), s.obj id = some o → o.src = some src →
    o.res = .arriving → src ≠ .twin → o.tiles ≠ 0 → s.landNext o src i = true → o.dir[i]? = some t → s.sourceRead o src i = some rd →
    tilePasses t (tileBytes rd t) = false → i ∈ o.retried →
    exec (.tileLand id i b) s = .next (((s.readSource src id (s.wanted o.id i) t.off t.bytes).readSource src id (s.wanted o.id i) t.scaleOff
      t.scaleBytes).arrivalLost id)) ∧
  (∀ (s : State) (id i : Nat) (b : List Byte) (o : Obj) (src : LoadSrc) (rd : Nat → Nat → List Byte), s.obj id = some o → o.src = some src → o.res = .arriving →
    src ≠ .twin → o.tiles = 0 → s.sourceRead o src 0 = some rd →
    exec (.tileLand id i b) s =
      .next (((s.readSource src id (!(s.waiters id).isEmpty) 0 o.size).objWrite o 0 (padTo o.size (rd 0 o.size))).arrivalWhole id)) ∧
  (∀ (s : State) (id : Nat) (o : Obj), s.obj id = some o → o.res = .departing → o.writeOut = true → o.stageW = [] →
    Flash.writesWait s.flash = false →
    exec (.departWriteoutDone id) s = .next ((s.startCopy o (s.objBody o)).modObj id fun o => { o with writeOut := false })) ∧
  (∀ (s : State) (id : Nat) (o : Obj), s.obj id = some o → o.res = .departing → o.released = false → o.writeOut = false → o.readers = 0 → o.fcopy = false →
    exec (.departRelease id) s = .next (s.modObj id fun o => { o with released := true })) ∧
  (∀ (s : State) (id : Nat) (o : Obj), s.obj id = some o → o.res = .departing → o.released = false → o.writeOut = false → o.readers = 0 → o.fcopy = true →
    exec (.departRelease id) s = .next ((s.modObj id fun o => { o with released := true }).departDone id)) ∧
  -- the copy of a running OBJ_STAGE_FLASH serves the departure too (the model's choice, log entry 131)
  (∀ (s : State) (id : Nat) (o : Obj), s.obj id = some o → o.res = .departing → o.writeOut = true → o.stageW ≠ [] →
    Flash.writesWait s.flash = false →
    exec (.departWriteoutDone id) s = .next (s.modObj id fun o => { o with writeOut := false })) ∧
  (∀ (s : State) (id : Nat) (o : Obj) (c : FCopy), s.obj id = some o → s.fcopyOf id = some c → c.durable = false → Flash.writesWait s.flash = false →
    s.flash.written id c.size = true → o.res = .resident →
    exec (.flashCopyDurable id) s = .next (((s.modFlash fun f => { f with
        copies := f.copies.map fun x => if x.obj == id then { x with durable := true } else x,
        map := f.map.map fun x => if x.obj == id then { x with journalled := true } else x }).modObj id
      fun o => { o with fcopy := true, stageW := [], stagePort := none }).finishWaiters o.stageW id stOK)) ∧
  (∀ (s : State) (k id tile : Nat) (x : StageEnt) (o : Obj) (t : TileDir) (b : List Byte),
    ((s.die k).stage.find? fun x => x.obj == id && x.tile == tile && x.asked) = some x → s.obj id = some o → o.dir[tile]? = some t →
    o.res = .resident → x.order = 1 → s.after false x.trig = false → s.stageBytes x o t = some b → (s.die k).inWay x.addr x.bytes = [] →
    (s.die k).held.length < 4096 →
    exec (.stageCopyWrite k id tile) s = .next (s.stageLand k x x.addr t b)) ∧
  (∀ (s : State) (k id tile : Nat) (x : StageEnt) (o : Obj) (t : TileDir) (b : List Byte),
    ((s.die k).stage.find? fun x => x.obj == id && x.tile == tile && x.asked) = some x → s.obj id = some o → o.dir[tile]? = some t →
    x.order ≠ 1 → s.after true x.trig = false → s.stageBytes x o t = some b → (s.die k).inWay x.addr x.bytes = [] →
    (s.die k).held.length < 4096 →
    exec (.stageCopyWrite k id tile) s = .next ((s.readTileCopy false id t).stageLand k x x.addr t b)) ∧
  (∀ (s : State) (k id tile a : Nat) (x : StageEnt) (o st : Obj) (t : TileDir) (c : FCopy),
    ((s.die k).stage.filter fun x => x.obj == id && x.cold && !x.landed && x.readers == 0) = [x] → x.tile = tile → (s.die k).coldNeeded x = true →
    s.obj id = some o → s.obj x.stage = some st → o.dir[tile]? = some t → s.fcopyOf id = some c → c.durable = true →
    tilePasses t (tileBytes (Memory.read c.body) t) = true → (s.die k).coldRoom st x.bytes = some a → (s.die k).held.length < 4096 →
    exec (.coldTileLand k id tile) s = .next (((s.die k).tiles.map (·.slot)).eraseDups.foldl (fun s j => s.wakeCopy j)
      ((s.readTileCopy true id t).stageLand k x (poolBase st.die + st.extOff + a) t (tileBytes (Memory.read c.body) t)))) ∧
  (∀ (s : State) (h : Nat) (w : Swap), ((s.model h).bind (·.swap)) = some w → w.writing = false → s.olderSteps h w.view = false → w.targets = [] →
    exec (.swapWriteStart h) s = .next (((s.modModel h fun m => { m with swap := some { w with writing := true } }).swapCheck h).killChecks))

/-- Memory faults (R278 to R283, R325): a read that cannot be corrected is rebuilt or loses what it hit, the first failed channel of a group brings
reconstruction, a parity mismatch is counted, a bad tile is written again from its durable copy.
Says that exec answers a next state for: tileRepair, memReadUncorrectable, channelFail, patrolScrubMismatch.
Model's choices: log entries 61, 65, 145. -/
def Obligations.MemoryFaults : Prop :=
  (∀ (s : State) (a g r : Nat), s.region a = .win g true r → (s.chan (chanOf g true r)).failed = false → (s.grp g).lost = false →
    (s.grp g).outOfService = false → (s.grp g).recon = false →
    exec (.memReadUncorrectable a) s = .next ((s.modChan (chanOf g true r) fun x => { x with rebuilt := satAdd 16 x.rebuilt 1 }).needR278 (chanOf g true r))) ∧
  (∀ (s : State) (a g r : Nat), s.region a = .win g false r → (s.chan (chanOf g false r)).failed = false → (s.grp g).lost = false →
    (s.grp g).outOfService = false →
    exec (.memReadUncorrectable a) s = .next ((s.loseMemory (fun o => o.ranges.any (inRange a)) (fun _ => false)).needR278 (chanOf g false r))) ∧
  (∀ (s : State) (c : Nat), c < 256 → (s.chan c).failed = false → s.chFail (c / 16) = 0 →
    exec (.channelFail c) s = .next (((((((s.modChan c fun x => { x with failed := true, trained := false }).modNor fun n => { n with
      chFails := addNew n.chFails c }).modGrp (c / 16) fun x => { x with recon := true }).setCause hcRecon).loseMemory
        (fun o => o.inGroup (c / 16) && !o.prot) (fun _ => false)).faultTrigger 2))) ∧
  (∀ (s : State) (g st : Nat), (s.grp g).lost = false → (s.grp g).outOfService = false →
    exec (.patrolScrubMismatch g st true none) s = .next (s.modGrp g fun x => { x with parityErr := x.parityErr + 1 })) ∧
  (∀ (s : State) (id tile : Nat) (o : Obj) (t : TileDir) (c : FCopy), s.obj id = some o → o.dir[tile]? = some t → o.kind = .tileset → o.res = .resident →
    o.lost = false → s.fcopyOf id = some c → o.fcopy = true → s.flash.ready = true → c.durable = true → tilePasses t (tileBytes (Memory.read c.body) t) = true →
    exec (.tileRepair id tile) s = .next ((((((s.readTileCopy false id t).objWrite o t.off ((tileBytes (Memory.read c.body) t).take t.bytes)).objWrite o t.scaleOff
      ((tileBytes (Memory.read c.body) t).drop t.bytes)).modDie (s.tileDie o t) fun d => { d with corrTile := satAdd 32 d.corrTile 1 }).raise (.cd (s.tileDie o t)) 3))) ∧
  (∀ (s : State) (id tile : Nat) (o : Obj) (t : TileDir), s.obj id = some o → o.dir[tile]? = some t → o.kind = .tileset → o.res = .resident →
    o.lost = false → o.fcopy = false → exec (.tileRepair id tile) s = .next (s.modObj id fun o => { o with res := .absent, landed := [] }))

/-- The flash tier (R302, R309 to R317): operations end, a failed block takes a spare, a failed die's stripes are rebuilt, reads and ageing make
blocks due, a block whose pages have moved is erased, a hot package pauses until it is cool.
Says that exec answers a next state for: nandOpDone, nandProgramFail, nandDieFail, nandRebuildDone, readDisturbDue, thermalAgeTick, relocationDone, nandOvertemp, nandTempOk, flashScrubPass.
Model's choices: log entries 59, 62, 63, 130. -/
def Obligations.FlashTierTakesEffect : Prop :=
  (∀ (s : State) (d : Nat), exec (.nandOpDone d) s = .next (s.modFlash fun f => f.endOp d)) ∧
  -- what lay in a failed block is written again
  (∀ (s : State) (d b : Nat), nandBlock d b = true → d ∉ s.flash.failed → s.flash.progFails = [] →
    exec (.nandProgramFail d b) s = .next (((s.flash.owners fun t => t.pages.any fun p => p.die == d && p.block == b).foldl (fun s x => s.moveOwner x)
      ((s.modFlash fun f => { f.endOp d with
        progFails := [(d, b, s.now)], spareBlocks := f.spareBlocks - 1,
        opens := f.opens.filter fun o => !(o.next.die == d && o.next.block == b) }).modBlock d b fun k => { k with used := false, bad := true })).spareCheck)) ∧
  (∀ (s : State) (d : Nat), d < 128 → d ∉ s.flash.failed →
    exec (.nandDieFail d) s = .next ((((s.modFlash fun f => { f.endOp d with
      failed := f.failed ++ [d], unbuilt := f.unbuilt ++ [d], rebuild := true,
      opens := f.opens.filter fun o => o.next.die != d }).modNor fun n => { n with nandFailed := addNew n.nandFailed d }).raise .fls 0).stripesLost d)) ∧
  (∀ (s : State) (d : Nat), d ∈ s.flash.unbuilt → s.flash.rebuild = true → s.flash.paused = [] →
    ∃ t, exec (.nandRebuildDone d true) s = .next t ∧ t.flash.unbuilt = s.flash.unbuilt.filter (fun x => x != d) ∧ t.flash.spareBlocks ≤ s.flash.spareBlocks) ∧
  (∀ (s : State) (d : Nat), d ∈ s.flash.unbuilt → s.flash.rebuild = true → s.flash.paused = [] →
    ∃ t, exec (.nandRebuildDone d false) s = .next t ∧ t.flash.unbuilt = s.flash.unbuilt ∧ t.flash.readonly = true ∧ t.flash.rebuild = false) ∧
  (∀ (s : State) (d b n : Nat), nandBlock d b = true → ∃ t, exec (.readDisturbDue d b n) s = .next t ∧
    t.flash = (s.modBlock d b fun k => ({ k with reads := n } : NBlock).judge).flash) ∧
  -- the package sensors are read, and every block that holds data ages by its package's temperature
  (∀ (s : State) (m : Nat), ∃ t, exec (.thermalAgeTick m) s = .next t ∧ t.flash.blocks = s.flash.blocks.map fun k =>
    ({ k with age := k.age + m * ageWeight (t.flash.temps.getD (pkgOf k.die) 0) } : NBlock).judge) ∧
  (∀ (s : State) (d b : Nat), nandBlock d b = true → d ∉ s.flash.failed → s.flash.paused = [] →
    (s.flash.stripes.any fun t => t.pages.any fun p => p.die == d && p.block == b) = false →
    exec (.relocationDone d b) s = .next (((s.modFlash fun f => { f with opens := f.opens.filter fun o => !(o.next.die == d && o.next.block == b) }).modBlock d b
      fun k => { k with reads := 0, age := 0, due := false, urgent := false, used := false, erases := k.erases + 1 }).modFlash fun f => f.startOp d)) ∧
  (∀ (s : State) (p : Nat), p < 16 → ∃ t, exec (.nandOvertemp p) s = .next t ∧ p ∈ t.flash.paused ∧ t.sqGet .fls = (s.raise .fls 7).sqGet .fls ∧
    (p < s.flash.temps.length → 85 < t.flash.temps.getD p 0)) ∧
  (∀ (s : State) (p : Nat), p ∈ s.flash.paused → ∃ t, exec (.nandTempOk p) s = .next t ∧ t.flash.paused = s.flash.paused.filter (fun x => x != p) ∧
    (p < s.flash.temps.length → t.flash.temps.getD p 0 < 80)) ∧
  (∀ (s : State) (d b n : Nat), exec (.flashScrubPass d b n) s =
    .next ((s.countBlock d b fun k => { k with reads := k.reads + 1, due := k.due || decide (8 ≤ n) }).modFlash fun f =>
      { f with scrub := f.scrub.filter fun x => x != (d, b) }))

/-- What a core's sequencer issues (R72, R81, R97 to R101) and how it ends: jobs go to a cell, vector instructions write their register or the core
store, transfers take a context and move their bytes, a fence passes when nothing is in flight.
Says that exec answers a next state for: cellJobStart, cellJobDone, vectorInstruction, dmaTransfer, dmaComplete, fence, paletteSlotLoadDone.
Model's choices: log entries 81, 82, 83, 85, 119, 120, 121, 140, 141. -/
def Obligations.CoreInstructionsTakeEffect : Prop :=
  (∀ (s : State) (k j d a : Nat), s.issues k j = true → a + 256 ≤ storeBytes →
    exec (.vectorInstruction k j (.load d a)) s = .next (s.modCore k j fun c => { c.putReg d
      ((List.range 64).map fun i => BitVec.ofNat 32 (Memory.nat c.store (a + 4 * i) 4)) with lastProgress := s.now })) ∧
  (∀ (s : State) (k j r a : Nat), s.issues k j = true → a + 256 ≤ storeBytes →
    exec (.vectorInstruction k j (.store r a)) s = .next (s.modCore k j fun c => { c with
      store := Memory.write c.store a ((c.vreg r).flatMap fun x => leBytes 4 x.toNat), lastProgress := s.now })) ∧
  (∀ (s : State) (k j d a b : Nat) (v : List W32) (f : BitVec 5), s.issues k j = true → vecResult (s.core k j) (.fadd d a b) = some (d, v, f) →
    ∃ t, exec (.vectorInstruction k j (.fadd d a b)) s = .next t ∧
      t.core k j = { (s.core k j).putReg d v with flags := (s.core k j).flags ||| f, lastProgress := s.now }) ∧
  -- a format code that no conversion of Table 02-5 has stops the palette
  (∀ (s : State) (k j fmt d a e : Nat), s.issues k j = true → (s.core k j).running = some e → 2 < fmt →
    exec (.vectorInstruction k j (.cvtTo fmt d a)) s = .next (s.failEntry k j e tsPalFault)) ∧
  (∀ (s : State) (k j en e : Nat) (second : Bool) (job : CellJob), s.issues k j = true →
    (if second then (s.core k j).loaded else (s.core k j).running) = some e → jobStatus (s.core k j).store job = 0 → (s.core k j).freeCell en = none →
    exec (.cellJobStart k j en ⟨second, job⟩) s = .next (s.modCore k j fun c => { c with jobQ := c.jobQ ++ [(en, e, job)] })) ∧
  (∀ (s : State) (k j en e i : Nat) (second : Bool) (job : CellJob) (x : Cell) (c : Core), s.issues k j = true →
    (if second then (s.core k j).loaded else (s.core k j).running) = some e → jobStatus (s.core k j).store job = 0 → (s.core k j).freeCell en = some i →
    (s.core k j).cellAt en i = x → jobStatus (s.core k j).store (x.effective job) x.fwd.isNone = 0 →
    (s.core k j).runJob x e (x.effective job) = some c →
    exec (.cellJobStart k j en ⟨second, job⟩) s = .next ((s.modCore k j fun _ => c).owe k j en i e)) ∧
  (∀ (s : State) (k j e i : Nat) (second : Bool) (x : Tile) (t : Step) (d : Dma), s.issues k j = true →
    (if second then (s.core k j).loaded else (s.core k j).running) = some e → (s.die k).entry e = some x → s.stepAt x.slot = some t →
    s.dmaCheck t k x d = .go → (s.core k j).freeCtx = some i →
    exec (.dmaTransfer k j ⟨second, d⟩) s = .next ((s.modCore k j fun c => { c with dmas := c.dmas ++ [(i, e, d)] }).modDie k fun y =>
      y.modEntry e fun z => { z with wrote := z.wrote || d.add })) ∧
  (∀ (s : State) (k j ctx e : Nat) (d : Dma), assocGet (s.core k j).dmas ctx = some (e, d) → s.dmaWaits k d = false → (s.core k j).seqQ = [] →
    k < s.dies.length → j < (s.die k).cores.length →
    exec (.dmaComplete k j ctx false) s = .next (
      (s.modCore k j fun c => { c with dmas := assocDel c.dmas ctx, lastProgress := s.now }).dmaMove k j d)) ∧
  (∀ (s : State) (k j ctx e : Nat) (d : Dma), assocGet (s.core k j).dmas ctx = some (e, d) → s.dmaWaits k d = false →
    exec (.dmaComplete k j ctx true) s = .next ((s.modCore k j fun c => { c with dmas := assocDel c.dmas ctx, lastProgress := s.now }).failEntry k j e tsDmaErr)) ∧
  (∀ (s : State) (k j : Nat), s.issues k j = true → (s.core k j).busy = false → exec (.fence k j) s = .next s) ∧
  (∀ (s : State) (k j en i : Nat) (r : JobRun), ((s.core k j).cellAt en i).job = some r → (s.core k j).jobQ = [] → (s.core k j).seqQ = [] →
    exec (.cellJobDone k j en i) s = .next (s.modCore k j fun c => { (c.putCell { (s.core k j).cellAt en i with job := none }).orFlags (some r.entry) r.flags with
      store := r.bytes.foldl (fun m (a, b) => Memory.put a b m) c.store, lastProgress := s.now })) ∧
  (∀ (s : State) (k j : Nat), (s.core k j).loadingPal ≠ 0 → (s.core k j).running = none → (s.core k j).active1 = false → (s.core k j).nextPal = [] →
    k < s.dies.length → j < (s.die k).cores.length →
    ∃ t, exec (.paletteSlotLoadDone k j) s = .next t ∧ (t.core k j).pal1 = (s.core k j).loadingPal ∧
      (t.core k j).prog1 = s.palCode (s.core k j).loadingPal ∧ (t.core k j).loadingPal = 0 ∧ (t.core k j).pal0 = (s.core k j).pal0)

/-- Errors and ground truth inside a core (R76 to R80, R83, R91, R94, Table 04-12): a ground-truth tile whose check accumulators are the expected results
settles what its cell owes when it began after the cell's last operand beat, any other loses the cell and re-runs the steps; an
error fails the running tile or is counted, a second one within 1 s loses the core.
Says that exec answers a next state for: gtTileDone, gtForceTimer, cellParityError, bufferEccError, coreStoreEccError, unpackError, unpackRereadDone, vectorParityError, sequencerEccError.
Model's choices: log entries 87, 88, 122, 145. -/
def Obligations.CoreErrorsTakeEffect : Prop :=
  (∀ (s : State) (k j en i : Nat) (l : List W32), l = gtExpected ((s.core k j).cellAt en i).gtIdx →
    exec (.gtTileDone k j en i ⟨true, l⟩) s = .next { (s.modCore k j fun c => c.putCell { (s.core k j).cellAt en i with
        gtIdx := (((s.core k j).cellAt en i).gtIdx + 1) % 44, gtForced := false, check := l }).modDie k fun d => { d with gtPass := satAdd 42 d.gtPass 1 } with
      steps := s.steps.map fun x => { x with gtPending := x.gtPending.filter fun p => p != (k, j, en, i) } }) ∧
  (∀ (s : State) (k j en i : Nat) (l : List W32), l = gtExpected ((s.core k j).cellAt en i).gtIdx →
    ∃ t, exec (.gtTileDone k j en i ⟨false, l⟩) s = .next t ∧ t.steps = s.steps) ∧
  (∀ (s : State) (k j en i : Nat) (l : List W32), l ≠ gtExpected ((s.core k j).cellAt en i).gtIdx →
    exec (.gtTileDone k j en i ⟨true, l⟩) s = .next (((((({ s.modCore k j fun c => c.putCell { (s.core k j).cellAt en i with
        gtIdx := (((s.core k j).cellAt en i).gtIdx + 1) % 44, gtForced := false, check := l, failed := true } with
      steps := s.steps.map fun x => { x with gtPending := x.gtPending.filter fun p => !(p.1 == k && p.2.1 == j) } } : State).loseCore k j 0xF0 tsLost).raise (.cd k) 1)
        ).rerunSteps).faultTrigger 1)) ∧
  (∀ (s : State) (k j en i : Nat), exec (.gtForceTimer k j en i) s = .next (s.modCore k j fun c => c.putCell { c.cellAt en i with gtForced := true })) ∧
  (∀ (s : State) (k j en i : Nat) (r : JobRun) (e : Tile), ((s.core k j).cellAt en i).job = some r →
    s.again1s ((s.core k j).cellAt en i).parityAt = false → (s.die k).entry r.entry = some e → ((s.core k j).cellAt en i).failed = false →
    k < s.dies.length →
    exec (.cellParityError k j en i) s = .next ((s.modCore k j fun c => c.putCell { (s.core k j).cellAt en i with
      job := none, fwd := none, parityAt := some s.now }).reclaim k e tsHwErr)) ∧
  -- between two passes the cell holds a forwarded operand: its tile fails
  (∀ (s : State) (k j en i : Nat) (f : FwdA) (e : Tile), ((s.core k j).cellAt en i).job = none → ((s.core k j).cellAt en i).fwd = some f →
    s.again1s ((s.core k j).cellAt en i).parityAt = false → (s.die k).entry f.entry = some e → ((s.core k j).cellAt en i).failed = false →
    k < s.dies.length →
    exec (.cellParityError k j en i) s = .next ((s.modCore k j fun c => c.putCell { (s.core k j).cellAt en i with
      job := none, fwd := none, parityAt := some s.now }).reclaim k e tsHwErr)) ∧
  -- an idle cell only notes it; a second error in one cell within 1 s fails the cell, and its core is quarantined
  (∀ (s : State) (k j en i : Nat), ((s.core k j).cellAt en i).job = none → ((s.core k j).cellAt en i).fwd = none →
    s.again1s ((s.core k j).cellAt en i).parityAt = false → ((s.core k j).cellAt en i).failed = false →
    exec (.cellParityError k j en i) s = .next (s.modCore k j fun c => c.putCell { (s.core k j).cellAt en i with
      job := none, fwd := none, parityAt := some s.now })) ∧
  (∀ (s : State) (k j en i : Nat), ((s.core k j).cellAt en i).job = none → ((s.core k j).cellAt en i).fwd = none →
    s.again1s ((s.core k j).cellAt en i).parityAt = true →
    exec (.cellParityError k j en i) s = .next ((s.modCore k j fun c => c.putCell { (s.core k j).cellAt en i with
      job := none, fwd := none, parityAt := some s.now, failed := true }).loseCore k j tsHwErr tsLost)) ∧
  (∀ (s : State) (k j en : Nat), exec (.bufferEccError k j en false) s = .next (s.modDie k fun d => { d with bufCe := d.bufCe + 1 })) ∧
  (∀ (s : State) (k j en : Nat), exec (.bufferEccError k j en true) s = .next (s.failRunning k j tsHwErr)) ∧
  (∀ (s : State) (k j : Nat), exec (.coreStoreEccError k j false) s =
    .next ((s.modDie k fun d => { d with csCe := satAdd 32 d.csCe 1 }).modCore k j fun c => { c with ce := satAdd 32 c.ce 1 })) ∧
  (∀ (s : State) (k j : Nat), s.again1s (s.core k j).csErrAt = false →
    exec (.coreStoreEccError k j true) s = .next ((s.failRunning k j tsHwErr).modCore k j fun c => { c with csErrAt := some s.now })) ∧
  (∀ (s : State) (k j : Nat), s.again1s (s.core k j).csErrAt = true →
    exec (.coreStoreEccError k j true) s = .next (((s.failRunning k j tsHwErr).modCore k j fun c => { c with csErrAt := some s.now }).loseCore k j tsHwErr tsLost)) ∧
  (∀ (s : State) (k j : Nat), s.again1s (s.core k j).vecErrAt = false →
    exec (.vectorParityError k j) s = .next ((s.failRunning k j tsHwErr).modCore k j fun c => { c with vecErrAt := some s.now })) ∧
  (∀ (s : State) (k j : Nat), s.again1s (s.core k j).vecErrAt = true →
    exec (.vectorParityError k j) s = .next (((s.failRunning k j tsHwErr).modCore k j fun c => { c with vecErrAt := some s.now }).loseCore k j tsHwErr tsLost)) ∧
  (∀ (s : State) (k j : Nat), s.again1s (s.core k j).seqErrAt = false →
    exec (.sequencerEccError k j) s = .next (((s.reloadSlot k j).failRunning k j tsHwErr).modCore k j fun c => { c with seqErrAt := some s.now })) ∧
  (∀ (s : State) (k j : Nat), s.again1s (s.core k j).seqErrAt = true →
    exec (.sequencerEccError k j) s = .next ((((s.reloadSlot k j).failRunning k j tsHwErr).modCore k j fun c => { c with seqErrAt := some s.now }).loseCore k j tsHwErr tsLost)) ∧
  (∀ (s : State) (k j n : Nat) (e : Tile), (s.die k).entry n = some e → e.state = .claimed → e.core = j →
    exec (.unpackError k j n) s = .next (s.takeFail k j n e.tileSeq tsUnpack false)) ∧
  (∀ (s : State) (k n : Nat) (e : Tile), (s.die k).entry n = some e → e.state = .failed → e.status = tsUnpack → e.unpackFails ≤ 1 →
    exec (.unpackRereadDone k n) s = .next (s.backToReady k n tsUnpack))

/-- The tile list (R91, R128 to R138, R140): a claim is granted or stays open, a completion of an empty or a reduction tile is one operation, a
failure report is stale or takes its action, a poisoned group is reset, a killed step's tile is given up.
Says that exec answers a next state for: tileClaim, claimGrant, tileComplete, tileFail, failedTileDecide, nopTileComplete, reduceGroupReset, abandonConfirm.
Model's choices: log entries 31, 86, 115, 123, 124. -/
def Obligations.TileListTakesEffect : Prop :=
  (∀ (s : State) (k j : Nat) (e : Tile), (s.die k).lost = false → j < 120 → ((s.die k).cores.getD j State.core0).hasRoom = true → j ∉ (s.die k).open_ →
    s.power.held = false → s.nextGrant k = none → s.pickTile k j = some e → exec (.tileClaim k j) s = .next (s.grantTile k j e)) ∧
  (∀ (s : State) (k j : Nat), (s.die k).lost = false → j < 120 → ((s.die k).cores.getD j State.core0).hasRoom = true → j ∉ (s.die k).open_ →
    s.pickTile k j = none → exec (.tileClaim k j) s = .next (s.modDie k fun d => { d with open_ := d.open_ ++ [j] })) ∧
  (∀ (s : State) (k j : Nat) (l : List Nat) (e : Tile), s.power.held = false → (s.die k).open_ = j :: l → s.pickTile k j = some e →
    exec (.claimGrant k) s = .next ((s.modDie k fun d => { d with open_ := d.open_.filter fun x => x != j }).grantTile k j e)) ∧
  (∀ (s u : State) (k j n q a : Nat) (fl f : BitVec 5) (e : Tile) (t : Step), (s.die k).current j n q a = some e → s.stepAt e.slot = some t →
    t.killing = none → ((s.die k).cores.getD j State.core0).reports e = true → s.roleCheck t k e = .go → s.roleRun t k e = some (u, f) →
    exec (.tileComplete k j n q a fl) s = .next ((u.oweTile k e).tileDone t k e (fl ||| ((s.die k).cores.getD j State.core0).flags ||| f))) ∧
  (∀ (s : State) (k j n q a : Nat) (fl : BitVec 5), (s.die k).current j n q a = none →
    exec (.tileComplete k j n q a fl) s = .next (s.modDie k fun d => { d with tlStale := satAdd 32 d.tlStale 1 })) ∧
  (∀ (s : State) (k n : Nat) (e : Tile) (t : Step), (s.die k).entry n = some e → e.nop = true → e.state = .ready → (s.die k).poisoned e = false →
    s.stepAt e.slot = some t → t.killing = none → exec (.nopTileComplete k n) s = .next ((s.completeEntry k n 0).distSend k)) ∧
  (∀ (s : State) (k j n q : Nat) (e : Tile) (t : Step) (w : Bool), (s.die k).entry n = some e → (s.die k).current j n q e.attempts = some e →
    s.stepAt e.slot = some t → t.killing = none →
    exec (.tileFail k j n q tsDmaErr w) s = .next ((s.modDie k fun d => d.modEntry n fun e => { e with
      wrote := e.wrote || (e.reduce && w), unpackFails := e.unpackFails + 0 }).tileFailed k n tsDmaErr)) ∧
  (∀ (s : State) (k n : Nat) (e : Tile), (s.die k).entry n = some e → e.state = .failed → e.status = tsUnpack → 2 ≤ e.unpackFails →
    exec (.failedTileDecide k n) s = .next (s.failSlot e.slot stTileCorrupt)) ∧
  (∀ (s : State) (k n : Nat) (e : Tile), (s.die k).entry n = some e → e.state = .failed → e.status = tsDmaErr →
    exec (.failedTileDecide k n) s = .next (s.backToReady k n tsDmaErr)) ∧
  (∀ (s : State) (k g : Nat) (x : RGroup), (s.die k).groups.find? (fun y => y.idx == g) = some x → x.poisoned = true →
    (∀ e ∈ (s.die k).tiles, ¬ (e.reduce = true ∧ e.group = g)) →
    exec (.reduceGroupReset k g) s = .next ((s.modWrite x.addr (List.replicate x.bytes 0)).modDie k fun d => { d with
      readyNo := d.readyNo + 1, groups := d.groups.map fun y => if y.idx == g then { y with poisoned := false } else y })) ∧
  (∀ (s : State) (k j n : Nat) (e : Tile) (t : Step), (s.die k).entry n = some e → e.state = .claimed → e.core = j →
    s.stepAt e.slot = some t → t.killing ≠ none → exec (.abandonConfirm k j n) s = .next (s.abandon k j n))

/-- Heartbeats and watchdogs of the cores (R104, R118, R133): a heartbeat is noted, a lost core's port is closed and the core quarantined, the
sequencer watchdog resets the units and fails the running tile.
Says that exec answers a next state for: heartbeat, coreLost, seqWatchdog.
Model's choices: log entries 56, 87, 145. -/
def Obligations.CoreWatchTakesEffect : Prop :=
  (∀ (s : State) (k j : Nat), (s.core k j).closed = false → k < s.dies.length → j < (s.die k).cores.length →
    ∃ t, exec (.heartbeat k j) s = .next t ∧ t.core k j = { s.core k j with lastBeat := s.now }) ∧
  (∀ (s : State) (k j : Nat), (s.die k).lost = false → j < 120 → (s.core k j).able = true → s.power.held = false →
    exec (.coreLost k j) s = .next (((s.loseCore k j tsLost tsLost).raise (.cd k) 0).faultTrigger 0)) ∧
  (∀ (s : State) (k j : Nat), (s.core k j).able = true → s.power.held = false → (s.core k j).wdAt = none →
    exec (.seqWatchdog k j) s = .next ((s.failRunning k j tsWatchdog).modDie k fun d => { d with cores := d.cores.modify j fun c => { c with
      tbufs := [], vregs := [], dmas := [], seqQ := [], jobQ := [], cells := c.cells.map (fun x => { x with job := none, fwd := none }),
      wdAt := some (s.failRunning k j tsWatchdog).now, lastProgress := (s.failRunning k j tsWatchdog).now } }))

/-- Start, barriers and PREPARED (R224 to R231): a member's ARRIVE is noted and the last one releases the barrier, RELEASE opens the walks,
PREPARED goes to the master once and is kept with its flags.
Says that exec answers a next state for: arrive, release, preparedSend, prepared, startWaitExpire, barrierWaitExpire.
Model's choices: log entries 30, 56, 72, 97, 135. -/
def Obligations.BarrierTokens : Prop :=
  (∀ (s : State) (k : Token) (h : Nat), s.easelUp = true → s.sliceOfTag k.tag = some h → (s.slc h).state = .joined → (s.slc h).isMaster = true →
    k.member < (s.slc h).count → k.barrier = 0 → s.mstOf h k.stepId = none → k.run < 256 →
    exec (.arrive k) s = .next (((s.openMst h k.stepId k.run).modMst h k.stepId fun m => { m with
      arrived := (m.arrived.filter fun (b, i, _) => !(b == 0 && i == k.member)) ++ [(0, k.member, k.batchDigest)],
      startDigs := (m.startDigs.filter fun (i, _) => i != k.member) ++ [(k.member, k.sliceDigest)] }).startCheck h k.stepId)) ∧
  (∀ (s : State) (k : Token) (h : Nat) (m : MasterStep), s.masterFor k h m → k.barrier ≠ 0 → m.killing = false → m.decided = false → k.barrier ∉ m.released →
    (∀ i, i < (s.slc h).count → ∃ x ∈ addNew m.arrived (k.barrier, k.member, 0), x.1 = k.barrier ∧ x.2.1 = i) →
    ∃ u, exec (.arrive k) s = .next u ∧ (∃ m', u.mstOf h k.stepId = some m' ∧ m'.released = m.released ++ [k.barrier]) ∧
      u.tx.length = s.tx.length + (s.members h).length) ∧
  (∀ (s : State) (k : Token) (h : Nat) (t : Step), s.tokenFor k h t → k.barrier = 0 → t.phase = 0 → t.killing = none →
    (s.modStep t.slice t.id fun t => { t with phase := 1, released := [0] }).startLost t = false →
    exec (.release k) s = .next ((s.modStep t.slice t.id fun t => { t with phase := 1, released := [0] }).openAgents t)) ∧
  (∀ (s : State) (k : Token) (h : Nat) (t : Step), s.tokenFor k h t → k.barrier ≠ 0 → k.barrier ∉ t.released →
    (∀ d ∈ s.dies, ∀ a ∈ d.agents, a.barriers = []) →
    exec (.release k) s = .next (s.modStep t.slice t.id fun t => { t with released := t.released ++ [k.barrier] })) ∧
  (∀ (s : State) (h id : Nat) (t : Step), s.easelUp = true → s.stepOf h id = some t → t.prepSent = false → s.allDone t = true → t.phase < 4 →
    s.power.held = false →
    exec (.preparedSend h id) s = .next ((s.modStep h id fun t => { t with phase := 3, prepSent := true }).toMaster h .prepared
      { (s.modStep h id fun t => { t with phase := 3, prepSent := true }).tokOf t with barrier := 0xFFFF } t.flags t.ovfPairs t.ovfRounds)) ∧
  (∀ (s : State) (k : Token) (h : Nat) (m : MasterStep) (fl : BitVec 5) (p r : Nat), s.masterFor k h m → m.killing = false → m.decided = false →
    k.member ∉ m.prepared →
    exec (.prepared k fl p r) s = .next (s.modMst h m.id fun m => { m with
      prepared := m.prepared ++ [k.member], prepFlags := m.prepFlags ||| fl, ovfPairs := m.ovfPairs + p, ovfRounds := max m.ovfRounds r })) ∧
  (∀ (s : State) (h id i : Nat) (m : MasterStep), s.easelUp = true → s.mstOf h id = some m → m.killing = false → m.decided = false → 0 ∉ m.released →
    i < (s.slc h).count → (∀ x ∈ m.arrived, ¬ (x.1 = 0 ∧ x.2.1 = i)) → exec (.startWaitExpire h id) s = .next (s.masterKill h id 4 stMemberAbsent)) ∧
  (∀ (s : State) (h id : Nat) (m : MasterStep), s.easelUp = true → s.mstOf h id = some m → m.killing = false → m.decided = false → 0 ∈ m.released →
    0xFFFF ∉ m.released → m.prepared = [] → 0 < (s.slc h).count →
    exec (.barrierWaitExpire h id 0xFFFF) s = .next (s.stopJob h 1 (s.memberCoord h 0)))

/-- Commit and kill (R231 to R240, R244, R254): the commit point draws the tokens and sends COMMIT, a member applies it and answers, the last
COMMITTED completes the step, a kill ends or restarts it, a turn ends when its length has run.
Says that exec answers a next state for: commitPoint, commit, committed, killReq, kill, killed, quantumExpire, candidateList, tailCopyDone, stop.
Model's choices: log entries 30, 95, 96, 97, 135. -/
def Obligations.CommitAndKillTokens : Prop :=
  (∀ (s : State) (h id : Nat) (m : MasterStep) (t : Step) (ps : List SParam) (res : List SeqResult) (nv : Bool), s.easelUp = true → s.mstOf h id = some m →
    s.stepOf h id = some t → (s.slc h).isMaster = true → m.killing = false → m.decided = false → (∀ i, i < (s.slc h).count → i ∈ m.prepared) →
    (∀ o ∈ s.steps, ¬ (o.slice = h ∧ o.id < id ∧ o.slot < 16)) → (∀ o ∈ s.mst, ¬ (o.slice = h ∧ o.id < id)) →
    m.rowMissing t.seqs ((((s.model t.model).bind fun v => v.view t.view).map fun v => v.man.specH).getD 0) = false →
    m.rowsFull t.seqs ((((s.model t.model).bind fun v => v.view t.view).map fun v => v.man.specH).getD 0) = true →
    s.readParams t.ref.src.port t.spAddr t.seqs = (stOK, ps) →
    s.decideAll t m ((((s.model t.model).bind fun v => v.view t.view).map fun v => v.man.specH).getD 0) ps = (res, nv) →
    exec (.commitPoint h id) s = .next (((s.modMst h id fun m => { m with
      decided := true, results := res, prepFlags := if nv then m.prepFlags ||| flNV else m.prepFlags }).modStep h id fun t => { t with phase := 4 }).toAll h
      .commit (s.mstTok m) (res.map SeqResult.entry))) ∧
  (∀ (s : State) (k : Token) (h : Nat) (t : Step) (b : List CommitEntry), s.tokenFor k h t → t.prepSent = true → t.killing = none → (s.slc h).isMaster = true →
    exec (.commit k b) s = .next (((s.applyCommit t b).toMaster h .committed (s.tokOf t)).routeWake h)) ∧
  (∀ (s : State) (k : Token) (h : Nat) (m : MasterStep), s.masterFor k h m → m.decided = true →
    exec (.committed k) s = .next ((s.modMst h m.id fun m => { m with committed := addNew m.committed k.member }).completeMaster h m.id)) ∧
  (∀ (s : State) (k : Token) (h : Nat) (m : MasterStep), s.masterFor k h m → m.decided = false →
    exec (.killReq k) s = .next (s.masterKill h m.id k.cause k.status)) ∧
  (∀ (s : State) (k : Token) (h : Nat) (t : Step), s.tokenFor k h t → t.killing = none → k.status = 0 → k.cause = 1 →
    exec (.kill k) s = .next (s.killLocal t 1 stKilled)) ∧
  (∀ (s : State) (k : Token) (h : Nat) (t : Step), s.tokenFor k h t → t.killing = none → k.status = 0 → k.cause = 2 →
    exec (.kill k) s = .next (s.killLocal t 2 0)) ∧
  (∀ (s : State) (k : Token) (h i : Nat) (m : MasterStep), s.masterFor k h m → m.killing = true →
    m.thenKill = none → i ∈ m.expect → i ∉ addNew m.killed k.member →
    exec (.killed k) s = .next (s.modMst h m.id fun m => { m with killed := addNew m.killed k.member })) ∧
  (∀ (s : State) (ten e : Nat), s.easelUp = true → s.curTenant = some ten → s.turnEnd = some e → s.tenSteps ten = [] →
    exec .quantumExpire s = .next s.passTurn.schedule) ∧
  (∀ (s : State) (tag h : Nat) (c : CandList) (m : MasterStep), s.easelUp = true → s.sliceOfTag tag = some h → s.mstOf h c.stepId = some m →
    m.run % 256 = c.run → m.killing = false → m.decided = false → (s.slc h).isMaster = true →
    rowBad (({ m with cands := (m.cands.filter fun x => !(x.member == c.member && x.tile == c.tile && x.entry == c.entry && x.node == c.node && x.head == c.head)) ++ [c] } :
      MasterStep).row c.entry c.node c.head) = false →
    ∃ u m', exec (.candidateList tag c) s = .next u ∧ u.mstOf h c.stepId = some m' ∧ c ∈ m'.cands) ∧
  (∀ (s : State) (m : SliceMsg) (h : Nat), s.easelUp = true → s.sliceOfTag m.tag = some h → (s.slc h).state = .joined →
    exec (.stop m) s = .next (s.stopJobAs false h m.cause m.causeCoord)) ∧
  (∀ (s : State) (i seq : Nat) (t : Step) (c : TailCopy) (o : Obj) (p : Pool), s.stepAt i = some t → t.copies.find? (fun c => c.seq == seq && !c.done) = some c →
    s.obj c.pool = some o → o.pool = some p → (p.page c.src).state = .live →
    exec (.tailCopyDone i seq) s = .next (((s.copyTail o p c.src c.dst c.n).modStepAt i fun t => { t with
      copies := t.copies.map fun x => if x.seq == seq then { x with done := true } else x }).wakeCopy i))

/-- The layer program (R139, R417, Table 17-10): each record has its effect when the agent stands at it, and the agent goes on to the next.
Says that exec answers a next state for: progTile, appendStallResume, progCounter, progMoeCtx, moeCtxDeferredOpen, progMerge, progBarrier, progPoolmask, progReduce, progSend, sendMessage.
Model's choices: log entries 31, 73, 74, 75, 76, 77. -/
def Obligations.LayerProgramTakesEffect : Prop :=
  (∀ (s : State) (k i : Nat) (t : Step) (a : Agent) (b : List Byte), s.atRecord k i 1 tileUses t a b → s.descOk t b = true →
    s.swapBarred t (fld b 2 2) = false →
    s.admits k (tileOfRec t a b) ((s.die k).readyNow (tileOfRec t a b) && !s.copyHeld k (tileOfRec t a b)) = true →
    exec (.progTile k i) s = .next (((s.appendTile t k (tileOfRec t a b)).nextRec k a.slot).modAgent k a.slot fun a => { a with nextSeq := a.nextSeq + 1 })) ∧
  -- appending: the layer triggers prefetch entries, SPILLED pages are asked for, the first tile of a phase has its palette loaded ahead
  (∀ (s : State) (t : Step) (k : Nat) (e : Tile), s.appendTile t k e = if ((s.trigLayer t k e.layer).askPages e).firstOfPhase k e = true
    then ((((s.trigLayer t k e.layer).askPages e).modDie k fun d => { d with cores := d.cores.map (preload e) }).modAgent k e.slot fun a =>
      { a with phases := a.phases ++ [(e.layer, e.pal)] }).placeTile k e
    else ((s.trigLayer t k e.layer).askPages e).placeTile k e) ∧
  (∀ (s : State) (k i : Nat) (t : Step) (a : Agent) (b : List Byte), s.atRecord k i 1 tileUses t a b → s.descOk t b = true →
    s.swapBarred t (fld b 2 2) = false →
    s.admits k (tileOfRec t a b) ((s.die k).readyNow (tileOfRec t a b) && !s.copyHeld k (tileOfRec t a b)) = false →
    exec (.progTile k i) s = .next (((s.modAgent k a.slot fun a => { a with stalled := true }).modDie k fun d => { d with
      tlStall := satAdd 32 d.tlStall 1 }).raise (.cd k) 5)) ∧
  (∀ (s : State) (k i : Nat) (t : Step) (a : Agent) (b : List Byte), s.power.held = false → s.nextRecord k i = some (t, a, b) → a.stalled = true →
    (∀ c ∈ (s.die k).ctxs, c.slot = i → c.later = [] ∧ ∀ x ∈ c.blocks, x.ctr ≠ noCtr) → s.descOk t b = true → s.swapBarred t (fld b 2 2) = false →
    s.admits k (tileOfRec t a b) ((s.die k).readyNow (tileOfRec t a b) && !s.copyHeld k (tileOfRec t a b)) = true →
    exec (.appendStallResume k i) s = .next (((s.appendTile t k (tileOfRec t a b)).nextRec k a.slot).modAgent k a.slot
      fun a => { a with nextSeq := a.nextSeq + 1 })) ∧
  (∀ (s : State) (k i : Nat) (t : Step) (a : Agent) (b : List Byte), s.atRecord k i 2 [(16, 2), (20, 3)] t a b → fld b 16 2 < slotCtrs →
    (∀ e ∈ (s.die k).tiles, ¬ (e.state = .waiting ∧ e.waitEn = true ∧ e.wait = a.ctrBase + fld b 16 2)) →
    exec (.progCounter k i) s = .next ((s.modDie k fun d => d.putCtr (a.ctrBase + fld b 16 2) (fld b 20 3 % 2 ^ 24)).nextRec k i)) ∧
  (∀ (s : State) (k i : Nat) (t : Step) (a : Agent) (b : List Byte), s.atRecord k i 3 moeUses t a b → s.ctxFull k i = false →
    exec (.progMoeCtx k i) s = .next (s.openCtx t k a b)) ∧
  (∀ (s : State) (k i : Nat) (t : Step) (a : Agent) (b : List Byte), s.atRecord k i 3 moeUses t a b → s.ctxFull k i = true →
    exec (.progMoeCtx k i) s = .next (s.modAgent k i fun a => { a with ctxWait := true })) ∧
  (∀ (s : State) (k i : Nat) (t : Step) (a : Agent) (b : List Byte), s.nextRecord k i = some (t, a, b) → a.ctxWait = true → s.ctxFull k i = false →
    s.power.held = false → exec (.moeCtxDeferredOpen k i) s = .next (s.openCtx t k a b)) ∧
  (∀ (s : State) (k i : Nat) (t : Step) (a : Agent) (b : List Byte), s.atRecord k i 4 [(16, 24)] t a b → bitOf (fld b 27 1) 7 = true →
    ((s.die k).merges.filter fun m => m.slot == i) = [] → (mergeOf a 0 b).parts ≠ 0 → (mergeOf a 0 b).parts ≤ 64 → fld b 34 2 < slotCtrs →
    exec (.progMerge k i) s = .next (((s.modDie k fun d => { d with merges := d.merges ++ [mergeOf a 0 b] }).setCtr k (mergeOf a 0 b).ctr
      (mergeOf a 0 b).parts).nextRec k i)) ∧
  (∀ (s : State) (k i : Nat) (t : Step) (a : Agent) (b : List Byte), s.atRecord k i 5 [(16, 4)] t a b → barrierTaken (fld b 16 2) = false →
    fld b 18 2 < slotCtrs →
    exec (.progBarrier k i) s = .next ((((s.modAgent k i fun x => { x with barriers := x.barriers ++ [(fld b 16 2, a.ctrBase + fld b 18 2)] }).modStep t.slice t.id
      fun t => { t with arrivedAt := t.arrivedAt ++ [(fld b 16 2, k)] }).nextRec k i).barrierReached t (fld b 16 2))) ∧
  (∀ (s : State) (k i : Nat) (t : Step) (a : Agent) (b : List Byte), s.atRecord k i 6 [(16, 5)] t a b → fld b 16 2 + fld b 18 2 ≤ 120 →
    ∃ u, exec (.progPoolmask k i) s = .next u ∧ ∀ j, j < (s.die k).cores.length → u.core k j =
      if fld b 16 2 ≤ j ∧ j < fld b 16 2 + fld b 18 2 then { s.core k j with mask := fld b 20 1 } else s.core k j) ∧
  (∀ (s : State) (k i : Nat) (t : Step) (a : Agent) (b : List Byte), s.atRecord k i 7 [(16, 4), (24, 6), (32, 4)] t a b → fld b 16 2 < slotGroups →
    s.inPool (fld b 24 6) (fld b 32 4) = true →
    exec (.progReduce k i) s = .next (((s.modWrite (fld b 24 6) (List.replicate (fld b 32 4) 0)).modDie k fun d => { d with
      groups := (d.groups.filter fun x => x.idx != a.grpBase + fld b 16 2) ++
        [{ idx := a.grpBase + fld b 16 2, slot := i, addr := fld b 24 6, bytes := fld b 32 4, members := fld b 18 2, poisoned := false }] }).nextRec k i)) ∧
  (∀ (s : State) (k i : Nat) (t : Step) (a : Agent) (b : List Byte), s.atRecord k i 8 [(16, 3), (20, 10), (32, 6), (40, 4)] t a b →
    (fld b 16 1 = 6 ∨ fld b 16 1 = 7) → fld b 17 1 < (s.slc t.slice).count → fld b 18 1 ≤ 7 → fld b 20 2 < slotCtrs → fld b 22 2 < slotCtrs →
    s.rangeOk (fld b 24 6) (fld b 40 4) = true →
    exec (.progSend k i) s = .next ((s.modAgent k i fun x => { x with sends := x.sends ++ [{ kind := fld b 16 1, member := fld b 17 1, die := fld b 18 1, dctr := a.ctrBase + fld b 20 2, lctr := a.ctrBase + fld b 22 2, layer := fld b 2 2, src := fld b 24 6, dst := fld b 32 6, bytes := fld b 40 4, sent := false }] }).nextRec k i)) ∧
  (∀ (s : State) (k i n : Nat) (t : Step) (a : Agent) (r : SendRec), s.stepAt i = some t → s.agentOf k i = some a → a.sends[n]? = some r → r.sent = false →
    (s.die k).ctr r.lctr = 0 → t.killing = none → s.power.held = false →
    ∃ u p, exec (.sendMessage k i n) s = .next u ∧
      u.tx = s.tx ++ [.dist p r.kind r.member r.die (s.envOf t k r.layer false) r.dst r.dctr [] (s.modRead r.src r.bytes)])

/-- Distributary messages (R160, R201 to R214): one that the module's dies sent is delivered once and in the order sent between two dies, any other
comes over a link; each lands on the die for the step and layer of its envelope, and decrements its counter.
Says that exec answers a next state for: count, grant, row, returnMsg, record, qrow, kvrow, nextRound.
Model's choices: log entries 33, 72, 99, 139. -/
def Obligations.DistributaryMessages : Prop :=
  (∀ (s u : State) (k : Nat) (e : Envelope) (l : List Nat) (t : Step), s.delivered k 1 e 0 0 l [] = some u → u.stepFor e = some t →
    e.pgen = (u.placeOf t).gen % 65536 → (u.die k).ctx t.slot e.layer = none → k < u.dies.length → (u.die k).heldBack = [] →
    (u.die k).earlyBytes + countBytes l ≤ 65536 →
    ∃ v, exec (.count k e l) s = .next v ∧ (v.die k).early = (u.die k).early ++ [(e, l)] ∧ (v.die k).heldBack = []) ∧
  -- beyond the 64 KiB of the early buffer the message is held back
  (∀ (s u : State) (k : Nat) (e : Envelope) (l : List Nat) (t : Step), s.delivered k 1 e 0 0 l [] = some u → u.stepFor e = some t →
    e.pgen = (u.placeOf t).gen % 65536 → (u.die k).ctx t.slot e.layer = none → k < u.dies.length → (u.die k).heldBack = [] →
    65536 < (u.die k).earlyBytes + countBytes l →
    ∃ v, exec (.count k e l) s = .next v ∧ (v.die k).early = (u.die k).early ∧ (v.die k).heldBack = [(e, l)]) ∧
  (∀ (s u : State) (k : Nat) (e : Envelope) (l : List Nat) (t : Step) (c : Ctx), s.delivered k 1 e 0 0 l [] = some u → u.stepFor e = some t →
    e.pgen = (u.placeOf t).gen % 65536 → (u.die k).ctx t.slot e.layer = some c → c.ownOpen = true → c.round = 0 →
    exec (.count k e l) s = .next ((u.modCtx k t.slot e.layer fun c => { c with counts := assocSet c.counts e.gsn l }).countCheck t k e.layer)) ∧
  -- what was delivered already, or waits behind an earlier message between its two dies, does not land
  (∀ (s : State) (k : Nat) (e : Envelope) (l : List Nat), s.delivered k 1 e 0 0 l [] = none → exec (.count k e l) s = .next s) ∧
  (∀ (s u : State) (k r : Nat) (e : Envelope) (off cr : Nat) (t : Step), s.delivered k 2 e r 0 [off, cr] [] = some u → u.stepFor e = some t →
    exec (.grant k e r [(off, cr)]) s = .next (u.sendRows t k e.layer (e.gsn / 8) (e.gsn % 8) 0 off cr)) ∧
  (∀ (s u : State) (k q : Nat) (e : Envelope) (x : List Byte) (t : Step) (c : Ctx) (b : RowBlk), s.delivered k 3 e q 0 [] x = some u →
    u.stepFor e = some t → e.pgen = (u.placeOf t).gen % 65536 →
    (u.die k).ctx t.slot e.layer = some c → c.blocks.find? (fun b => decide (b.first ≤ q) && decide (q < b.first + b.rows)) = some b →
    (∀ r ∈ c.arrivedRows, r.qslot ≠ q) → b.ctr ≠ noCtr →
    exec (.row k e q x) s = .next ((((u.modWrite (c.qAddr q) x).modCtx k t.slot e.layer fun c => { c with arrivedRows := c.arrivedRows ++
      [{ qslot := q, lslot := b.lslot, srcGsn := e.gsn, returned := false }] }).decCtr k b.ctr).distSend k)) ∧
  (∀ (s u : State) (k a c : Nat) (e : Envelope) (x : List Byte) (t : Step), s.delivered k 4 e a c [] x = some u → u.stepFor e = some t →
    exec (.returnMsg k e a c x) s = .next ((((u.modWrite (a + 64) x).decCtr k c).distSend k).sourceCheck k t.slot e.layer)) ∧
  (∀ (s u : State) (k n p : Nat) (e : Envelope) (x : List Byte) (t : Step) (m : MergeEnt), s.delivered k 5 e n p [] x = some u → u.stepFor e = some t →
    (u.die k).merge n = some m → p < m.parts →
    exec (.record k e n p x) s = .next (((u.modWrite (m.recAddr + p * m.recBytes) x).recordIn k n p).distSend k)) ∧
  (∀ (s u : State) (k a c : Nat) (e : Envelope) (x : List Byte) (t : Step), s.delivered k 6 e a c [] x = some u → u.stepFor e = some t →
    exec (.qrow k e a c x) s = .next (((u.modWrite a x).decCtr k c).distSend k)) ∧
  (∀ (s u : State) (k a c : Nat) (e : Envelope) (x : List Byte) (t : Step), s.delivered k 7 e a c [] x = some u → u.stepFor e = some t →
    exec (.kvrow k e a c x) s = .next (((u.modWrite a x).decCtr k c).distSend k)) ∧
  (∀ (s : State) (k i l g v : Nat) (c : Ctx) (t : Step), (s.die k).ctx i l = some c → s.stepAt i = some t → 0 < c.round → c.ownOpen = true →
    (∀ b ∈ c.blocks, b.sent = true) → c.rem = [(g, [v + 1])] → exec (.nextRound k i l) s = .next (s.grantRound t k c))

/-- Spilled pages (R185 to R189, R318): a pool short of free frames spills its pages one at a time, a page comes back into a free frame and is LIVE
when its bytes match SPILL_CRC, and is read once more when they do not.
Says that exec answers a next state for: spillStart, spillWriteDone, pageReturnStart, pageReturnDone, quotaReturn.
Model's choices: log entries 66, 110, 129, 130. -/
def Obligations.SpilledPages : Prop :=
  (∀ (s : State) (i : Nat) (p : Pool), s.pool i = some p → p.target ≠ 0 → p.stalled = false → p.freeFrames < p.lowFree →
    exec (.spillStart i) s = .next ((s.modPool i fun p => { p with spilling := true }).spillNext i)) ∧
  (∀ (s u : State) (i g tier loc : Nat) (o : Obj) (p : Pool), s.obj i = some o → o.pool = some p → p.spillTo = some (tier, loc) →
    (p.page g).spillAct = true → (tier = 2 → s.flash.ready = true ∧ s.flash.paused = []) → (p.page g).pins = 0 →
    (p.page g).refcnt ≠ 0 → (p.page g).state = .live →
    s.spillWrite p i g tier loc (Memory.read s.mem (o.frameAddr p (p.page g).frame 0) p.pageBytes) = some u →
    exec (.spillWriteDone i g) s = .next (((u.modPage i g fun d => { d with
      spillAct := false, state := .spilled, spillTier := tier, spillLoc := loc,
      spillCrc := crc32c (Memory.read s.mem (o.frameAddr p (p.page g).frame 0) p.pageBytes), retried := false, lost := false }).modPool i fun p => { p with
        spillTo := none }).spillNext i)) ∧
  (∀ (s u : State) (i g f : Nat) (p : Pool), s.pool i = some p → (∀ x ∈ p.demand, (p.page x).state = .spilled) →
    (s.modPool i fun _ => p).nextReturn i p = some g → (s.modPool i fun _ => p).choose p.freeFrameList = (some f, u) →
    exec (.pageReturnStart i g) s = .next (((if (p.page g).spillTier = 2 then u.readExt (p.demand.contains g) i g else u).modPage i g fun d => { d with
      frame := f, state := .arriving }).modPool i fun p => { p with demand := p.demand.filter fun x => x != g })) ∧
  (∀ (s : State) (i g : Nat) (o : Obj) (p : Pool) (b : List Byte), s.obj i = some o → o.pool = some p → (p.page g).state = .arriving → (p.page g).refcnt ≠ 0 →
    s.spillRead i p g = some b → crc32c b = (p.page g).spillCrc → s.steps = [] →
    exec (.pageReturnDone i g true) s = .next (((s.modWrite (o.frameAddr p (p.page g).frame 0) b).modPage i g fun d => { d with state := .live }).dropSpill i g)) ∧
  (∀ (s : State) (i g : Nat) (o : Obj) (p : Pool) (b : List Byte), s.obj i = some o → o.pool = some p → (p.page g).state = .arriving → (p.page g).refcnt ≠ 0 →
    s.spillRead i p g = some b → (p.page g).retried = false →
    exec (.pageReturnDone i g false) s = .next ((if (p.page g).spillTier = 2 then s.readExt false i g else s).modPage i g fun d => { d with retried := true })) ∧
  (∀ (s : State) (i : Nat) (p : Pool), s.pool i = some p → p.stalled = true → p.target = 2 → s.flash.ready = true → s.flashTakes p = true →
    exec (.quotaReturn i) s = .next (((({ s.modPool i (fun p => { p with stalled := false, spilling := true }) with spillPool := i } : State).raise .spill 1).spillNext i)))

/-- What register accesses leave as it was: everything but the parts named, memory and every other register with it. -/
def Obligations.RegisterFrame : Prop :=
  (∀ (s t : State) (m : Master) (blk : PwBlk), exec (.accDropClear m blk) s = .next t → t = { s with accs := t.accs }) ∧
  (∀ (s t : State) (m : Master), exec (.snapRearm m) s = .next t → t = { s with snap := t.snap }) ∧
  (∀ (s t : State) (m : Master), exec (.snapTrig m) s = .next t → t = { s with snap := t.snap, tx := t.tx }) ∧
  (∀ (s t : State) (m : Master) (manifest : Bool), exec (.allowlistAdd m manifest) s = .next t → t = { s with sq := t.sq, sec := t.sec } ∧ t.sec = { s.sec with palAl := t.sec.palAl, manAl := t.sec.manAl, full := t.sec.full, log := t.sec.log, logCount := t.sec.logCount, logLost := t.sec.logLost, aggregate := t.sec.aggregate }) ∧
  (∀ (s t : State) (m : Master) (manifest : Bool), exec (.allowlistRemove m manifest) s = .next t → t = { s with sq := t.sq, sec := t.sec } ∧ t.sec = { s.sec with palAl := t.sec.palAl, manAl := t.sec.manAl, log := t.sec.log, logCount := t.sec.logCount, logLost := t.sec.logLost, aggregate := t.sec.aggregate }) ∧
  (∀ (s t : State) (m : Master) (manifest : Bool), exec (.allowlistClear m manifest) s = .next t → t = { s with sq := t.sq, sec := t.sec } ∧ t.sec = { s.sec with palAl := t.sec.palAl, manAl := t.sec.manAl, log := t.sec.log, logCount := t.sec.logCount, logLost := t.sec.logLost, aggregate := t.sec.aggregate }) ∧
  (∀ (s t : State) (m : Master) (slot : Nat), exec (.keyRevoke m slot) s = .next t → t = { s with sq := t.sq, sec := t.sec } ∧ t.sec = { s.sec with revoked := t.sec.revoked, log := t.sec.log, logCount := t.sec.logCount, logLost := t.sec.logLost, aggregate := t.sec.aggregate }) ∧
  (∀ (s t : State) (m : Master), exec (.svnCommit m) s = .next t → t = { s with sq := t.sq, sec := t.sec } ∧ t.sec = { s.sec with svn := t.sec.svn, log := t.sec.log, logCount := t.sec.logCount, logLost := t.sec.logLost, aggregate := t.sec.aggregate }) ∧
  (∀ (s t : State) (m : Master) (off : Nat) (v : W32), exec (.pwWrite m off v) s = .next t → t = { s with accs := t.accs, accNo := t.accNo }) ∧
  (∀ (s t : State), exec .registerScrub s = .next t → t = { s with regFix := t.regFix, upsets := t.upsets }) ∧
  (∀ (s t : State) (m : Master) (r : SqReg), exec (.sqEventRead m r) s = .next t → t = { s with sq := t.sq, tx := t.tx }) ∧
  (∀ (s t : State) (m : Master) (r : SqReg) (v : W32), exec (.sqEventClear m r v) s = .next t → t = { s with sq := t.sq, seqMiss := t.seqMiss }) ∧
  (∀ (s t : State) (m : Master) (off : Nat) (v : W32), exec (.bfWrite m off v) s = .next t → t = { s with msPortA := t.msPortA, msPortB := t.msPortB, msSide := t.msSide, msEasel := t.msEasel } ∧ ∀ n, n ≠ m → t.master n = s.master n) ∧
  (∀ (s t : State) (m : Master), exec (.cfgCommitDiscard m) s = .next t → t = { s with msPortA := t.msPortA, msPortB := t.msPortB, msSide := t.msSide, msEasel := t.msEasel } ∧ ∀ n, n ≠ m → t.master n = s.master n) ∧
  (∀ (s t : State) (m : Master), exec (.cfgCommitGo m) s = .next t → t = { s with msPortA := t.msPortA, msPortB := t.msPortB, msSide := t.msSide, msEasel := t.msEasel, accNo := t.accNo }) ∧
  (∀ (s t : State) (m : Master), exec (.timeLoRead m) s = .next t → t = { s with msPortA := t.msPortA, msPortB := t.msPortB, msSide := t.msSide, msEasel := t.msEasel, tx := t.tx } ∧ ∀ n, n ≠ m → t.master n = s.master n) ∧
  (∀ (s t : State) (m : Master) (off : Nat), exec (.lockSet m off) s = .next t → t = { s with lkIgnore := t.lkIgnore, links := t.links, coord := t.coord, sec := t.sec } ∧ (∀ n, { t.link n with lock := (s.link n).lock } = s.link n) ∧ { t.coord with lock := s.coord.lock } = s.coord ∧ { t.sec with lock := s.sec.lock } = s.sec)

/-- What port, pin, clock and monitor events of one part leave as it was: everything but the parts named; an event of one port leaves the other
port. -/
def Obligations.PinAndPortFrame : Prop :=
  (∀ (s t : State) (p : Port), exec (.d3hotExit p) s = .next t → t = { s with pa := t.pa, pb := t.pb } ∧ ∀ q, q ≠ p → t.port q = s.port q) ∧
  (∀ (s t : State) (p : Port), exec (.perstDeassert p) s = .next t → t = { s with pa := t.pa, pb := t.pb } ∧ ∀ q, q ≠ p → t.port q = s.port q) ∧
  (∀ (s t : State) (p : Port) (v : W32), exec (.sqTailWrite p v) s = .next t → t = { s with pa := t.pa, pb := t.pb } ∧ ∀ q, q ≠ p → t.port q = s.port q) ∧
  (∀ (s t : State) (p : Port), exec (.coalTimerExpire p) s = .next t → t = { s with pa := t.pa, pb := t.pb, tx := t.tx }) ∧
  (∀ (s t : State) (p : Port) (r : CfgReq), exec (.configurationRequest p r) s = .next t → t = { s with fresh := t.fresh, pa := t.pa, pb := t.pb } ∧ ∀ q, q ≠ p → t.port q = s.port q) ∧
  (∀ (s t : State) (p : Port) (off n : Nat), exec (.bar4Read p off n) s = .next t → t = { s with pa := t.pa, pb := t.pb, tx := t.tx }) ∧
  (∀ (s t : State) (p : Port) (nonce : List Byte), exec (.spdmRequest p nonce) s = .next t → t = { s with sec := t.sec } ∧ t.sec = { s.sec with rpts := t.sec.rpts }) ∧
  (∀ (s t : State) (addr : Nat), exec (.dynamicAddressAssign addr) s = .next t → t = { s with side := t.side }) ∧
  (∀ (s t : State), exec .dynamicAddressReset s = .next t → t = { s with side := t.side }) ∧
  (∀ (s t : State), exec .sidebandBusStuck s = .next t → t = { s with side := t.side }) ∧
  (∀ (s t : State), exec .sidebandLinesHigh s = .next t → t = { s with side := t.side }) ∧
  (∀ (s t : State) (ir : Nat), exec (.tapInstruction ir) s = .next t → t = { s with side := t.side, tx := t.tx }) ∧
  (∀ (s t : State), exec .faultPulseEnd s = .next t → t = { s with health := t.health }) ∧
  (∀ (s t : State), exec .healthMessage s = .next t → t = { s with health := t.health, tx := t.tx }) ∧
  (∀ (s t : State), exec .healthRepeatTimer s = .next t → t = { s with tx := t.tx }) ∧
  (∀ (s t : State), exec .ceSample s = .next t → t = { s with sq := t.sq, health := t.health, tx := t.tx }) ∧
  (∀ (s t : State), exec .stillOutPulseEnd s = .next t → t = { s with snap := t.snap }) ∧
  (∀ (s t : State) (highNs : Nat), exec (.stillInFall highNs) s = .next t → t = { s with snap := t.snap, tx := t.tx }) ∧
  (∀ (s t : State) (tag origin capNo : Nat), exec (.stillToken tag origin capNo) s = .next t → t = { s with snap := t.snap, tx := t.tx }) ∧
  (∀ (s t : State) (die : Nat), exec (.droopTrip die) s = .next t → t = { s with mon := t.mon }) ∧
  (∀ (s t : State), exec .inputSag s = .next t → t = { s with sq := t.sq, power := t.power }) ∧
  (∀ (s t : State) (p1ms p10ms v1ms : Nat) (coresFull : Bool), exec (.millpondTick p1ms p10ms v1ms coresFull) s = .next t → t = { s with fresh := t.fresh, sq := t.sq, dies := t.dies, power := t.power }) ∧
  (∀ (s t : State), exec .voltageStageSettle s = .next t → t = { s with fresh := t.fresh, sq := t.sq, dies := t.dies, power := t.power }) ∧
  (∀ (s t : State) (r : Rail), exec (.phaseFail r) s = .next t → t = { s with fresh := t.fresh, sq := t.sq, dies := t.dies, power := t.power, health := t.health, nor := t.nor, tx := t.tx }) ∧
  (∀ (s t : State), exec .refClockLoss s = .next t → t = { s with clk := t.clk }) ∧
  (∀ (s t : State), exec .refClockReturn s = .next t → t = { s with sq := t.sq, clk := t.clk }) ∧
  (∀ (s t : State), exec .flashResetDone s = .next t → t = { s with sq := t.sq, flash := t.flash, clk := t.clk }) ∧
  (∀ (s t : State) (die : Nat), exec (.dieResetDone die) s = .next t → t = { s with sq := t.sq, dies := t.dies }) ∧
  (∀ (s t : State), exec .lockstepMismatch s = .next t → t = { s with fresh := t.fresh, sq := t.sq, health := t.health, nor := t.nor, snap := t.snap, tx := t.tx }) ∧
  (∀ (s t : State), exec .easelSramError s = .next t → t = { s with fresh := t.fresh, sq := t.sq, health := t.health, nor := t.nor, snap := t.snap, tx := t.tx })

/-- What flash and link events leave as it was: everything but the parts named; a credit flit of one link leaves the others, a mismatch of one group
the others. -/
def Obligations.FlashAndLinkFrame : Prop :=
  (∀ (s t : State) (die block corrected : Nat), exec (.flashScrubPass die block corrected) s = .next t → t = { s with sq := t.sq, flash := t.flash }) ∧
  (∀ (s t : State) (die : Nat), exec (.nandOpDone die) s = .next t → t = { s with flash := t.flash }) ∧
  (∀ (s t : State) (pkg : Nat), exec (.nandTempOk pkg) s = .next t → t = { s with fresh := t.fresh, flash := t.flash }) ∧
  (∀ (s t : State) (pkg : Nat), exec (.nandOvertemp pkg) s = .next t → t = { s with fresh := t.fresh, sq := t.sq, flash := t.flash }) ∧
  (∀ (s t : State) (die block reads : Nat), exec (.readDisturbDue die block reads) s = .next t → t = { s with sq := t.sq, flash := t.flash }) ∧
  (∀ (s t : State) (minutes : Nat), exec (.thermalAgeTick minutes) s = .next t → t = { s with fresh := t.fresh, sq := t.sq, flash := t.flash }) ∧
  (∀ (s t : State), exec .ftlReady s = .next t → t = { s with fresh := t.fresh, sq := t.sq, objs := t.objs, flash := t.flash, health := t.health, tx := t.tx }) ∧
  (∀ (s t : State) (obj : Nat), exec (.departWriteoutDone obj) s = .next t → t = { s with fresh := t.fresh, objs := t.objs, flash := t.flash }) ∧
  (∀ (s t : State) (obj tile : Nat), exec (.twinTileRequest obj tile) s = .next t → t = { s with fresh := t.fresh, sq := t.sq, flash := t.flash, tx := t.tx }) ∧
  (∀ (s t : State) (group stripe : Nat) (persists : Bool) (unit : Option Nat), exec (.patrolScrubMismatch group stripe persists unit) s = .next t → t = { s with grps := t.grps } ∧ ∀ n, n ≠ group → t.grp n = s.grp n) ∧
  (∀ (s t : State) (link ack c0 c1 c2 : Nat), exec (.creditReceived ⟨link, ack⟩ c0 c1 c2) s = .next t → t = { s with links := t.links, tx := t.tx }) ∧
  (∀ (s t : State) (link : Nat), exec (.creditTimer link) s = .next t → t = { s with links := t.links, tx := t.tx } ∧ ∀ n, n ≠ link → t.link n = s.link n) ∧
  (∀ (s t : State) (p : Packet), exec (.packetRoute p) s = .next t → t = { s with sq := t.sq, links := t.links, router := t.router, tx := t.tx }) ∧
  (∀ (s t : State), exec .transitWindow s = .next t → t = { s with sq := t.sq, links := t.links, router := t.router, tx := t.tx }) ∧
  (∀ (s t : State) (link : Nat) (f : Flit) (intact : Bool), exec (.dataFlitReceived link f intact) s = .next t → t = { s with fresh := t.fresh, sq := t.sq, links := t.links, router := t.router, tx := t.tx }) ∧
  (∀ (s t : State) (m : SliceMsg), exec (.join m) s = .next t → t = { s with slices := t.slices, joinQ := t.joinQ, tx := t.tx })

/-- What tile-list, program and page events leave as it was: everything but the parts named, the module's memory and host memory with it; an event
of one die leaves the others. -/
def Obligations.TileAndPageFrame : Prop :=
  (∀ (s t : State) (die core engine cell : Nat), exec (.gtForceTimer die core engine cell) s = .next t → t = { s with dies := t.dies } ∧ ∀ n, n ≠ die → t.die n = s.die n) ∧
  (∀ (s t : State) (die core : Nat), exec (.heartbeat die core) s = .next t → t = { s with dies := t.dies } ∧ ∀ n, n ≠ die → t.die n = s.die n) ∧
  (∀ (s t : State) (die core : Nat), exec (.paletteSlotLoadDone die core) s = .next t → t = { s with dies := t.dies } ∧ ∀ n, n ≠ die → t.die n = s.die n) ∧
  (∀ (s t : State) (slice stepId : Nat), exec (.preparedSend slice stepId) s = .next t → t = { s with steps := t.steps, tx := t.tx }) ∧
  (∀ (s t : State) (die slot idx : Nat), exec (.sendMessage die slot idx) s = .next t → t = { s with dies := t.dies, noc := t.noc, tx := t.tx }) ∧
  (∀ (s t : State) (die entry : Nat), exec (.failedTileDecide die entry) s = .next t → t = { s with steps := t.steps, dies := t.dies, tx := t.tx }) ∧
  (∀ (s t : State) (die entry : Nat), exec (.nopTileComplete die entry) s = .next t → t = { s with steps := t.steps, dies := t.dies, noc := t.noc, tx := t.tx }) ∧
  (∀ (s t : State) (die entry : Nat), exec (.unpackRereadDone die entry) s = .next t → t = { s with steps := t.steps, dies := t.dies, tx := t.tx }) ∧
  (∀ (s t : State) (die slot : Nat), exec (.moeCtxDeferredOpen die slot) s = .next t → t = { s with sq := t.sq, objs := t.objs, pfNo := t.pfNo, steps := t.steps, dies := t.dies, noc := t.noc, tx := t.tx }) ∧
  (∀ (s t : State) (die slot layer : Nat), exec (.nextRound die slot layer) s = .next t → t = { s with sq := t.sq, objs := t.objs, pfNo := t.pfNo, steps := t.steps, dies := t.dies, noc := t.noc, tx := t.tx }) ∧
  (∀ (s t : State) (die slot : Nat), exec (.appendStallResume die slot) s = .next t → t = { s with sq := t.sq, objs := t.objs, pfNo := t.pfNo, steps := t.steps, dies := t.dies, tx := t.tx }) ∧
  (∀ (s t : State) (pool page : Nat), exec (.pageReturnStart pool page) s = .next t → t = { s with fresh := t.fresh, sq := t.sq, objs := t.objs, flash := t.flash }) ∧
  (∀ (s t : State) (pool : Nat), exec (.spillStart pool) s = .next t → t = { s with fresh := t.fresh, sq := t.sq, objs := t.objs, spillPool := t.spillPool, flash := t.flash }) ∧
  (∀ (s t : State) (pool : Nat), exec (.quotaReturn pool) s = .next t → t = { s with fresh := t.fresh, sq := t.sq, objs := t.objs, spillPool := t.spillPool, flash := t.flash })

/-- What a ring command leaves as it was when its turn has come: everything but what posting completions changes and the parts named for it; the
module's memory is unchanged by every one of them but those with which the last step may end, so that a waiting change of GRP_CFG takes effect.
Model's choices: log entry 6. -/
def Obligations.RingCommandFrame : Prop :=
  ∀ (s t : State) (src : Src) (b : List Byte), s.turn src = true → b.length = 112 →
    (exec (.objPin src b) s = .next t → t = { s.posted t with objs := t.objs, flash := t.flash } ∧ ∀ i, i ≠ fld b 0 4 → t.obj i = s.obj i) ∧
    (exec (.objUnpin src b) s = .next t → t = { s.posted t with objs := t.objs } ∧ ∀ i, i ≠ fld b 0 4 → t.obj i = s.obj i) ∧
    (exec (.objQuery src b) s = .next t → t = s.posted t) ∧
    (exec (.objCreate src b) s = .next t → t = { s.posted t with fresh := t.fresh, objs := t.objs, sysExts := t.sysExts, flash := t.flash }) ∧
    (exec (.objLoadHost src b) s = .next t → t = { s.posted t with objs := t.objs, flash := t.flash }) ∧
    (exec (.objStageFlash src b) s = .next t → t = { s.posted t with fresh := t.fresh, objs := t.objs, flash := t.flash }) ∧
    (exec (.objPromote src b) s = .next t → t = { s.posted t with objs := t.objs, flash := t.flash }) ∧
    (exec (.objEvict src b) s = .next t → t = { s.posted t with fresh := t.fresh, objs := t.objs, sysExts := t.sysExts, dies := t.dies, flash := t.flash }) ∧
    (exec (.modelBind src b) s = .next t → t = { s.posted t with fresh := t.fresh, sysExts := t.sysExts, models := t.models, sec := t.sec }) ∧
    (exec (.viewSwitch src b) s = .next t → t = { s.posted t with fresh := t.fresh, objs := t.objs, sysExts := t.sysExts, models := t.models, dies := t.dies, flash := t.flash, sec := t.sec }) ∧
    (exec (.layerSwap src b) s = .next t → t = { s.posted t with fresh := t.fresh, objs := t.objs, sysExts := t.sysExts, models := t.models, dies := t.dies, flash := t.flash, sec := t.sec }) ∧
    (exec (.modelRelease src b) s = .next t → t = { s.posted t with fresh := t.fresh, objs := t.objs, sysExts := t.sysExts, pfEnts := t.pfEnts, models := t.models, dies := t.dies, flash := t.flash }) ∧
    (exec (.sliceJoin src b) s = .next t → t = { s.posted t with slices := t.slices, joinQ := t.joinQ }) ∧
    (exec (.sliceLeave src b) s = .next t → t = { s.posted t with fresh := t.fresh, now := t.now, mem := t.mem, msPortA := t.msPortA, msPortB := t.msPortB, msSide := t.msSide, msEasel := t.msEasel, objs := t.objs, sysExts := t.sysExts, pfEnts := t.pfEnts, seqs := t.seqs, spillPool := t.spillPool, models := t.models, slices := t.slices, steps := t.steps, mst := t.mst, tenQ := t.tenQ, tenC := t.tenC, curTenant := t.curTenant, lastTenant := t.lastTenant, turnStart := t.turnStart, turnEnd := t.turnEnd, turnSteps := t.turnSteps, dies := t.dies, grps := t.grps, flash := t.flash, power := t.power, health := t.health, snap := t.snap }) ∧
    (exec (.routeLoad src b) s = .next t → t = { s.posted t with slices := t.slices, router := t.router }) ∧
    (exec (.stepSubmit src b) s = .next t → t = { s.posted t with fresh := t.fresh, now := t.now, mem := t.mem, msPortA := t.msPortA, msPortB := t.msPortB, msSide := t.msSide, msEasel := t.msEasel, objs := t.objs, sysExts := t.sysExts, pfEnts := t.pfEnts, seqs := t.seqs, commitNo := t.commitNo, spillPool := t.spillPool, models := t.models, slices := t.slices, steps := t.steps, mst := t.mst, tenQ := t.tenQ, tenC := t.tenC, curTenant := t.curTenant, lastTenant := t.lastTenant, turnStart := t.turnStart, turnEnd := t.turnEnd, turnSteps := t.turnSteps, dies := t.dies, grps := t.grps, flash := t.flash, power := t.power, health := t.health, snap := t.snap }) ∧
    (exec (.stepKill src b) s = .next t → t = { s.posted t with steps := t.steps }) ∧
    (exec (.seqOpen src b) s = .next t → t = { s.posted t with objs := t.objs, seqs := t.seqs }) ∧
    (exec (.seqClose src b) s = .next t → t = { s.posted t with fresh := t.fresh, objs := t.objs, sysExts := t.sysExts, pfEnts := t.pfEnts, seqs := t.seqs, spillPool := t.spillPool, flash := t.flash }) ∧
    (exec (.pageShare src b) s = .next t → t = { s.posted t with objs := t.objs, seqs := t.seqs }) ∧
    (exec (.prefetchSched src b) s = .next t → t = { s.posted t with fresh := t.fresh, objs := t.objs, sysExts := t.sysExts, pfEnts := t.pfEnts, pfNo := t.pfNo, dies := t.dies }) ∧
    (exec (.spillPolicy src b) s = .next t → t = { s.posted t with objs := t.objs, spillPool := t.spillPool }) ∧
    (exec (.paletteLoad src b) s = .next t → t = { s.posted t with dies := t.dies, pals := t.pals, sec := t.sec }) ∧
    (exec (.stateDump src b) s = .next t → t = s.posted t) ∧
    (exec (.snapRead src b) s = .next t → t = s.posted t) ∧
    (exec (.fwUpdate src b) s = .next t → t = { s.posted t with fresh := t.fresh, now := t.now, mem := t.mem, sysExts := t.sysExts, tenQ := t.tenQ, grps := t.grps, flash := t.flash, power := t.power, sec := t.sec }) ∧
    (exec (.attest src b) s = .next t → t = { s.posted t with sec := t.sec }) ∧
    (exec (.devInfo src b) s = .next t → t = s.posted t) ∧
    (exec (.resetScope src b) s = .next t → t = { s.posted t with dies := t.dies, flash := t.flash, clk := t.clk }) ∧
    (exec (.powerPolicy src b) s = .next t → t = { s.posted t with fresh := t.fresh, now := t.now, mem := t.mem, msPortA := t.msPortA, msPortB := t.msPortB, msSide := t.msSide, msEasel := t.msEasel, objs := t.objs, sysExts := t.sysExts, pfEnts := t.pfEnts, seqs := t.seqs, spillPool := t.spillPool, models := t.models, slices := t.slices, steps := t.steps, mst := t.mst, tenQ := t.tenQ, tenC := t.tenC, curTenant := t.curTenant, lastTenant := t.lastTenant, turnStart := t.turnStart, turnEnd := t.turnEnd, turnSteps := t.turnSteps, dies := t.dies, grps := t.grps, flash := t.flash, power := t.power, health := t.health, snap := t.snap })

/-- A step runs the command at the front of the queue on the state with the queue's rest.
Model's choices: log entry 113. -/
def Obligations.StepRunsTheFrontCommand : Prop :=
  ∀ (s : State) (c : Instr) (rest : List Instr), step { s with pending := c :: rest } = exec c { s with pending := rest }

/-- On an empty queue one SLOW cycle of the module counter passes outside module reset (R439; that a step is one cycle is the model's choice, log
entry 1), and nothing passes in reset.
Model's choices: log entry 1. -/
def Obligations.EmptyQueueCountsOneTick : Prop :=
  (∀ (s : State), s.pending = [] → s.clk.inReset = false → step s = .next { s with now := s.now + 1 }) ∧
  (∀ (s : State), s.pending = [] → s.clk.inReset = true → step s = .next s)

/-- The table spells no command with bits: every word answers none, and asking changes nothing.
Model's choices: log entry 5. -/
def Obligations.TableWordsSpellNothing : Prop :=
  ∀ (s : State) (n w : Nat), decodeTableWord n w = none ∧ s.withFetchWord n w = s

/-- The machine after reset holds the reset values that the spec gives: the power, health, flash, coordinate and Still registers, every link in
WAIT_COORD, every port down with NEXT_CSEQ 1, pool mask 1 in every core, nothing in the queue. -/
def Obligations.ResetValues : Prop :=
  State.reset.pending = [] ∧ State.reset.clk.inReset = true ∧ State.reset.clk.stage = 0 ∧ State.reset.clk.cause = 0 ∧
  (State.reset.power.rackCap, State.reset.power.hostCap, State.reset.power.orphanCap, State.reset.power.hbMs) = (4000, 4000, 2800, 2000) ∧
  (State.reset.power.bandHi, State.reset.power.slew, State.reset.power.effCap, State.reset.power.capSrc) = (4000, 1000, 4000, 0) ∧
  State.reset.health.state = 0 ∧ State.reset.health.cause = 0 ∧ State.reset.flash.ready = false ∧ State.reset.flash.quota = 8192 ∧
  State.reset.flash.bgPct = 5 ∧ State.reset.mon.cMin = 140 ∧ State.reset.coord.valid = false ∧ State.reset.coord.foldMask = 0x3F ∧
  State.reset.snap.armed = true ∧ State.reset.snap.prop = true ∧ State.reset.snap.valid = false ∧ State.reset.snap.faultEn = 0x10 ∧
  (∀ p, State.reset.down p = true ∧ (State.reset.port p).nextCseq = 1 ∧ (State.reset.port p).ring = none ∧ (State.reset.port p).bar4Log2 = 34) ∧
  (∀ i, i < 30 → (State.reset.link i).state = .waitCoord ∧ (State.reset.link i).en = true) ∧
  (∀ g, g < 16 → (State.reset.grp g).protGib = 8) ∧ (∀ k j, k < 8 → j < 120 → (State.reset.core k j).mask = 1) ∧ State.reset.sec.manEnf = false ∧
  State.reset.sec.aggregate = List.replicate 32 0 ∧ State.reset.objs = [] ∧ State.reset.steps = [] ∧ State.reset.commitNo = 0

/-- Reset meets what every step keeps.
Model's choices: log entries 2, 4. -/
def Obligations.ResetMeetsTheInvariants : Prop :=
  State.reset.memOk = true ∧ State.reset.shapeOk = true ∧ State.reset.sec.keysOk = true

/-- Every step keeps the module's memory and both hosts' memories in canonical form, so that memories that read alike are equal.
Model's choices: log entry 2. -/
def Obligations.EveryStepKeepsMemoryCanonical : Prop :=
  ∀ (s t : State), s.memOk = true → step s = .next t → t.memOk = true

/-- Every step keeps the parts that the module has: 8 compute dies, 22 die-to-die ports, 8 slice handles, 256 channels in 16 groups, 30 links. -/
def Obligations.EveryStepKeepsTheParts : Prop :=
  ∀ (s t : State), s.shapeOk = true → step s = .next t → t.shapeOk = true

/-- Fuses only burn (Table 23-1, R514, R515): whatever the command, the identity and key fuses stay as they are, the SVN count never falls, a revoked
key slot stays revoked, and a key slot of each kind stays unrevoked. -/
def Obligations.FusesOnlyBurn : Prop :=
  ∀ (s t : State), step s = .next t → t.sec.fixedFuses = s.sec.fixedFuses ∧ s.sec.svn ≤ t.sec.svn ∧
    t.sec.revoked ||| s.sec.revoked = t.sec.revoked ∧ (s.sec.keysOk = true → t.sec.keysOk = true)

/-- Every command goes on to a next state, and leaves the queue of waiting commands alone.
Model's choices: log entry 71. -/
def Obligations.EveryCommandGoesOn : Prop :=
  ∀ (c : Instr) (s : State), ∃ t, exec c s = .next t ∧ t.pending = s.pending

/-- Completions (R399 to R401, Table 17-2): a ring command's completion takes the next value of its origin's counter, whether it is posted, held or
dropped; a ring that can take it has the 64 bytes at its post index and goes on by one; with 4,096 held it is dropped and counted.
Model's choices: log entries 11, 142. -/
def Obligations.CompletionsArePosted : Prop :=
  (∀ (s : State) (r : Ref) (st : Nat) (x : List Byte) (l : Bool) (nm : Option Blame), s.health.failed = false → r.src.mailbox = false →
    ((s.finishWith r st x l nm).port r.src.port).nextCseq = nextCseq (s.port r.src.port).nextCseq) ∧
  (∀ (s : State) (r : Ref) (st : Nat) (x : List Byte) (l : Bool) (nm : Option Blame) (g : Ring), s.health.failed = false → r.src.mailbox = false → r.slot = none →
    s.memOk = true → (s.port r.src.port).ring = some g → (s.port r.src.port).canPost = true → (s.port r.src.port).held = [] →
    Memory.read ((s.finishWith r st x l nm).hostMem r.src.port) (g.cqAddr + 64 * g.post) 64 =
      ({ tag := r.src.tag, cseq := (s.port r.src.port).nextCseq, status := st, opcode := r.opcode, orig := r.src.port, held := false, hostLost := l,
         result := padTo 48 x, slot := none, names := nm } : Cpl).bytes g.phase ∧
    ∃ g', ((s.finishWith r st x l nm).port r.src.port).ring = some g' ∧ g'.post = (g.post + 1) % 2 ^ g.cqLog2 ∧
      g'.phase = (if g'.post = 0 then !g.phase else g.phase)) ∧
  (∀ (s : State) (r : Ref) (st : Nat) (x : List Byte) (l : Bool) (nm : Option Blame), s.health.failed = false → r.src.mailbox = false → r.slot = none →
    (s.port r.src.port).ring = none → (s.port r.src.port).held.length < 4096 →
    ((s.finishWith r st x l nm).port r.src.port).held.length = (s.port r.src.port).held.length + 1) ∧
  (∀ (s : State) (r : Ref) (st : Nat) (x : List Byte) (l : Bool) (nm : Option Blame), s.health.failed = false → r.src.mailbox = false → r.slot = none →
    (s.port r.src.port).ring = none → 4096 ≤ (s.port r.src.port).held.length →
    ((s.finishWith r st x l nm).port r.src.port).held = (s.port r.src.port).held ∧
    ((s.finishWith r st x l nm).port r.src.port).cplDrop = satAdd 16 (s.port r.src.port).cplDrop 1)

/-- R313: a read that needs 8 or more corrected bits in a codeword makes its block due for relocation at once, whatever its counts.
Says that exec answers a next state for: flashScrubPass. -/
def Obligations.EightCorrectedBitsMakeABlockDue : Prop :=
  (∀ (s : State) (d b n : Nat), d < 128 → b < 4096 → 8 ≤ n → ∃ t, exec (.flashScrubPass d b n) s = .next t ∧
    (∃ k ∈ t.flash.blocks, k.die = d ∧ k.block = b) ∧ ∀ k ∈ t.flash.blocks, k.die = d → k.block = b → k.due = true) ∧
  -- any other read of the log: its corrected bits are the NAND's own (log entry 62)
  (∀ (s : State) (demand : Bool) (n : Nat) (p : NPlace), p.die < 128 → p.block < 4096 →
    ∃ l, l = (s.readNand demand n p).flash.blocks ∧ (∃ k ∈ l, k.die = p.die ∧ k.block = p.block) ∧ ∀ k ∈ l, k.die = p.die → k.block = p.block → k.due = true ∨ Config.freeNat s.fresh % 256 < 8)

/-- R451: while ARMED is 0 a trigger captures nothing, raises MISSED and leaves the image; REARM sets ARMED and leaves the image and VALID, and
the next capture replaces the image and changes CAPNO.
Says that exec answers a next state for: snapRearm. -/
def Obligations.CapturesOnlyWhileArmed : Prop :=
  (∀ (s : State) (src : Nat) (cls : BitVec 7), s.snap.armed = false →
    (s.trigger src cls).snap = { s.snap with missed := satAdd 16 s.snap.missed 1 }) ∧
  (∀ (s : State) (m : Master), s.reaches m = true → ∃ t, exec (.snapRearm m) s = .next t ∧ t.snap = { s.snap with armed := true }) ∧
  (∀ (s : State) (src : Nat) (cls : BitVec 7), s.snap.armed = true →
    (s.trigger src cls).snap.image = s.stillImage ∧ (s.trigger src cls).snap.capNo = (s.snap.capNo + 1) % 2 ^ 32 ∧
    (s.trigger src cls).snap.capNo ≠ s.snap.capNo ∧ (s.trigger src cls).snap.valid = true ∧ (s.trigger src cls).snap.armed = false)

/-- R136: when every member of a reduction group is DONE, all of them become FREE and the group closes; a member's counters were decremented in
its own completion. -/
def Obligations.AWholeGroupCloses : Prop :=
  (∀ (d : Die) (g : Nat) (x : RGroup), d.groups.find? (fun y => y.idx == g) = some x → x.poisoned = false →
    (∀ e ∈ d.tiles, e.reduce = true → e.group = g → e.state = .done) → (d.tiles.filter fun e => e.reduce && e.group == g).length = x.members →
    (∀ e ∈ (d.closeGroup g).tiles, ¬ (e.reduce = true ∧ e.group = g)) ∧ (∀ y ∈ (d.closeGroup g).groups, y.idx ≠ g) ∧
    ∀ e ∈ d.tiles, ¬ (e.reduce = true ∧ e.group = g) → e ∈ (d.closeGroup g).tiles) ∧
  (∀ (s : State) (k n v : Nat) (e : Tile) (f : BitVec 5), k < s.dies.length → (s.die k).entry n = some e → e.reduce = true → e.sig0En = true →
    e.sig1En = false → (s.die k).ctr e.sig0 = v + 2 → ((s.completeEntry k n f).die k).ctr e.sig0 = v + 1)

/-- R515: a privileged write burns the REVOKE fuse of its slot; it is ignored when it would revoke the running image's slot or the last unrevoked
slot of its kind; a key in a revoked slot vouches for no image.
Says that exec answers a next state for: keyRevoke. -/
def Obligations.RevocationOfKeys : Prop :=
  (∀ (s : State) (m : Master) (k : Nat), s.reaches m = true → masterPriv m = true → k < 4 → s.sec.revoked.getLsbD (if k % 2 = 0 then k + 1 else k - 1) = false →
    ¬ (k < 2 ∧ (s.sec.running.map (·.keySlot)) = some k) → ∃ t, exec (.keyRevoke m k) s = .next t ∧ t.sec.revoked = s.sec.revoked ||| (1 <<< k)) ∧
  (∀ (s : State) (m : Master) (k : Nat), k < 2 → (s.sec.running.map (·.keySlot)) = some k → exec (.keyRevoke m k) s = .next s) ∧
  (∀ (s : State) (m : Master) (k : Nat), k < 4 → s.sec.revoked.getLsbD (if k % 2 = 0 then k + 1 else k - 1) = true → exec (.keyRevoke m k) s = .next s) ∧
  (∀ (s : State) (m : Master) (k : Nat), masterPriv m = false → exec (.keyRevoke m k) s = .next s) ∧
  (∀ (c : Sec) (x : FwImage), c.revoked.getLsbD x.keySlot = true → c.verifies x = false)

/-- Where the commands that store to module memory store, and that every other byte reads as before: BAR4 writes (R391 to R393), the area of a
reduction group (R137), a stage copy (R300), a repaired tile (R325), the Distributary's rows (R160, R210); a vector store writes the core store only. -/
def Obligations.MemoryFrame : Prop :=
  (∀ (s t : State) (p : Port) (off : Nat) (b : List Byte), s.memOk = true → exec (.bar4Write p off b) s = .next t →
    (∀ a, a < (s.port p).winAddr off ∨ (s.port p).winAddr off + b.length ≤ a → Memory.get t.mem a = Memory.get s.mem a) ∧
    t = { s with mem := t.mem, pa := t.pa, pb := t.pb }) ∧
  (∀ (s t : State) (k g : Nat) (x : RGroup), s.memOk = true → (s.die k).groups.find? (fun x => x.idx == g) = some x →
    exec (.reduceGroupReset k g) s = .next t →
    (∀ a, a < x.addr ∨ x.addr + x.bytes ≤ a → Memory.get t.mem a = Memory.get s.mem a) ∧ t = { s with mem := t.mem, steps := t.steps, dies := t.dies, tx := t.tx }) ∧
  (∀ (s t : State) (k id tile : Nat) (x : StageEnt) (o : Obj) (d : TileDir), s.memOk = true →
    ((s.die k).stage.find? fun x => x.obj == id && x.tile == tile && x.asked) = some x → s.obj id = some o →
    o.dir[tile]? = some d → exec (.stageCopyWrite k id tile) s = .next t →
    (∀ a, a < x.addr ∨ x.addr + (up64 d.bytes + d.scaleBytes) ≤ a → Memory.get t.mem a = Memory.get s.mem a) ∧
    t = { s with fresh := t.fresh, mem := t.mem, sq := t.sq, dies := t.dies, flash := t.flash }) ∧
  (∀ (s t : State) (id tile : Nat) (o : Obj) (d : TileDir), s.memOk = true → s.obj id = some o → o.dir[tile]? = some d →
    exec (.tileRepair id tile) s = .next t →
    (∀ a, (∀ i, i < d.bytes → a ≠ o.addr (d.off + i)) → (∀ i, i < d.scaleBytes → a ≠ o.addr (d.scaleOff + i)) → Memory.get t.mem a = Memory.get s.mem a) ∧
    t = { s with fresh := t.fresh, mem := t.mem, sq := t.sq, objs := t.objs, dies := t.dies, flash := t.flash }) ∧
  (∀ (s t : State) (k ad c : Nat) (e : Envelope) (b : List Byte), s.memOk = true → (exec (.qrow k e ad c b) s = .next t ∨ exec (.kvrow k e ad c b) s = .next t) →
    (∀ a, a < ad ∨ ad + b.length ≤ a → Memory.get t.mem a = Memory.get s.mem a) ∧ t = { s with mem := t.mem, steps := t.steps, dies := t.dies, noc := t.noc, tx := t.tx }) ∧
  (∀ (s t : State) (k ad c : Nat) (e : Envelope) (b : List Byte), s.memOk = true → exec (.returnMsg k e ad c b) s = .next t →
    (∀ a, a < ad + 64 ∨ ad + 64 + b.length ≤ a → Memory.get t.mem a = Memory.get s.mem a) ∧ t = { s with mem := t.mem, steps := t.steps, dies := t.dies, noc := t.noc, tx := t.tx }) ∧
  (∀ (s t : State) (k j r ad : Nat), s.issues k j = true → ad + 256 ≤ storeBytes → Memory.wf (s.core k j).store = true →
    exec (.vectorInstruction k j (.store r ad)) s = .next t →
    (∀ a, a < ad ∨ ad + 256 ≤ a → Memory.get (t.core k j).store a = Memory.get (s.core k j).store a) ∧ t = { s with dies := t.dies })
end

