-- ==== Sys2Proof/Laws/Commands.lean ====
section
/-! SUPPORT. A command whose turn has come executes: what the rows of ring commands come to. -/

namespace Sys2Proof.Machine

open Sys2Proof

theorem padTo_112 (b : List Byte) (h : b.length = 112) : padTo 112 b = b := by
  simp [padTo, h]

theorem length_padTo (n : Nat) (b : List Byte) : (padTo n b).length = n := by
  simp [padTo]

/-- A free slot is no command's. -/
theorem freeCmd_unused {s : State} {i : Nat} (h : s.freeCmd = some i) : ∀ c ∈ s.cmds, c.idx ≠ i := by
  intro c hc e
  have := List.find?_some h
  simp only [Bool.not_eq_eq_eq_not, Bool.not_true, List.any_eq_false, beq_iff_eq] at this
  exact this c hc e

/-- The state in which a fetched command waits for its turn. -/
def State.queued (s : State) (src : Src) (op : Nat) (b : List Byte) : State :=
  { s with cmds := s.cmds ++ [s.slotFor src op b .waiting], cmdNo := s.cmdNo + 1 }

/-- `turn` lets a command run at once. -/
theorem turn_mayRun {s : State} {src : Src} (op : Nat) (b : List Byte) (ht : s.turn src = true) :
    (s.queued src op b).mayRun (s.slotFor src op b .waiting) = true := by
  have hall := (Bool.and_eq_true_iff.mp ht).2
  have key : ∀ c ∈ (s.queued src op b).before (s.slotFor src op b .waiting),
      c.state ≠ .waiting ∧ c.shareWait = false ∧ (src.fence = true → c.inFlight = false) := by
    intro c hc
    obtain ⟨hm, hp⟩ := List.mem_filter.mp hc
    simp only [Bool.and_eq_true, beq_iff_eq, decide_eq_true_eq] at hp
    rcases List.mem_append.mp hm with hm | hm
    · have h := List.all_eq_true.mp hall c hm
      have hp1 : c.src.port = src.port := hp.1
      simp only [hp1, bne_self_eq_false, Bool.false_or, Bool.and_eq_true, Bool.not_eq_true', bne_iff_ne, Bool.or_eq_true] at h
      refine ⟨h.1.1, h.1.2, fun hf => h.2.resolve_left fun x => ?_⟩
      rw [hf] at x
      cases x
    · rw [List.mem_singleton.mp hm] at hp
      exact absurd hp.2 (Nat.lt_irrefl _)
  have hshare : ∀ e, (∀ c ∈ (s.queued src op b).before e, c.shareWait = false) → (s.queued src op b).behindShare e = false := by
    intro e h
    rw [State.behindShare, List.any_eq_false]
    intro c hc
    rw [h c hc]
    simp
  unfold State.mayRun
  simp only [Bool.and_eq_true, Bool.not_eq_true', Bool.or_eq_true]
  refine ⟨⟨⟨rfl, hshare _ fun c hc => (key c hc).2.1⟩, ?_⟩, ?_⟩
  · rw [List.any_eq_false]
    intro c hc
    have := (key c hc).1
    simp [CmdSlot.idle, this]
  · rcases hf : src.fence with _ | _
    · exact Or.inl hf
    · refine Or.inr ?_
      rw [List.any_eq_false]
      intro c hc
      rw [(key c hc).2.2 hf]
      decide

/-- A fetched command whose turn has come goes to the rules of its opcode. -/
theorem command_runs {s : State} {src : Src} (op : Nat) (b : List Byte) (ht : s.turn src = true) (hb : b.length = 112) (ho : opcodeOk op = true)
    (hc : op ≠ 0x33 ∨ s.coord.valid = true) : s.command src op b = opOf op (s.refFor src op) b (s.started src op b) := by
  have ht' := ht
  simp only [State.turn, Bool.and_eq_true, Bool.not_eq_true'] at ht'
  obtain ⟨⟨⟨⟨hm, htk⟩, hf⟩, hr⟩, -⟩ := ht'
  obtain ⟨i, hi⟩ := Option.isSome_iff_exists.mp hf
  have hrun := turn_mayRun op b ht
  have hq : s.slotFor src op b .waiting = { s.slotFor src op b .waiting with idx := i } := by
    simp [State.slotFor, hi]
  have hst : ({ s.queued src op b with cmds := (s.queued src op b).cmds.map fun e => if e.idx == i then { e with state := .executing } else e } : State) =
      s.started src op b := by
    have h1 : (s.cmds.map fun e => if e.idx == i then { e with state := CmdState.executing } else e) = s.cmds := by
      conv_rhs => rw [← List.map_id s.cmds]
      refine List.map_congr_left fun c hc => ?_
      simp [freeCmd_unused hi c hc]
    simp only [State.queued, State.started, List.map_append, h1, List.map_cons, List.map_nil]
    simp [State.slotFor, hi]
  have hacc : s.accept src op b = (s.queued src op b).runSlot (s.slotFor src op b .waiting) := by
    unfold State.accept
    rw [hi]
    rw [hq] at hrun ⊢
    unfold State.queued at hrun ⊢
    rw [hq] at hrun ⊢
    exact if_pos hrun
  rw [State.command, hm, htk, padTo_112 b hb]
  simp only [Bool.false_eq_true, if_false, if_true]
  rw [hacc, State.runSlot]
  have hi' : (s.slotFor src op b .waiting).idx = i := by rw [hq]
  rw [hi', hst]
  have hmr : (s.started src op b).memReady = true := hr
  have htoo : (s.started src op b).tooEarly op = false := by
    rw [State.tooEarly, hmr]
    rcases hc with h | h
    · simp [h]
    · have : (s.started src op b).coord.valid = true := h
      simp [this]
  have href : (s.slotFor src op b .waiting).ref = s.refFor src op := by
    simp [CmdSlot.ref, State.refFor, hi, State.slotFor]
  rw [href, runOp]
  have e1 : (s.refFor src op).opcode = op := rfl
  have e2 : (s.refFor src op).src.mailbox = false := hm
  rw [e1, e2, ho, htoo]
  have e3 : (s.slotFor src op b .waiting).body = b := rfl
  rw [e3, hb]
  simp

end Sys2Proof.Machine
end

