-- ==== Sys2Proof/Laws/Cores.lean ====
section
/-! SUPPORT. Dies and cores: a change of one core, and a command that the sequencer issues with nothing before it. -/

open Sys2Proof Sys2Proof.Machine

namespace Sys2Proof.Laws

/-- A change that leaves the die as it is changes nothing. -/
theorem modDie_id (s : State) (k : Nat) (f : Die → Die) (h : f (s.die k) = s.die k) : s.modDie k f = s := by
  have : s.dies.modify k f = s.dies := by
    apply List.ext_getElem?
    intro i
    rw [List.getElem?_modify]
    split
    · subst k
      cases hh : s.dies[i]? with
      | none => rfl
      | some d => have : s.die i = d := by simp [State.die, List.getD_eq_getElem?_getD, hh]
                  rw [this] at h; simp [h]
    · simp
  unfold State.modDie; rw [this]

/-- A change that leaves the core as it is changes nothing. -/
theorem modCore_id (s : State) (k j : Nat) (f : Core → Core) (h : f (s.core k j) = s.core k j) : s.modCore k j f = s := by
  apply modDie_id
  have : (s.die k).cores.modify j f = (s.die k).cores := by
    apply List.ext_getElem?
    intro i
    rw [List.getElem?_modify]
    split
    · subst j
      cases hh : (s.die k).cores[i]? with
      | none => rfl
      | some d => have : s.core k i = d := by simp [State.core, List.getD_eq_getElem?_getD, hh]
                  rw [this] at h; simp [h]
    · simp
  rw [this]

theorem modCore_modCore (s : State) (k j : Nat) (f g : Core → Core) : (s.modCore k j f).modCore k j g = s.modCore k j (g ∘ f) := by
  unfold State.modCore State.modDie
  simp [List.modify_modify_eq, Function.comp_def]

theorem core_modCore (s : State) (k j : Nat) (f : Core → Core) (h : k < s.dies.length) (h2 : j < (s.die k).cores.length) : (s.modCore k j f).core k j = f (s.core k j) := by
  have e : (s.die k) = s.dies[k] := by simp [State.die, h]
  rw [e] at h2
  simp [State.core, State.modCore, State.modDie, State.die, List.getD_eq_getElem?_getD, h, h2]

/-- A command that the sequencer issues with nothing before it takes effect at once (R97), for the tile that it was issued for. -/
theorem sequence_at_once (s : State) (k j : Nat) (second : Bool) (x : SeqCmd) (h : s.issues k j = true) (r : x.ready (s.core k j) = true) :
    s.sequence k j second x = s.issue k j (if second then (s.core k j).loaded else (s.core k j).running) x := by
  simp only [State.issues, Bool.and_eq_true, decide_eq_true_eq, List.isEmpty_iff, Bool.not_eq_true'] at h
  obtain ⟨⟨⟨⟨⟨h1, h2⟩, h3⟩, h4⟩, h5⟩, h6⟩ := h
  unfold State.sequence
  have e := core_modCore s k j (fun c => { c with seqQ := c.seqQ ++ [(if second = true then c.loaded else c.running, x)] }) h1 h2
  have hh : (s.modCore k j (fun c => { c with seqQ := c.seqQ ++ [(if second = true then c.loaded else c.running, x)] })).power.held = false := h6
  have r2 : x.ready { s.core k j with seqQ := [(if second = true then (s.core k j).loaded else (s.core k j).running, x)] } = true := by cases x <;> simp_all [SeqCmd.ready, Core.busy, Core.freeCtx]
  simp only [h5, List.nil_append] at e
  have e3 : ((s.modCore k j fun c => { c with seqQ := c.seqQ ++ [(if second = true then c.loaded else c.running, x)] }).modCore k j fun c => { c with seqQ := [] }) = s := by
    rw [modCore_modCore]; apply modCore_id; simp [← h5]
  simp only [h4, show ¬ 120 ≤ j by omega, h5, Bool.not_true, decide_false, Bool.or_self, Bool.false_eq_true, if_false, List.length_nil, Nat.zero_add]
  rw [State.drain, e]
  simp only [r2, hh, Bool.not_false, Bool.and_self, if_true, State.drain]
  rw [e3]

end Sys2Proof.Laws
end

