-- ==== Sys2Proof/Laws/Memory.lean ====
section
/-! SUPPORT. Laws of memory: a read after a write, every other byte unchanged, and the canonical form kept. -/

namespace Sys2Proof.Machine

open Sys2Proof

theorem wfFrom_mono {lo lo' : Nat} (h : lo' ≤ lo) : ∀ {m : List Host.Cell}, wfFrom lo m = true → wfFrom lo' m = true
  | [], _ => rfl
  | (a, b) :: t, hw => by
    simp only [wfFrom, Bool.and_eq_true, decide_eq_true_eq] at hw ⊢
    exact ⟨⟨Nat.le_trans h hw.1.1, hw.1.2⟩, hw.2⟩

/-- An address below the first cell reads as zero. -/
theorem Memory.get_below {a : Nat} : ∀ {m : List Host.Cell} {lo : Nat}, a < lo → wfFrom lo m = true → Memory.get m a = 0
  | [], _, _, _ => rfl
  | (k, b) :: t, lo, hlt, hw => by
    simp only [wfFrom, Bool.and_eq_true, decide_eq_true_eq] at hw
    have hk : k ≠ a := by omega
    simp only [Memory.get, if_neg hk]
    exact Memory.get_below (lo := k + 1) (by omega) hw.2

theorem Memory.put_wfFrom (b : Byte) (a : Nat) : ∀ {m : List Host.Cell} {lo : Nat}, lo ≤ a → wfFrom lo m = true →
    wfFrom lo (Memory.put a b m) = true
  | [], lo, hlo, _ => by
    unfold Memory.put
    split
    · rfl
    · rename_i hb
      simp [wfFrom, hlo]
      simpa using hb
  | (k, c) :: t, lo, hlo, hw => by
    have hw0 := hw
    simp only [wfFrom, Bool.and_eq_true, decide_eq_true_eq] at hw
    unfold Memory.put
    split
    · rename_i hak
      split
      · exact hw0
      · rename_i hb
        simp only [wfFrom, Bool.and_eq_true, decide_eq_true_eq]
        exact ⟨⟨hlo, by simpa using hb⟩, ⟨⟨by omega, hw.1.2⟩, hw.2⟩⟩
    · split
      · rename_i hka
        subst hka
        split
        · exact wfFrom_mono (by omega) hw.2
        · rename_i hb
          simp only [wfFrom, Bool.and_eq_true, decide_eq_true_eq]
          exact ⟨⟨hlo, by simpa using hb⟩, hw.2⟩
      · simp only [wfFrom, Bool.and_eq_true, decide_eq_true_eq]
        exact ⟨hw.1, Memory.put_wfFrom b a (by omega) hw.2⟩

/-- Writing one byte keeps the canonical form. -/
theorem Memory.put_wf {m : List Host.Cell} (h : Memory.wf m = true) (a : Nat) (b : Byte) : Memory.wf (Memory.put a b m) = true :=
  Memory.put_wfFrom b a (Nat.zero_le a) h

/-- Writing bytes keeps the canonical form. -/
theorem Memory.write_wf {m : List Host.Cell} (h : Memory.wf m = true) (a : Nat) (l : List Byte) : Memory.wf (Memory.write m a l) = true := by
  induction l generalizing m a with
  | nil => exact h
  | cons b t ih => exact ih (Memory.put_wf h a b) (a + 1)

/-- Dropping cells keeps the canonical form. -/
theorem Memory.filter_wf (p : Host.Cell → Bool) {m : List Host.Cell} (h : Memory.wf m = true) : Memory.wf (m.filter p) = true := by
  suffices ∀ (m : List Host.Cell) (lo : Nat), wfFrom lo m = true → wfFrom lo (m.filter p) = true from this m 0 h
  intro m
  induction m with
  | nil => exact fun _ h => h
  | cons x t ih =>
    intro lo hw
    simp only [wfFrom, Bool.and_eq_true, decide_eq_true_eq] at hw
    rw [List.filter_cons]
    split
    · simp only [wfFrom, Bool.and_eq_true, decide_eq_true_eq]
      exact ⟨hw.1, ih _ hw.2⟩
    · exact wfFrom_mono (by omega) (ih _ hw.2)

/-- Forgetting a range keeps the canonical form. -/
theorem Memory.clear_wf {m : List Host.Cell} (h : Memory.wf m = true) (a n : Nat) : Memory.wf (Memory.clear m a n) = true :=
  Memory.filter_wf _ h

/-- Writing bytes one by one keeps the canonical form. -/
theorem Memory.puts_wf {α : Type} (f : α → Nat) (g : α → Byte) : ∀ (l : List α) {m : List Host.Cell}, Memory.wf m = true →
    Memory.wf (l.foldl (fun m x => Memory.put (f x) (g x) m) m) = true
  | [], _, h => h
  | x :: t, _, h => Memory.puts_wf f g t (Memory.put_wf h (f x) (g x))

/-- The empty memory is canonical. -/
theorem Memory.wf_nil : Memory.wf [] = true := rfl

theorem Memory.get_put_from (b : Byte) (a c : Nat) : ∀ {m : List Host.Cell} {lo : Nat}, wfFrom lo m = true →
    Memory.get (Memory.put a b m) c = if c = a then b else Memory.get m c
  | [], lo, _ => by
    unfold Memory.put
    split
    · rename_i hb
      have : b = 0 := by simpa using hb
      split <;> simp [Memory.get, this]
    · simp only [Memory.get]
      by_cases h : a = c
      · subst h; simp
      · rw [if_neg h, if_neg (Ne.symm h)]
  | (k, d) :: t, lo, hw => by
    have hw0 := hw
    simp only [wfFrom, Bool.and_eq_true, decide_eq_true_eq] at hw
    unfold Memory.put
    split
    · rename_i hak
      split
      · rename_i hb
        have hb0 : b = 0 := by simpa using hb
        by_cases h : c = a
        · subst h
          rw [if_pos rfl, hb0]
          have hk : k ≠ c := by omega
          simp only [Memory.get, if_neg hk]
          exact Memory.get_below (lo := k + 1) (by omega) hw.2
        · rw [if_neg h]
      · by_cases h : a = c
        · subst h; simp [Memory.get]
        · simp only [Memory.get, if_neg h, if_neg (Ne.symm h)]
    · split
      · rename_i hka
        subst hka
        split
        · rename_i hb
          have hb0 : b = 0 := by simpa using hb
          by_cases h : c = k
          · subst h
            rw [if_pos rfl, hb0]
            exact Memory.get_below (lo := c + 1) (by omega) hw.2
          · simp only [Memory.get, if_neg h, if_neg (Ne.symm h)]
        · by_cases h : c = k
          · subst h; simp [Memory.get]
          · simp only [Memory.get, if_neg h, if_neg (Ne.symm h)]
      · rename_i hka
        by_cases hkc : k = c
        · subst hkc
          simp only [Memory.get, if_true, if_neg hka]
        · simp only [Memory.get, if_neg hkc]
          exact Memory.get_put_from b a c hw.2

/-- A byte written reads back, and every other byte reads as before. -/
theorem Memory.get_put {m : List Host.Cell} (h : Memory.wf m = true) (a c : Nat) (b : Byte) :
    Memory.get (Memory.put a b m) c = if c = a then b else Memory.get m c := Memory.get_put_from b a c h

/-- Reading after a write of several bytes: the byte written there, or the old one outside. -/
theorem Memory.get_write {m : List Host.Cell} (h : Memory.wf m = true) (a c : Nat) (l : List Byte) :
    Memory.get (Memory.write m a l) c = if a ≤ c ∧ c < a + l.length then l.getD (c - a) 0 else Memory.get m c := by
  induction l generalizing m a with
  | nil => simp [Memory.write]
  | cons b t ih =>
    simp only [Memory.write, List.length_cons]
    rw [ih (Memory.put_wf h a b) (a + 1), Memory.get_put h]
    by_cases h1 : c = a
    · subst h1
      rw [if_neg (by omega), if_pos rfl, if_pos (by omega)]
      simp
    · by_cases h2 : a + 1 ≤ c ∧ c < a + 1 + t.length
      · rw [if_pos h2, if_pos (by omega)]
        obtain ⟨j, rfl⟩ : ∃ j, c = a + 1 + j := ⟨c - (a + 1), by omega⟩
        have e1 : a + 1 + j - (a + 1) = j := by omega
        have e2 : a + 1 + j - a = j + 1 := by omega
        rw [e1, e2, List.getD_cons_succ]
      · rw [if_neg h2, if_neg h1, if_neg (by omega)]

end Sys2Proof.Machine
end

