-- ==== Sys2Proof/Laws/Frame.lean ====
section
/-! SUPPORT. What an operation may change: `Frame w z s` says that `s` differs from `z` at most in the fields of State whose bit is in
`w`, and that what every command keeps (the queue, canonical memories, the parts of the module, the fuses) is kept. -/

set_option linter.all false

namespace Sys2Proof.Machine

open Sys2Proof

/-- The bits of `a` are bits of `b`. -/
def Sub (a b : Nat) : Prop := a &&& b = a

theorem Sub.mk {a b : Nat} (h : a &&& b = a) : Sub a b := h

theorem Sub.trans {a b c : Nat} (h : Sub a b) (k : Sub b c) : Sub a c := by
  unfold Sub at *
  rw [← h, Nat.land_assoc, k]

theorem Sub.rfl {a : Nat} : Sub a a := Nat.and_self a

/-- What every command keeps of the fuses and keys (Table 23-1, R514, R515). -/
structure SecKeep (c d : Sec) : Prop where
  fixed : d.fixedFuses = c.fixedFuses
  svn : c.svn ≤ d.svn
  rev : d.revoked ||| c.revoked = d.revoked
  keys : c.keysOk = true → d.keysOk = true

theorem SecKeep.rfl {c : Sec} : SecKeep c c := ⟨Eq.refl _, Nat.le_refl _, BitVec.or_self, id⟩

theorem SecKeep.trans {a b c : Sec} (h : SecKeep a b) (k : SecKeep b c) : SecKeep a c :=
  ⟨k.fixed.trans h.fixed, Nat.le_trans h.svn k.svn, by rw [← k.rev, BitVec.or_assoc, h.rev], fun x => k.keys (h.keys x)⟩

/-- Keys, count and revocations as they were. -/
theorem SecKeep.of_eq {c d : Sec} (h : d.fixedFuses = c.fixedFuses) (v : d.svn = c.svn) (r : d.revoked = c.revoked) : SecKeep c d :=
  ⟨h, Nat.le_of_eq v.symm, by simp [r], fun k => by unfold Sec.keysOk at *; rw [r]; exact k⟩

/-- `s` differs from `z` at most in the fields of `w`. -/
structure Frame (w : Nat) (z s : State) : Prop where
  pending : s.pending = z.pending
  okMem : Memory.wf z.mem = true → Memory.wf s.mem = true
  okA : Memory.wf z.hostA = true → Memory.wf s.hostA = true
  okB : Memory.wf z.hostB = true → Memory.wf s.hostB = true
  okShape : z.shapeOk = true → s.shapeOk = true
  okSec : SecKeep z.sec s.sec
  fresh : Sub 0x1 w ∨ s.fresh = z.fresh
  now : Sub 0x2 w ∨ s.now = z.now
  mem : Sub 0x4 w ∨ s.mem = z.mem
  hostA : Sub 0x8 w ∨ s.hostA = z.hostA
  hostB : Sub 0x10 w ∨ s.hostB = z.hostB
  pa : Sub 0x20 w ∨ s.pa = z.pa
  pb : Sub 0x40 w ∨ s.pb = z.pb
  cmds : Sub 0x80 w ∨ s.cmds = z.cmds
  cmdNo : Sub 0x100 w ∨ s.cmdNo = z.cmdNo
  lastFetch : Sub 0x200 w ∨ s.lastFetch = z.lastFetch
  msPortA : Sub 0x400 w ∨ s.msPortA = z.msPortA
  msPortB : Sub 0x800 w ∨ s.msPortB = z.msPortB
  msSide : Sub 0x1000 w ∨ s.msSide = z.msSide
  msEasel : Sub 0x2000 w ∨ s.msEasel = z.msEasel
  accs : Sub 0x4000 w ∨ s.accs = z.accs
  accNo : Sub 0x8000 w ∨ s.accNo = z.accNo
  sq : Sub 0x10000 w ∨ s.sq = z.sq
  seqMiss : Sub 0x20000 w ∨ s.seqMiss = z.seqMiss
  lkIgnore : Sub 0x40000 w ∨ s.lkIgnore = z.lkIgnore
  regFix : Sub 0x80000 w ∨ s.regFix = z.regFix
  upsets : Sub 0x100000 w ∨ s.upsets = z.upsets
  objs : Sub 0x200000 w ∨ s.objs = z.objs
  sysExts : Sub 0x400000 w ∨ s.sysExts = z.sysExts
  pfEnts : Sub 0x800000 w ∨ s.pfEnts = z.pfEnts
  pfNo : Sub 0x1000000 w ∨ s.pfNo = z.pfNo
  seqs : Sub 0x2000000 w ∨ s.seqs = z.seqs
  commitNo : Sub 0x4000000 w ∨ s.commitNo = z.commitNo
  commitC : Sub 0x8000000 w ∨ s.commitC = z.commitC
  applying : Sub 0x10000000 w ∨ s.applying = z.applying
  spillPool : Sub 0x20000000 w ∨ s.spillPool = z.spillPool
  models : Sub 0x40000000 w ∨ s.models = z.models
  slices : Sub 0x80000000 w ∨ s.slices = z.slices
  steps : Sub 0x100000000 w ∨ s.steps = z.steps
  mst : Sub 0x200000000 w ∨ s.mst = z.mst
  joinQ : Sub 0x400000000 w ∨ s.joinQ = z.joinQ
  tenQ : Sub 0x800000000 w ∨ s.tenQ = z.tenQ
  tenC : Sub 0x1000000000 w ∨ s.tenC = z.tenC
  curTenant : Sub 0x2000000000 w ∨ s.curTenant = z.curTenant
  lastTenant : Sub 0x4000000000 w ∨ s.lastTenant = z.lastTenant
  turnStart : Sub 0x8000000000 w ∨ s.turnStart = z.turnStart
  turnEnd : Sub 0x10000000000 w ∨ s.turnEnd = z.turnEnd
  turnSteps : Sub 0x20000000000 w ∨ s.turnSteps = z.turnSteps
  dies : Sub 0x40000000000 w ∨ s.dies = z.dies
  d2d : Sub 0x80000000000 w ∨ s.d2d = z.d2d
  noc : Sub 0x100000000000 w ∨ s.noc = z.noc
  pals : Sub 0x200000000000 w ∨ s.pals = z.pals
  chans : Sub 0x400000000000 w ∨ s.chans = z.chans
  grps : Sub 0x800000000000 w ∨ s.grps = z.grps
  flash : Sub 0x1000000000000 w ∨ s.flash = z.flash
  links : Sub 0x2000000000000 w ∨ s.links = z.links
  bundleW : Sub 0x4000000000000 w ∨ s.bundleW = z.bundleW
  router : Sub 0x8000000000000 w ∨ s.router = z.router
  coord : Sub 0x10000000000000 w ∨ s.coord = z.coord
  power : Sub 0x20000000000000 w ∨ s.power = z.power
  mon : Sub 0x40000000000000 w ∨ s.mon = z.mon
  health : Sub 0x80000000000000 w ∨ s.health = z.health
  nor : Sub 0x100000000000000 w ∨ s.nor = z.nor
  clk : Sub 0x200000000000000 w ∨ s.clk = z.clk
  sec : Sub 0x400000000000000 w ∨ s.sec = z.sec
  snap : Sub 0x800000000000000 w ∨ s.snap = z.snap
  side : Sub 0x1000000000000000 w ∨ s.side = z.side
  tx : Sub 0x2000000000000000 w ∨ s.tx = z.tx

/-- `t` differs from `s` at most in the fields of `w`, one of them at a time in its own way. -/
structure Same (w : Nat) (s t : State) : Prop where
  fresh : t.fresh = s.fresh ∨ Sub 0x1 w
  now : t.now = s.now ∨ Sub 0x2 w
  mem : t.mem = s.mem
  hostA : t.hostA = s.hostA
  hostB : t.hostB = s.hostB
  pa : t.pa = s.pa ∨ Sub 0x20 w
  pb : t.pb = s.pb ∨ Sub 0x40 w
  cmds : t.cmds = s.cmds ∨ Sub 0x80 w
  cmdNo : t.cmdNo = s.cmdNo ∨ Sub 0x100 w
  lastFetch : t.lastFetch = s.lastFetch ∨ Sub 0x200 w
  msPortA : t.msPortA = s.msPortA ∨ Sub 0x400 w
  msPortB : t.msPortB = s.msPortB ∨ Sub 0x800 w
  msSide : t.msSide = s.msSide ∨ Sub 0x1000 w
  msEasel : t.msEasel = s.msEasel ∨ Sub 0x2000 w
  accs : t.accs = s.accs ∨ Sub 0x4000 w
  accNo : t.accNo = s.accNo ∨ Sub 0x8000 w
  sq : t.sq = s.sq ∨ Sub 0x10000 w
  seqMiss : t.seqMiss = s.seqMiss ∨ Sub 0x20000 w
  lkIgnore : t.lkIgnore = s.lkIgnore ∨ Sub 0x40000 w
  regFix : t.regFix = s.regFix ∨ Sub 0x80000 w
  upsets : t.upsets = s.upsets ∨ Sub 0x100000 w
  objs : t.objs = s.objs ∨ Sub 0x200000 w
  sysExts : t.sysExts = s.sysExts ∨ Sub 0x400000 w
  pfEnts : t.pfEnts = s.pfEnts ∨ Sub 0x800000 w
  pfNo : t.pfNo = s.pfNo ∨ Sub 0x1000000 w
  seqs : t.seqs = s.seqs ∨ Sub 0x2000000 w
  commitNo : t.commitNo = s.commitNo ∨ Sub 0x4000000 w
  commitC : t.commitC = s.commitC ∨ Sub 0x8000000 w
  applying : t.applying = s.applying ∨ Sub 0x10000000 w
  spillPool : t.spillPool = s.spillPool ∨ Sub 0x20000000 w
  models : t.models = s.models ∨ Sub 0x40000000 w
  slices : t.slices = s.slices ∨ (Sub 0x80000000 w ∧ t.slices.length = s.slices.length)
  steps : t.steps = s.steps ∨ Sub 0x100000000 w
  mst : t.mst = s.mst ∨ Sub 0x200000000 w
  joinQ : t.joinQ = s.joinQ ∨ Sub 0x400000000 w
  tenQ : t.tenQ = s.tenQ ∨ Sub 0x800000000 w
  tenC : t.tenC = s.tenC ∨ Sub 0x1000000000 w
  curTenant : t.curTenant = s.curTenant ∨ Sub 0x2000000000 w
  lastTenant : t.lastTenant = s.lastTenant ∨ Sub 0x4000000000 w
  turnStart : t.turnStart = s.turnStart ∨ Sub 0x8000000000 w
  turnEnd : t.turnEnd = s.turnEnd ∨ Sub 0x10000000000 w
  turnSteps : t.turnSteps = s.turnSteps ∨ Sub 0x20000000000 w
  dies : t.dies = s.dies ∨ (Sub 0x40000000000 w ∧ t.dies.length = s.dies.length)
  d2d : t.d2d = s.d2d ∨ (Sub 0x80000000000 w ∧ t.d2d.length = s.d2d.length)
  noc : t.noc = s.noc ∨ Sub 0x100000000000 w
  pals : t.pals = s.pals ∨ Sub 0x200000000000 w
  chans : t.chans = s.chans ∨ (Sub 0x400000000000 w ∧ t.chans.length = s.chans.length)
  grps : t.grps = s.grps ∨ (Sub 0x800000000000 w ∧ t.grps.length = s.grps.length)
  flash : t.flash = s.flash ∨ Sub 0x1000000000000 w
  links : t.links = s.links ∨ (Sub 0x2000000000000 w ∧ t.links.length = s.links.length)
  bundleW : t.bundleW = s.bundleW ∨ Sub 0x4000000000000 w
  router : t.router = s.router ∨ Sub 0x8000000000000 w
  coord : t.coord = s.coord ∨ Sub 0x10000000000000 w
  power : t.power = s.power ∨ Sub 0x20000000000000 w
  mon : t.mon = s.mon ∨ Sub 0x40000000000000 w
  health : t.health = s.health ∨ Sub 0x80000000000000 w
  nor : t.nor = s.nor ∨ Sub 0x100000000000000 w
  clk : t.clk = s.clk ∨ Sub 0x200000000000000 w
  sec : t.sec = s.sec
  snap : t.snap = s.snap ∨ Sub 0x800000000000000 w
  side : t.side = s.side ∨ Sub 0x1000000000000000 w
  tx : t.tx = s.tx ∨ Sub 0x2000000000000000 w

theorem Frame.rfl {w : Nat} {z : State} : Frame w z z where
  pending := Eq.refl _
  okMem := id
  okA := id
  okB := id
  okShape := id
  okSec := SecKeep.rfl
  fresh := Or.inr (Eq.refl _)
  now := Or.inr (Eq.refl _)
  mem := Or.inr (Eq.refl _)
  hostA := Or.inr (Eq.refl _)
  hostB := Or.inr (Eq.refl _)
  pa := Or.inr (Eq.refl _)
  pb := Or.inr (Eq.refl _)
  cmds := Or.inr (Eq.refl _)
  cmdNo := Or.inr (Eq.refl _)
  lastFetch := Or.inr (Eq.refl _)
  msPortA := Or.inr (Eq.refl _)
  msPortB := Or.inr (Eq.refl _)
  msSide := Or.inr (Eq.refl _)
  msEasel := Or.inr (Eq.refl _)
  accs := Or.inr (Eq.refl _)
  accNo := Or.inr (Eq.refl _)
  sq := Or.inr (Eq.refl _)
  seqMiss := Or.inr (Eq.refl _)
  lkIgnore := Or.inr (Eq.refl _)
  regFix := Or.inr (Eq.refl _)
  upsets := Or.inr (Eq.refl _)
  objs := Or.inr (Eq.refl _)
  sysExts := Or.inr (Eq.refl _)
  pfEnts := Or.inr (Eq.refl _)
  pfNo := Or.inr (Eq.refl _)
  seqs := Or.inr (Eq.refl _)
  commitNo := Or.inr (Eq.refl _)
  commitC := Or.inr (Eq.refl _)
  applying := Or.inr (Eq.refl _)
  spillPool := Or.inr (Eq.refl _)
  models := Or.inr (Eq.refl _)
  slices := Or.inr (Eq.refl _)
  steps := Or.inr (Eq.refl _)
  mst := Or.inr (Eq.refl _)
  joinQ := Or.inr (Eq.refl _)
  tenQ := Or.inr (Eq.refl _)
  tenC := Or.inr (Eq.refl _)
  curTenant := Or.inr (Eq.refl _)
  lastTenant := Or.inr (Eq.refl _)
  turnStart := Or.inr (Eq.refl _)
  turnEnd := Or.inr (Eq.refl _)
  turnSteps := Or.inr (Eq.refl _)
  dies := Or.inr (Eq.refl _)
  d2d := Or.inr (Eq.refl _)
  noc := Or.inr (Eq.refl _)
  pals := Or.inr (Eq.refl _)
  chans := Or.inr (Eq.refl _)
  grps := Or.inr (Eq.refl _)
  flash := Or.inr (Eq.refl _)
  links := Or.inr (Eq.refl _)
  bundleW := Or.inr (Eq.refl _)
  router := Or.inr (Eq.refl _)
  coord := Or.inr (Eq.refl _)
  power := Or.inr (Eq.refl _)
  mon := Or.inr (Eq.refl _)
  health := Or.inr (Eq.refl _)
  nor := Or.inr (Eq.refl _)
  clk := Or.inr (Eq.refl _)
  sec := Or.inr (Eq.refl _)
  snap := Or.inr (Eq.refl _)
  side := Or.inr (Eq.refl _)
  tx := Or.inr (Eq.refl _)

theorem Frame.weaken {a b : Nat} {z s : State} (h : Frame a z s) (k : Sub a b) : Frame b z s where
  pending := h.pending
  okMem := h.okMem
  okA := h.okA
  okB := h.okB
  okShape := h.okShape
  okSec := h.okSec
  fresh := h.fresh.imp_left fun x => x.trans k
  now := h.now.imp_left fun x => x.trans k
  mem := h.mem.imp_left fun x => x.trans k
  hostA := h.hostA.imp_left fun x => x.trans k
  hostB := h.hostB.imp_left fun x => x.trans k
  pa := h.pa.imp_left fun x => x.trans k
  pb := h.pb.imp_left fun x => x.trans k
  cmds := h.cmds.imp_left fun x => x.trans k
  cmdNo := h.cmdNo.imp_left fun x => x.trans k
  lastFetch := h.lastFetch.imp_left fun x => x.trans k
  msPortA := h.msPortA.imp_left fun x => x.trans k
  msPortB := h.msPortB.imp_left fun x => x.trans k
  msSide := h.msSide.imp_left fun x => x.trans k
  msEasel := h.msEasel.imp_left fun x => x.trans k
  accs := h.accs.imp_left fun x => x.trans k
  accNo := h.accNo.imp_left fun x => x.trans k
  sq := h.sq.imp_left fun x => x.trans k
  seqMiss := h.seqMiss.imp_left fun x => x.trans k
  lkIgnore := h.lkIgnore.imp_left fun x => x.trans k
  regFix := h.regFix.imp_left fun x => x.trans k
  upsets := h.upsets.imp_left fun x => x.trans k
  objs := h.objs.imp_left fun x => x.trans k
  sysExts := h.sysExts.imp_left fun x => x.trans k
  pfEnts := h.pfEnts.imp_left fun x => x.trans k
  pfNo := h.pfNo.imp_left fun x => x.trans k
  seqs := h.seqs.imp_left fun x => x.trans k
  commitNo := h.commitNo.imp_left fun x => x.trans k
  commitC := h.commitC.imp_left fun x => x.trans k
  applying := h.applying.imp_left fun x => x.trans k
  spillPool := h.spillPool.imp_left fun x => x.trans k
  models := h.models.imp_left fun x => x.trans k
  slices := h.slices.imp_left fun x => x.trans k
  steps := h.steps.imp_left fun x => x.trans k
  mst := h.mst.imp_left fun x => x.trans k
  joinQ := h.joinQ.imp_left fun x => x.trans k
  tenQ := h.tenQ.imp_left fun x => x.trans k
  tenC := h.tenC.imp_left fun x => x.trans k
  curTenant := h.curTenant.imp_left fun x => x.trans k
  lastTenant := h.lastTenant.imp_left fun x => x.trans k
  turnStart := h.turnStart.imp_left fun x => x.trans k
  turnEnd := h.turnEnd.imp_left fun x => x.trans k
  turnSteps := h.turnSteps.imp_left fun x => x.trans k
  dies := h.dies.imp_left fun x => x.trans k
  d2d := h.d2d.imp_left fun x => x.trans k
  noc := h.noc.imp_left fun x => x.trans k
  pals := h.pals.imp_left fun x => x.trans k
  chans := h.chans.imp_left fun x => x.trans k
  grps := h.grps.imp_left fun x => x.trans k
  flash := h.flash.imp_left fun x => x.trans k
  links := h.links.imp_left fun x => x.trans k
  bundleW := h.bundleW.imp_left fun x => x.trans k
  router := h.router.imp_left fun x => x.trans k
  coord := h.coord.imp_left fun x => x.trans k
  power := h.power.imp_left fun x => x.trans k
  mon := h.mon.imp_left fun x => x.trans k
  health := h.health.imp_left fun x => x.trans k
  nor := h.nor.imp_left fun x => x.trans k
  clk := h.clk.imp_left fun x => x.trans k
  sec := h.sec.imp_left fun x => x.trans k
  snap := h.snap.imp_left fun x => x.trans k
  side := h.side.imp_left fun x => x.trans k
  tx := h.tx.imp_left fun x => x.trans k

theorem Frame.trans {w : Nat} {z s t : State} (h : Frame w z s) (k : Frame w s t) : Frame w z t where
  pending := k.pending.trans h.pending
  okMem := fun x => k.okMem (h.okMem x)
  okA := fun x => k.okA (h.okA x)
  okB := fun x => k.okB (h.okB x)
  okShape := fun x => k.okShape (h.okShape x)
  okSec := h.okSec.trans k.okSec
  fresh := k.fresh.elim Or.inl fun x => h.fresh.imp_right fun y => x.trans y
  now := k.now.elim Or.inl fun x => h.now.imp_right fun y => x.trans y
  mem := k.mem.elim Or.inl fun x => h.mem.imp_right fun y => x.trans y
  hostA := k.hostA.elim Or.inl fun x => h.hostA.imp_right fun y => x.trans y
  hostB := k.hostB.elim Or.inl fun x => h.hostB.imp_right fun y => x.trans y
  pa := k.pa.elim Or.inl fun x => h.pa.imp_right fun y => x.trans y
  pb := k.pb.elim Or.inl fun x => h.pb.imp_right fun y => x.trans y
  cmds := k.cmds.elim Or.inl fun x => h.cmds.imp_right fun y => x.trans y
  cmdNo := k.cmdNo.elim Or.inl fun x => h.cmdNo.imp_right fun y => x.trans y
  lastFetch := k.lastFetch.elim Or.inl fun x => h.lastFetch.imp_right fun y => x.trans y
  msPortA := k.msPortA.elim Or.inl fun x => h.msPortA.imp_right fun y => x.trans y
  msPortB := k.msPortB.elim Or.inl fun x => h.msPortB.imp_right fun y => x.trans y
  msSide := k.msSide.elim Or.inl fun x => h.msSide.imp_right fun y => x.trans y
  msEasel := k.msEasel.elim Or.inl fun x => h.msEasel.imp_right fun y => x.trans y
  accs := k.accs.elim Or.inl fun x => h.accs.imp_right fun y => x.trans y
  accNo := k.accNo.elim Or.inl fun x => h.accNo.imp_right fun y => x.trans y
  sq := k.sq.elim Or.inl fun x => h.sq.imp_right fun y => x.trans y
  seqMiss := k.seqMiss.elim Or.inl fun x => h.seqMiss.imp_right fun y => x.trans y
  lkIgnore := k.lkIgnore.elim Or.inl fun x => h.lkIgnore.imp_right fun y => x.trans y
  regFix := k.regFix.elim Or.inl fun x => h.regFix.imp_right fun y => x.trans y
  upsets := k.upsets.elim Or.inl fun x => h.upsets.imp_right fun y => x.trans y
  objs := k.objs.elim Or.inl fun x => h.objs.imp_right fun y => x.trans y
  sysExts := k.sysExts.elim Or.inl fun x => h.sysExts.imp_right fun y => x.trans y
  pfEnts := k.pfEnts.elim Or.inl fun x => h.pfEnts.imp_right fun y => x.trans y
  pfNo := k.pfNo.elim Or.inl fun x => h.pfNo.imp_right fun y => x.trans y
  seqs := k.seqs.elim Or.inl fun x => h.seqs.imp_right fun y => x.trans y
  commitNo := k.commitNo.elim Or.inl fun x => h.commitNo.imp_right fun y => x.trans y
  commitC := k.commitC.elim Or.inl fun x => h.commitC.imp_right fun y => x.trans y
  applying := k.applying.elim Or.inl fun x => h.applying.imp_right fun y => x.trans y
  spillPool := k.spillPool.elim Or.inl fun x => h.spillPool.imp_right fun y => x.trans y
  models := k.models.elim Or.inl fun x => h.models.imp_right fun y => x.trans y
  slices := k.slices.elim Or.inl fun x => h.slices.imp_right fun y => x.trans y
  steps := k.steps.elim Or.inl fun x => h.steps.imp_right fun y => x.trans y
  mst := k.mst.elim Or.inl fun x => h.mst.imp_right fun y => x.trans y
  joinQ := k.joinQ.elim Or.inl fun x => h.joinQ.imp_right fun y => x.trans y
  tenQ := k.tenQ.elim Or.inl fun x => h.tenQ.imp_right fun y => x.trans y
  tenC := k.tenC.elim Or.inl fun x => h.tenC.imp_right fun y => x.trans y
  curTenant := k.curTenant.elim Or.inl fun x => h.curTenant.imp_right fun y => x.trans y
  lastTenant := k.lastTenant.elim Or.inl fun x => h.lastTenant.imp_right fun y => x.trans y
  turnStart := k.turnStart.elim Or.inl fun x => h.turnStart.imp_right fun y => x.trans y
  turnEnd := k.turnEnd.elim Or.inl fun x => h.turnEnd.imp_right fun y => x.trans y
  turnSteps := k.turnSteps.elim Or.inl fun x => h.turnSteps.imp_right fun y => x.trans y
  dies := k.dies.elim Or.inl fun x => h.dies.imp_right fun y => x.trans y
  d2d := k.d2d.elim Or.inl fun x => h.d2d.imp_right fun y => x.trans y
  noc := k.noc.elim Or.inl fun x => h.noc.imp_right fun y => x.trans y
  pals := k.pals.elim Or.inl fun x => h.pals.imp_right fun y => x.trans y
  chans := k.chans.elim Or.inl fun x => h.chans.imp_right fun y => x.trans y
  grps := k.grps.elim Or.inl fun x => h.grps.imp_right fun y => x.trans y
  flash := k.flash.elim Or.inl fun x => h.flash.imp_right fun y => x.trans y
  links := k.links.elim Or.inl fun x => h.links.imp_right fun y => x.trans y
  bundleW := k.bundleW.elim Or.inl fun x => h.bundleW.imp_right fun y => x.trans y
  router := k.router.elim Or.inl fun x => h.router.imp_right fun y => x.trans y
  coord := k.coord.elim Or.inl fun x => h.coord.imp_right fun y => x.trans y
  power := k.power.elim Or.inl fun x => h.power.imp_right fun y => x.trans y
  mon := k.mon.elim Or.inl fun x => h.mon.imp_right fun y => x.trans y
  health := k.health.elim Or.inl fun x => h.health.imp_right fun y => x.trans y
  nor := k.nor.elim Or.inl fun x => h.nor.imp_right fun y => x.trans y
  clk := k.clk.elim Or.inl fun x => h.clk.imp_right fun y => x.trans y
  sec := k.sec.elim Or.inl fun x => h.sec.imp_right fun y => x.trans y
  snap := k.snap.elim Or.inl fun x => h.snap.imp_right fun y => x.trans y
  side := k.side.elim Or.inl fun x => h.side.imp_right fun y => x.trans y
  tx := k.tx.elim Or.inl fun x => h.tx.imp_right fun y => x.trans y

/-- The rule for a record update. -/
theorem Frame.set {w : Nat} {z s t : State} (h : Frame w z s) (p : t.pending = s.pending) (k : Same w s t) : Frame w z t where
  pending := p.trans h.pending
  okMem := fun x => by rw [k.mem]; exact h.okMem x
  okA := fun x => by rw [k.hostA]; exact h.okA x
  okB := fun x => by rw [k.hostB]; exact h.okB x
  okShape := fun x => by
    have e := h.okShape x
    have l1 : t.dies.length = s.dies.length := k.dies.elim (fun y => by rw [y]) And.right
    have l2 : t.d2d.length = s.d2d.length := k.d2d.elim (fun y => by rw [y]) And.right
    have l3 : t.slices.length = s.slices.length := k.slices.elim (fun y => by rw [y]) And.right
    have l4 : t.chans.length = s.chans.length := k.chans.elim (fun y => by rw [y]) And.right
    have l5 : t.grps.length = s.grps.length := k.grps.elim (fun y => by rw [y]) And.right
    have l6 : t.links.length = s.links.length := k.links.elim (fun y => by rw [y]) And.right
    unfold State.shapeOk at e ⊢
    rw [l1, l2, l3, l4, l5, l6]
    exact e
  okSec := by rw [k.sec]; exact h.okSec
  fresh := k.fresh.elim (fun x => h.fresh.imp_right fun y => x.trans y) Or.inl
  now := k.now.elim (fun x => h.now.imp_right fun y => x.trans y) Or.inl
  mem := h.mem.imp_right fun y => k.mem.trans y
  hostA := h.hostA.imp_right fun y => k.hostA.trans y
  hostB := h.hostB.imp_right fun y => k.hostB.trans y
  pa := k.pa.elim (fun x => h.pa.imp_right fun y => x.trans y) Or.inl
  pb := k.pb.elim (fun x => h.pb.imp_right fun y => x.trans y) Or.inl
  cmds := k.cmds.elim (fun x => h.cmds.imp_right fun y => x.trans y) Or.inl
  cmdNo := k.cmdNo.elim (fun x => h.cmdNo.imp_right fun y => x.trans y) Or.inl
  lastFetch := k.lastFetch.elim (fun x => h.lastFetch.imp_right fun y => x.trans y) Or.inl
  msPortA := k.msPortA.elim (fun x => h.msPortA.imp_right fun y => x.trans y) Or.inl
  msPortB := k.msPortB.elim (fun x => h.msPortB.imp_right fun y => x.trans y) Or.inl
  msSide := k.msSide.elim (fun x => h.msSide.imp_right fun y => x.trans y) Or.inl
  msEasel := k.msEasel.elim (fun x => h.msEasel.imp_right fun y => x.trans y) Or.inl
  accs := k.accs.elim (fun x => h.accs.imp_right fun y => x.trans y) Or.inl
  accNo := k.accNo.elim (fun x => h.accNo.imp_right fun y => x.trans y) Or.inl
  sq := k.sq.elim (fun x => h.sq.imp_right fun y => x.trans y) Or.inl
  seqMiss := k.seqMiss.elim (fun x => h.seqMiss.imp_right fun y => x.trans y) Or.inl
  lkIgnore := k.lkIgnore.elim (fun x => h.lkIgnore.imp_right fun y => x.trans y) Or.inl
  regFix := k.regFix.elim (fun x => h.regFix.imp_right fun y => x.trans y) Or.inl
  upsets := k.upsets.elim (fun x => h.upsets.imp_right fun y => x.trans y) Or.inl
  objs := k.objs.elim (fun x => h.objs.imp_right fun y => x.trans y) Or.inl
  sysExts := k.sysExts.elim (fun x => h.sysExts.imp_right fun y => x.trans y) Or.inl
  pfEnts := k.pfEnts.elim (fun x => h.pfEnts.imp_right fun y => x.trans y) Or.inl
  pfNo := k.pfNo.elim (fun x => h.pfNo.imp_right fun y => x.trans y) Or.inl
  seqs := k.seqs.elim (fun x => h.seqs.imp_right fun y => x.trans y) Or.inl
  commitNo := k.commitNo.elim (fun x => h.commitNo.imp_right fun y => x.trans y) Or.inl
  commitC := k.commitC.elim (fun x => h.commitC.imp_right fun y => x.trans y) Or.inl
  applying := k.applying.elim (fun x => h.applying.imp_right fun y => x.trans y) Or.inl
  spillPool := k.spillPool.elim (fun x => h.spillPool.imp_right fun y => x.trans y) Or.inl
  models := k.models.elim (fun x => h.models.imp_right fun y => x.trans y) Or.inl
  slices := k.slices.elim (fun x => h.slices.imp_right fun y => x.trans y) fun x => Or.inl x.1
  steps := k.steps.elim (fun x => h.steps.imp_right fun y => x.trans y) Or.inl
  mst := k.mst.elim (fun x => h.mst.imp_right fun y => x.trans y) Or.inl
  joinQ := k.joinQ.elim (fun x => h.joinQ.imp_right fun y => x.trans y) Or.inl
  tenQ := k.tenQ.elim (fun x => h.tenQ.imp_right fun y => x.trans y) Or.inl
  tenC := k.tenC.elim (fun x => h.tenC.imp_right fun y => x.trans y) Or.inl
  curTenant := k.curTenant.elim (fun x => h.curTenant.imp_right fun y => x.trans y) Or.inl
  lastTenant := k.lastTenant.elim (fun x => h.lastTenant.imp_right fun y => x.trans y) Or.inl
  turnStart := k.turnStart.elim (fun x => h.turnStart.imp_right fun y => x.trans y) Or.inl
  turnEnd := k.turnEnd.elim (fun x => h.turnEnd.imp_right fun y => x.trans y) Or.inl
  turnSteps := k.turnSteps.elim (fun x => h.turnSteps.imp_right fun y => x.trans y) Or.inl
  dies := k.dies.elim (fun x => h.dies.imp_right fun y => x.trans y) fun x => Or.inl x.1
  d2d := k.d2d.elim (fun x => h.d2d.imp_right fun y => x.trans y) fun x => Or.inl x.1
  noc := k.noc.elim (fun x => h.noc.imp_right fun y => x.trans y) Or.inl
  pals := k.pals.elim (fun x => h.pals.imp_right fun y => x.trans y) Or.inl
  chans := k.chans.elim (fun x => h.chans.imp_right fun y => x.trans y) fun x => Or.inl x.1
  grps := k.grps.elim (fun x => h.grps.imp_right fun y => x.trans y) fun x => Or.inl x.1
  flash := k.flash.elim (fun x => h.flash.imp_right fun y => x.trans y) Or.inl
  links := k.links.elim (fun x => h.links.imp_right fun y => x.trans y) fun x => Or.inl x.1
  bundleW := k.bundleW.elim (fun x => h.bundleW.imp_right fun y => x.trans y) Or.inl
  router := k.router.elim (fun x => h.router.imp_right fun y => x.trans y) Or.inl
  coord := k.coord.elim (fun x => h.coord.imp_right fun y => x.trans y) Or.inl
  power := k.power.elim (fun x => h.power.imp_right fun y => x.trans y) Or.inl
  mon := k.mon.elim (fun x => h.mon.imp_right fun y => x.trans y) Or.inl
  health := k.health.elim (fun x => h.health.imp_right fun y => x.trans y) Or.inl
  nor := k.nor.elim (fun x => h.nor.imp_right fun y => x.trans y) Or.inl
  clk := k.clk.elim (fun x => h.clk.imp_right fun y => x.trans y) Or.inl
  sec := h.sec.imp_right fun y => k.sec.trans y
  snap := k.snap.elim (fun x => h.snap.imp_right fun y => x.trans y) Or.inl
  side := k.side.elim (fun x => h.side.imp_right fun y => x.trans y) Or.inl
  tx := k.tx.elim (fun x => h.tx.imp_right fun y => x.trans y) Or.inl

/-- Security: an update that keeps fuses and keys. -/
theorem modSec_fr {w : Nat} {z s : State} (h : Frame w z s) (hw : Sub 0x400000000000000 w) {f : Sec → Sec} (hf : SecKeep s.sec (f s.sec)) :
    Frame w z (s.modSec f) where
  pending := h.pending
  okMem := h.okMem
  okA := h.okA
  okB := h.okB
  okShape := h.okShape
  okSec := h.okSec.trans hf
  fresh := h.fresh
  now := h.now
  mem := h.mem
  hostA := h.hostA
  hostB := h.hostB
  pa := h.pa
  pb := h.pb
  cmds := h.cmds
  cmdNo := h.cmdNo
  lastFetch := h.lastFetch
  msPortA := h.msPortA
  msPortB := h.msPortB
  msSide := h.msSide
  msEasel := h.msEasel
  accs := h.accs
  accNo := h.accNo
  sq := h.sq
  seqMiss := h.seqMiss
  lkIgnore := h.lkIgnore
  regFix := h.regFix
  upsets := h.upsets
  objs := h.objs
  sysExts := h.sysExts
  pfEnts := h.pfEnts
  pfNo := h.pfNo
  seqs := h.seqs
  commitNo := h.commitNo
  commitC := h.commitC
  applying := h.applying
  spillPool := h.spillPool
  models := h.models
  slices := h.slices
  steps := h.steps
  mst := h.mst
  joinQ := h.joinQ
  tenQ := h.tenQ
  tenC := h.tenC
  curTenant := h.curTenant
  lastTenant := h.lastTenant
  turnStart := h.turnStart
  turnEnd := h.turnEnd
  turnSteps := h.turnSteps
  dies := h.dies
  d2d := h.d2d
  noc := h.noc
  pals := h.pals
  chans := h.chans
  grps := h.grps
  flash := h.flash
  links := h.links
  bundleW := h.bundleW
  router := h.router
  coord := h.coord
  power := h.power
  mon := h.mon
  health := h.health
  nor := h.nor
  clk := h.clk
  sec := Or.inl hw
  snap := h.snap
  side := h.side
  tx := h.tx

/-- mem rewritten in canonical form. -/
theorem Frame.mem_set {w : Nat} {z s : State} (h : Frame w z s) (hw : Sub 0x4 w) (m : List Host.Cell) (k : Memory.wf s.mem = true → Memory.wf m = true) :
    Frame w z { s with mem := m } where
  pending := h.pending
  okMem := fun x => k (h.okMem x)
  okA := h.okA
  okB := h.okB
  okShape := h.okShape
  okSec := h.okSec
  fresh := h.fresh
  now := h.now
  mem := Or.inl hw
  hostA := h.hostA
  hostB := h.hostB
  pa := h.pa
  pb := h.pb
  cmds := h.cmds
  cmdNo := h.cmdNo
  lastFetch := h.lastFetch
  msPortA := h.msPortA
  msPortB := h.msPortB
  msSide := h.msSide
  msEasel := h.msEasel
  accs := h.accs
  accNo := h.accNo
  sq := h.sq
  seqMiss := h.seqMiss
  lkIgnore := h.lkIgnore
  regFix := h.regFix
  upsets := h.upsets
  objs := h.objs
  sysExts := h.sysExts
  pfEnts := h.pfEnts
  pfNo := h.pfNo
  seqs := h.seqs
  commitNo := h.commitNo
  commitC := h.commitC
  applying := h.applying
  spillPool := h.spillPool
  models := h.models
  slices := h.slices
  steps := h.steps
  mst := h.mst
  joinQ := h.joinQ
  tenQ := h.tenQ
  tenC := h.tenC
  curTenant := h.curTenant
  lastTenant := h.lastTenant
  turnStart := h.turnStart
  turnEnd := h.turnEnd
  turnSteps := h.turnSteps
  dies := h.dies
  d2d := h.d2d
  noc := h.noc
  pals := h.pals
  chans := h.chans
  grps := h.grps
  flash := h.flash
  links := h.links
  bundleW := h.bundleW
  router := h.router
  coord := h.coord
  power := h.power
  mon := h.mon
  health := h.health
  nor := h.nor
  clk := h.clk
  sec := h.sec
  snap := h.snap
  side := h.side
  tx := h.tx

/-- hostA rewritten in canonical form. -/
theorem Frame.hostA_set {w : Nat} {z s : State} (h : Frame w z s) (hw : Sub 0x8 w) (m : List Host.Cell) (k : Memory.wf s.hostA = true → Memory.wf m = true) :
    Frame w z { s with hostA := m } where
  pending := h.pending
  okMem := h.okMem
  okA := fun x => k (h.okA x)
  okB := h.okB
  okShape := h.okShape
  okSec := h.okSec
  fresh := h.fresh
  now := h.now
  mem := h.mem
  hostA := Or.inl hw
  hostB := h.hostB
  pa := h.pa
  pb := h.pb
  cmds := h.cmds
  cmdNo := h.cmdNo
  lastFetch := h.lastFetch
  msPortA := h.msPortA
  msPortB := h.msPortB
  msSide := h.msSide
  msEasel := h.msEasel
  accs := h.accs
  accNo := h.accNo
  sq := h.sq
  seqMiss := h.seqMiss
  lkIgnore := h.lkIgnore
  regFix := h.regFix
  upsets := h.upsets
  objs := h.objs
  sysExts := h.sysExts
  pfEnts := h.pfEnts
  pfNo := h.pfNo
  seqs := h.seqs
  commitNo := h.commitNo
  commitC := h.commitC
  applying := h.applying
  spillPool := h.spillPool
  models := h.models
  slices := h.slices
  steps := h.steps
  mst := h.mst
  joinQ := h.joinQ
  tenQ := h.tenQ
  tenC := h.tenC
  curTenant := h.curTenant
  lastTenant := h.lastTenant
  turnStart := h.turnStart
  turnEnd := h.turnEnd
  turnSteps := h.turnSteps
  dies := h.dies
  d2d := h.d2d
  noc := h.noc
  pals := h.pals
  chans := h.chans
  grps := h.grps
  flash := h.flash
  links := h.links
  bundleW := h.bundleW
  router := h.router
  coord := h.coord
  power := h.power
  mon := h.mon
  health := h.health
  nor := h.nor
  clk := h.clk
  sec := h.sec
  snap := h.snap
  side := h.side
  tx := h.tx

/-- hostB rewritten in canonical form. -/
theorem Frame.hostB_set {w : Nat} {z s : State} (h : Frame w z s) (hw : Sub 0x10 w) (m : List Host.Cell) (k : Memory.wf s.hostB = true → Memory.wf m = true) :
    Frame w z { s with hostB := m } where
  pending := h.pending
  okMem := h.okMem
  okA := h.okA
  okB := fun x => k (h.okB x)
  okShape := h.okShape
  okSec := h.okSec
  fresh := h.fresh
  now := h.now
  mem := h.mem
  hostA := h.hostA
  hostB := Or.inl hw
  pa := h.pa
  pb := h.pb
  cmds := h.cmds
  cmdNo := h.cmdNo
  lastFetch := h.lastFetch
  msPortA := h.msPortA
  msPortB := h.msPortB
  msSide := h.msSide
  msEasel := h.msEasel
  accs := h.accs
  accNo := h.accNo
  sq := h.sq
  seqMiss := h.seqMiss
  lkIgnore := h.lkIgnore
  regFix := h.regFix
  upsets := h.upsets
  objs := h.objs
  sysExts := h.sysExts
  pfEnts := h.pfEnts
  pfNo := h.pfNo
  seqs := h.seqs
  commitNo := h.commitNo
  commitC := h.commitC
  applying := h.applying
  spillPool := h.spillPool
  models := h.models
  slices := h.slices
  steps := h.steps
  mst := h.mst
  joinQ := h.joinQ
  tenQ := h.tenQ
  tenC := h.tenC
  curTenant := h.curTenant
  lastTenant := h.lastTenant
  turnStart := h.turnStart
  turnEnd := h.turnEnd
  turnSteps := h.turnSteps
  dies := h.dies
  d2d := h.d2d
  noc := h.noc
  pals := h.pals
  chans := h.chans
  grps := h.grps
  flash := h.flash
  links := h.links
  bundleW := h.bundleW
  router := h.router
  coord := h.coord
  power := h.power
  mon := h.mon
  health := h.health
  nor := h.nor
  clk := h.clk
  sec := h.sec
  snap := h.snap
  side := h.side
  tx := h.tx

/-! Record updates, by the fields they change. -/

theorem Frame.upd_pa {w : Nat} {z s : State} {v_pa : PortSt} (h : Frame w z s) (hb : Sub 0x20 w) :
    Frame w z { s with pa := v_pa } :=
  h.set (Eq.refl _) (by constructor <;> first | exact Or.inl (Eq.refl _) | exact Or.inr (Sub.trans (Sub.mk (by decide)) hb) | exact Eq.refl _)

theorem Frame.upd_pb {w : Nat} {z s : State} {v_pb : PortSt} (h : Frame w z s) (hb : Sub 0x40 w) :
    Frame w z { s with pb := v_pb } :=
  h.set (Eq.refl _) (by constructor <;> first | exact Or.inl (Eq.refl _) | exact Or.inr (Sub.trans (Sub.mk (by decide)) hb) | exact Eq.refl _)

theorem Frame.upd_msPortA {w : Nat} {z s : State} {v_msPortA : MasterSt} (h : Frame w z s) (hb : Sub 0x400 w) :
    Frame w z { s with msPortA := v_msPortA } :=
  h.set (Eq.refl _) (by constructor <;> first | exact Or.inl (Eq.refl _) | exact Or.inr (Sub.trans (Sub.mk (by decide)) hb) | exact Eq.refl _)

theorem Frame.upd_msPortB {w : Nat} {z s : State} {v_msPortB : MasterSt} (h : Frame w z s) (hb : Sub 0x800 w) :
    Frame w z { s with msPortB := v_msPortB } :=
  h.set (Eq.refl _) (by constructor <;> first | exact Or.inl (Eq.refl _) | exact Or.inr (Sub.trans (Sub.mk (by decide)) hb) | exact Eq.refl _)

theorem Frame.upd_msSide {w : Nat} {z s : State} {v_msSide : MasterSt} (h : Frame w z s) (hb : Sub 0x1000 w) :
    Frame w z { s with msSide := v_msSide } :=
  h.set (Eq.refl _) (by constructor <;> first | exact Or.inl (Eq.refl _) | exact Or.inr (Sub.trans (Sub.mk (by decide)) hb) | exact Eq.refl _)

theorem Frame.upd_msEasel {w : Nat} {z s : State} {v_msEasel : MasterSt} (h : Frame w z s) (hb : Sub 0x2000 w) :
    Frame w z { s with msEasel := v_msEasel } :=
  h.set (Eq.refl _) (by constructor <;> first | exact Or.inl (Eq.refl _) | exact Or.inr (Sub.trans (Sub.mk (by decide)) hb) | exact Eq.refl _)

theorem Frame.upd_dies {w : Nat} {z s : State} {v_dies : List Die} (h : Frame w z s) (hb : Sub 0x40000000000 w) (l_dies : v_dies.length = s.dies.length) :
    Frame w z { s with dies := v_dies } :=
  h.set (Eq.refl _) (by constructor <;> first | exact Or.inl (Eq.refl _) | exact Or.inr (Sub.trans (Sub.mk (by decide)) hb) | exact Eq.refl _ | exact Or.inr ⟨Sub.trans (Sub.mk (by decide)) hb, l_dies⟩)

theorem Frame.upd_slices {w : Nat} {z s : State} {v_slices : List Slice} (h : Frame w z s) (hb : Sub 0x80000000 w) (l_slices : v_slices.length = s.slices.length) :
    Frame w z { s with slices := v_slices } :=
  h.set (Eq.refl _) (by constructor <;> first | exact Or.inl (Eq.refl _) | exact Or.inr (Sub.trans (Sub.mk (by decide)) hb) | exact Eq.refl _ | exact Or.inr ⟨Sub.trans (Sub.mk (by decide)) hb, l_slices⟩)

theorem Frame.upd_links {w : Nat} {z s : State} {v_links : List Link} (h : Frame w z s) (hb : Sub 0x2000000000000 w) (l_links : v_links.length = s.links.length) :
    Frame w z { s with links := v_links } :=
  h.set (Eq.refl _) (by constructor <;> first | exact Or.inl (Eq.refl _) | exact Or.inr (Sub.trans (Sub.mk (by decide)) hb) | exact Eq.refl _ | exact Or.inr ⟨Sub.trans (Sub.mk (by decide)) hb, l_links⟩)

theorem Frame.upd_power {w : Nat} {z s : State} {v_power : Power} (h : Frame w z s) (hb : Sub 0x20000000000000 w) :
    Frame w z { s with power := v_power } :=
  h.set (Eq.refl _) (by constructor <;> first | exact Or.inl (Eq.refl _) | exact Or.inr (Sub.trans (Sub.mk (by decide)) hb) | exact Eq.refl _)

theorem Frame.upd_mon {w : Nat} {z s : State} {v_mon : Mon} (h : Frame w z s) (hb : Sub 0x40000000000000 w) :
    Frame w z { s with mon := v_mon } :=
  h.set (Eq.refl _) (by constructor <;> first | exact Or.inl (Eq.refl _) | exact Or.inr (Sub.trans (Sub.mk (by decide)) hb) | exact Eq.refl _)

theorem Frame.upd_health {w : Nat} {z s : State} {v_health : Health} (h : Frame w z s) (hb : Sub 0x80000000000000 w) :
    Frame w z { s with health := v_health } :=
  h.set (Eq.refl _) (by constructor <;> first | exact Or.inl (Eq.refl _) | exact Or.inr (Sub.trans (Sub.mk (by decide)) hb) | exact Eq.refl _)

theorem Frame.upd_snap {w : Nat} {z s : State} {v_snap : Snap} (h : Frame w z s) (hb : Sub 0x800000000000000 w) :
    Frame w z { s with snap := v_snap } :=
  h.set (Eq.refl _) (by constructor <;> first | exact Or.inl (Eq.refl _) | exact Or.inr (Sub.trans (Sub.mk (by decide)) hb) | exact Eq.refl _)

theorem Frame.upd_flash {w : Nat} {z s : State} {v_flash : Flash} (h : Frame w z s) (hb : Sub 0x1000000000000 w) :
    Frame w z { s with flash := v_flash } :=
  h.set (Eq.refl _) (by constructor <;> first | exact Or.inl (Eq.refl _) | exact Or.inr (Sub.trans (Sub.mk (by decide)) hb) | exact Eq.refl _)

theorem Frame.upd_clk {w : Nat} {z s : State} {v_clk : Clk} (h : Frame w z s) (hb : Sub 0x200000000000000 w) :
    Frame w z { s with clk := v_clk } :=
  h.set (Eq.refl _) (by constructor <;> first | exact Or.inl (Eq.refl _) | exact Or.inr (Sub.trans (Sub.mk (by decide)) hb) | exact Eq.refl _)

theorem Frame.upd_nor {w : Nat} {z s : State} {v_nor : Nor} (h : Frame w z s) (hb : Sub 0x100000000000000 w) :
    Frame w z { s with nor := v_nor } :=
  h.set (Eq.refl _) (by constructor <;> first | exact Or.inl (Eq.refl _) | exact Or.inr (Sub.trans (Sub.mk (by decide)) hb) | exact Eq.refl _)

theorem Frame.upd_objs {w : Nat} {z s : State} {v_objs : List Obj} (h : Frame w z s) (hb : Sub 0x200000 w) :
    Frame w z { s with objs := v_objs } :=
  h.set (Eq.refl _) (by constructor <;> first | exact Or.inl (Eq.refl _) | exact Or.inr (Sub.trans (Sub.mk (by decide)) hb) | exact Eq.refl _)

theorem Frame.upd_seqs {w : Nat} {z s : State} {v_seqs : List Seq} (h : Frame w z s) (hb : Sub 0x2000000 w) :
    Frame w z { s with seqs := v_seqs } :=
  h.set (Eq.refl _) (by constructor <;> first | exact Or.inl (Eq.refl _) | exact Or.inr (Sub.trans (Sub.mk (by decide)) hb) | exact Eq.refl _)

theorem Frame.upd_models {w : Nat} {z s : State} {v_models : List Model} (h : Frame w z s) (hb : Sub 0x40000000 w) :
    Frame w z { s with models := v_models } :=
  h.set (Eq.refl _) (by constructor <;> first | exact Or.inl (Eq.refl _) | exact Or.inr (Sub.trans (Sub.mk (by decide)) hb) | exact Eq.refl _)

theorem Frame.upd_steps {w : Nat} {z s : State} {v_steps : List Step} (h : Frame w z s) (hb : Sub 0x100000000 w) :
    Frame w z { s with steps := v_steps } :=
  h.set (Eq.refl _) (by constructor <;> first | exact Or.inl (Eq.refl _) | exact Or.inr (Sub.trans (Sub.mk (by decide)) hb) | exact Eq.refl _)

theorem Frame.upd_tx {w : Nat} {z s : State} {v_tx : List Tx} (h : Frame w z s) (hb : Sub 0x2000000000000000 w) :
    Frame w z { s with tx := v_tx } :=
  h.set (Eq.refl _) (by constructor <;> first | exact Or.inl (Eq.refl _) | exact Or.inr (Sub.trans (Sub.mk (by decide)) hb) | exact Eq.refl _)

theorem Frame.upd_fresh {w : Nat} {z s : State} {v_fresh : Nat} (h : Frame w z s) (hb : Sub 0x1 w) :
    Frame w z { s with fresh := v_fresh } :=
  h.set (Eq.refl _) (by constructor <;> first | exact Or.inl (Eq.refl _) | exact Or.inr (Sub.trans (Sub.mk (by decide)) hb) | exact Eq.refl _)

theorem Frame.upd_sq {w : Nat} {z s : State} {v_sq : List (SqReg × SqState)} (h : Frame w z s) (hb : Sub 0x10000 w) :
    Frame w z { s with sq := v_sq } :=
  h.set (Eq.refl _) (by constructor <;> first | exact Or.inl (Eq.refl _) | exact Or.inr (Sub.trans (Sub.mk (by decide)) hb) | exact Eq.refl _)

theorem Frame.upd_now {w : Nat} {z s : State} {v_now : Nat} (h : Frame w z s) (hb : Sub 0x2 w) :
    Frame w z { s with now := v_now } :=
  h.set (Eq.refl _) (by constructor <;> first | exact Or.inl (Eq.refl _) | exact Or.inr (Sub.trans (Sub.mk (by decide)) hb) | exact Eq.refl _)

theorem Frame.upd_grps {w : Nat} {z s : State} {v_grps : List Grp} (h : Frame w z s) (hb : Sub 0x800000000000 w) (l_grps : v_grps.length = s.grps.length) :
    Frame w z { s with grps := v_grps } :=
  h.set (Eq.refl _) (by constructor <;> first | exact Or.inl (Eq.refl _) | exact Or.inr (Sub.trans (Sub.mk (by decide)) hb) | exact Eq.refl _ | exact Or.inr ⟨Sub.trans (Sub.mk (by decide)) hb, l_grps⟩)

theorem Frame.upd_sysExts {w : Nat} {z s : State} {v_sysExts : List SysExt} (h : Frame w z s) (hb : Sub 0x400000 w) :
    Frame w z { s with sysExts := v_sysExts } :=
  h.set (Eq.refl _) (by constructor <;> first | exact Or.inl (Eq.refl _) | exact Or.inr (Sub.trans (Sub.mk (by decide)) hb) | exact Eq.refl _)

theorem Frame.upd_pfEnts {w : Nat} {z s : State} {v_pfEnts : List PfEnt} (h : Frame w z s) (hb : Sub 0x800000 w) :
    Frame w z { s with pfEnts := v_pfEnts } :=
  h.set (Eq.refl _) (by constructor <;> first | exact Or.inl (Eq.refl _) | exact Or.inr (Sub.trans (Sub.mk (by decide)) hb) | exact Eq.refl _)

theorem Frame.upd_cmds {w : Nat} {z s : State} {v_cmds : List CmdSlot} (h : Frame w z s) (hb : Sub 0x80 w) :
    Frame w z { s with cmds := v_cmds } :=
  h.set (Eq.refl _) (by constructor <;> first | exact Or.inl (Eq.refl _) | exact Or.inr (Sub.trans (Sub.mk (by decide)) hb) | exact Eq.refl _)

theorem Frame.upd_accs {w : Nat} {z s : State} {v_accs : List (Master × PwBlk × AccState)} (h : Frame w z s) (hb : Sub 0x4000 w) :
    Frame w z { s with accs := v_accs } :=
  h.set (Eq.refl _) (by constructor <;> first | exact Or.inl (Eq.refl _) | exact Or.inr (Sub.trans (Sub.mk (by decide)) hb) | exact Eq.refl _)

theorem Frame.upd_tenQ {w : Nat} {z s : State} {v_tenQ : List Nat} (h : Frame w z s) (hb : Sub 0x800000000 w) :
    Frame w z { s with tenQ := v_tenQ } :=
  h.set (Eq.refl _) (by constructor <;> first | exact Or.inl (Eq.refl _) | exact Or.inr (Sub.trans (Sub.mk (by decide)) hb) | exact Eq.refl _)

theorem Frame.upd_noc {w : Nat} {z s : State} {v_noc : List NocMsg} (h : Frame w z s) (hb : Sub 0x100000000000 w) :
    Frame w z { s with noc := v_noc } :=
  h.set (Eq.refl _) (by constructor <;> first | exact Or.inl (Eq.refl _) | exact Or.inr (Sub.trans (Sub.mk (by decide)) hb) | exact Eq.refl _)

theorem Frame.upd_spillPool {w : Nat} {z s : State} {v_spillPool : Nat} (h : Frame w z s) (hb : Sub 0x20000000 w) :
    Frame w z { s with spillPool := v_spillPool } :=
  h.set (Eq.refl _) (by constructor <;> first | exact Or.inl (Eq.refl _) | exact Or.inr (Sub.trans (Sub.mk (by decide)) hb) | exact Eq.refl _)

theorem Frame.upd_mst {w : Nat} {z s : State} {v_mst : List MasterStep} (h : Frame w z s) (hb : Sub 0x200000000 w) :
    Frame w z { s with mst := v_mst } :=
  h.set (Eq.refl _) (by constructor <;> first | exact Or.inl (Eq.refl _) | exact Or.inr (Sub.trans (Sub.mk (by decide)) hb) | exact Eq.refl _)

theorem Frame.upd_pfNo {w : Nat} {z s : State} {v_pfNo : Nat} (h : Frame w z s) (hb : Sub 0x1000000 w) :
    Frame w z { s with pfNo := v_pfNo } :=
  h.set (Eq.refl _) (by constructor <;> first | exact Or.inl (Eq.refl _) | exact Or.inr (Sub.trans (Sub.mk (by decide)) hb) | exact Eq.refl _)

theorem Frame.upd_router {w : Nat} {z s : State} {v_router : Router} (h : Frame w z s) (hb : Sub 0x8000000000000 w) :
    Frame w z { s with router := v_router } :=
  h.set (Eq.refl _) (by constructor <;> first | exact Or.inl (Eq.refl _) | exact Or.inr (Sub.trans (Sub.mk (by decide)) hb) | exact Eq.refl _)

theorem Frame.upd_joinQ {w : Nat} {z s : State} {v_joinQ : List SliceMsg} (h : Frame w z s) (hb : Sub 0x400000000 w) :
    Frame w z { s with joinQ := v_joinQ } :=
  h.set (Eq.refl _) (by constructor <;> first | exact Or.inl (Eq.refl _) | exact Or.inr (Sub.trans (Sub.mk (by decide)) hb) | exact Eq.refl _)

theorem Frame.upd_tenC_lastTenant {w : Nat} {z s : State} {v_tenC : List Nat} {v_lastTenant : Nat} (h : Frame w z s) (hb : Sub 0x5000000000 w) :
    Frame w z { s with tenC := v_tenC, lastTenant := v_lastTenant } :=
  h.set (Eq.refl _) (by constructor <;> first | exact Or.inl (Eq.refl _) | exact Or.inr (Sub.trans (Sub.mk (by decide)) hb) | exact Eq.refl _)

theorem Frame.upd_curTenant_turnStart_turnEnd {w : Nat} {z s : State} {v_curTenant : Option Nat} {v_turnStart : Option Nat} {v_turnEnd : Option Nat} (h : Frame w z s) (hb : Sub 0x1a000000000 w) :
    Frame w z { s with curTenant := v_curTenant, turnStart := v_turnStart, turnEnd := v_turnEnd } :=
  h.set (Eq.refl _) (by constructor <;> first | exact Or.inl (Eq.refl _) | exact Or.inr (Sub.trans (Sub.mk (by decide)) hb) | exact Eq.refl _)

theorem Frame.upd_turnStart_turnEnd {w : Nat} {z s : State} {v_turnStart : Option Nat} {v_turnEnd : Option Nat} (h : Frame w z s) (hb : Sub 0x18000000000 w) :
    Frame w z { s with turnStart := v_turnStart, turnEnd := v_turnEnd } :=
  h.set (Eq.refl _) (by constructor <;> first | exact Or.inl (Eq.refl _) | exact Or.inr (Sub.trans (Sub.mk (by decide)) hb) | exact Eq.refl _)

theorem Frame.upd_curTenant_lastTenant_turnStart_turnEnd {w : Nat} {z s : State} {v_curTenant : Option Nat} {v_lastTenant : Nat} {v_turnStart : Option Nat} {v_turnEnd : Option Nat} (h : Frame w z s) (hb : Sub 0x1e000000000 w) :
    Frame w z { s with curTenant := v_curTenant, lastTenant := v_lastTenant, turnStart := v_turnStart, turnEnd := v_turnEnd } :=
  h.set (Eq.refl _) (by constructor <;> first | exact Or.inl (Eq.refl _) | exact Or.inr (Sub.trans (Sub.mk (by decide)) hb) | exact Eq.refl _)

theorem Frame.upd_turnSteps {w : Nat} {z s : State} {v_turnSteps : List (Nat × Nat × Nat × Nat)} (h : Frame w z s) (hb : Sub 0x20000000000 w) :
    Frame w z { s with turnSteps := v_turnSteps } :=
  h.set (Eq.refl _) (by constructor <;> first | exact Or.inl (Eq.refl _) | exact Or.inr (Sub.trans (Sub.mk (by decide)) hb) | exact Eq.refl _)

theorem Frame.upd_tenC {w : Nat} {z s : State} {v_tenC : List Nat} (h : Frame w z s) (hb : Sub 0x1000000000 w) :
    Frame w z { s with tenC := v_tenC } :=
  h.set (Eq.refl _) (by constructor <;> first | exact Or.inl (Eq.refl _) | exact Or.inr (Sub.trans (Sub.mk (by decide)) hb) | exact Eq.refl _)

theorem Frame.upd_commitNo {w : Nat} {z s : State} {v_commitNo : Nat} (h : Frame w z s) (hb : Sub 0x4000000 w) :
    Frame w z { s with commitNo := v_commitNo } :=
  h.set (Eq.refl _) (by constructor <;> first | exact Or.inl (Eq.refl _) | exact Or.inr (Sub.trans (Sub.mk (by decide)) hb) | exact Eq.refl _)

theorem Frame.upd_commitNo_commitC {w : Nat} {z s : State} {v_commitNo : Nat} {v_commitC : Nat} (h : Frame w z s) (hb : Sub 0xc000000 w) :
    Frame w z { s with commitNo := v_commitNo, commitC := v_commitC } :=
  h.set (Eq.refl _) (by constructor <;> first | exact Or.inl (Eq.refl _) | exact Or.inr (Sub.trans (Sub.mk (by decide)) hb) | exact Eq.refl _)

theorem Frame.upd_chans {w : Nat} {z s : State} {v_chans : List Chan} (h : Frame w z s) (hb : Sub 0x400000000000 w) (l_chans : v_chans.length = s.chans.length) :
    Frame w z { s with chans := v_chans } :=
  h.set (Eq.refl _) (by constructor <;> first | exact Or.inl (Eq.refl _) | exact Or.inr (Sub.trans (Sub.mk (by decide)) hb) | exact Eq.refl _ | exact Or.inr ⟨Sub.trans (Sub.mk (by decide)) hb, l_chans⟩)

theorem Frame.upd_bundleW {w : Nat} {z s : State} {v_bundleW : List (Ref × List Nat)} (h : Frame w z s) (hb : Sub 0x4000000000000 w) :
    Frame w z { s with bundleW := v_bundleW } :=
  h.set (Eq.refl _) (by constructor <;> first | exact Or.inl (Eq.refl _) | exact Or.inr (Sub.trans (Sub.mk (by decide)) hb) | exact Eq.refl _)

theorem Frame.upd_lkIgnore {w : Nat} {z s : State} {v_lkIgnore : Nat} (h : Frame w z s) (hb : Sub 0x40000 w) :
    Frame w z { s with lkIgnore := v_lkIgnore } :=
  h.set (Eq.refl _) (by constructor <;> first | exact Or.inl (Eq.refl _) | exact Or.inr (Sub.trans (Sub.mk (by decide)) hb) | exact Eq.refl _)

theorem Frame.upd_coord {w : Nat} {z s : State} {v_coord : Coord} (h : Frame w z s) (hb : Sub 0x10000000000000 w) :
    Frame w z { s with coord := v_coord } :=
  h.set (Eq.refl _) (by constructor <;> first | exact Or.inl (Eq.refl _) | exact Or.inr (Sub.trans (Sub.mk (by decide)) hb) | exact Eq.refl _)

theorem Frame.upd_noc_grps {w : Nat} {z s : State} {v_noc : List NocMsg} {v_grps : List Grp} (h : Frame w z s) (hb : Sub 0x900000000000 w) (l_grps : v_grps.length = s.grps.length) :
    Frame w z { s with noc := v_noc, grps := v_grps } :=
  h.set (Eq.refl _) (by constructor <;> first | exact Or.inl (Eq.refl _) | exact Or.inr (Sub.trans (Sub.mk (by decide)) hb) | exact Eq.refl _ | exact Or.inr ⟨Sub.trans (Sub.mk (by decide)) hb, l_grps⟩)

theorem Frame.upd_d2d {w : Nat} {z s : State} {v_d2d : List D2d} (h : Frame w z s) (hb : Sub 0x80000000000 w) (l_d2d : v_d2d.length = s.d2d.length) :
    Frame w z { s with d2d := v_d2d } :=
  h.set (Eq.refl _) (by constructor <;> first | exact Or.inl (Eq.refl _) | exact Or.inr (Sub.trans (Sub.mk (by decide)) hb) | exact Eq.refl _ | exact Or.inr ⟨Sub.trans (Sub.mk (by decide)) hb, l_d2d⟩)

theorem Frame.upd_regFix_upsets {w : Nat} {z s : State} {v_regFix : Nat} {v_upsets : List (Nat × W32)} (h : Frame w z s) (hb : Sub 0x180000 w) :
    Frame w z { s with regFix := v_regFix, upsets := v_upsets } :=
  h.set (Eq.refl _) (by constructor <;> first | exact Or.inl (Eq.refl _) | exact Or.inr (Sub.trans (Sub.mk (by decide)) hb) | exact Eq.refl _)

theorem Frame.upd_side {w : Nat} {z s : State} {v_side : Side} (h : Frame w z s) (hb : Sub 0x1000000000000000 w) :
    Frame w z { s with side := v_side } :=
  h.set (Eq.refl _) (by constructor <;> first | exact Or.inl (Eq.refl _) | exact Or.inr (Sub.trans (Sub.mk (by decide)) hb) | exact Eq.refl _)

theorem Frame.upd_pals {w : Nat} {z s : State} {v_pals : List Palette} (h : Frame w z s) (hb : Sub 0x200000000000 w) :
    Frame w z { s with pals := v_pals } :=
  h.set (Eq.refl _) (by constructor <;> first | exact Or.inl (Eq.refl _) | exact Or.inr (Sub.trans (Sub.mk (by decide)) hb) | exact Eq.refl _)

theorem Frame.upd_seqMiss {w : Nat} {z s : State} {v_seqMiss : Nat} (h : Frame w z s) (hb : Sub 0x20000 w) :
    Frame w z { s with seqMiss := v_seqMiss } :=
  h.set (Eq.refl _) (by constructor <;> first | exact Or.inl (Eq.refl _) | exact Or.inr (Sub.trans (Sub.mk (by decide)) hb) | exact Eq.refl _)

theorem Frame.upd_accNo {w : Nat} {z s : State} {v_accNo : Nat} (h : Frame w z s) (hb : Sub 0x8000 w) :
    Frame w z { s with accNo := v_accNo } :=
  h.set (Eq.refl _) (by constructor <;> first | exact Or.inl (Eq.refl _) | exact Or.inr (Sub.trans (Sub.mk (by decide)) hb) | exact Eq.refl _)

theorem Frame.upd_now_pa_pb {w : Nat} {z s : State} {v_now : Nat} {v_pa : PortSt} {v_pb : PortSt} (h : Frame w z s) (hb : Sub 0x62 w) :
    Frame w z { s with now := v_now, pa := v_pa, pb := v_pb } :=
  h.set (Eq.refl _) (by constructor <;> first | exact Or.inl (Eq.refl _) | exact Or.inr (Sub.trans (Sub.mk (by decide)) hb) | exact Eq.refl _)

theorem Frame.upd_cmds_cmdNo {w : Nat} {z s : State} {v_cmds : List CmdSlot} {v_cmdNo : Nat} (h : Frame w z s) (hb : Sub 0x180 w) :
    Frame w z { s with cmds := v_cmds, cmdNo := v_cmdNo } :=
  h.set (Eq.refl _) (by constructor <;> first | exact Or.inl (Eq.refl _) | exact Or.inr (Sub.trans (Sub.mk (by decide)) hb) | exact Eq.refl _)

theorem Frame.upd_lastFetch {w : Nat} {z s : State} {v_lastFetch : Port} (h : Frame w z s) (hb : Sub 0x200 w) :
    Frame w z { s with lastFetch := v_lastFetch } :=
  h.set (Eq.refl _) (by constructor <;> first | exact Or.inl (Eq.refl _) | exact Or.inr (Sub.trans (Sub.mk (by decide)) hb) | exact Eq.refl _)


/-- Use what is proved of a state. -/
theorem Frame.cut {w : Nat} {z x : State} {p : Prop} (h : Frame w z x) (k : Frame w z x → p) : p := k h

theorem Frame.cutS1 {w : Nat} {z : State} {x : State → State} {p : Prop} (h : ∀ s, Frame w z s → Frame w z (x s))
    (k : (∀ s, Frame w z s → Frame w z (x s)) → p) : p := k h

theorem Frame.cutS2 {w : Nat} {z : State} {α : Type} {x : State → α → State} {p : Prop} (h : ∀ s a, Frame w z s → Frame w z (x s a))
    (k : (∀ s a, Frame w z s → Frame w z (x s a)) → p) : p := k h

theorem Frame.cutF1 {w : Nat} {z : State} {α : Type} {x : α → State} {p : Prop} (h : ∀ a, Frame w z (x a))
    (k : (∀ a, Frame w z (x a)) → p) : p := k h

theorem Frame.cutF2 {w : Nat} {z : State} {α β : Type} {x : α → β → State} {p : Prop} (h : ∀ a b, Frame w z (x a b))
    (k : (∀ a b, Frame w z (x a b)) → p) : p := k h

theorem Frame.ite {w : Nat} {z s t : State} {p : Prop} [Decidable p] (h : Frame w z s) (k : Frame w z t) : Frame w z (if p then s else t) := by
  split
  · exact h
  · exact k

/-- A loop of operations. -/
theorem Frame.foldl {w : Nat} {z : State} {α : Type} {g : State → α → State} (hg : ∀ s x, Frame w z s → Frame w z (g s x)) :
    ∀ (l : List α) {s : State}, Frame w z s → Frame w z (l.foldl g s)
  | [], _, h => h
  | x :: t, _, h => Frame.foldl hg t (hg _ x h)

/-- The state of a pair that an operation answers. -/
theorem Frame.of_pair {w : Nat} {z s : State} {α : Type} {e : α × State} {a : α} (he : e = (a, s)) (h : Frame w z e.2) : Frame w z s := by
  rw [he] at h
  exact h

theorem Frame.of_pair' {w : Nat} {z s : State} {α : Type} {e : State × α} {a : α} (he : e = (s, a)) (h : Frame w z e.1) : Frame w z s := by
  rw [he] at h
  exact h

theorem Frame.mk1 {w : Nat} {z s : State} {α : Type} {a : α} (h : Frame w z s) : Frame w z (s, a).1 := h

theorem Frame.mk2 {w : Nat} {z s : State} {α : Type} {a : α} (h : Frame w z s) : Frame w z (a, s).2 := h

theorem Frame.foldl1 {w : Nat} {z : State} {α β : Type} {g : State × β → α → State × β}
    (hg : ∀ s x, Frame w z s.1 → Frame w z (g s x).1) : ∀ (l : List α) {s : State × β}, Frame w z s.1 → Frame w z (l.foldl g s).1
  | [], _, h => h
  | x :: t, _, h => Frame.foldl1 hg t (hg _ x h)

theorem Frame.foldl2 {w : Nat} {z : State} {α β : Type} {g : β × State → α → β × State}
    (hg : ∀ s x, Frame w z s.2 → Frame w z (g s x).2) : ∀ (l : List α) {s : β × State}, Frame w z s.2 → Frame w z (l.foldl g s).2
  | [], _, h => h
  | x :: t, _, h => Frame.foldl2 hg t (hg _ x h)

theorem Frame.foldlP {α β : Type} {g : β → α → β} {P : β → Prop} (hg : ∀ s x, P s → P (g s x)) :
    ∀ (l : List α) {s : β}, P s → P (l.foldl g s)
  | [], _, h => h
  | x :: t, _, h => Frame.foldlP hg t (hg _ x h)

/-- A state that an operation may not answer, with the state to take then. -/
theorem Frame.getD {w : Nat} {z s : State} {o : Option State} (h : ∀ t, o = some t → Frame w z t) (k : Frame w z s) : Frame w z (o.getD s) := by
  cases o with
  | none => exact k
  | some t => exact h t (Eq.refl _)

/-- A loop of operations any of which may not answer. -/
theorem Frame.foldBind {w : Nat} {z : State} {α : Type} {g : State → α → Option State}
    (hg : ∀ s x t, Frame w z s → g s x = some t → Frame w z t) : ∀ (l : List α) {o : Option State}, (∀ s, o = some s → Frame w z s) →
    ∀ t, l.foldl (fun o x => o.bind fun s => g s x) o = some t → Frame w z t
  | [], _, h, t, e => h t e
  | x :: l, _, h, t, e => Frame.foldBind hg l (fun s e => by
      obtain ⟨a, h1, h2⟩ := Option.bind_eq_some_iff.mp e
      exact hg a x s (h a h1) h2) t e

/-- Outcomes whose next state is framed. -/
structure FrameO (w : Nat) (z : State) (o : Host.Outcome State Fault Refusal) : Prop where
  of_next : ∀ t, o = .next t → Frame w z t

theorem FrameO.next {w : Nat} {z s : State} (h : Frame w z s) : FrameO w z (.next s) := ⟨fun _ e => by
  cases e
  exact h⟩

end Sys2Proof.Machine
end

