-- ==== Sys2Proof/Laws/FrameOps.lean ====
section
/-! SUPPORT. What each operation of Machine/Ops.lean may change. -/

set_option linter.all false

namespace Sys2Proof.Machine

open Sys2Proof

theorem State_setPort_fr {wF : Nat} {zF : State} {s : State} (p : Port) (x : PortSt) (hF : Frame wF zF s) (hW : Sub 0x60 wF) :
    Frame wF zF (State.setPort s p x) := by
  unfold State.setPort
  repeat' first
    | (with_reducible assumption)
    | (with_reducible exact hW)
    | (with_reducible exact Sub.trans (Sub.mk (by decide)) hW)
    | (with_reducible (apply Frame.of_pair; assumption))
    | (with_reducible (apply Frame.of_pair'; assumption))
    | ((fail_if_success split); with_reducible apply Frame.upd_pa)
    | ((fail_if_success split); with_reducible apply Frame.upd_pb)
    | split

theorem State_modPort_fr {wF : Nat} {zF : State} {s : State} (p : Port) (f : PortSt → PortSt) (hF : Frame wF zF s) (hW : Sub 0x60 wF) :
    Frame wF zF (State.modPort s p f) := by
  unfold State.modPort
  repeat' first
    | (with_reducible assumption)
    | (with_reducible exact hW)
    | (with_reducible exact Sub.trans (Sub.mk (by decide)) hW)
    | (with_reducible apply State_setPort_fr)

theorem State_setHostMem_fr {wF : Nat} {zF : State} {s : State} (p : Port) (m : List Host.Cell) (hF : Frame wF zF s) (hW : Sub 0x18 wF)
    (hm : Memory.wf (s.hostMem p) = true → Memory.wf m = true) : Frame wF zF (State.setHostMem s p m) := by
  cases p
  · exact Frame.hostA_set hF (Sub.trans (Sub.mk (by decide)) hW) m hm
  · exact Frame.hostB_set hF (Sub.trans (Sub.mk (by decide)) hW) m hm

theorem State_modMaster_fr {wF : Nat} {zF : State} {s : State} (m : Master) (f : MasterSt → MasterSt) (hF : Frame wF zF s) (hW : Sub 0x3c00 wF) :
    Frame wF zF (State.modMaster s m f) := by
  unfold State.modMaster
  repeat' first
    | (with_reducible assumption)
    | (with_reducible exact hW)
    | (with_reducible exact Sub.trans (Sub.mk (by decide)) hW)
    | (with_reducible (apply Frame.of_pair; assumption))
    | (with_reducible (apply Frame.of_pair'; assumption))
    | ((fail_if_success split); with_reducible apply Frame.upd_msPortA)
    | ((fail_if_success split); with_reducible apply Frame.upd_msPortB)
    | ((fail_if_success split); with_reducible apply Frame.upd_msSide)
    | ((fail_if_success split); with_reducible apply Frame.upd_msEasel)
    | split

theorem State_modDie_fr {wF : Nat} {zF : State} {s : State} (k : Nat) (f : Die → Die) (hF : Frame wF zF s) (hW : Sub 0x40000000000 wF) :
    Frame wF zF (State.modDie s k f) := by
  unfold State.modDie
  repeat' first
    | (with_reducible assumption)
    | (with_reducible exact hW)
    | (with_reducible exact Sub.trans (Sub.mk (by decide)) hW)
    | (with_reducible show List.length _ = List.length _; simp)
    | ((fail_if_success split); with_reducible apply Frame.upd_dies)

theorem State_modDies_fr {wF : Nat} {zF : State} {s : State} (f : Die → Die) (hF : Frame wF zF s) (hW : Sub 0x40000000000 wF) :
    Frame wF zF (State.modDies s f) := by
  unfold State.modDies
  repeat' first
    | (with_reducible assumption)
    | (with_reducible exact hW)
    | (with_reducible exact Sub.trans (Sub.mk (by decide)) hW)
    | (with_reducible show List.length _ = List.length _; simp)
    | ((fail_if_success split); with_reducible apply Frame.upd_dies)

theorem State_modSlc_fr {wF : Nat} {zF : State} {s : State} (h : Nat) (f : Slice → Slice) (hF : Frame wF zF s) (hW : Sub 0x80000000 wF) :
    Frame wF zF (State.modSlc s h f) := by
  unfold State.modSlc
  repeat' first
    | (with_reducible assumption)
    | (with_reducible exact hW)
    | (with_reducible exact Sub.trans (Sub.mk (by decide)) hW)
    | (with_reducible show List.length _ = List.length _; simp)
    | ((fail_if_success split); with_reducible apply Frame.upd_slices)

theorem State_modLink_fr {wF : Nat} {zF : State} {s : State} (i : Nat) (f : Link → Link) (hF : Frame wF zF s) (hW : Sub 0x2000000000000 wF) :
    Frame wF zF (State.modLink s i f) := by
  unfold State.modLink
  repeat' first
    | (with_reducible assumption)
    | (with_reducible exact hW)
    | (with_reducible exact Sub.trans (Sub.mk (by decide)) hW)
    | (with_reducible show List.length _ = List.length _; simp)
    | ((fail_if_success split); with_reducible apply Frame.upd_links)

theorem State_modPower_fr {wF : Nat} {zF : State} {s : State} (f : Power → Power) (hF : Frame wF zF s) (hW : Sub 0x20000000000000 wF) :
    Frame wF zF (State.modPower s f) := by
  unfold State.modPower
  repeat' first
    | (with_reducible assumption)
    | (with_reducible exact hW)
    | (with_reducible exact Sub.trans (Sub.mk (by decide)) hW)
    | ((fail_if_success split); with_reducible apply Frame.upd_power)

theorem State_modMon_fr {wF : Nat} {zF : State} {s : State} (f : Mon → Mon) (hF : Frame wF zF s) (hW : Sub 0x40000000000000 wF) :
    Frame wF zF (State.modMon s f) := by
  unfold State.modMon
  repeat' first
    | (with_reducible assumption)
    | (with_reducible exact hW)
    | (with_reducible exact Sub.trans (Sub.mk (by decide)) hW)
    | ((fail_if_success split); with_reducible apply Frame.upd_mon)

theorem State_modHealth_fr {wF : Nat} {zF : State} {s : State} (f : Health → Health) (hF : Frame wF zF s) (hW : Sub 0x80000000000000 wF) :
    Frame wF zF (State.modHealth s f) := by
  unfold State.modHealth
  repeat' first
    | (with_reducible assumption)
    | (with_reducible exact hW)
    | (with_reducible exact Sub.trans (Sub.mk (by decide)) hW)
    | ((fail_if_success split); with_reducible apply Frame.upd_health)

theorem State_modSec_fr {wF : Nat} {zF : State} {s : State} (f : Sec → Sec) (hF : Frame wF zF s) (hW : Sub 0x400000000000000 wF)
    (hf : SecKeep s.sec (f s.sec)) : Frame wF zF (State.modSec s f) := modSec_fr hF hW hf

theorem State_modSnap_fr {wF : Nat} {zF : State} {s : State} (f : Snap → Snap) (hF : Frame wF zF s) (hW : Sub 0x800000000000000 wF) :
    Frame wF zF (State.modSnap s f) := by
  unfold State.modSnap
  repeat' first
    | (with_reducible assumption)
    | (with_reducible exact hW)
    | (with_reducible exact Sub.trans (Sub.mk (by decide)) hW)
    | ((fail_if_success split); with_reducible apply Frame.upd_snap)

theorem State_modFlash_fr {wF : Nat} {zF : State} {s : State} (f : Flash → Flash) (hF : Frame wF zF s) (hW : Sub 0x1000000000000 wF) :
    Frame wF zF (State.modFlash s f) := by
  unfold State.modFlash
  repeat' first
    | (with_reducible assumption)
    | (with_reducible exact hW)
    | (with_reducible exact Sub.trans (Sub.mk (by decide)) hW)
    | ((fail_if_success split); with_reducible apply Frame.upd_flash)

theorem State_modClk_fr {wF : Nat} {zF : State} {s : State} (f : Clk → Clk) (hF : Frame wF zF s) (hW : Sub 0x200000000000000 wF) :
    Frame wF zF (State.modClk s f) := by
  unfold State.modClk
  repeat' first
    | (with_reducible assumption)
    | (with_reducible exact hW)
    | (with_reducible exact Sub.trans (Sub.mk (by decide)) hW)
    | ((fail_if_success split); with_reducible apply Frame.upd_clk)

theorem State_modNor_fr {wF : Nat} {zF : State} {s : State} (f : Nor → Nor) (hF : Frame wF zF s) (hW : Sub 0x100000000000000 wF) :
    Frame wF zF (State.modNor s f) := by
  unfold State.modNor
  repeat' first
    | (with_reducible assumption)
    | (with_reducible exact hW)
    | (with_reducible exact Sub.trans (Sub.mk (by decide)) hW)
    | ((fail_if_success split); with_reducible apply Frame.upd_nor)

theorem State_modObj_fr {wF : Nat} {zF : State} {s : State} (id : Nat) (f : Obj → Obj) (hF : Frame wF zF s) (hW : Sub 0x200000 wF) :
    Frame wF zF (State.modObj s id f) := by
  unfold State.modObj
  repeat' first
    | (with_reducible assumption)
    | (with_reducible exact hW)
    | (with_reducible exact Sub.trans (Sub.mk (by decide)) hW)
    | (intro _)
    | ((fail_if_success split); with_reducible apply Frame.upd_objs)
    | split

theorem State_modPool_fr {wF : Nat} {zF : State} {s : State} (id : Nat) (f : Pool → Pool) (hF : Frame wF zF s) (hW : Sub 0x200000 wF) :
    Frame wF zF (State.modPool s id f) := by
  unfold State.modPool
  repeat' first
    | (with_reducible assumption)
    | (with_reducible exact hW)
    | (with_reducible exact Sub.trans (Sub.mk (by decide)) hW)
    | (with_reducible apply State_modObj_fr)
    | (intro _)

theorem State_modSeq_fr {wF : Nat} {zF : State} {s : State} (h : Nat) (f : Seq → Seq) (hF : Frame wF zF s) (hW : Sub 0x2000000 wF) :
    Frame wF zF (State.modSeq s h f) := by
  unfold State.modSeq
  repeat' first
    | (with_reducible assumption)
    | (with_reducible exact hW)
    | (with_reducible exact Sub.trans (Sub.mk (by decide)) hW)
    | (intro _)
    | ((fail_if_success split); with_reducible apply Frame.upd_seqs)
    | split

theorem State_modModel_fr {wF : Nat} {zF : State} {s : State} (h : Nat) (f : Model → Model) (hF : Frame wF zF s) (hW : Sub 0x40000000 wF) :
    Frame wF zF (State.modModel s h f) := by
  unfold State.modModel
  repeat' first
    | (with_reducible assumption)
    | (with_reducible exact hW)
    | (with_reducible exact Sub.trans (Sub.mk (by decide)) hW)
    | (intro _)
    | ((fail_if_success split); with_reducible apply Frame.upd_models)
    | split

theorem State_modStep_fr {wF : Nat} {zF : State} {s : State} (slice : Nat) (id : Nat) (f : Step → Step) (hF : Frame wF zF s) (hW : Sub 0x100000000 wF) :
    Frame wF zF (State.modStep s slice id f) := by
  unfold State.modStep
  repeat' first
    | (with_reducible assumption)
    | (with_reducible exact hW)
    | (with_reducible exact Sub.trans (Sub.mk (by decide)) hW)
    | (intro _)
    | ((fail_if_success split); with_reducible apply Frame.upd_steps)
    | split

theorem State_modStepAt_fr {wF : Nat} {zF : State} {s : State} (slot : Nat) (f : Step → Step) (hF : Frame wF zF s) (hW : Sub 0x100000000 wF) :
    Frame wF zF (State.modStepAt s slot f) := by
  unfold State.modStepAt
  repeat' first
    | (with_reducible assumption)
    | (with_reducible exact hW)
    | (with_reducible exact Sub.trans (Sub.mk (by decide)) hW)
    | (intro _)
    | ((fail_if_success split); with_reducible apply Frame.upd_steps)
    | split

theorem State_emit_fr {wF : Nat} {zF : State} {s : State} (x : Tx) (hF : Frame wF zF s) (hW : Sub 0x2000000000000000 wF) :
    Frame wF zF (State.emit s x) := by
  unfold State.emit
  repeat' first
    | (with_reducible assumption)
    | (with_reducible exact hW)
    | (with_reducible exact Sub.trans (Sub.mk (by decide)) hW)
    | ((fail_if_success split); with_reducible apply Frame.upd_tx)

theorem State_emits_fr {wF : Nat} {zF : State} {s : State} (l : List Tx) (hF : Frame wF zF s) (hW : Sub 0x2000000000000000 wF) :
    Frame wF zF (State.emits s l) := by
  unfold State.emits
  repeat' first
    | (with_reducible assumption)
    | (with_reducible exact hW)
    | (with_reducible exact Sub.trans (Sub.mk (by decide)) hW)
    | ((fail_if_success split); with_reducible apply Frame.upd_tx)

theorem State_draw_fr {wF : Nat} {zF : State} {s : State} (hF : Frame wF zF s) (hW : Sub 0x1 wF) :
    Frame wF zF (State.draw s).2 := by
  unfold State.draw
  repeat' first
    | (with_reducible assumption)
    | (with_reducible exact hW)
    | (with_reducible exact Sub.trans (Sub.mk (by decide)) hW)
    | ((fail_if_success split); with_reducible apply Frame.upd_fresh)

theorem State_choose_fr {wF : Nat} {zF : State} {α : Type} {s : State} (l : List α) (hF : Frame wF zF s) (hW : Sub 0x1 wF) :
    Frame wF zF (State.choose s l).2 := by
  unfold State.choose
  repeat' first
    | (with_reducible assumption)
    | (with_reducible exact hW)
    | (with_reducible exact Sub.trans (Sub.mk (by decide)) hW)
    | (with_reducible refine Frame.getD (fun _ _ => ?_) ?_)
    | (with_reducible (apply Frame.of_pair; assumption))
    | (with_reducible (apply Frame.of_pair'; assumption))
    | ((fail_if_success split); with_reducible apply Frame.upd_fresh)
    | split

theorem State_raise_fr {wF : Nat} {zF : State} {s : State} (r : SqReg) (b : Nat) (hF : Frame wF zF s) (hW : Sub 0x10000 wF) :
    Frame wF zF (State.raise s r b) := by
  unfold State.raise
  repeat' first
    | (with_reducible assumption)
    | (with_reducible exact hW)
    | (with_reducible exact Sub.trans (Sub.mk (by decide)) hW)
    | (intro x; refine Frame.cut (w := wF) (z := zF) (x := x) ?_ ?_ <;> [subst x; (intro _; clear_value x)])
    | (intro x; clear_value x)
    | (intro _)
    | lift_lets
    | ((fail_if_success split); with_reducible apply Frame.upd_sq)
    | split

theorem State_raiseIf_fr {wF : Nat} {zF : State} {s : State} (c : Bool) (r : SqReg) (b : Nat) (hF : Frame wF zF s) (hW : Sub 0x10000 wF) :
    Frame wF zF (State.raiseIf s c r b) := by
  unfold State.raiseIf
  repeat' first
    | (with_reducible assumption)
    | (with_reducible exact hW)
    | (with_reducible exact Sub.trans (Sub.mk (by decide)) hW)
    | (with_reducible apply State_raise_fr)
    | split

theorem idleTick_fr {wF : Nat} {zF : State} {s : State} (hF : Frame wF zF s) (hW : Sub 0x2 wF) :
    FrameO wF zF (idleTick s) := by
  unfold idleTick
  repeat' first
    | (with_reducible assumption)
    | (with_reducible exact hW)
    | (with_reducible exact Sub.trans (Sub.mk (by decide)) hW)
    | (with_reducible refine FrameO.next ?_)
    | ((fail_if_success split); with_reducible apply Frame.upd_now)
    | split

theorem State_modGrp_fr {wF : Nat} {zF : State} {s : State} (g : Nat) (f : Grp → Grp) (hF : Frame wF zF s) (hW : Sub 0x800000000000 wF) :
    Frame wF zF (State.modGrp s g f) := by
  unfold State.modGrp
  repeat' first
    | (with_reducible assumption)
    | (with_reducible exact hW)
    | (with_reducible exact Sub.trans (Sub.mk (by decide)) hW)
    | (with_reducible show List.length _ = List.length _; simp)
    | ((fail_if_success split); with_reducible apply Frame.upd_grps)

theorem State_divide_fr {wF : Nat} {zF : State} {s : State} (g : Nat) (p : Nat) (hF : Frame wF zF s) (hW : Sub 0x800000000004 wF) :
    Frame wF zF (State.divide s g p) := by
  unfold State.divide
  extract_lets p0
  split
  · exact hF
  · refine Frame.mem_set (State_modGrp_fr _ _ hF (Sub.trans (Sub.mk (by decide)) hW)) (Sub.trans (Sub.mk (by decide)) hW) _ fun h => ?_
    exact Memory.puts_wf (fun c : Host.Cell => c.1) (fun c => c.2) _ (Memory.filter_wf _ h)

theorem State_placeSys_fr {wF : Nat} {zF : State} {s : State} (owner : Nat) (key : Nat) (bytes : Nat) (hF : Frame wF zF s) (hW : Sub 0x400001 wF) {tT : State} (hT : State.placeSys s owner key bytes = some tT) :
    Frame wF zF tT := by
  have c1 := State_choose_fr (l := (s.sysRooms (up64k bytes) none).filter fun (g, _) => !(s.sysRooms (up64k bytes) (some (dieOfGroup g))).isEmpty) hF (Sub.trans (Sub.mk (by decide)) hW)
  unfold State.placeSys at hT
  simp only at hT
  split at hT
  · cases hT
  · rename_i g o s1 h1
    rw [h1] at c1
    have c2 := State_choose_fr (l := s1.sysRooms (up64k bytes) (some (dieOfGroup g))) c1 (Sub.trans (Sub.mk (by decide)) hW)
    split at hT
    · cases hT
    · rename_i g' o' s2 h2
      rw [h2] at c2
      cases hT
      exact Frame.upd_sysExts c2 (Sub.trans (Sub.mk (by decide)) hW)

theorem State_mendSys_fr {wF : Nat} {zF : State} {s : State} (hF : Frame wF zF s) (hW : Sub 0x400001 wF) :
    Frame wF zF (State.mendSys s) := by
  have one : ∀ (s : State) (x : SysExt) (g keep : Nat), Frame wF zF s → Frame wF zF (match s.choose (s.sysRooms x.bytes (some (dieOfGroup g))) with
      | (none, s) => s
      | (some (g', o'), s) =>
        let put (y : SysExt) : SysExt := if y.owner == x.owner && y.key == x.key then { y with g0 := some g, off0 := keep, g1 := some g', off1 := o' } else y
        { s with sysExts := s.sysExts.map put }) := by
    intro s x g keep h
    have c := State_choose_fr (l := s.sysRooms x.bytes (some (dieOfGroup g))) h (Sub.trans (Sub.mk (by decide)) hW)
    split
    · rename_i e
      rw [e] at c
      exact c
    · rename_i e
      rw [e] at c
      exact Frame.upd_sysExts c (Sub.trans (Sub.mk (by decide)) hW)
  unfold State.mendSys
  refine Frame.foldl (fun s x h => ?_) _ hF
  split
  · exact one s x _ _ h
  · exact one s x _ _ h
  · exact h

theorem State_dropSys_fr {wF : Nat} {zF : State} {s : State} (owner : Nat) (key : Nat) (hF : Frame wF zF s) (hW : Sub 0x400001 wF) :
    Frame wF zF (State.dropSys s owner key) := by
  unfold State.dropSys
  repeat' first
    | (with_reducible assumption)
    | (with_reducible exact hW)
    | (with_reducible exact Sub.trans (Sub.mk (by decide)) hW)
    | (with_reducible apply State_mendSys_fr)
    | (intro _)
    | ((fail_if_success split); with_reducible apply Frame.upd_sysExts)

theorem State_endSeqEnts_fr {wF : Nat} {zF : State} {s : State} (p : PfEnt → Bool) (hF : Frame wF zF s) (hW : Sub 0xc00001 wF) :
    Frame wF zF (State.endSeqEnts s p) := by
  unfold State.endSeqEnts
  repeat' first
    | (with_reducible assumption)
    | (with_reducible exact hW)
    | (with_reducible exact Sub.trans (Sub.mk (by decide)) hW)
    | (with_reducible apply State_dropSys_fr)
    | (intro x; refine Frame.cut (w := wF) (z := zF) (x := x) ?_ ?_ <;> [subst x; (intro _; clear_value x)])
    | (intro x; clear_value x)
    | (intro _)
    | lift_lets
    | ((fail_if_success split); with_reducible apply Frame.upd_pfEnts)
    | split

theorem State_modWrite_fr {wF : Nat} {zF : State} {s : State} (a : Nat) (b : List Byte) (hF : Frame wF zF s) (hW : Sub 0x4 wF) :
    Frame wF zF (State.modWrite s a b) := Frame.mem_set hF hW _ fun h => Memory.write_wf h a b

theorem State_objWrite_fr {wF : Nat} {zF : State} {s : State} (o : Obj) (off : Nat) (b : List Byte) (hF : Frame wF zF s) (hW : Sub 0x4 wF) :
    Frame wF zF (State.objWrite s o off b) :=
  Frame.mem_set hF hW _ fun h => Memory.puts_wf (fun x : Byte × Nat => o.addr (off + x.2)) (fun x => x.1) _ h

theorem State_hostWrite_fr {wF : Nat} {zF : State} {s : State} (p : Port) (a : Nat) (b : List Byte) (hF : Frame wF zF s) (hW : Sub 0x18 wF) :
    Frame wF zF (State.hostWrite s p a b).1 := by
  unfold State.hostWrite
  split
  · exact hF
  · exact State_setHostMem_fr p _ hF hW fun h => Memory.write_wf h a b

theorem State_freeSlot_fr {wF : Nat} {zF : State} {s : State} (i : Option Nat) (hF : Frame wF zF s) (hW : Sub 0x80 wF) :
    Frame wF zF (State.freeSlot s i) := by
  unfold State.freeSlot
  repeat' first
    | (with_reducible assumption)
    | (with_reducible exact hW)
    | (with_reducible exact Sub.trans (Sub.mk (by decide)) hW)
    | (with_reducible (apply Frame.of_pair; assumption))
    | (with_reducible (apply Frame.of_pair'; assumption))
    | (intro _)
    | ((fail_if_success split); with_reducible apply Frame.upd_cmds)
    | split

theorem State_signal_fr {wF : Nat} {zF : State} {s : State} (p : Port) (hF : Frame wF zF s) (hW : Sub 0x2000000000000060 wF) :
    Frame wF zF (State.signal s p) := by
  unfold State.signal
  repeat' first
    | (with_reducible assumption)
    | (with_reducible exact hW)
    | (with_reducible exact Sub.trans (Sub.mk (by decide)) hW)
    | (with_reducible apply State_emit_fr)
    | (with_reducible apply State_modPort_fr)
    | (with_reducible (apply Frame.of_pair; assumption))
    | (with_reducible (apply Frame.of_pair'; assumption))
    | (intro _)
    | split

theorem State_postCpl_fr {wF : Nat} {zF : State} {s : State} (p : Port) (c : Cpl) (hF : Frame wF zF s) (hW : Sub 0x20000000000000f8 wF) :
    Frame wF zF (State.postCpl s p c) := by
  unfold State.postCpl
  repeat' first
    | (with_reducible assumption)
    | (with_reducible exact hW)
    | (with_reducible exact Sub.trans (Sub.mk (by decide)) hW)
    | (with_reducible apply State_hostWrite_fr)
    | (with_reducible apply State_modPort_fr)
    | (with_reducible apply State_freeSlot_fr)
    | (with_reducible apply State_signal_fr)
    | (with_reducible (apply Frame.of_pair; assumption))
    | (with_reducible (apply Frame.of_pair'; assumption))
    | (intro x; refine Frame.cut (w := wF) (z := zF) (x := x) ?_ ?_ <;> [subst x; (intro _; clear_value x)])
    | (intro x; clear_value x)
    | (intro _)
    | lift_lets
    | split

theorem State_flushHeld_fr {wF : Nat} {zF : State} (p : Port) : ∀ (n : Nat) {s : State} (_hF : Frame wF zF s) (_hW : Sub 0x20000000000000f8 wF),
    Frame wF zF (State.flushHeld s p n)
  | 0, _, h, _ => h
  | n + 1, s, hF, hW => by
    unfold State.flushHeld
    split
    · split
      · exact State_flushHeld_fr p n (State_postCpl_fr p _ (State_modPort_fr p _ hF (Sub.trans (Sub.mk (by decide)) hW)) hW) hW
      · exact hF
    · exact hF

theorem State_holdCpl_fr {wF : Nat} {zF : State} {s : State} (p : Port) (c : Cpl) (hF : Frame wF zF s) (hW : Sub 0x100e0 wF) :
    Frame wF zF (State.holdCpl s p c) := by
  unfold State.holdCpl
  repeat' first
    | (with_reducible assumption)
    | (with_reducible exact hW)
    | (with_reducible exact Sub.trans (Sub.mk (by decide)) hW)
    | (with_reducible apply State_modPort_fr)
    | (with_reducible apply State_raise_fr)
    | (with_reducible apply State_freeSlot_fr)
    | (intro x; refine Frame.cut (w := wF) (z := zF) (x := x) ?_ ?_ <;> [subst x; (intro _; clear_value x)])
    | (intro x; clear_value x)
    | (intro _)
    | lift_lets
    | ((fail_if_success split); with_reducible apply Frame.upd_cmds)
    | split

theorem State_finishWith_fr {wF : Nat} {zF : State} {s : State} (r : Ref) (status : Nat) (result : List Byte) (lost : Bool) (names : Option Blame) (hF : Frame wF zF s) (hW : Sub 0x20000000000100f8 wF) :
    Frame wF zF (State.finishWith s r status result lost names) := by
  unfold State.finishWith
  repeat' first
    | (with_reducible assumption)
    | (with_reducible exact hW)
    | (with_reducible exact Sub.trans (Sub.mk (by decide)) hW)
    | (with_reducible apply State_modPort_fr)
    | (with_reducible apply State_postCpl_fr)
    | (with_reducible apply State_holdCpl_fr)
    | (with_reducible refine Frame.getD (fun _ _ => ?_) ?_)
    | (intro x; refine Frame.cut (w := wF) (z := zF) (x := x) ?_ ?_ <;> [subst x; (intro _; clear_value x)])
    | (intro x; clear_value x)
    | (intro _)
    | lift_lets
    | split

theorem State_finish_fr {wF : Nat} {zF : State} {s : State} (r : Ref) (status : Nat) (result : List Byte) (hF : Frame wF zF s) (hW : Sub 0x20000000000100f8 wF) :
    Frame wF zF (State.finish s r status result) := by
  unfold State.finish
  repeat' first
    | (with_reducible assumption)
    | (with_reducible exact hW)
    | (with_reducible exact Sub.trans (Sub.mk (by decide)) hW)
    | (with_reducible apply State_finishWith_fr)

end Sys2Proof.Machine
end

