-- ==== Sys2Proof/Laws/FrameHealth.lean ====
section
/-! SUPPORT. What each operation of Machine/Health.lean may change. -/

set_option linter.all false

namespace Sys2Proof.Machine

open Sys2Proof

theorem State_hltRaise_fr {wF : Nat} {zF : State} {s : State} (b : Nat) (hF : Frame wF zF s) (hW : Sub 0x2080000000010000 wF) :
    Frame wF zF (State.hltRaise s b) := by
  unfold State.hltRaise
  repeat' first
    | (with_reducible assumption)
    | (with_reducible exact hW)
    | (with_reducible exact Sub.trans (Sub.mk (by decide)) hW)
    | (with_reducible apply State_raise_fr)
    | (with_reducible apply State_emit_fr)
    | (with_reducible apply State_modHealth_fr)
    | (intro _)

theorem State_hltUpdate_fr {wF : Nat} {zF : State} {s : State} (hF : Frame wF zF s) (hW : Sub 0x2080000000010000 wF) :
    Frame wF zF (State.hltUpdate s) := by
  unfold State.hltUpdate
  repeat' first
    | (with_reducible assumption)
    | (with_reducible exact hW)
    | (with_reducible exact Sub.trans (Sub.mk (by decide)) hW)
    | (with_reducible apply State_modHealth_fr)
    | (with_reducible apply State_hltRaise_fr)
    | (intro x; refine Frame.cut (w := wF) (z := zF) (x := x) ?_ ?_ <;> [subst x; (intro _; clear_value x)])
    | (intro x; clear_value x)
    | (intro _)
    | lift_lets
    | split

theorem State_setCause_fr {wF : Nat} {zF : State} {s : State} (b : Nat) (hF : Frame wF zF s) (hW : Sub 0x2080000000010000 wF) :
    Frame wF zF (State.setCause s b) := by
  unfold State.setCause
  repeat' first
    | (with_reducible assumption)
    | (with_reducible exact hW)
    | (with_reducible exact Sub.trans (Sub.mk (by decide)) hW)
    | (with_reducible apply State_hltUpdate_fr)
    | (with_reducible apply State_modHealth_fr)
    | (with_reducible apply State_hltRaise_fr)
    | (intro _)
    | split

theorem State_clearCause_fr {wF : Nat} {zF : State} {s : State} (b : Nat) (hF : Frame wF zF s) (hW : Sub 0x2080000000010000 wF) :
    Frame wF zF (State.clearCause s b) := by
  unfold State.clearCause
  repeat' first
    | (with_reducible assumption)
    | (with_reducible exact hW)
    | (with_reducible exact Sub.trans (Sub.mk (by decide)) hW)
    | (with_reducible apply State_modHealth_fr)
    | (with_reducible apply State_hltUpdate_fr)
    | (intro _)

theorem State_putCause_fr {wF : Nat} {zF : State} {s : State} (b : Nat) (on : Bool) (hF : Frame wF zF s) (hW : Sub 0x2080000000010000 wF) :
    Frame wF zF (State.putCause s b on) := by
  unfold State.putCause
  repeat' first
    | (with_reducible assumption)
    | (with_reducible exact hW)
    | (with_reducible exact Sub.trans (Sub.mk (by decide)) hW)
    | (with_reducible apply State_setCause_fr)
    | (with_reducible apply State_clearCause_fr)
    | split

theorem State_narrowCause_fr {wF : Nat} {zF : State} {s : State} (hF : Frame wF zF s) (hW : Sub 0x2080000000010000 wF) :
    Frame wF zF (State.narrowCause s) := by
  unfold State.narrowCause
  repeat' first
    | (with_reducible assumption)
    | (with_reducible exact hW)
    | (with_reducible exact Sub.trans (Sub.mk (by decide)) hW)
    | (with_reducible apply State_putCause_fr)
    | (intro _)

theorem State_jobStopPins_fr {wF : Nat} {zF : State} {s : State} (hF : Frame wF zF s) (hW : Sub 0x2080000000010000 wF) :
    Frame wF zF (State.jobStopPins s) := by
  unfold State.jobStopPins
  repeat' first
    | (with_reducible assumption)
    | (with_reducible exact hW)
    | (with_reducible exact Sub.trans (Sub.mk (by decide)) hW)
    | (with_reducible apply State_modHealth_fr)
    | (with_reducible apply State_hltRaise_fr)
    | (intro _)

theorem State_coolCause_fr {wF : Nat} {zF : State} {s : State} (hF : Frame wF zF s) (hW : Sub 0x2080000000010000 wF) :
    Frame wF zF (State.coolCause s) := by
  unfold State.coolCause
  repeat' first
    | (with_reducible assumption)
    | (with_reducible exact hW)
    | (with_reducible exact Sub.trans (Sub.mk (by decide)) hW)
    | (with_reducible apply State_putCause_fr)
    | (intro x; refine Frame.cut (w := wF) (z := zF) (x := x) ?_ ?_ <;> [subst x; (intro _; clear_value x)])
    | (intro x; clear_value x)
    | (intro _)
    | lift_lets

theorem State_quarantine_fr {wF : Nat} {zF : State} {s : State} (k : Nat) (core : Nat) (cause : Nat) (hF : Frame wF zF s) (hW : Sub 0x2180040000010000 wF) :
    Frame wF zF (State.quarantine s k core cause) := by
  unfold State.quarantine
  repeat' first
    | (with_reducible assumption)
    | (with_reducible exact hW)
    | (with_reducible exact Sub.trans (Sub.mk (by decide)) hW)
    | (with_reducible apply State_modDie_fr)
    | (with_reducible apply State_modNor_fr)
    | (with_reducible apply State_hltRaise_fr)
    | (with_reducible (apply Frame.of_pair; assumption))
    | (with_reducible (apply Frame.of_pair'; assumption))
    | (intro x; refine Frame.cut (w := wF) (z := zF) (x := x) ?_ ?_ <;> [subst x; (intro _; clear_value x)])
    | (intro x; clear_value x)
    | (intro _)
    | lift_lets
    | split

theorem State_mapSpares_fr {wF : Nat} {zF : State} {s : State} (k : Nat) (x0 : List Nat) (hF : Frame wF zF s) (hW : Sub 0x40000000001 wF) :
    Frame wF zF (State.mapSpares s k x0) := by
  induction x0 generalizing s k with
  | nil =>
    unfold State.mapSpares
    repeat' first
      | (with_reducible assumption)
      | (with_reducible exact hW)
      | (with_reducible exact Sub.trans (Sub.mk (by decide)) hW)
      | (with_reducible apply State_choose_fr)
      | (with_reducible apply State_modDie_fr)
      | (with_reducible (apply Frame.of_pair; assumption))
      | (with_reducible (apply Frame.of_pair'; assumption))
      | (intro x; refine Frame.cut (w := wF) (z := zF) (x := x) ?_ ?_ <;> [subst x; (intro _; clear_value x)])
      | (intro x; clear_value x)
      | (intro _)
      | lift_lets
      | split
  | cons a l ih =>
    unfold State.mapSpares
    repeat' first
      | (with_reducible assumption)
      | (with_reducible exact hW)
      | (with_reducible exact Sub.trans (Sub.mk (by decide)) hW)
      | (with_reducible apply ih)
      | (with_reducible apply State_choose_fr)
      | (with_reducible apply State_modDie_fr)
      | (with_reducible (apply Frame.of_pair; assumption))
      | (with_reducible (apply Frame.of_pair'; assumption))
      | (intro x; refine Frame.cut (w := wF) (z := zF) (x := x) ?_ ?_ <;> [subst x; (intro _; clear_value x)])
      | (intro x; clear_value x)
      | (intro _)
      | lift_lets
      | split

theorem State_saveMap_fr {wF : Nat} {zF : State} {s : State} (hF : Frame wF zF s) (hW : Sub 0x100000000000000 wF) :
    Frame wF zF (State.saveMap s) := by
  unfold State.saveMap
  repeat' first
    | (with_reducible assumption)
    | (with_reducible exact hW)
    | (with_reducible exact Sub.trans (Sub.mk (by decide)) hW)
    | (with_reducible apply State_modNor_fr)
    | (with_reducible refine Frame.getD (fun _ _ => ?_) ?_)
    | (intro _)

theorem State_jobStart_fr {wF : Nat} {zF : State} {s : State} (hF : Frame wF zF s) (hW : Sub 0x2180040000010001 wF) :
    Frame wF zF (State.jobStart s) := by
  unfold State.jobStart
  repeat' first
    | (with_reducible assumption)
    | (with_reducible exact hW)
    | (with_reducible exact Sub.trans (Sub.mk (by decide)) hW)
    | (with_reducible apply State_mapSpares_fr)
    | (with_reducible apply State_saveMap_fr)
    | (with_reducible apply State_modHealth_fr)
    | (with_reducible apply State_setCause_fr)
    | (with_reducible refine Frame.foldl (fun _ _ _ => ?_) _ ?_)
    | (with_reducible refine Frame.foldl1 (fun _ _ _ => ?_) _ ?_)
    | (with_reducible refine Frame.foldl2 (fun _ _ _ => ?_) _ ?_)
    | (intro x; refine Frame.cut (w := wF) (z := zF) (x := x) ?_ ?_ <;> [subst x; (intro _; clear_value x)])
    | (intro x; clear_value x)
    | (intro _)
    | lift_lets
    | split

theorem State_measure_fr {wF : Nat} {zF : State} {s : State} (kind : Nat) (detail : Nat) (digest : List Byte) (hF : Frame wF zF s) (hW : Sub 0x400000000010000 wF) :
    Frame wF zF (State.measure s kind detail digest) := by
  unfold State.measure
  repeat' first
    | (with_reducible assumption)
    | (with_reducible exact hW)
    | (with_reducible exact Sub.trans (Sub.mk (by decide)) hW)
    | (with_reducible apply State_modSec_fr)
    | (with_reducible apply State_raiseIf_fr)
    | (with_reducible exact SecKeep.of_eq (Eq.refl _) (Eq.refl _) (Eq.refl _))
    | (intro x; refine Frame.cut (w := wF) (z := zF) (x := x) ?_ ?_ <;> [subst x; (intro _; clear_value x)])
    | (intro x; clear_value x)
    | (intro _)
    | lift_lets
    | split

end Sys2Proof.Machine
end

