-- ==== Sys2Proof/Laws/FrameRegs.lean ====
section
/-! SUPPORT. What each operation of Machine/Regs.lean may change. -/

set_option linter.all false

namespace Sys2Proof.Machine

open Sys2Proof

theorem State_setAcc_fr {wF : Nat} {zF : State} {s : State} (m : Master) (b : PwBlk) (a : AccState) (hF : Frame wF zF s) (hW : Sub 0x4000 wF) :
    Frame wF zF (State.setAcc s m b a) := by
  unfold State.setAcc
  repeat' first
    | (with_reducible assumption)
    | (with_reducible exact hW)
    | (with_reducible exact Sub.trans (Sub.mk (by decide)) hW)
    | (intro _)
    | ((fail_if_success split); with_reducible apply Frame.upd_accs)

theorem State_activate_fr {wF : Nat} {zF : State} {s : State} (w : ShadowW) (hF : Frame wF zF s) (hW : Sub 0x21800800400067 wF) :
    Frame wF zF (State.activate s w) := by
  have win : ∀ (p : Port) (b : Bool), Frame wF zF (s.modPort p fun x => { x with
      winBase := if b then w.val.toNat % 65536 * 2 ^ 32 + x.winBase % 2 ^ 32 else x.winBase / 2 ^ 32 * 2 ^ 32 + bitsOf w.val.toNat 31 30 * 2 ^ 30 }) :=
    fun p b => State_modPort_fr p _ hF (Sub.trans (Sub.mk (by decide)) hW)
  unfold State.activate
  refine Frame.ite (win _ _) (Frame.ite (win _ _) (Frame.ite (win _ _) (Frame.ite (win _ _) (Frame.ite ?_ (Frame.ite ?_ (Frame.ite ?_
    (Frame.ite ?_ (Frame.ite ?_ (Frame.ite ?_ hF)))))))))
  · exact State_mendSys_fr (State_divide_fr _ _ hF (Sub.trans (Sub.mk (by decide)) hW)) (Sub.trans (Sub.mk (by decide)) hW)
  · exact State_modFlash_fr _ hF (Sub.trans (Sub.mk (by decide)) hW)
  · exact State_modFlash_fr _ hF (Sub.trans (Sub.mk (by decide)) hW)
  · exact Frame.upd_tenQ hF (Sub.trans (Sub.mk (by decide)) hW)
  · exact State_modPower_fr _ hF (Sub.trans (Sub.mk (by decide)) hW)
  · exact State_modPower_fr _ hF (Sub.trans (Sub.mk (by decide)) hW)

theorem State_applyGen_fr {wF : Nat} {zF : State} {s : State} (m : Master) (hF : Frame wF zF s) (hW : Sub 0x21800800403c67 wF) :
    Frame wF zF (State.applyGen s m) := by
  unfold State.applyGen
  repeat' first
    | (with_reducible assumption)
    | (with_reducible exact hW)
    | (with_reducible exact Sub.trans (Sub.mk (by decide)) hW)
    | (with_reducible apply State_activate_fr)
    | (with_reducible apply State_modMaster_fr)
    | (with_reducible refine Frame.foldl (fun _ _ _ => ?_) _ ?_)
    | (with_reducible refine Frame.foldl1 (fun _ _ _ => ?_) _ ?_)
    | (with_reducible refine Frame.foldl2 (fun _ _ _ => ?_) _ ?_)
    | (with_reducible (apply Frame.of_pair; assumption))
    | (with_reducible (apply Frame.of_pair'; assumption))
    | (intro x; refine Frame.cut (w := wF) (z := zF) (x := x) ?_ ?_ <;> [subst x; (intro _; clear_value x)])
    | (intro x; clear_value x)
    | (intro _)
    | lift_lets
    | split

theorem State_applyQuanta_fr {wF : Nat} {zF : State} {s : State} (hF : Frame wF zF s) (hW : Sub 0x21800800403c67 wF) :
    Frame wF zF (State.applyQuanta s) := by
  unfold State.applyQuanta
  repeat' first
    | (with_reducible assumption)
    | (with_reducible exact hW)
    | (with_reducible exact Sub.trans (Sub.mk (by decide)) hW)
    | (with_reducible apply State_applyGen_fr)
    | (with_reducible refine Frame.foldl (fun _ _ _ => ?_) _ ?_)
    | (with_reducible refine Frame.foldl1 (fun _ _ _ => ?_) _ ?_)
    | (with_reducible refine Frame.foldl2 (fun _ _ _ => ?_) _ ?_)
    | (intro _)

end Sys2Proof.Machine
end

