-- ==== Sys2Proof/Laws/FrameFabric.lean ====
section
/-! SUPPORT. What each operation of Machine/Fabric.lean may change. -/

set_option linter.all false

namespace Sys2Proof.Machine

open Sys2Proof

theorem State_sendStill_fr {wF : Nat} {zF : State} {s : State} (origin : Nat) (capNo : Nat) (hF : Frame wF zF s) (hW : Sub 0x2000000000000000 wF) :
    Frame wF zF (State.sendStill s origin capNo) := by
  unfold State.sendStill
  repeat' first
    | (with_reducible assumption)
    | (with_reducible exact hW)
    | (with_reducible exact Sub.trans (Sub.mk (by decide)) hW)
    | (with_reducible apply State_emits_fr)
    | (with_reducible refine Frame.foldl (fun _ _ _ => ?_) _ ?_)
    | (with_reducible refine Frame.foldl1 (fun _ _ _ => ?_) _ ?_)
    | (with_reducible refine Frame.foldl2 (fun _ _ _ => ?_) _ ?_)
    | (intro _)
    | split

theorem State_capture_fr {wF : Nat} {zF : State} {s : State} (src : Nat) (fclass : BitVec 7) (origin : Nat) (hF : Frame wF zF s) (hW : Sub 0x800000000000000 wF) :
    Frame wF zF (State.capture s src fclass origin) := by
  unfold State.capture
  repeat' first
    | (with_reducible assumption)
    | (with_reducible exact hW)
    | (with_reducible exact Sub.trans (Sub.mk (by decide)) hW)
    | (with_reducible apply State_modSnap_fr)
    | (intro x; refine Frame.cut (w := wF) (z := zF) (x := x) ?_ ?_ <;> [subst x; (intro _; clear_value x)])
    | (intro x; clear_value x)
    | (intro _)
    | lift_lets

theorem State_trigger_fr {wF : Nat} {zF : State} {s : State} (src : Nat) (fclass : BitVec 7) (hF : Frame wF zF s) (hW : Sub 0x2800000000000000 wF) :
    Frame wF zF (State.trigger s src fclass) := by
  unfold State.trigger
  repeat' first
    | (with_reducible assumption)
    | (with_reducible exact hW)
    | (with_reducible exact Sub.trans (Sub.mk (by decide)) hW)
    | (with_reducible apply State_capture_fr)
    | (with_reducible apply State_modSnap_fr)
    | (with_reducible apply State_sendStill_fr)
    | (intro x; refine Frame.cut (w := wF) (z := zF) (x := x) ?_ ?_ <;> [subst x; (intro _; clear_value x)])
    | (intro x; clear_value x)
    | (intro _)
    | lift_lets
    | split

theorem State_faultTrigger_fr {wF : Nat} {zF : State} {s : State} (cls : Nat) (hF : Frame wF zF s) (hW : Sub 0x2800000000000001 wF) :
    Frame wF zF (State.faultTrigger s cls) := by
  unfold State.faultTrigger
  repeat' first
    | (with_reducible assumption)
    | (with_reducible exact hW)
    | (with_reducible exact Sub.trans (Sub.mk (by decide)) hW)
    | (with_reducible apply State_draw_fr)
    | (with_reducible apply State_modSnap_fr)
    | (with_reducible apply State_trigger_fr)
    | (with_reducible (apply Frame.of_pair; assumption))
    | (with_reducible (apply Frame.of_pair'; assumption))
    | (intro x; refine Frame.cut (w := wF) (z := zF) (x := x) ?_ ?_ <;> [subst x; (intro _; clear_value x)])
    | (intro x; clear_value x)
    | (intro _)
    | lift_lets
    | split

end Sys2Proof.Machine
end

