-- ==== Sys2Proof/Laws/FramePackage.lean ====
section
/-! SUPPORT. What each operation of Machine/Package.lean may change. -/

set_option linter.all false

namespace Sys2Proof.Machine

open Sys2Proof

theorem State_arrives_fr {wF : Nat} {zF : State} {s : State} (remote : Bool) (m : NocMsg) (hF : Frame wF zF s) (hW : Sub 0x100000000000 wF) {tT : State} (hT : State.arrives s remote m = some tT) :
    Frame wF zF tT := by
  unfold State.arrives at hT
  repeat' first
    | cases hT
    | (split at hT)
    | (with_reducible assumption)
    | (with_reducible exact hW)
    | (with_reducible exact Sub.trans (Sub.mk (by decide)) hW)
    | (with_reducible (apply Frame.of_pair; assumption))
    | (with_reducible (apply Frame.of_pair'; assumption))
    | (intro _)
    | ((fail_if_success split); with_reducible apply Frame.upd_noc)
    | split

end Sys2Proof.Machine
end

