-- ==== Sys2Proof/Laws/FrameFlash.lean ====
section
/-! SUPPORT. What each operation of Machine/Flash.lean may change. -/

set_option linter.all false

namespace Sys2Proof.Machine

open Sys2Proof

theorem State_modBlock_fr {wF : Nat} {zF : State} {s : State} (d : Nat) (b : Nat) (f : NBlock → NBlock) (hF : Frame wF zF s) (hW : Sub 0x1000000000000 wF) :
    Frame wF zF (State.modBlock s d b f) := by
  unfold State.modBlock
  repeat' first
    | (with_reducible assumption)
    | (with_reducible exact hW)
    | (with_reducible exact Sub.trans (Sub.mk (by decide)) hW)
    | (with_reducible apply State_modFlash_fr)
    | (intro x; refine Frame.cut (w := wF) (z := zF) (x := x) ?_ ?_ <;> [subst x; (intro _; clear_value x)])
    | (intro x; clear_value x)
    | (intro _)
    | lift_lets
    | split

theorem State_countBlock_fr {wF : Nat} {zF : State} {s : State} (d : Nat) (b : Nat) (f : NBlock → NBlock) (hF : Frame wF zF s) (hW : Sub 0x1000000010000 wF) :
    Frame wF zF (State.countBlock s d b f) := by
  unfold State.countBlock
  repeat' first
    | (with_reducible assumption)
    | (with_reducible exact hW)
    | (with_reducible exact Sub.trans (Sub.mk (by decide)) hW)
    | (with_reducible apply State_modBlock_fr)
    | (with_reducible apply State_raiseIf_fr)
    | (intro x; refine Frame.cut (w := wF) (z := zF) (x := x) ?_ ?_ <;> [subst x; (intro _; clear_value x)])
    | (intro x; clear_value x)
    | (intro _)
    | lift_lets
    | split

theorem State_nextBlock_fr {wF : Nat} {zF : State} {s : State} (c : Nat) (hF : Frame wF zF s) (hW : Sub 0x1 wF) :
    Frame wF zF (State.nextBlock s c).2 := by
  unfold State.nextBlock
  repeat' first
    | (with_reducible assumption)
    | (with_reducible exact hW)
    | (with_reducible exact Sub.trans (Sub.mk (by decide)) hW)
    | (with_reducible apply State_draw_fr)
    | (with_reducible apply State_choose_fr)
    | (with_reducible refine Frame.foldl (fun _ _ _ => ?_) _ ?_)
    | (with_reducible refine Frame.foldl1 (fun _ _ _ => ?_) _ ?_)
    | (with_reducible refine Frame.foldl2 (fun _ _ _ => ?_) _ ?_)
    | (with_reducible (apply Frame.of_pair; assumption))
    | (with_reducible (apply Frame.of_pair'; assumption))
    | (intro x; refine Frame.cut (w := wF) (z := zF) (x := x) ?_ ?_ <;> [subst x; (intro _; clear_value x)])
    | (intro x; clear_value x)
    | (intro _)
    | lift_lets
    | split

theorem State_logPage_fr {wF : Nat} {zF : State} {s : State} (spill : Bool) (c : Nat) (depth : Nat) (hF : Frame wF zF s) (hW : Sub 0x1000000000001 wF) :
    Frame wF zF (State.logPage s spill c depth).2 := by
  unfold State.logPage
  repeat' first
    | (with_reducible assumption)
    | (with_reducible exact hW)
    | (with_reducible exact Sub.trans (Sub.mk (by decide)) hW)
    | (with_reducible apply State_modFlash_fr)
    | (with_reducible apply State_nextBlock_fr)
    | (with_reducible apply State_modBlock_fr)
    | (with_reducible (apply Frame.of_pair; assumption))
    | (with_reducible (apply Frame.of_pair'; assumption))
    | (intro x; refine Frame.cut (w := wF) (z := zF) (x := x) ?_ ?_ <;> [subst x; (intro _; clear_value x)])
    | (intro x; clear_value x)
    | (intro _)
    | lift_lets
    | split

theorem State_logStripe_fr {wF : Nat} {zF : State} {s : State} (spill : Bool) (refs : List PageRef) (hF : Frame wF zF s) (hW : Sub 0x1000000000001 wF) {tT : State} (hT : State.logStripe s spill refs = some tT) :
    Frame wF zF tT := by
  have loop : ∀ (l : List Nat), Frame wF zF (l.foldl (fun (x : List NPlace × State) c =>
      match x.2.logPage spill c (if spill then 4 else 1) with
      | (some p, s) => (x.1 ++ [p], s)
      | (none, s) => (x.1, s)) (([] : List NPlace), s)).2 := fun l => by
    refine Frame.foldl2 (fun x c h => ?_) l hF
    have k := State_logPage_fr spill c (if spill then 4 else 1) h (Sub.trans (Sub.mk (by decide)) hW)
    split
    · rename_i e
      rw [e] at k
      exact k
    · rename_i e
      rw [e] at k
      exact k
  unfold State.logStripe at hT
  extract_lets l r at hT
  have h1 : Frame wF zF r.2 := loop _
  clear_value r
  split at hT
  · cases hT
  · cases hT
    exact State_modFlash_fr _ h1 (Sub.trans (Sub.mk (by decide)) hW)

theorem State_logWrite_fr {wF : Nat} {zF : State} {s : State} (spill : Bool) (refs : List PageRef) (hF : Frame wF zF s) (hW : Sub 0x1000000000001 wF) {tT : State} (hT : State.logWrite s spill refs = some tT) :
    Frame wF zF tT := by
  unfold State.logWrite at hT
  exact Frame.foldBind (fun s x t h e => State_logStripe_fr _ _ h hW e) _ (fun s e => by
    cases e
    exact hF) _ hT

theorem State_bootScrub_fr {wF : Nat} {zF : State} {s : State} (hF : Frame wF zF s) (hW : Sub 0x1000000000000 wF) :
    Frame wF zF (State.bootScrub s) := by
  unfold State.bootScrub
  repeat' first
    | (with_reducible assumption)
    | (with_reducible exact hW)
    | (with_reducible exact Sub.trans (Sub.mk (by decide)) hW)
    | (with_reducible apply State_modFlash_fr)
    | (intro _)

theorem State_storeUnit_fr {wF : Nat} {zF : State} {s : State} (obj : Nat) (unit : Nat) (hF : Frame wF zF s) (hW : Sub 0x1000000000001 wF) {tT : State} (hT : State.storeUnit s obj unit = some tT) :
    Frame wF zF tT := by
  unfold State.storeUnit at hT
  extract_lets n mine s1 at hT
  obtain ⟨a, h1, rfl⟩ := Option.map_eq_some_iff.mp hT
  exact State_modFlash_fr _ (State_logWrite_fr _ _ (State_modFlash_fr _ hF (Sub.trans (Sub.mk (by decide)) hW)) hW h1) (Sub.trans (Sub.mk (by decide)) hW)

theorem State_storeUnits_fr {wF : Nat} {zF : State} {s : State} (obj : Nat) (size : Nat) (hF : Frame wF zF s) (hW : Sub 0x1000000000001 wF) :
    Frame wF zF (State.storeUnits s obj size) := by
  unfold State.storeUnits
  repeat' first
    | (with_reducible assumption)
    | (with_reducible exact hW)
    | (with_reducible exact Sub.trans (Sub.mk (by decide)) hW)
    | (with_reducible (apply State_storeUnit_fr; case hT => assumption))
    | (with_reducible refine Frame.foldl (fun _ _ _ => ?_) _ ?_)
    | (with_reducible refine Frame.foldl1 (fun _ _ _ => ?_) _ ?_)
    | (with_reducible refine Frame.foldl2 (fun _ _ _ => ?_) _ ?_)
    | (with_reducible refine Frame.getD (fun _ _ => ?_) ?_)
    | (intro _)

theorem State_dropCopy_fr {wF : Nat} {zF : State} {s : State} (id : Nat) (hF : Frame wF zF s) (hW : Sub 0x1000000000000 wF) :
    Frame wF zF (State.dropCopy s id) := by
  unfold State.dropCopy
  repeat' first
    | (with_reducible assumption)
    | (with_reducible exact hW)
    | (with_reducible exact Sub.trans (Sub.mk (by decide)) hW)
    | (with_reducible apply State_modFlash_fr)
    | (intro _)

theorem State_logSpill_fr {wF : Nat} {zF : State} {s : State} (pool page n : Nat) (hF : Frame wF zF s) (hW : Sub 0x1000000000001 wF) {y : Nat × State}
    (h : State.logSpill s pool page n = some y) : Frame wF zF y.2 := by
  unfold State.logSpill at h
  extract_lets no at h
  obtain ⟨a, h1, h2⟩ := Option.bind_eq_some_iff.mp h
  obtain ⟨b, _, rfl⟩ := Option.map_eq_some_iff.mp h2
  exact State_logWrite_fr _ _ hF hW h1

theorem State_readNand_fr {wF : Nat} {zF : State} {s : State} (demand : Bool) (n : Nat) (p : NPlace) (hF : Frame wF zF s) (hW : Sub 0x1000000010001 wF) :
    Frame wF zF (State.readNand s demand n p) := by
  unfold State.readNand
  repeat' first
    | (with_reducible assumption)
    | (with_reducible exact hW)
    | (with_reducible exact Sub.trans (Sub.mk (by decide)) hW)
    | (with_reducible apply State_draw_fr)
    | (with_reducible apply State_countBlock_fr)
    | (with_reducible apply State_modFlash_fr)
    | (with_reducible (apply Frame.of_pair; assumption))
    | (with_reducible (apply Frame.of_pair'; assumption))
    | (intro x; refine Frame.cut (w := wF) (z := zF) (x := x) ?_ ?_ <;> [subst x; (intro _; clear_value x)])
    | (intro x; clear_value x)
    | (intro _)
    | lift_lets
    | split

theorem State_readLog_fr {wF : Nat} {zF : State} {s : State} (demand : Bool) (inStripe : Stripe → Bool) (want : PageRef → Bool) (hF : Frame wF zF s) (hW : Sub 0x1000000010001 wF) :
    Frame wF zF (State.readLog s demand inStripe want) := by
  unfold State.readLog
  repeat' first
    | (with_reducible assumption)
    | (with_reducible exact hW)
    | (with_reducible exact Sub.trans (Sub.mk (by decide)) hW)
    | (with_reducible apply State_readNand_fr)
    | (with_reducible refine Frame.foldl (fun _ _ _ => ?_) _ ?_)
    | (with_reducible refine Frame.foldl1 (fun _ _ _ => ?_) _ ?_)
    | (with_reducible refine Frame.foldl2 (fun _ _ _ => ?_) _ ?_)
    | (with_reducible refine Frame.getD (fun _ _ => ?_) ?_)
    | (intro x; refine Frame.cut (w := wF) (z := zF) (x := x) ?_ ?_ <;> [subst x; (intro _; clear_value x)])
    | (intro x; clear_value x)
    | (intro _)
    | lift_lets
    | split

theorem State_readCopy_fr {wF : Nat} {zF : State} {s : State} (demand : Bool) (obj : Nat) (off : Nat) (n : Nat) (hF : Frame wF zF s) (hW : Sub 0x1000000010001 wF) :
    Frame wF zF (State.readCopy s demand obj off n) := by
  unfold State.readCopy
  repeat' first
    | (with_reducible assumption)
    | (with_reducible exact hW)
    | (with_reducible exact Sub.trans (Sub.mk (by decide)) hW)
    | (with_reducible apply State_readLog_fr)
    | (with_reducible refine Frame.getD (fun _ _ => ?_) ?_)
    | (intro x; refine Frame.cut (w := wF) (z := zF) (x := x) ?_ ?_ <;> [subst x; (intro _; clear_value x)])
    | (intro x; clear_value x)
    | (intro _)
    | lift_lets

theorem State_readTileCopy_fr {wF : Nat} {zF : State} {s : State} (demand : Bool) (obj : Nat) (t : TileDir) (hF : Frame wF zF s) (hW : Sub 0x1000000010001 wF) :
    Frame wF zF (State.readTileCopy s demand obj t) := by
  unfold State.readTileCopy
  repeat' first
    | (with_reducible assumption)
    | (with_reducible exact hW)
    | (with_reducible exact Sub.trans (Sub.mk (by decide)) hW)
    | (with_reducible apply State_readCopy_fr)

theorem State_readExt_fr {wF : Nat} {zF : State} {s : State} (demand : Bool) (pool : Nat) (page : Nat) (hF : Frame wF zF s) (hW : Sub 0x1000000010001 wF) :
    Frame wF zF (State.readExt s demand pool page) := by
  unfold State.readExt
  repeat' first
    | (with_reducible assumption)
    | (with_reducible exact hW)
    | (with_reducible exact Sub.trans (Sub.mk (by decide)) hW)
    | (with_reducible apply State_readLog_fr)
    | (intro _)

theorem State_moveUnit_fr {wF : Nat} {zF : State} {s : State} (obj : Nat) (unit : Nat) (hF : Frame wF zF s) (hW : Sub 0x1000000010001 wF) :
    Frame wF zF (State.moveUnit s obj unit) := by
  unfold State.moveUnit
  repeat' first
    | (with_reducible assumption)
    | (with_reducible exact hW)
    | (with_reducible exact Sub.trans (Sub.mk (by decide)) hW)
    | (with_reducible apply State_readLog_fr)
    | (with_reducible (apply State_storeUnit_fr; case hT => assumption))
    | (with_reducible apply State_modFlash_fr)
    | (with_reducible (apply Frame.of_pair; assumption))
    | (with_reducible (apply Frame.of_pair'; assumption))
    | (intro x; refine Frame.cut (w := wF) (z := zF) (x := x) ?_ ?_ <;> [subst x; (intro _; clear_value x)])
    | (intro x; clear_value x)
    | (intro _)
    | lift_lets
    | split

end Sys2Proof.Machine
end

