-- ==== Sys2Proof/Laws/FramePools.lean ====
section
/-! SUPPORT. What each operation of Machine/Pools.lean may change. -/

set_option linter.all false

namespace Sys2Proof.Machine

open Sys2Proof

theorem State_modPage_fr {wF : Nat} {zF : State} {s : State} (pool : Nat) (id : Nat) (f : PageDesc → PageDesc) (hF : Frame wF zF s) (hW : Sub 0x200000 wF) :
    Frame wF zF (State.modPage s pool id f) := by
  unfold State.modPage
  repeat' first
    | (with_reducible assumption)
    | (with_reducible exact hW)
    | (with_reducible exact Sub.trans (Sub.mk (by decide)) hW)
    | (with_reducible apply State_modPool_fr)
    | (intro _)

theorem State_allocPage_fr {wF : Nat} {zF : State} {s : State} (pool : Nat) (hF : Frame wF zF s) (hW : Sub 0x200001 wF) :
    Frame wF zF (State.allocPage s pool).2 := by
  unfold State.allocPage
  repeat' first
    | (with_reducible assumption)
    | (with_reducible exact hW)
    | (with_reducible exact Sub.trans (Sub.mk (by decide)) hW)
    | (with_reducible apply State_choose_fr)
    | (with_reducible apply State_modPage_fr)
    | (with_reducible (apply Frame.of_pair; assumption))
    | (with_reducible (apply Frame.of_pair'; assumption))
    | (intro _)
    | split

theorem State_hostRoom_fr {wF : Nat} {zF : State} {s : State} (buf : Nat) (hF : Frame wF zF s) (hW : Sub 0x20210000 wF) :
    Frame wF zF (State.hostRoom s buf) := by
  unfold State.hostRoom
  repeat' first
    | (with_reducible assumption)
    | (with_reducible exact hW)
    | (with_reducible exact Sub.trans (Sub.mk (by decide)) hW)
    | (with_reducible apply State_modPool_fr)
    | (with_reducible apply State_raise_fr)
    | (with_reducible refine Frame.foldl (fun _ _ _ => ?_) _ ?_)
    | (with_reducible refine Frame.foldl1 (fun _ _ _ => ?_) _ ?_)
    | (with_reducible refine Frame.foldl2 (fun _ _ _ => ?_) _ ?_)
    | (with_reducible (apply Frame.of_pair; assumption))
    | (with_reducible (apply Frame.of_pair'; assumption))
    | (intro _)
    | ((fail_if_success split); with_reducible apply Frame.upd_spillPool)
    | split

theorem State_freePage_fr {wF : Nat} {zF : State} {s : State} (pool : Nat) (id : Nat) (hF : Frame wF zF s) (hW : Sub 0x1000020210000 wF) :
    Frame wF zF (State.freePage s pool id) := by
  unfold State.freePage
  repeat' first
    | (with_reducible assumption)
    | (with_reducible exact hW)
    | (with_reducible exact Sub.trans (Sub.mk (by decide)) hW)
    | (with_reducible apply State_modPool_fr)
    | (with_reducible apply State_modPage_fr)
    | (with_reducible apply State_hostRoom_fr)
    | (with_reducible apply State_modFlash_fr)
    | (with_reducible refine Frame.getD (fun _ _ => ?_) ?_)
    | (intro x; refine Frame.cut (w := wF) (z := zF) (x := x) ?_ ?_ <;> [subst x; (intro _; clear_value x)])
    | (intro x; clear_value x)
    | (intro _)
    | lift_lets
    | split

theorem State_settlePage_fr {wF : Nat} {zF : State} {s : State} (pool : Nat) (id : Nat) (hF : Frame wF zF s) (hW : Sub 0x1000020210000 wF) :
    Frame wF zF (State.settlePage s pool id) := by
  unfold State.settlePage
  repeat' first
    | (with_reducible assumption)
    | (with_reducible exact hW)
    | (with_reducible exact Sub.trans (Sub.mk (by decide)) hW)
    | (with_reducible apply State_freePage_fr)
    | (intro x; refine Frame.cut (w := wF) (z := zF) (x := x) ?_ ?_ <;> [subst x; (intro _; clear_value x)])
    | (intro x; clear_value x)
    | (intro _)
    | lift_lets
    | split

theorem State_incRef_fr {wF : Nat} {zF : State} {s : State} (pool : Nat) (id : Nat) (hF : Frame wF zF s) (hW : Sub 0x200000 wF) :
    Frame wF zF (State.incRef s pool id) := by
  unfold State.incRef
  repeat' first
    | (with_reducible assumption)
    | (with_reducible exact hW)
    | (with_reducible exact Sub.trans (Sub.mk (by decide)) hW)
    | (with_reducible apply State_modPage_fr)
    | (intro _)
    | split

theorem State_decRef_fr {wF : Nat} {zF : State} {s : State} (pool : Nat) (id : Nat) (hF : Frame wF zF s) (hW : Sub 0x1000020210000 wF) :
    Frame wF zF (State.decRef s pool id) := by
  unfold State.decRef
  repeat' first
    | (with_reducible assumption)
    | (with_reducible exact hW)
    | (with_reducible exact Sub.trans (Sub.mk (by decide)) hW)
    | (with_reducible apply State_modPage_fr)
    | (with_reducible apply State_settlePage_fr)
    | (intro x; refine Frame.cut (w := wF) (z := zF) (x := x) ?_ ?_ <;> [subst x; (intro _; clear_value x)])
    | (intro x; clear_value x)
    | (intro _)
    | lift_lets
    | split

theorem State_pinPage_fr {wF : Nat} {zF : State} {s : State} (pool : Nat) (id : Nat) (hF : Frame wF zF s) (hW : Sub 0x200000 wF) :
    Frame wF zF (State.pinPage s pool id) := by
  unfold State.pinPage
  repeat' first
    | (with_reducible assumption)
    | (with_reducible exact hW)
    | (with_reducible exact Sub.trans (Sub.mk (by decide)) hW)
    | (with_reducible apply State_modPage_fr)
    | (intro _)

theorem State_unpinPage_fr {wF : Nat} {zF : State} {s : State} (pool : Nat) (id : Nat) (hF : Frame wF zF s) (hW : Sub 0x1000020210000 wF) :
    Frame wF zF (State.unpinPage s pool id) := by
  unfold State.unpinPage
  repeat' first
    | (with_reducible assumption)
    | (with_reducible exact hW)
    | (with_reducible exact Sub.trans (Sub.mk (by decide)) hW)
    | (with_reducible apply State_modPage_fr)
    | (with_reducible apply State_settlePage_fr)
    | (intro _)

theorem State_takeSlot_fr {wF : Nat} {zF : State} {s : State} (pool : Nat) (u : TableUse) (hF : Frame wF zF s) (hW : Sub 0x200000 wF) :
    Frame wF zF (State.takeSlot s pool u).2 := by
  unfold State.takeSlot
  repeat' first
    | (with_reducible assumption)
    | (with_reducible exact hW)
    | (with_reducible exact Sub.trans (Sub.mk (by decide)) hW)
    | (with_reducible apply State_modPool_fr)
    | (with_reducible (apply Frame.of_pair; assumption))
    | (with_reducible (apply Frame.of_pair'; assumption))
    | (intro _)
    | split

theorem State_dropTables_fr {wF : Nat} {zF : State} {s : State} (pool : Nat) (q : Nat) (hF : Frame wF zF s) (hW : Sub 0x200000 wF) :
    Frame wF zF (State.dropTables s pool q) := by
  unfold State.dropTables
  repeat' first
    | (with_reducible assumption)
    | (with_reducible exact hW)
    | (with_reducible exact Sub.trans (Sub.mk (by decide)) hW)
    | (with_reducible apply State_modPool_fr)
    | (with_reducible (apply Frame.of_pair; assumption))
    | (with_reducible (apply Frame.of_pair'; assumption))
    | (intro x; refine Frame.cut (w := wF) (z := zF) (x := x) ?_ ?_ <;> [subst x; (intro _; clear_value x)])
    | (intro x; clear_value x)
    | (intro _)
    | lift_lets
    | split

theorem State_finishAll_fr {wF : Nat} {zF : State} {s : State} (l : List Ref) (status : Nat) (hF : Frame wF zF s) (hW : Sub 0x20000000000100f8 wF) :
    Frame wF zF (State.finishAll s l status) := by
  unfold State.finishAll
  repeat' first
    | (with_reducible assumption)
    | (with_reducible exact hW)
    | (with_reducible exact Sub.trans (Sub.mk (by decide)) hW)
    | (with_reducible apply State_finish_fr)
    | (with_reducible refine Frame.foldl (fun _ _ _ => ?_) _ ?_)
    | (with_reducible refine Frame.foldl1 (fun _ _ _ => ?_) _ ?_)
    | (with_reducible refine Frame.foldl2 (fun _ _ _ => ?_) _ ?_)
    | (intro _)

theorem State_applyClose_fr {wF : Nat} {zF : State} {s : State} (h : Nat) (hF : Frame wF zF s) (hW : Sub 0x2001000022e100f9 wF) :
    Frame wF zF (State.applyClose s h) := by
  unfold State.applyClose
  repeat' first
    | (with_reducible assumption)
    | (with_reducible exact hW)
    | (with_reducible exact Sub.trans (Sub.mk (by decide)) hW)
    | (with_reducible apply State_decRef_fr)
    | (with_reducible apply State_dropTables_fr)
    | (with_reducible apply State_endSeqEnts_fr)
    | (with_reducible apply State_modSeq_fr)
    | (with_reducible apply State_finishAll_fr)
    | (with_reducible refine Frame.foldl (fun _ _ _ => ?_) _ ?_)
    | (with_reducible refine Frame.foldl1 (fun _ _ _ => ?_) _ ?_)
    | (with_reducible refine Frame.foldl2 (fun _ _ _ => ?_) _ ?_)
    | (with_reducible (apply Frame.of_pair; assumption))
    | (with_reducible (apply Frame.of_pair'; assumption))
    | (intro x; refine Frame.cut (w := wF) (z := zF) (x := x) ?_ ?_ <;> [subst x; (intro _; clear_value x)])
    | (intro x; clear_value x)
    | (intro _)
    | lift_lets
    | split

theorem State_agedSlots_fr {wF : Nat} {zF : State} {s : State} (hF : Frame wF zF s) (hW : Sub 0x2000000 wF) :
    Frame wF zF (State.agedSlots s) := by
  unfold State.agedSlots
  repeat' first
    | (with_reducible assumption)
    | (with_reducible exact hW)
    | (with_reducible exact Sub.trans (Sub.mk (by decide)) hW)
    | (intro _)
    | ((fail_if_success split); with_reducible apply Frame.upd_seqs)

theorem opSeqOpen_fr {wF : Nat} {zF : State} (r : Ref) (b : List Byte) {s : State} (hF : Frame wF zF s) (hW : Sub 0x20000000022100f8 wF) :
    Frame wF zF (opSeqOpen r b s) := by
  unfold opSeqOpen
  repeat' first
    | (with_reducible assumption)
    | (with_reducible exact hW)
    | (with_reducible exact Sub.trans (Sub.mk (by decide)) hW)
    | (with_reducible apply State_finish_fr)
    | (with_reducible apply State_takeSlot_fr)
    | (with_reducible refine Frame.getD (fun _ _ => ?_) ?_)
    | (with_reducible (apply Frame.of_pair; assumption))
    | (with_reducible (apply Frame.of_pair'; assumption))
    | (intro x; refine Frame.cut (w := wF) (z := zF) (x := x) ?_ ?_ <;> [subst x; (intro _; clear_value x)])
    | (intro x; clear_value x)
    | (intro _)
    | lift_lets
    | ((fail_if_success split); with_reducible apply Frame.upd_seqs)
    | split

theorem opSeqClose_fr {wF : Nat} {zF : State} (r : Ref) (b : List Byte) {s : State} (hF : Frame wF zF s) (hW : Sub 0x2001000022e100f9 wF) :
    Frame wF zF (opSeqClose r b s) := by
  unfold opSeqClose
  repeat' first
    | (with_reducible assumption)
    | (with_reducible exact hW)
    | (with_reducible exact Sub.trans (Sub.mk (by decide)) hW)
    | (with_reducible apply State_finish_fr)
    | (with_reducible apply State_modSeq_fr)
    | (with_reducible apply State_applyClose_fr)
    | (with_reducible (apply Frame.of_pair; assumption))
    | (with_reducible (apply Frame.of_pair'; assumption))
    | (intro x; refine Frame.cut (w := wF) (z := zF) (x := x) ?_ ?_ <;> [subst x; (intro _; clear_value x)])
    | (intro x; clear_value x)
    | (intro _)
    | lift_lets
    | split

theorem actShare_fr {wF : Nat} {zF : State} (r : Ref) (src : Nat) (dst : Nat) (n : Nat) {s : State} (hF : Frame wF zF s) (hW : Sub 0x20000000022100f8 wF) :
    Frame wF zF (actShare r src dst n s) := by
  unfold actShare
  repeat' first
    | (with_reducible assumption)
    | (with_reducible exact hW)
    | (with_reducible exact Sub.trans (Sub.mk (by decide)) hW)
    | (with_reducible apply State_finish_fr)
    | (with_reducible apply State_takeSlot_fr)
    | (with_reducible apply State_incRef_fr)
    | (with_reducible apply State_modPage_fr)
    | (with_reducible apply State_modSeq_fr)
    | (with_reducible refine Frame.foldl (fun _ _ _ => ?_) _ ?_)
    | (with_reducible refine Frame.foldl1 (fun _ _ _ => ?_) _ ?_)
    | (with_reducible refine Frame.foldl2 (fun _ _ _ => ?_) _ ?_)
    | (with_reducible (apply Frame.of_pair; assumption))
    | (with_reducible (apply Frame.of_pair'; assumption))
    | (intro x; refine Frame.cut (w := wF) (z := zF) (x := x) ?_ ?_ <;> [subst x; (intro _; clear_value x)])
    | (intro x; clear_value x)
    | (intro _)
    | lift_lets
    | split

theorem opPageShare_fr {wF : Nat} {zF : State} (r : Ref) (b : List Byte) {s : State} (hF : Frame wF zF s) (hW : Sub 0x20000000022100f8 wF) :
    Frame wF zF (opPageShare r b s) := by
  unfold opPageShare
  repeat' first
    | (with_reducible assumption)
    | (with_reducible exact hW)
    | (with_reducible exact Sub.trans (Sub.mk (by decide)) hW)
    | (with_reducible apply State_finish_fr)
    | (with_reducible apply actShare_fr)
    | (with_reducible (apply Frame.of_pair; assumption))
    | (with_reducible (apply Frame.of_pair'; assumption))
    | (intro x; refine Frame.cut (w := wF) (z := zF) (x := x) ?_ ?_ <;> [subst x; (intro _; clear_value x)])
    | (intro x; clear_value x)
    | (intro _)
    | lift_lets
    | ((fail_if_success split); with_reducible apply Frame.upd_cmds)
    | split

theorem opSpillPolicy_fr {wF : Nat} {zF : State} (r : Ref) (b : List Byte) {s : State} (hF : Frame wF zF s) (hW : Sub 0x20000000202100f8 wF) :
    Frame wF zF (opSpillPolicy r b s) := by
  unfold opSpillPolicy
  repeat' first
    | (with_reducible assumption)
    | (with_reducible exact hW)
    | (with_reducible exact Sub.trans (Sub.mk (by decide)) hW)
    | (with_reducible apply State_finish_fr)
    | (with_reducible apply State_modPool_fr)
    | (with_reducible apply State_raise_fr)
    | (with_reducible refine Frame.getD (fun _ _ => ?_) ?_)
    | (with_reducible (apply Frame.of_pair; assumption))
    | (with_reducible (apply Frame.of_pair'; assumption))
    | (intro x; refine Frame.cut (w := wF) (z := zF) (x := x) ?_ ?_ <;> [subst x; (intro _; clear_value x)])
    | (intro x; clear_value x)
    | (intro _)
    | lift_lets
    | ((fail_if_success split); with_reducible apply Frame.upd_spillPool)
    | split

end Sys2Proof.Machine
end

