-- ==== Sys2Proof/Laws/FrameObjects.lean ====
section
/-! SUPPORT. What each operation of Machine/Objects.lean may change. -/

set_option linter.all false

namespace Sys2Proof.Machine

open Sys2Proof

theorem State_finishObj_fr {wF : Nat} {zF : State} {s : State} (r : Ref) (id : Nat) (status : Nat) (hF : Frame wF zF s) (hW : Sub 0x20000000000100f8 wF) :
    Frame wF zF (State.finishObj s r id status) := by
  unfold State.finishObj
  repeat' first
    | (with_reducible assumption)
    | (with_reducible exact hW)
    | (with_reducible exact Sub.trans (Sub.mk (by decide)) hW)
    | (with_reducible apply State_finish_fr)
    | (with_reducible (apply Frame.of_pair; assumption))
    | (with_reducible (apply Frame.of_pair'; assumption))
    | split

theorem State_finishWaiters_fr {wF : Nat} {zF : State} {s : State} (l : List Waiter) (id : Nat) (st : Nat) (hF : Frame wF zF s) (hW : Sub 0x20000000000100f8 wF) :
    Frame wF zF (State.finishWaiters s l id st) := by
  unfold State.finishWaiters
  repeat' first
    | (with_reducible assumption)
    | (with_reducible exact hW)
    | (with_reducible exact Sub.trans (Sub.mk (by decide)) hW)
    | (with_reducible apply State_finishObj_fr)
    | (with_reducible refine Frame.foldl (fun _ _ _ => ?_) _ ?_)
    | (with_reducible refine Frame.foldl1 (fun _ _ _ => ?_) _ ?_)
    | (with_reducible refine Frame.foldl2 (fun _ _ _ => ?_) _ ?_)
    | (intro _)
    | split

theorem State_addObj_fr {wF : Nat} {zF : State} {s : State} (r : Ref) (o : Obj) (res : List Byte) (hF : Frame wF zF s) (hW : Sub 0x20000000006100f9 wF) :
    Frame wF zF (State.addObj s r o res) := by
  unfold State.addObj
  extract_lets u s1 s2
  have h0 : Frame wF zF u := Frame.upd_objs hF (Sub.trans (Sub.mk (by decide)) hW)
  clear_value u
  have p1 : ∀ t, s1 = some t → Frame wF zF t := by
    intro t h
    simp only [s1] at h
    split at h
    · exact State_placeSys_fr _ _ _ h0 (Sub.trans (Sub.mk (by decide)) hW) h
    · cases h
      exact h0
  clear_value s1
  have p3 : ∀ t, s2 = some t → Frame wF zF t := by
    intro t h
    obtain ⟨a, h1, h2⟩ := Option.bind_eq_some_iff.mp h
    split at h2
    · exact State_placeSys_fr _ _ _ (p1 _ h1) (Sub.trans (Sub.mk (by decide)) hW) h2
    · cases h2
      exact p1 _ h1
  clear_value s2
  cases s2 with
  | none => exact State_finish_fr _ _ _ hF (Sub.trans (Sub.mk (by decide)) hW)
  | some t => exact State_finish_fr _ _ _ (p3 _ (Eq.refl _)) (Sub.trans (Sub.mk (by decide)) hW)

theorem State_placeLp_fr {wF : Nat} {zF : State} {s : State} (r : Ref) (o : Obj) (perGroup : Nat) (extra : Obj → State → State) (hF : Frame wF zF s) (hW : Sub 0x20000000000100f8 wF) (hHextra : ∀ v0 v1, Frame wF zF v1 → Frame wF zF (extra v0 v1)) :
    Frame wF zF (State.placeLp s r o perGroup extra) := by
  unfold State.placeLp
  repeat' first
    | (with_reducible assumption)
    | (with_reducible exact hW)
    | (with_reducible exact Sub.trans (Sub.mk (by decide)) hW)
    | (with_reducible apply State_finish_fr)
    | (with_reducible apply hHextra)
    | (with_reducible (apply Frame.of_pair; assumption))
    | (with_reducible (apply Frame.of_pair'; assumption))
    | (intro x; refine Frame.cut (w := wF) (z := zF) (x := x) ?_ ?_ <;> [subst x; (intro _; clear_value x)])
    | (intro x; clear_value x)
    | (intro _)
    | lift_lets
    | split

theorem State_placeMeta_fr {wF : Nat} {zF : State} {s : State} (r : Ref) (o : Obj) (p : Pool) (hF : Frame wF zF s) (hW : Sub 0x20000000006100f9 wF) :
    Frame wF zF (State.placeMeta s r o p) := by
  rw [State.placeMeta.eq_1]
  generalize lowOff _ _ _ _ = x
  cases x with
  | none => exact State_finish_fr _ _ _ hF (Sub.trans (Sub.mk (by decide)) hW)
  | some m => exact State_addObj_fr _ _ _ hF (Sub.trans (Sub.mk (by decide)) hW)

theorem State_claimCopy_fr {wF : Nat} {zF : State} {s : State} (o : Obj) (hF : Frame wF zF s) (hW : Sub 0x1000000000000 wF) :
    Frame wF zF (State.claimCopy s o).2 := by
  unfold State.claimCopy
  repeat' first
    | (with_reducible assumption)
    | (with_reducible exact hW)
    | (with_reducible exact Sub.trans (Sub.mk (by decide)) hW)
    | (with_reducible apply State_modFlash_fr)
    | (intro x; refine Frame.cut (w := wF) (z := zF) (x := x) ?_ ?_ <;> [subst x; (intro _; clear_value x)])
    | (intro x; clear_value x)
    | (intro _)
    | lift_lets
    | split

theorem opObjCreate_fr {wF : Nat} {zF : State} (r : Ref) (b : List Byte) {s : State} (hF : Frame wF zF s) (hW : Sub 0x20010000006100f9 wF) :
    Frame wF zF (opObjCreate r b s) := by
  unfold opObjCreate
  repeat' first
    | (with_reducible assumption)
    | (with_reducible exact hW)
    | (with_reducible exact Sub.trans (Sub.mk (by decide)) hW)
    | (with_reducible apply State_finish_fr)
    | (with_reducible apply State_addObj_fr)
    | (with_reducible apply State_placeLp_fr)
    | (with_reducible apply State_claimCopy_fr)
    | (with_reducible apply State_placeMeta_fr)
    | (with_reducible (apply Frame.of_pair; assumption))
    | (with_reducible (apply Frame.of_pair'; assumption))
    | (intro x; refine Frame.cut (w := wF) (z := zF) (x := x) ?_ ?_ <;> [subst x; (intro _; clear_value x)])
    | (intro x; clear_value x)
    | (intro _)
    | lift_lets
    | split

theorem State_startCopy_fr {wF : Nat} {zF : State} {s : State} (o : Obj) (body : List Host.Cell) (hF : Frame wF zF s) (hW : Sub 0x1000000000001 wF) :
    Frame wF zF (State.startCopy s o body) := by
  unfold State.startCopy
  repeat' first
    | (with_reducible assumption)
    | (with_reducible exact hW)
    | (with_reducible exact Sub.trans (Sub.mk (by decide)) hW)
    | (with_reducible apply State_dropCopy_fr)
    | (with_reducible apply State_modFlash_fr)
    | (with_reducible apply State_storeUnits_fr)
    | (intro _)

theorem State_destroyObj_fr {wF : Nat} {zF : State} {s : State} (id : Nat) (hF : Frame wF zF s) (hW : Sub 0x20010400006100f9 wF) :
    Frame wF zF (State.destroyObj s id) := by
  unfold State.destroyObj
  repeat' first
    | (with_reducible assumption)
    | (with_reducible exact hW)
    | (with_reducible exact Sub.trans (Sub.mk (by decide)) hW)
    | (with_reducible apply State_finishWaiters_fr)
    | (with_reducible apply State_dropSys_fr)
    | (with_reducible apply State_modDies_fr)
    | (with_reducible apply State_dropCopy_fr)
    | (with_reducible apply State_modFlash_fr)
    | (with_reducible apply State_mendSys_fr)
    | (with_reducible (apply Frame.of_pair; assumption))
    | (with_reducible (apply Frame.of_pair'; assumption))
    | (intro x; refine Frame.cut (w := wF) (z := zF) (x := x) ?_ ?_ <;> [subst x; (intro _; clear_value x)])
    | (intro x; clear_value x)
    | (intro _)
    | lift_lets
    | ((fail_if_success split); with_reducible apply Frame.upd_objs)
    | split

theorem State_startArrival_fr {wF : Nat} {zF : State} {s : State} (id : Nat) (src : LoadSrc) (w : List Waiter) (hF : Frame wF zF s) (hW : Sub 0x200000 wF) :
    Frame wF zF (State.startArrival s id src w) := by
  unfold State.startArrival
  repeat' first
    | (with_reducible assumption)
    | (with_reducible exact hW)
    | (with_reducible exact Sub.trans (Sub.mk (by decide)) hW)
    | (with_reducible apply State_modObj_fr)
    | (intro _)

theorem State_startDepart_fr {wF : Nat} {zF : State} {s : State} (id : Nat) (toDest : Nat) (w : List Waiter) (hF : Frame wF zF s) (hW : Sub 0x200000 wF) :
    Frame wF zF (State.startDepart s id toDest w) := by
  unfold State.startDepart
  repeat' first
    | (with_reducible assumption)
    | (with_reducible exact hW)
    | (with_reducible exact Sub.trans (Sub.mk (by decide)) hW)
    | (with_reducible apply State_modObj_fr)
    | (intro _)

theorem State_destroyEnd_fr {wF : Nat} {zF : State} {s : State} (id : Nat) (hF : Frame wF zF s) (hW : Sub 0x20010400406100f9 wF) :
    Frame wF zF (State.destroyEnd s id) := by
  unfold State.destroyEnd
  repeat' first
    | (with_reducible assumption)
    | (with_reducible exact hW)
    | (with_reducible exact Sub.trans (Sub.mk (by decide)) hW)
    | (with_reducible apply State_modObj_fr)
    | (with_reducible apply State_destroyObj_fr)
    | (with_reducible (apply Frame.of_pair; assumption))
    | (with_reducible (apply Frame.of_pair'; assumption))
    | (intro x; refine Frame.cut (w := wF) (z := zF) (x := x) ?_ ?_ <;> [subst x; (intro _; clear_value x)])
    | (intro x; clear_value x)
    | (intro _)
    | lift_lets
    | ((fail_if_success split); with_reducible apply Frame.upd_models)
    | split

theorem State_departDone_fr {wF : Nat} {zF : State} {s : State} (id : Nat) (hF : Frame wF zF s) (hW : Sub 0x20010400406100f9 wF) :
    Frame wF zF (State.departDone s id) := by
  unfold State.departDone
  repeat' first
    | (with_reducible assumption)
    | (with_reducible exact hW)
    | (with_reducible exact Sub.trans (Sub.mk (by decide)) hW)
    | (with_reducible apply State_modObj_fr)
    | (with_reducible apply State_finishWaiters_fr)
    | (with_reducible apply State_startArrival_fr)
    | (with_reducible apply State_destroyEnd_fr)
    | (with_reducible (apply Frame.of_pair; assumption))
    | (with_reducible (apply Frame.of_pair'; assumption))
    | (intro x; refine Frame.cut (w := wF) (z := zF) (x := x) ?_ ?_ <;> [subst x; (intro _; clear_value x)])
    | (intro x; clear_value x)
    | (intro _)
    | lift_lets
    | split

theorem State_releaseBytes_fr {wF : Nat} {zF : State} {s : State} (id : Nat) (hF : Frame wF zF s) (hW : Sub 0x20010400406100f9 wF) :
    Frame wF zF (State.releaseBytes s id) := by
  unfold State.releaseBytes
  repeat' first
    | (with_reducible assumption)
    | (with_reducible exact hW)
    | (with_reducible exact Sub.trans (Sub.mk (by decide)) hW)
    | (with_reducible apply State_modObj_fr)
    | (with_reducible apply State_departDone_fr)
    | (with_reducible (apply Frame.of_pair; assumption))
    | (with_reducible (apply Frame.of_pair'; assumption))
    | (intro _)
    | split

theorem State_cancelDepart_fr {wF : Nat} {zF : State} {s : State} (id : Nat) (hF : Frame wF zF s) (hW : Sub 0x20010000002100f8 wF) :
    Frame wF zF (State.cancelDepart s id) := by
  unfold State.cancelDepart
  repeat' first
    | (with_reducible assumption)
    | (with_reducible exact hW)
    | (with_reducible exact Sub.trans (Sub.mk (by decide)) hW)
    | (with_reducible apply State_dropCopy_fr)
    | (with_reducible apply State_modObj_fr)
    | (with_reducible apply State_finishWaiters_fr)
    | (with_reducible (apply Frame.of_pair; assumption))
    | (with_reducible (apply Frame.of_pair'; assumption))
    | (intro x; refine Frame.cut (w := wF) (z := zF) (x := x) ?_ ?_ <;> [subst x; (intro _; clear_value x)])
    | (intro x; clear_value x)
    | (intro _)
    | lift_lets
    | split

theorem State_arrivalEnd_fr {wF : Nat} {zF : State} {s : State} (id : Nat) (hF : Frame wF zF s) (hW : Sub 0x20010400406100f9 wF) :
    Frame wF zF (State.arrivalEnd s id) := by
  unfold State.arrivalEnd
  repeat' first
    | (with_reducible assumption)
    | (with_reducible exact hW)
    | (with_reducible exact Sub.trans (Sub.mk (by decide)) hW)
    | (with_reducible apply State_modObj_fr)
    | (with_reducible apply State_finishWaiters_fr)
    | (with_reducible apply State_startDepart_fr)
    | (with_reducible apply State_destroyEnd_fr)
    | (with_reducible (apply Frame.of_pair; assumption))
    | (with_reducible (apply Frame.of_pair'; assumption))
    | (intro x; refine Frame.cut (w := wF) (z := zF) (x := x) ?_ ?_ <;> [subst x; (intro _; clear_value x)])
    | (intro x; clear_value x)
    | (intro _)
    | lift_lets
    | split

theorem State_arrivalFail_fr {wF : Nat} {zF : State} {s : State} (id : Nat) (st : Nat) (hF : Frame wF zF s) (hW : Sub 0x20010400406100f9 wF) :
    Frame wF zF (State.arrivalFail s id st) := by
  unfold State.arrivalFail
  repeat' first
    | (with_reducible assumption)
    | (with_reducible exact hW)
    | (with_reducible exact Sub.trans (Sub.mk (by decide)) hW)
    | (with_reducible apply State_modObj_fr)
    | (with_reducible apply State_finishWaiters_fr)
    | (with_reducible apply State_destroyEnd_fr)
    | (with_reducible (apply Frame.of_pair; assumption))
    | (with_reducible (apply Frame.of_pair'; assumption))
    | (intro x; refine Frame.cut (w := wF) (z := zF) (x := x) ?_ ?_ <;> [subst x; (intro _; clear_value x)])
    | (intro x; clear_value x)
    | (intro _)
    | lift_lets
    | split

theorem State_meetArrival_fr {wF : Nat} {zF : State} {s : State} (r : Option Ref) (id : Nat) (src : LoadSrc) (hF : Frame wF zF s) (hW : Sub 0x20010000002100f8 wF) :
    Frame wF zF (State.meetArrival s r id src) := by
  unfold State.meetArrival
  repeat' first
    | (with_reducible assumption)
    | (with_reducible exact hW)
    | (with_reducible exact Sub.trans (Sub.mk (by decide)) hW)
    | (with_reducible apply State_finishObj_fr)
    | (with_reducible apply State_startArrival_fr)
    | (with_reducible apply State_modObj_fr)
    | (with_reducible apply State_finishWaiters_fr)
    | (with_reducible apply State_cancelDepart_fr)
    | (with_reducible refine Frame.getD (fun _ _ => ?_) ?_)
    | (with_reducible (apply Frame.of_pair; assumption))
    | (with_reducible (apply Frame.of_pair'; assumption))
    | (intro x; refine Frame.cut (w := wF) (z := zF) (x := x) ?_ ?_ <;> [subst x; (intro _; clear_value x)])
    | (intro x; refine Frame.cutS1 (w := wF) (z := zF) (x := x) ?_ ?_ <;> [(subst x; intro _ _; try beta_reduce); (intro _; clear_value x)])
    | (intro x; refine Frame.cutS2 (w := wF) (z := zF) (x := x) ?_ ?_ <;> [(subst x; intro _ _ _; try beta_reduce); (intro _; clear_value x)])
    | (intro x; refine Frame.cutF1 (w := wF) (z := zF) (x := x) ?_ ?_ <;> [(subst x; intro _; try beta_reduce); (intro _; clear_value x)])
    | (intro x; refine Frame.cutF2 (w := wF) (z := zF) (x := x) ?_ ?_ <;> [(subst x; intro _ _; try beta_reduce); (intro _; clear_value x)])
    | (intro x; clear_value x)
    | (intro _)
    | (with_reducible apply_assumption)
    | lift_lets
    | split

theorem State_withMovable_fr {wF : Nat} {zF : State} {s : State} (r : Ref) (id : Nat) (f : Obj → State → State) (hF : Frame wF zF s) (hW : Sub 0x20000000000100f8 wF) (hHf : ∀ v0 v1, Frame wF zF v1 → Frame wF zF (f v0 v1)) :
    Frame wF zF (State.withMovable s r id f) := by
  unfold State.withMovable
  repeat' first
    | (with_reducible assumption)
    | (with_reducible exact hW)
    | (with_reducible exact Sub.trans (Sub.mk (by decide)) hW)
    | (with_reducible apply State_finish_fr)
    | (with_reducible apply State_finishObj_fr)
    | (with_reducible apply hHf)
    | (with_reducible (apply Frame.of_pair; assumption))
    | (with_reducible (apply Frame.of_pair'; assumption))
    | split

theorem opObjLoadHost_fr {wF : Nat} {zF : State} (r : Ref) (b : List Byte) {s : State} (hF : Frame wF zF s) (hW : Sub 0x20010000002100f8 wF) :
    Frame wF zF (opObjLoadHost r b s) := by
  unfold opObjLoadHost
  repeat' first
    | (with_reducible assumption)
    | (with_reducible exact hW)
    | (with_reducible exact Sub.trans (Sub.mk (by decide)) hW)
    | (with_reducible apply State_finish_fr)
    | (with_reducible apply State_withMovable_fr)
    | (with_reducible apply State_finishObj_fr)
    | (with_reducible apply State_meetArrival_fr)
    | (intro x; refine Frame.cut (w := wF) (z := zF) (x := x) ?_ ?_ <;> [subst x; (intro _; clear_value x)])
    | (intro x; clear_value x)
    | (intro _)
    | lift_lets
    | split

theorem opObjStageFlash_fr {wF : Nat} {zF : State} (r : Ref) (b : List Byte) {s : State} (hF : Frame wF zF s) (hW : Sub 0x20010000002100f9 wF) :
    Frame wF zF (opObjStageFlash r b s) := by
  have wait : ∀ (s : State) (p : Option Port), Frame wF zF s → Frame wF zF (s.modObj (fld b 0 4) fun o => { o with
      stageW := o.stageW ++ [{ ref := r, alt := stOK }], stagePort := p }) := fun s p h => State_modObj_fr _ _ h (Sub.trans (Sub.mk (by decide)) hW)
  have fin : ∀ (s : State) (c : Nat), Frame wF zF s → Frame wF zF (s.finishObj r (fld b 0 4) c) := fun s c h => State_finishObj_fr _ _ _ h (Sub.trans (Sub.mk (by decide)) hW)
  unfold opObjStageFlash
  refine Frame.ite (State_finish_fr _ _ _ hF (Sub.trans (Sub.mk (by decide)) hW)) (State_withMovable_fr _ _ _ hF (Sub.trans (Sub.mk (by decide)) hW) fun o s h => ?_)
  refine Frame.ite (fin _ _ h) (Frame.ite (fin _ _ h) (Frame.ite (fin _ _ h) (Frame.ite (fin _ _ h) (Frame.ite (fin _ _ h) ?_))))
  refine Frame.ite (wait _ _ h) (Frame.ite (wait _ _ (State_startCopy_fr _ _ h (Sub.trans (Sub.mk (by decide)) hW))) ?_)
  split
  · exact fin _ _ h
  · split
    · exact fin _ _ h
    · exact Frame.ite (fin _ _ h) (wait _ _ (State_startCopy_fr _ _ h (Sub.trans (Sub.mk (by decide)) hW)))

theorem opObjPromote_fr {wF : Nat} {zF : State} (r : Ref) (b : List Byte) {s : State} (hF : Frame wF zF s) (hW : Sub 0x20010000002100f8 wF) :
    Frame wF zF (opObjPromote r b s) := by
  unfold opObjPromote
  repeat' first
    | (with_reducible assumption)
    | (with_reducible exact hW)
    | (with_reducible exact Sub.trans (Sub.mk (by decide)) hW)
    | (with_reducible apply State_finish_fr)
    | (with_reducible apply State_withMovable_fr)
    | (with_reducible apply State_finishObj_fr)
    | (with_reducible apply State_meetArrival_fr)
    | (with_reducible apply State_emits_fr)
    | (intro x; refine Frame.cut (w := wF) (z := zF) (x := x) ?_ ?_ <;> [subst x; (intro _; clear_value x)])
    | (intro x; clear_value x)
    | (intro _)
    | lift_lets
    | split

theorem opObjEvict_fr {wF : Nat} {zF : State} (r : Ref) (b : List Byte) {s : State} (hF : Frame wF zF s) (hW : Sub 0x20010400006100f9 wF) :
    Frame wF zF (opObjEvict r b s) := by
  unfold opObjEvict
  repeat' first
    | (with_reducible assumption)
    | (with_reducible exact hW)
    | (with_reducible exact Sub.trans (Sub.mk (by decide)) hW)
    | (with_reducible apply State_finish_fr)
    | (with_reducible apply State_finishObj_fr)
    | (with_reducible apply State_destroyObj_fr)
    | (with_reducible apply State_withMovable_fr)
    | (with_reducible apply State_modObj_fr)
    | (with_reducible apply State_startDepart_fr)
    | (with_reducible (apply Frame.of_pair; assumption))
    | (with_reducible (apply Frame.of_pair'; assumption))
    | (intro x; refine Frame.cut (w := wF) (z := zF) (x := x) ?_ ?_ <;> [subst x; (intro _; clear_value x)])
    | (intro x; clear_value x)
    | (intro _)
    | lift_lets
    | split

theorem opObjPin_fr {wF : Nat} {zF : State} (r : Ref) (b : List Byte) {s : State} (hF : Frame wF zF s) (hW : Sub 0x20010000002100f8 wF) :
    Frame wF zF (opObjPin r b s) := by
  unfold opObjPin
  repeat' first
    | (with_reducible assumption)
    | (with_reducible exact hW)
    | (with_reducible exact Sub.trans (Sub.mk (by decide)) hW)
    | (with_reducible apply State_finish_fr)
    | (with_reducible apply State_finishObj_fr)
    | (with_reducible apply State_cancelDepart_fr)
    | (with_reducible apply State_modObj_fr)
    | (with_reducible (apply Frame.of_pair; assumption))
    | (with_reducible (apply Frame.of_pair'; assumption))
    | (intro x; refine Frame.cut (w := wF) (z := zF) (x := x) ?_ ?_ <;> [subst x; (intro _; clear_value x)])
    | (intro x; clear_value x)
    | (intro _)
    | lift_lets
    | split

theorem opObjUnpin_fr {wF : Nat} {zF : State} (r : Ref) (b : List Byte) {s : State} (hF : Frame wF zF s) (hW : Sub 0x20000000002100f8 wF) :
    Frame wF zF (opObjUnpin r b s) := by
  unfold opObjUnpin
  repeat' first
    | (with_reducible assumption)
    | (with_reducible exact hW)
    | (with_reducible exact Sub.trans (Sub.mk (by decide)) hW)
    | (with_reducible apply State_finish_fr)
    | (with_reducible apply State_finishObj_fr)
    | (with_reducible apply State_modObj_fr)
    | (with_reducible (apply Frame.of_pair; assumption))
    | (with_reducible (apply Frame.of_pair'; assumption))
    | (intro x; refine Frame.cut (w := wF) (z := zF) (x := x) ?_ ?_ <;> [subst x; (intro _; clear_value x)])
    | (intro x; clear_value x)
    | (intro _)
    | lift_lets
    | split

theorem opObjQuery_fr {wF : Nat} {zF : State} (r : Ref) (b : List Byte) {s : State} (hF : Frame wF zF s) (hW : Sub 0x20000000000100f8 wF) :
    Frame wF zF (opObjQuery r b s) := by
  unfold opObjQuery
  repeat' first
    | (with_reducible assumption)
    | (with_reducible exact hW)
    | (with_reducible exact Sub.trans (Sub.mk (by decide)) hW)
    | (with_reducible apply State_finish_fr)
    | (with_reducible apply State_hostWrite_fr)
    | (with_reducible apply State_finishWith_fr)
    | (with_reducible (apply Frame.of_pair; assumption))
    | (with_reducible (apply Frame.of_pair'; assumption))
    | (intro x; refine Frame.cut (w := wF) (z := zF) (x := x) ?_ ?_ <;> [subst x; (intro _; clear_value x)])
    | (intro x; clear_value x)
    | (intro _)
    | lift_lets
    | split

theorem State_loseObj_fr {wF : Nat} {zF : State} {s : State} (id : Nat) (hF : Frame wF zF s) (hW : Sub 0x20010400406100f9 wF) :
    Frame wF zF (State.loseObj s id) := by
  unfold State.loseObj
  repeat' first
    | (with_reducible assumption)
    | (with_reducible exact hW)
    | (with_reducible exact Sub.trans (Sub.mk (by decide)) hW)
    | (with_reducible apply State_arrivalFail_fr)
    | (with_reducible apply State_departDone_fr)
    | (with_reducible apply State_modObj_fr)
    | (with_reducible apply State_dropCopy_fr)
    | (with_reducible apply State_finishWaiters_fr)
    | (with_reducible (apply Frame.of_pair; assumption))
    | (with_reducible (apply Frame.of_pair'; assumption))
    | (intro x; refine Frame.cut (w := wF) (z := zF) (x := x) ?_ ?_ <;> [subst x; (intro _; clear_value x)])
    | (intro x; clear_value x)
    | (intro _)
    | lift_lets
    | split

end Sys2Proof.Machine
end

