-- ==== Sys2Proof/Laws/FrameTokens.lean ====
section
/-! SUPPORT. What each operation of Machine/Tokens.lean may change. -/

set_option linter.all false

namespace Sys2Proof.Machine

open Sys2Proof

theorem State_sendToken_fr {wF : Nat} {zF : State} {s : State} (h : Nat) (k : TokKind) (dst : Nat) (t : Token) (body : List CommitEntry) (flags : BitVec 5) (ovfPairs : Nat) (ovfRounds : Nat) (hF : Frame wF zF s) (hW : Sub 0x2000000000000000 wF) :
    Frame wF zF (State.sendToken s h k dst t body flags ovfPairs ovfRounds) := by
  unfold State.sendToken
  repeat' first
    | (with_reducible assumption)
    | (with_reducible exact hW)
    | (with_reducible exact Sub.trans (Sub.mk (by decide)) hW)
    | (with_reducible apply State_emit_fr)
    | (with_reducible refine Frame.getD (fun _ _ => ?_) ?_)
    | (intro x; refine Frame.cut (w := wF) (z := zF) (x := x) ?_ ?_ <;> [subst x; (intro _; clear_value x)])
    | (intro x; clear_value x)
    | (intro _)
    | lift_lets

theorem State_toMaster_fr {wF : Nat} {zF : State} {s : State} (h : Nat) (k : TokKind) (t : Token) (flags : BitVec 5) (ovfPairs : Nat) (ovfRounds : Nat) (hF : Frame wF zF s) (hW : Sub 0x2000000000000000 wF) :
    Frame wF zF (State.toMaster s h k t flags ovfPairs ovfRounds) := by
  unfold State.toMaster
  repeat' first
    | (with_reducible assumption)
    | (with_reducible exact hW)
    | (with_reducible exact Sub.trans (Sub.mk (by decide)) hW)
    | (with_reducible apply State_sendToken_fr)

theorem State_failStep_fr {wF : Nat} {zF : State} {s : State} (h : Nat) (id : Nat) (status : Nat) (hF : Frame wF zF s) (hW : Sub 0x2000000100000000 wF) :
    Frame wF zF (State.failStep s h id status) := by
  unfold State.failStep
  repeat' first
    | (with_reducible assumption)
    | (with_reducible exact hW)
    | (with_reducible exact Sub.trans (Sub.mk (by decide)) hW)
    | (with_reducible apply State_modStep_fr)
    | (with_reducible apply State_toMaster_fr)
    | (with_reducible (apply Frame.of_pair; assumption))
    | (with_reducible (apply Frame.of_pair'; assumption))
    | (intro x; refine Frame.cut (w := wF) (z := zF) (x := x) ?_ ?_ <;> [subst x; (intro _; clear_value x)])
    | (intro x; clear_value x)
    | (intro _)
    | lift_lets
    | split

theorem State_failSlot_fr {wF : Nat} {zF : State} {s : State} (slot : Nat) (status : Nat) (hF : Frame wF zF s) (hW : Sub 0x2000000100000000 wF) :
    Frame wF zF (State.failSlot s slot status) := by
  unfold State.failSlot
  repeat' first
    | (with_reducible assumption)
    | (with_reducible exact hW)
    | (with_reducible exact Sub.trans (Sub.mk (by decide)) hW)
    | (with_reducible apply State_failStep_fr)
    | (with_reducible (apply Frame.of_pair; assumption))
    | (with_reducible (apply Frame.of_pair'; assumption))
    | split

theorem State_blame_fr {wF : Nat} {zF : State} {s : State} (slot : Nat) (b : Blame) (hF : Frame wF zF s) (hW : Sub 0x100000000 wF) :
    Frame wF zF (State.blame s slot b) := by
  unfold State.blame
  repeat' first
    | (with_reducible assumption)
    | (with_reducible exact hW)
    | (with_reducible exact Sub.trans (Sub.mk (by decide)) hW)
    | (with_reducible apply State_modStepAt_fr)
    | (intro _)
    | split

theorem State_failTile_fr {wF : Nat} {zF : State} {s : State} (k : Nat) (e : Tile) (status : Nat) (hF : Frame wF zF s) (hW : Sub 0x2000000100000000 wF) :
    Frame wF zF (State.failTile s k e status) := by
  unfold State.failTile
  repeat' first
    | (with_reducible assumption)
    | (with_reducible exact hW)
    | (with_reducible exact Sub.trans (Sub.mk (by decide)) hW)
    | (with_reducible apply State_blame_fr)
    | (with_reducible apply State_failSlot_fr)

theorem State_requestKill_fr {wF : Nat} {zF : State} {s : State} (h : Nat) (id : Nat) (cause : Nat) (hF : Frame wF zF s) (hW : Sub 0x2000000000000000 wF) :
    Frame wF zF (State.requestKill s h id cause) := by
  unfold State.requestKill
  repeat' first
    | (with_reducible assumption)
    | (with_reducible exact hW)
    | (with_reducible exact Sub.trans (Sub.mk (by decide)) hW)
    | (with_reducible apply State_toMaster_fr)
    | (with_reducible (apply Frame.of_pair; assumption))
    | (with_reducible (apply Frame.of_pair'; assumption))
    | split

theorem State_stale_fr {wF : Nat} {zF : State} {s : State} (hF : Frame wF zF s) (hW : Sub 0x40000000000 wF) :
    Frame wF zF (State.stale s) := by
  unfold State.stale
  repeat' first
    | (with_reducible assumption)
    | (with_reducible exact hW)
    | (with_reducible exact Sub.trans (Sub.mk (by decide)) hW)
    | (with_reducible apply State_modDie_fr)
    | (with_reducible (apply Frame.of_pair; assumption))
    | (with_reducible (apply Frame.of_pair'; assumption))
    | (intro _)
    | split

theorem State_modMst_fr {wF : Nat} {zF : State} {s : State} (h : Nat) (id : Nat) (f : MasterStep → MasterStep) (hF : Frame wF zF s) (hW : Sub 0x200000000 wF) :
    Frame wF zF (State.modMst s h id f) := by
  unfold State.modMst
  repeat' first
    | (with_reducible assumption)
    | (with_reducible exact hW)
    | (with_reducible exact Sub.trans (Sub.mk (by decide)) hW)
    | (intro _)
    | ((fail_if_success split); with_reducible apply Frame.upd_mst)
    | split

theorem State_openMst_fr {wF : Nat} {zF : State} {s : State} (h : Nat) (id : Nat) (run : Nat) (hF : Frame wF zF s) (hW : Sub 0x200000000 wF) :
    Frame wF zF (State.openMst s h id run) := by
  unfold State.openMst
  repeat' first
    | (with_reducible assumption)
    | (with_reducible exact hW)
    | (with_reducible exact Sub.trans (Sub.mk (by decide)) hW)
    | ((fail_if_success split); with_reducible apply Frame.upd_mst)
    | split

theorem State_dropMst_fr {wF : Nat} {zF : State} {s : State} (h : Nat) (id : Nat) (hF : Frame wF zF s) (hW : Sub 0x200000000 wF) :
    Frame wF zF (State.dropMst s h id) := by
  unfold State.dropMst
  repeat' first
    | (with_reducible assumption)
    | (with_reducible exact hW)
    | (with_reducible exact Sub.trans (Sub.mk (by decide)) hW)
    | (intro _)
    | ((fail_if_success split); with_reducible apply Frame.upd_mst)

theorem State_toAll_fr {wF : Nat} {zF : State} {s : State} (h : Nat) (k : TokKind) (t : Token) (body : List CommitEntry) (hF : Frame wF zF s) (hW : Sub 0x2000000000000000 wF) :
    Frame wF zF (State.toAll s h k t body) := by
  unfold State.toAll
  repeat' first
    | (with_reducible assumption)
    | (with_reducible exact hW)
    | (with_reducible exact Sub.trans (Sub.mk (by decide)) hW)
    | (with_reducible apply State_sendToken_fr)
    | (with_reducible refine Frame.foldl (fun _ _ _ => ?_) _ ?_)
    | (with_reducible refine Frame.foldl1 (fun _ _ _ => ?_) _ ?_)
    | (with_reducible refine Frame.foldl2 (fun _ _ _ => ?_) _ ?_)
    | (intro _)

end Sys2Proof.Machine
end

