-- ==== Sys2Proof/Laws/FrameTiles.lean ====
section
/-! SUPPORT. What each operation of Machine/Tiles.lean may change. -/

set_option linter.all false

namespace Sys2Proof.Machine

open Sys2Proof

theorem State_samplePhase_fr {wF : Nat} {zF : State} {s : State} (k : Nat) (hF : Frame wF zF s) (hW : Sub 0x100000000 wF) :
    Frame wF zF (State.samplePhase s k) := by
  unfold State.samplePhase
  repeat' first
    | (with_reducible assumption)
    | (with_reducible exact hW)
    | (with_reducible exact Sub.trans (Sub.mk (by decide)) hW)
    | (with_reducible apply State_modStepAt_fr)
    | (with_reducible refine Frame.foldl (fun _ _ _ => ?_) _ ?_)
    | (with_reducible refine Frame.foldl1 (fun _ _ _ => ?_) _ ?_)
    | (with_reducible refine Frame.foldl2 (fun _ _ _ => ?_) _ ?_)
    | (intro _)
    | split

theorem State_decOne_fr {wF : Nat} {zF : State} {s : State} (k : Nat) (i : Nat) (hF : Frame wF zF s) (hW : Sub 0x2000040100000000 wF) :
    Frame wF zF (State.decOne s k i) := by
  unfold State.decOne
  repeat' first
    | (with_reducible assumption)
    | (with_reducible exact hW)
    | (with_reducible exact Sub.trans (Sub.mk (by decide)) hW)
    | (with_reducible apply State_failSlot_fr)
    | (with_reducible apply State_modDie_fr)
    | (intro _)
    | split

theorem State_decCtrs_fr {wF : Nat} {zF : State} {s : State} (k : Nat) (l : List Nat) (hF : Frame wF zF s) (hW : Sub 0x2000040100000000 wF) :
    Frame wF zF (State.decCtrs s k l) := by
  unfold State.decCtrs
  repeat' first
    | (with_reducible assumption)
    | (with_reducible exact hW)
    | (with_reducible exact Sub.trans (Sub.mk (by decide)) hW)
    | (with_reducible apply State_decOne_fr)
    | (with_reducible apply State_modDie_fr)
    | (with_reducible apply State_samplePhase_fr)
    | (with_reducible refine Frame.foldl (fun _ _ _ => ?_) _ ?_)
    | (with_reducible refine Frame.foldl1 (fun _ _ _ => ?_) _ ?_)
    | (with_reducible refine Frame.foldl2 (fun _ _ _ => ?_) _ ?_)
    | (intro x; refine Frame.cut (w := wF) (z := zF) (x := x) ?_ ?_ <;> [subst x; (intro _; clear_value x)])
    | (intro x; clear_value x)
    | (intro _)
    | lift_lets
    | split

theorem State_decCtr_fr {wF : Nat} {zF : State} {s : State} (k : Nat) (i : Nat) (hF : Frame wF zF s) (hW : Sub 0x2000040100000000 wF) :
    Frame wF zF (State.decCtr s k i) := by
  unfold State.decCtr
  repeat' first
    | (with_reducible assumption)
    | (with_reducible exact hW)
    | (with_reducible exact Sub.trans (Sub.mk (by decide)) hW)
    | (with_reducible apply State_decCtrs_fr)

theorem State_setCtr_fr {wF : Nat} {zF : State} {s : State} (k : Nat) (i : Nat) (v : Nat) (hF : Frame wF zF s) (hW : Sub 0x2000040100000000 wF) :
    Frame wF zF (State.setCtr s k i v) := by
  unfold State.setCtr
  repeat' first
    | (with_reducible assumption)
    | (with_reducible exact hW)
    | (with_reducible exact Sub.trans (Sub.mk (by decide)) hW)
    | (with_reducible apply State_failSlot_fr)
    | (with_reducible apply State_modDie_fr)
    | (intro _)
    | split

theorem State_placeTile_fr {wF : Nat} {zF : State} {s : State} (k : Nat) (e : Tile) (hF : Frame wF zF s) (hW : Sub 0x40100000000 wF) :
    Frame wF zF (State.placeTile s k e) := by
  unfold State.placeTile
  repeat' first
    | (with_reducible assumption)
    | (with_reducible exact hW)
    | (with_reducible exact Sub.trans (Sub.mk (by decide)) hW)
    | (with_reducible apply State_modDie_fr)
    | (with_reducible apply State_samplePhase_fr)
    | (intro x; refine Frame.cut (w := wF) (z := zF) (x := x) ?_ ?_ <;> [subst x; (intro _; clear_value x)])
    | (intro x; clear_value x)
    | (intro _)
    | lift_lets
    | split

theorem State_wakeCopy_fr {wF : Nat} {zF : State} {s : State} (slot : Nat) (hF : Frame wF zF s) (hW : Sub 0x40000000000 wF) :
    Frame wF zF (State.wakeCopy s slot) := by
  unfold State.wakeCopy
  repeat' first
    | (with_reducible assumption)
    | (with_reducible exact hW)
    | (with_reducible exact Sub.trans (Sub.mk (by decide)) hW)
    | (with_reducible apply State_modDie_fr)
    | (with_reducible refine Frame.foldl (fun _ _ _ => ?_) _ ?_)
    | (with_reducible refine Frame.foldl1 (fun _ _ _ => ?_) _ ?_)
    | (with_reducible refine Frame.foldl2 (fun _ _ _ => ?_) _ ?_)
    | (intro _)

theorem State_grant_fr {wF : Nat} {zF : State} {s : State} (k : Nat) (core : Nat) (e : Tile) (hF : Frame wF zF s) (hW : Sub 0x40000000000 wF) :
    Frame wF zF (State.grant s k core e) := by
  unfold State.grant
  repeat' first
    | (with_reducible assumption)
    | (with_reducible exact hW)
    | (with_reducible exact Sub.trans (Sub.mk (by decide)) hW)
    | (with_reducible apply State_modDie_fr)
    | (intro x; refine Frame.cut (w := wF) (z := zF) (x := x) ?_ ?_ <;> [subst x; (intro _; clear_value x)])
    | (intro x; clear_value x)
    | (intro _)
    | lift_lets

theorem State_dropReads_fr {wF : Nat} {zF : State} {s : State} (k : Nat) (i : Nat) (hF : Frame wF zF s) (hW : Sub 0x40000200000 wF) :
    Frame wF zF (State.dropReads s k i) := by
  unfold State.dropReads
  repeat' first
    | (with_reducible assumption)
    | (with_reducible exact hW)
    | (with_reducible exact Sub.trans (Sub.mk (by decide)) hW)
    | (with_reducible apply State_modObj_fr)
    | (with_reducible apply State_modDie_fr)
    | (with_reducible (apply Frame.of_pair; assumption))
    | (with_reducible (apply Frame.of_pair'; assumption))
    | (intro x; refine Frame.cut (w := wF) (z := zF) (x := x) ?_ ?_ <;> [subst x; (intro _; clear_value x)])
    | (intro x; clear_value x)
    | (intro _)
    | lift_lets
    | split

theorem State_freeCore_fr {wF : Nat} {zF : State} {s : State} (k : Nat) (core : Nat) (i : Nat) (hF : Frame wF zF s) (hW : Sub 0x40000200000 wF) :
    Frame wF zF (State.freeCore s k core i) := by
  unfold State.freeCore
  repeat' first
    | (with_reducible assumption)
    | (with_reducible exact hW)
    | (with_reducible exact Sub.trans (Sub.mk (by decide)) hW)
    | (with_reducible apply State_dropReads_fr)
    | (with_reducible apply State_modDie_fr)
    | (intro _)

theorem State_staleTile_fr {wF : Nat} {zF : State} {s : State} (k : Nat) (hF : Frame wF zF s) (hW : Sub 0x40000000000 wF) :
    Frame wF zF (State.staleTile s k) := by
  unfold State.staleTile
  repeat' first
    | (with_reducible assumption)
    | (with_reducible exact hW)
    | (with_reducible exact Sub.trans (Sub.mk (by decide)) hW)
    | (with_reducible apply State_modDie_fr)
    | (intro _)

theorem State_completeEntry_fr {wF : Nat} {zF : State} {s : State} (k : Nat) (i : Nat) (flags : BitVec 5) (hF : Frame wF zF s) (hW : Sub 0x2000040100000000 wF) :
    Frame wF zF (State.completeEntry s k i flags) := by
  unfold State.completeEntry
  repeat' first
    | (with_reducible assumption)
    | (with_reducible exact hW)
    | (with_reducible exact Sub.trans (Sub.mk (by decide)) hW)
    | (with_reducible apply State_modStepAt_fr)
    | (with_reducible apply State_modDie_fr)
    | (with_reducible apply State_decCtrs_fr)
    | (with_reducible (apply Frame.of_pair; assumption))
    | (with_reducible (apply Frame.of_pair'; assumption))
    | (intro x; refine Frame.cut (w := wF) (z := zF) (x := x) ?_ ?_ <;> [subst x; (intro _; clear_value x)])
    | (intro x; clear_value x)
    | (intro _)
    | lift_lets
    | split

theorem State_retryLimit_fr {wF : Nat} {zF : State} {s : State} (k : Nat) (e : Tile) (hF : Frame wF zF s) (hW : Sub 0x2000000100000000 wF) :
    Frame wF zF (State.retryLimit s k e) := by
  unfold State.retryLimit
  repeat' first
    | (with_reducible assumption)
    | (with_reducible exact hW)
    | (with_reducible exact Sub.trans (Sub.mk (by decide)) hW)
    | (with_reducible apply State_failTile_fr)
    | split

theorem State_backToReady_fr {wF : Nat} {zF : State} {s : State} (k : Nat) (i : Nat) (status : Nat) (hF : Frame wF zF s) (hW : Sub 0x2000040100000000 wF) :
    Frame wF zF (State.backToReady s k i status) := by
  unfold State.backToReady
  repeat' first
    | (with_reducible assumption)
    | (with_reducible exact hW)
    | (with_reducible exact Sub.trans (Sub.mk (by decide)) hW)
    | (with_reducible apply State_modDie_fr)
    | (with_reducible apply State_retryLimit_fr)
    | (with_reducible (apply Frame.of_pair; assumption))
    | (with_reducible (apply Frame.of_pair'; assumption))
    | (intro x; refine Frame.cut (w := wF) (z := zF) (x := x) ?_ ?_ <;> [subst x; (intro _; clear_value x)])
    | (intro x; clear_value x)
    | (intro _)
    | lift_lets
    | split

theorem State_toFailed_fr {wF : Nat} {zF : State} {s : State} (k : Nat) (i : Nat) (status : Nat) (hF : Frame wF zF s) (hW : Sub 0x2000040100000000 wF) :
    Frame wF zF (State.toFailed s k i status) := by
  unfold State.toFailed
  repeat' first
    | (with_reducible assumption)
    | (with_reducible exact hW)
    | (with_reducible exact Sub.trans (Sub.mk (by decide)) hW)
    | (with_reducible apply State_modDie_fr)
    | (with_reducible apply State_retryLimit_fr)
    | (with_reducible (apply Frame.of_pair; assumption))
    | (with_reducible (apply Frame.of_pair'; assumption))
    | (intro _)
    | split

theorem State_tileEnds_fr {wF : Nat} {zF : State} {s : State} (k : Nat) (i : Nat) (status : Nat) (stepStatus : Nat) (hF : Frame wF zF s) (hW : Sub 0x2000040100000000 wF) :
    Frame wF zF (State.tileEnds s k i status stepStatus) := by
  unfold State.tileEnds
  repeat' first
    | (with_reducible assumption)
    | (with_reducible exact hW)
    | (with_reducible exact Sub.trans (Sub.mk (by decide)) hW)
    | (with_reducible apply State_modDie_fr)
    | (with_reducible apply State_failTile_fr)
    | (with_reducible (apply Frame.of_pair; assumption))
    | (with_reducible (apply Frame.of_pair'; assumption))
    | (intro _)
    | split

theorem State_tileFailed_fr {wF : Nat} {zF : State} {s : State} (k : Nat) (i : Nat) (status : Nat) (hF : Frame wF zF s) (hW : Sub 0x2000040100200000 wF) :
    Frame wF zF (State.tileFailed s k i status) := by
  unfold State.tileFailed
  repeat' first
    | (with_reducible assumption)
    | (with_reducible exact hW)
    | (with_reducible exact Sub.trans (Sub.mk (by decide)) hW)
    | (with_reducible apply State_freeCore_fr)
    | (with_reducible apply State_tileEnds_fr)
    | (with_reducible apply State_toFailed_fr)
    | (with_reducible apply State_modDie_fr)
    | (with_reducible apply State_backToReady_fr)
    | (with_reducible apply State_failTile_fr)
    | (with_reducible (apply Frame.of_pair; assumption))
    | (with_reducible (apply Frame.of_pair'; assumption))
    | (intro x; refine Frame.cut (w := wF) (z := zF) (x := x) ?_ ?_ <;> [subst x; (intro _; clear_value x)])
    | (intro x; clear_value x)
    | (intro _)
    | lift_lets
    | split

theorem State_resetGroup_fr {wF : Nat} {zF : State} {s : State} (k : Nat) (g : Nat) (hF : Frame wF zF s) (hW : Sub 0x2000040100000004 wF) :
    Frame wF zF (State.resetGroup s k g) := by
  unfold State.resetGroup
  repeat' first
    | (with_reducible assumption)
    | (with_reducible exact hW)
    | (with_reducible exact Sub.trans (Sub.mk (by decide)) hW)
    | (with_reducible apply State_modWrite_fr)
    | (with_reducible apply State_modDie_fr)
    | (with_reducible apply State_retryLimit_fr)
    | (with_reducible refine Frame.foldl (fun _ _ _ => ?_) _ ?_)
    | (with_reducible refine Frame.foldl1 (fun _ _ _ => ?_) _ ?_)
    | (with_reducible refine Frame.foldl2 (fun _ _ _ => ?_) _ ?_)
    | (with_reducible (apply Frame.of_pair; assumption))
    | (with_reducible (apply Frame.of_pair'; assumption))
    | (intro x; refine Frame.cut (w := wF) (z := zF) (x := x) ?_ ?_ <;> [subst x; (intro _; clear_value x)])
    | (intro x; clear_value x)
    | (intro _)
    | lift_lets
    | split

end Sys2Proof.Machine
end

