-- ==== Sys2Proof/Laws/FrameModels.lean ====
section
/-! SUPPORT. What each operation of Machine/Models.lean may change. -/

set_option linter.all false

namespace Sys2Proof.Machine

open Sys2Proof

theorem State_pinView_fr {wF : Nat} {zF : State} {s : State} (v : View) (up : Bool) (hF : Frame wF zF s) (hW : Sub 0x200000 wF) :
    Frame wF zF (State.pinView s v up) := by
  unfold State.pinView
  repeat' first
    | (with_reducible assumption)
    | (with_reducible exact hW)
    | (with_reducible exact Sub.trans (Sub.mk (by decide)) hW)
    | (with_reducible apply State_modObj_fr)
    | (with_reducible refine Frame.foldl (fun _ _ _ => ?_) _ ?_)
    | (with_reducible refine Frame.foldl1 (fun _ _ _ => ?_) _ ?_)
    | (with_reducible refine Frame.foldl2 (fun _ _ _ => ?_) _ ?_)
    | (intro _)
    | split

theorem State_destroyOld_fr {wF : Nat} {zF : State} {s : State} (id : Nat) (hF : Frame wF zF s) (hW : Sub 0x20010400006100f9 wF) :
    Frame wF zF (State.destroyOld s id).2 := by
  unfold State.destroyOld
  repeat' first
    | (with_reducible assumption)
    | (with_reducible exact hW)
    | (with_reducible exact Sub.trans (Sub.mk (by decide)) hW)
    | (with_reducible apply State_modObj_fr)
    | (with_reducible apply State_destroyObj_fr)
    | (with_reducible (apply Frame.of_pair; assumption))
    | (with_reducible (apply Frame.of_pair'; assumption))
    | (intro _)
    | split

theorem State_retireView_fr {wF : Nat} {zF : State} {s : State} (h : Nat) (no : Nat) (hF : Frame wF zF s) (hW : Sub 0x20010400406100f9 wF) :
    Frame wF zF (State.retireView s h no) := by
  unfold State.retireView
  repeat' first
    | (with_reducible assumption)
    | (with_reducible exact hW)
    | (with_reducible exact Sub.trans (Sub.mk (by decide)) hW)
    | (with_reducible apply State_modModel_fr)
    | (with_reducible apply State_dropSys_fr)
    | (with_reducible apply State_destroyOld_fr)
    | (with_reducible refine Frame.foldl (fun _ _ _ => ?_) _ ?_)
    | (with_reducible refine Frame.foldl1 (fun _ _ _ => ?_) _ ?_)
    | (with_reducible refine Frame.foldl2 (fun _ _ _ => ?_) _ ?_)
    | (with_reducible refine Frame.getD (fun _ _ => ?_) ?_)
    | (with_reducible (apply Frame.of_pair; assumption))
    | (with_reducible (apply Frame.of_pair'; assumption))
    | (intro x; refine Frame.cut (w := wF) (z := zF) (x := x) ?_ ?_ <;> [subst x; (intro _; clear_value x)])
    | (intro x; clear_value x)
    | (intro _)
    | lift_lets
    | split

theorem State_releaseCheck_fr {wF : Nat} {zF : State} {s : State} (h : Nat) (hF : Frame wF zF s) (hW : Sub 0x20000000400100f8 wF) :
    Frame wF zF (State.releaseCheck s h) := by
  unfold State.releaseCheck
  repeat' first
    | (with_reducible assumption)
    | (with_reducible exact hW)
    | (with_reducible exact Sub.trans (Sub.mk (by decide)) hW)
    | (with_reducible apply State_modModel_fr)
    | (with_reducible apply State_finish_fr)
    | (with_reducible (apply Frame.of_pair; assumption))
    | (with_reducible (apply Frame.of_pair'; assumption))
    | (intro _)
    | split

theorem State_holdView_fr {wF : Nat} {zF : State} {s : State} (h : Nat) (no : Nat) (hF : Frame wF zF s) (hW : Sub 0x40200000 wF) :
    Frame wF zF (State.holdView s h no) := by
  unfold State.holdView
  repeat' first
    | (with_reducible assumption)
    | (with_reducible exact hW)
    | (with_reducible exact Sub.trans (Sub.mk (by decide)) hW)
    | (with_reducible apply State_modModel_fr)
    | (with_reducible apply State_pinView_fr)
    | (with_reducible (apply Frame.of_pair; assumption))
    | (with_reducible (apply Frame.of_pair'; assumption))
    | (intro _)
    | split

theorem State_dropView_fr {wF : Nat} {zF : State} {s : State} (h : Nat) (no : Nat) (hF : Frame wF zF s) (hW : Sub 0x20010400406100f9 wF) :
    Frame wF zF (State.dropView s h no) := by
  unfold State.dropView
  repeat' first
    | (with_reducible assumption)
    | (with_reducible exact hW)
    | (with_reducible exact Sub.trans (Sub.mk (by decide)) hW)
    | (with_reducible apply State_modModel_fr)
    | (with_reducible apply State_pinView_fr)
    | (with_reducible apply State_retireView_fr)
    | (with_reducible apply State_releaseCheck_fr)
    | (with_reducible (apply Frame.of_pair; assumption))
    | (with_reducible (apply Frame.of_pair'; assumption))
    | (intro x; refine Frame.cut (w := wF) (z := zF) (x := x) ?_ ?_ <;> [subst x; (intro _; clear_value x)])
    | (intro x; clear_value x)
    | (intro _)
    | lift_lets
    | split

theorem State_newView_fr {wF : Nat} {zF : State} {s : State} (h : Nat) (man : Manifest) (map : List (Nat × Nat)) (cold : List Nat) (oldAction : Nat) (hF : Frame wF zF s) (hW : Sub 0x20010400406100f9 wF) :
    Frame wF zF (State.newView s h man map cold oldAction) := by
  unfold State.newView
  repeat' first
    | (with_reducible assumption)
    | (with_reducible exact hW)
    | (with_reducible exact Sub.trans (Sub.mk (by decide)) hW)
    | (with_reducible apply State_modModel_fr)
    | (with_reducible apply State_retireView_fr)
    | (with_reducible refine Frame.getD (fun _ _ => ?_) ?_)
    | (with_reducible (apply Frame.of_pair; assumption))
    | (with_reducible (apply Frame.of_pair'; assumption))
    | (intro x; refine Frame.cut (w := wF) (z := zF) (x := x) ?_ ?_ <;> [subst x; (intro _; clear_value x)])
    | (intro x; clear_value x)
    | (intro _)
    | lift_lets
    | split

theorem opModelBind_fr {wF : Nat} {zF : State} (r : Ref) (b : List Byte) {s : State} (hF : Frame wF zF s) (hW : Sub 0x24000000404100f9 wF) :
    Frame wF zF (opModelBind r b s) := by
  unfold opModelBind
  repeat' first
    | (with_reducible assumption)
    | (with_reducible exact hW)
    | (with_reducible exact Sub.trans (Sub.mk (by decide)) hW)
    | (with_reducible apply State_finish_fr)
    | (with_reducible (apply State_placeSys_fr; case hT => assumption))
    | (with_reducible apply State_measure_fr)
    | (with_reducible refine Frame.getD (fun _ _ => ?_) ?_)
    | (with_reducible (apply Frame.of_pair; assumption))
    | (with_reducible (apply Frame.of_pair'; assumption))
    | (intro x; refine Frame.cut (w := wF) (z := zF) (x := x) ?_ ?_ <;> [subst x; (intro _; clear_value x)])
    | (intro x; clear_value x)
    | (intro _)
    | lift_lets
    | ((fail_if_success split); with_reducible apply Frame.upd_models)
    | split

theorem opViewSwitch_fr {wF : Nat} {zF : State} (r : Ref) (b : List Byte) {s : State} (hF : Frame wF zF s) (hW : Sub 0x24010400406100f9 wF) :
    Frame wF zF (opViewSwitch r b s) := by
  unfold opViewSwitch
  repeat' first
    | (with_reducible assumption)
    | (with_reducible exact hW)
    | (with_reducible exact Sub.trans (Sub.mk (by decide)) hW)
    | (with_reducible apply State_finish_fr)
    | (with_reducible (apply State_placeSys_fr; case hT => assumption))
    | (with_reducible apply State_newView_fr)
    | (with_reducible apply State_measure_fr)
    | (with_reducible refine Frame.getD (fun _ _ => ?_) ?_)
    | (with_reducible (apply Frame.of_pair; assumption))
    | (with_reducible (apply Frame.of_pair'; assumption))
    | (intro x; refine Frame.cut (w := wF) (z := zF) (x := x) ?_ ?_ <;> [subst x; (intro _; clear_value x)])
    | (intro x; clear_value x)
    | (intro _)
    | lift_lets
    | split

theorem opModelRelease_fr {wF : Nat} {zF : State} (r : Ref) (b : List Byte) {s : State} (hF : Frame wF zF s) (hW : Sub 0x2001040040e100f9 wF) :
    Frame wF zF (opModelRelease r b s) := by
  unfold opModelRelease
  repeat' first
    | (with_reducible assumption)
    | (with_reducible exact hW)
    | (with_reducible exact Sub.trans (Sub.mk (by decide)) hW)
    | (with_reducible apply State_finish_fr)
    | (with_reducible apply State_modModel_fr)
    | (with_reducible apply State_dropSys_fr)
    | (with_reducible apply State_retireView_fr)
    | (with_reducible apply State_releaseCheck_fr)
    | (with_reducible (apply Frame.of_pair; assumption))
    | (with_reducible (apply Frame.of_pair'; assumption))
    | (intro x; refine Frame.cut (w := wF) (z := zF) (x := x) ?_ ?_ <;> [subst x; (intro _; clear_value x)])
    | (intro x; clear_value x)
    | (intro _)
    | lift_lets
    | ((fail_if_success split); with_reducible apply Frame.upd_pfEnts)
    | split

theorem opLayerSwap_fr {wF : Nat} {zF : State} (r : Ref) (b : List Byte) {s : State} (hF : Frame wF zF s) (hW : Sub 0x24010400406100f9 wF) :
    Frame wF zF (opLayerSwap r b s) := by
  unfold opLayerSwap
  repeat' first
    | (with_reducible assumption)
    | (with_reducible exact hW)
    | (with_reducible exact Sub.trans (Sub.mk (by decide)) hW)
    | (with_reducible apply State_finish_fr)
    | (with_reducible (apply State_placeSys_fr; case hT => assumption))
    | (with_reducible apply State_newView_fr)
    | (with_reducible apply State_measure_fr)
    | (with_reducible apply State_modModel_fr)
    | (with_reducible (apply Frame.of_pair; assumption))
    | (with_reducible (apply Frame.of_pair'; assumption))
    | (intro x; refine Frame.cut (w := wF) (z := zF) (x := x) ?_ ?_ <;> [subst x; (intro _; clear_value x)])
    | (intro x; clear_value x)
    | (intro _)
    | lift_lets
    | split

theorem State_arriveSwap_fr {wF : Nat} {zF : State} {s : State} (h : Nat) (view : Nat) (layer : Nat) (hF : Frame wF zF s) (hW : Sub 0x2000000100000000 wF) :
    Frame wF zF (State.arriveSwap s h view layer) := by
  unfold State.arriveSwap
  repeat' first
    | (with_reducible assumption)
    | (with_reducible exact hW)
    | (with_reducible exact Sub.trans (Sub.mk (by decide)) hW)
    | (with_reducible apply State_modStep_fr)
    | (with_reducible apply State_toMaster_fr)
    | (with_reducible refine Frame.foldl (fun _ _ _ => ?_) _ ?_)
    | (with_reducible refine Frame.foldl1 (fun _ _ _ => ?_) _ ?_)
    | (with_reducible refine Frame.foldl2 (fun _ _ _ => ?_) _ ?_)
    | (intro x; refine Frame.cut (w := wF) (z := zF) (x := x) ?_ ?_ <;> [subst x; (intro _; clear_value x)])
    | (intro x; clear_value x)
    | (intro _)
    | lift_lets
    | split

theorem State_swapEnd_fr {wF : Nat} {zF : State} {s : State} (h : Nat) (ok : Bool) (hF : Frame wF zF s) (hW : Sub 0x20000001400100f8 wF) :
    Frame wF zF (State.swapEnd s h ok) := by
  unfold State.swapEnd
  repeat' first
    | (with_reducible assumption)
    | (with_reducible exact hW)
    | (with_reducible exact Sub.trans (Sub.mk (by decide)) hW)
    | (with_reducible apply State_modModel_fr)
    | (with_reducible apply State_arriveSwap_fr)
    | (with_reducible apply State_finish_fr)
    | (with_reducible apply State_releaseCheck_fr)
    | (with_reducible apply State_failStep_fr)
    | (with_reducible refine Frame.foldl (fun _ _ _ => ?_) _ ?_)
    | (with_reducible refine Frame.foldl1 (fun _ _ _ => ?_) _ ?_)
    | (with_reducible refine Frame.foldl2 (fun _ _ _ => ?_) _ ?_)
    | (with_reducible (apply Frame.of_pair; assumption))
    | (with_reducible (apply Frame.of_pair'; assumption))
    | (intro x; refine Frame.cut (w := wF) (z := zF) (x := x) ?_ ?_ <;> [subst x; (intro _; clear_value x)])
    | (intro x; clear_value x)
    | (intro _)
    | lift_lets
    | split

theorem State_swapCheck_fr {wF : Nat} {zF : State} {s : State} (h : Nat) (hF : Frame wF zF s) (hW : Sub 0x20000001400100f8 wF) :
    Frame wF zF (State.swapCheck s h) := by
  unfold State.swapCheck
  repeat' first
    | (with_reducible assumption)
    | (with_reducible exact hW)
    | (with_reducible exact Sub.trans (Sub.mk (by decide)) hW)
    | (with_reducible apply State_swapEnd_fr)
    | (with_reducible (apply Frame.of_pair; assumption))
    | (with_reducible (apply Frame.of_pair'; assumption))
    | (intro x; refine Frame.cut (w := wF) (z := zF) (x := x) ?_ ?_ <;> [subst x; (intro _; clear_value x)])
    | (intro x; clear_value x)
    | (intro _)
    | lift_lets
    | split

theorem State_swapChecks_fr {wF : Nat} {zF : State} {s : State} (hF : Frame wF zF s) (hW : Sub 0x20000001400100f8 wF) :
    Frame wF zF (State.swapChecks s) := by
  unfold State.swapChecks
  repeat' first
    | (with_reducible assumption)
    | (with_reducible exact hW)
    | (with_reducible exact Sub.trans (Sub.mk (by decide)) hW)
    | (with_reducible apply State_swapCheck_fr)
    | (with_reducible refine Frame.foldl (fun _ _ _ => ?_) _ ?_)
    | (with_reducible refine Frame.foldl1 (fun _ _ _ => ?_) _ ?_)
    | (with_reducible refine Frame.foldl2 (fun _ _ _ => ?_) _ ?_)
    | (intro _)
    | split

theorem State_swapStart_fr {wF : Nat} {zF : State} {s : State} (h : Nat) (hF : Frame wF zF s) (hW : Sub 0x20010001402100f8 wF) :
    Frame wF zF (State.swapStart s h) := by
  unfold State.swapStart
  repeat' first
    | (with_reducible assumption)
    | (with_reducible exact hW)
    | (with_reducible exact Sub.trans (Sub.mk (by decide)) hW)
    | (with_reducible apply State_modModel_fr)
    | (with_reducible apply State_dropCopy_fr)
    | (with_reducible apply State_modObj_fr)
    | (with_reducible apply State_swapCheck_fr)
    | (with_reducible refine Frame.foldl (fun _ _ _ => ?_) _ ?_)
    | (with_reducible refine Frame.foldl1 (fun _ _ _ => ?_) _ ?_)
    | (with_reducible refine Frame.foldl2 (fun _ _ _ => ?_) _ ?_)
    | (with_reducible (apply Frame.of_pair; assumption))
    | (with_reducible (apply Frame.of_pair'; assumption))
    | (intro x; refine Frame.cut (w := wF) (z := zF) (x := x) ?_ ?_ <;> [subst x; (intro _; clear_value x)])
    | (intro x; clear_value x)
    | (intro _)
    | lift_lets
    | split

theorem State_trigStage_fr {wF : Nat} {zF : State} {s : State} (e : PfEnt) (hF : Frame wF zF s) (hW : Sub 0x40000000000 wF) :
    Frame wF zF (State.trigStage s e) := by
  unfold State.trigStage
  split
  · refine Frame.foldl2 (fun a _ h => ?_) _ hF
    exact Frame.ite h (State_modDie_fr _ _ h (Sub.trans (Sub.mk (by decide)) hW))
  · exact hF

theorem State_trigPromote_fr {wF : Nat} {zF : State} {s : State} (id : Nat) (hF : Frame wF zF s) (hW : Sub 0x200000 wF) :
    Frame wF zF (State.trigPromote s id) := by
  unfold State.trigPromote
  repeat' first
    | (with_reducible assumption)
    | (with_reducible exact hW)
    | (with_reducible exact Sub.trans (Sub.mk (by decide)) hW)
    | (with_reducible apply State_startArrival_fr)
    | (with_reducible apply State_modObj_fr)
    | (with_reducible refine Frame.getD (fun _ _ => ?_) ?_)
    | (with_reducible (apply Frame.of_pair; assumption))
    | (with_reducible (apply Frame.of_pair'; assumption))
    | (intro _)
    | split

theorem State_trigger1_fr {wF : Nat} {zF : State} {s : State} (e : PfEnt) (hF : Frame wF zF s) (hW : Sub 0x40001200000 wF) :
    Frame wF zF (State.trigger1 s e) := by
  unfold State.trigger1
  repeat' first
    | (with_reducible assumption)
    | (with_reducible exact hW)
    | (with_reducible exact Sub.trans (Sub.mk (by decide)) hW)
    | (with_reducible apply State_trigPromote_fr)
    | (with_reducible apply State_trigStage_fr)
    | (intro x; refine Frame.cut (w := wF) (z := zF) (x := x) ?_ ?_ <;> [subst x; (intro _; clear_value x)])
    | (intro x; clear_value x)
    | (intro _)
    | lift_lets
    | ((fail_if_success split); with_reducible apply Frame.upd_pfNo)
    | split

theorem opPrefetchSched_fr {wF : Nat} {zF : State} (r : Ref) (b : List Byte) {s : State} (hF : Frame wF zF s) (hW : Sub 0x2000040001e100f9 wF) :
    Frame wF zF (opPrefetchSched r b s) := by
  have p2 : ∀ {s1 t : State} (own : List PfEnt), Frame wF zF s1 →
      (if own.isEmpty then some s1 else s1.placeSys 3 (fld b 0 2) (32 * own.length)) = some t → Frame wF zF t := by
    intro s1 t own h e
    split at e
    · cases e
      exact h
    · exact State_placeSys_fr _ _ _ h (Sub.trans (Sub.mk (by decide)) hW) e
  have p3 : ∀ {s1 t : State} (sq : List PfEnt), Frame wF zF s1 →
      (if sq.isEmpty || s1.sysExts.any (fun x => x.owner == 3 && x.key == 0) then some s1 else s1.placeSys 3 0 (32 * 65536)) = some t → Frame wF zF t := by
    intro s1 t sq h e
    split at e
    · cases e
      exact h
    · exact State_placeSys_fr _ _ _ h (Sub.trans (Sub.mk (by decide)) hW) e
  unfold opPrefetchSched
  refine Frame.ite (State_finish_fr _ _ _ hF (Sub.trans (Sub.mk (by decide)) hW)) ?_
  split
  · exact State_finish_fr _ _ _ hF (Sub.trans (Sub.mk (by decide)) hW)
  · rename_i m _
    refine Frame.ite (State_finish_fr _ _ _ hF (Sub.trans (Sub.mk (by decide)) hW)) (Frame.ite (State_finish_fr _ _ _ hF (Sub.trans (Sub.mk (by decide)) hW)) ?_)
    split
    · exact State_finish_fr _ _ _ hF (Sub.trans (Sub.mk (by decide)) hW)
    · refine Frame.ite (State_finish_fr _ _ _ hF (Sub.trans (Sub.mk (by decide)) hW)) (Frame.ite (State_finish_fr _ _ _ hF (Sub.trans (Sub.mk (by decide)) hW)) ?_)
      extract_lets old s1 s2 s3
      have h1 : Frame wF zF s1 := Frame.ite hF (State_dropSys_fr _ _ hF (Sub.trans (Sub.mk (by decide)) hW))
      have h3 : ∀ {t : State}, s3 = some t → Frame wF zF t := by
        intro t e
        obtain ⟨a, e1, e2⟩ := Option.bind_eq_some_iff.mp e
        exact p3 _ (p2 _ h1 e1) e2
      clear_value s3
      cases s3 with
      | none => exact State_finish_fr _ _ _ hF (Sub.trans (Sub.mk (by decide)) hW)
      | some t =>
        refine State_finish_fr _ _ _ (Frame.foldl (fun _ _ h => State_trigger1_fr _ h (Sub.trans (Sub.mk (by decide)) hW)) _
          (State_modDies_fr _ (Frame.upd_pfEnts (h3 (Eq.refl _)) (Sub.trans (Sub.mk (by decide)) hW)) (Sub.trans (Sub.mk (by decide)) hW))) (Sub.trans (Sub.mk (by decide)) hW)

theorem State_trigLayer_fr {wF : Nat} {zF : State} {s : State} (t : Step) (k : Nat) (layer : Nat) (hF : Frame wF zF s) (hW : Sub 0x40101200000 wF) :
    Frame wF zF (State.trigLayer s t k layer) := by
  unfold State.trigLayer
  repeat' first
    | (with_reducible assumption)
    | (with_reducible exact hW)
    | (with_reducible exact Sub.trans (Sub.mk (by decide)) hW)
    | (with_reducible apply State_modStep_fr)
    | (with_reducible apply State_trigger1_fr)
    | (with_reducible refine Frame.foldl (fun _ _ _ => ?_) _ ?_)
    | (with_reducible refine Frame.foldl1 (fun _ _ _ => ?_) _ ?_)
    | (with_reducible refine Frame.foldl2 (fun _ _ _ => ?_) _ ?_)
    | (intro x; refine Frame.cut (w := wF) (z := zF) (x := x) ?_ ?_ <;> [subst x; (intro _; clear_value x)])
    | (intro x; clear_value x)
    | (intro _)
    | lift_lets
    | split

end Sys2Proof.Machine
end

