-- ==== Sys2Proof/Laws/FrameKv.lean ====
section
/-! SUPPORT. What each operation of Machine/Kv.lean may change. -/

set_option linter.all false

namespace Sys2Proof.Machine

open Sys2Proof

theorem State_putValBlock_fr {wF : Nat} {zF : State} {s : State} (o : Obj) (p : Pool) (id : Nat) (layer : Nat) (head : Nat) (c : Nat) (blk : Nat) (sh : Nat → Nat → Nat → Nat) (xs : List W32) (hF : Frame wF zF s) (hW : Sub 0x4 wF) :
    Frame wF zF (State.putValBlock s o p id layer head c blk sh xs).1 := by
  unfold State.putValBlock
  repeat' first
    | (with_reducible assumption)
    | (with_reducible exact hW)
    | (with_reducible exact Sub.trans (Sub.mk (by decide)) hW)
    | (with_reducible apply State_modWrite_fr)
    | (with_reducible (apply Frame.of_pair; assumption))
    | (with_reducible (apply Frame.of_pair'; assumption))
    | (intro x; refine Frame.cut (w := wF) (z := zF) (x := x) ?_ ?_ <;> [subst x; (intro _; clear_value x)])
    | (intro x; clear_value x)
    | (intro _)
    | lift_lets
    | split

theorem State_putKey_fr {wF : Nat} {zF : State} {s : State} (o : Obj) (p : Pool) (id : Nat) (layer : Nat) (head : Nat) (i : Nat) (sh : Nat → Nat → Nat → Nat) (ks : List W32) (hF : Frame wF zF s) (hW : Sub 0x4 wF) :
    Frame wF zF (State.putKey s o p id layer head i sh ks).1 := by
  unfold State.putKey
  repeat' first
    | (with_reducible assumption)
    | (with_reducible exact hW)
    | (with_reducible exact Sub.trans (Sub.mk (by decide)) hW)
    | (with_reducible apply State_modWrite_fr)
    | (with_reducible refine Frame.foldl (fun _ _ _ => ?_) _ ?_)
    | (with_reducible refine Frame.foldl1 (fun _ _ _ => ?_) _ ?_)
    | (with_reducible refine Frame.foldl2 (fun _ _ _ => ?_) _ ?_)
    | (with_reducible (apply Frame.of_pair; assumption))
    | (with_reducible (apply Frame.of_pair'; assumption))
    | (intro x; refine Frame.cut (w := wF) (z := zF) (x := x) ?_ ?_ <;> [subst x; (intro _; clear_value x)])
    | (intro x; clear_value x)
    | (intro _)
    | lift_lets
    | split

theorem State_putVals_fr {wF : Nat} {zF : State} {s : State} (o : Obj) (p : Pool) (t : Step) (q : Seq) (id : Nat) (lp : Nat) (layer : Nat) (head : Nat) (lo : Nat) (hi : Nat) (hF : Frame wF zF s) (hW : Sub 0x4 wF) :
    Frame wF zF (State.putVals s o p t q id lp layer head lo hi).1 := by
  unfold State.putVals
  repeat' first
    | (with_reducible assumption)
    | (with_reducible exact hW)
    | (with_reducible exact Sub.trans (Sub.mk (by decide)) hW)
    | (with_reducible apply State_modWrite_fr)
    | (with_reducible apply State_putValBlock_fr)
    | (with_reducible refine Frame.foldl (fun _ _ _ => ?_) _ ?_)
    | (with_reducible refine Frame.foldl1 (fun _ _ _ => ?_) _ ?_)
    | (with_reducible refine Frame.foldl2 (fun _ _ _ => ?_) _ ?_)
    | (with_reducible (apply Frame.of_pair; assumption))
    | (with_reducible (apply Frame.of_pair'; assumption))
    | (intro x; refine Frame.cut (w := wF) (z := zF) (x := x) ?_ ?_ <;> [subst x; (intro _; clear_value x)])
    | (intro x; clear_value x)
    | (intro _)
    | lift_lets
    | split

theorem State_kvPage_fr {wF : Nat} {zF : State} {s : State} (o : Obj) (p : Pool) (t : Step) (q : Seq) (id : Nat) (lp : Nat) (layer : Nat) (head : Nat) (lo : Nat) (rows : List (List W32)) (hF : Frame wF zF s) (hW : Sub 0x4 wF) :
    Frame wF zF (State.kvPage s o p t q id lp layer head lo rows).1 := by
  unfold State.kvPage
  repeat' first
    | (with_reducible assumption)
    | (with_reducible exact hW)
    | (with_reducible exact Sub.trans (Sub.mk (by decide)) hW)
    | (with_reducible apply State_putKey_fr)
    | (with_reducible apply State_putVals_fr)
    | (with_reducible refine Frame.foldl (fun _ _ _ => ?_) _ ?_)
    | (with_reducible refine Frame.foldl1 (fun _ _ _ => ?_) _ ?_)
    | (with_reducible refine Frame.foldl2 (fun _ _ _ => ?_) _ ?_)
    | (with_reducible (apply Frame.of_pair; assumption))
    | (with_reducible (apply Frame.of_pair'; assumption))
    | (intro x; refine Frame.cut (w := wF) (z := zF) (x := x) ?_ ?_ <;> [subst x; (intro _; clear_value x)])
    | (intro x; clear_value x)
    | (intro _)
    | lift_lets
    | split

theorem State_kvWrite_fr {wF : Nat} {zF : State} {s : State} (o : Obj) (p : Pool) (t : Step) (q : Seq) (layer : Nat) (pos0 : Nat) (rows : List (List W32)) (hF : Frame wF zF s) (hW : Sub 0x100000004 wF) :
    Frame wF zF (State.kvWrite s o p t q layer pos0 rows).1 := by
  unfold State.kvWrite
  repeat' first
    | (with_reducible assumption)
    | (with_reducible exact hW)
    | (with_reducible exact Sub.trans (Sub.mk (by decide)) hW)
    | (with_reducible apply State_modStep_fr)
    | (with_reducible apply State_kvPage_fr)
    | (with_reducible refine Frame.foldl (fun _ _ _ => ?_) _ ?_)
    | (with_reducible refine Frame.foldl1 (fun _ _ _ => ?_) _ ?_)
    | (with_reducible refine Frame.foldl2 (fun _ _ _ => ?_) _ ?_)
    | (with_reducible (apply Frame.of_pair; assumption))
    | (with_reducible (apply Frame.of_pair'; assumption))
    | (intro x; refine Frame.cut (w := wF) (z := zF) (x := x) ?_ ?_ <;> [subst x; (intro _; clear_value x)])
    | (intro x; clear_value x)
    | (intro _)
    | lift_lets
    | split

theorem State_copyTail_fr {wF : Nat} {zF : State} {s : State} (o : Obj) (p : Pool) (src : Nat) (dst : Nat) (n : Nat) (hF : Frame wF zF s) (hW : Sub 0x4 wF) :
    Frame wF zF (State.copyTail s o p src dst n) := by
  unfold State.copyTail
  repeat' first
    | (with_reducible assumption)
    | (with_reducible exact hW)
    | (with_reducible exact Sub.trans (Sub.mk (by decide)) hW)
    | (with_reducible apply State_modWrite_fr)
    | (with_reducible refine Frame.foldl (fun _ _ _ => ?_) _ ?_)
    | (with_reducible refine Frame.foldl1 (fun _ _ _ => ?_) _ ?_)
    | (with_reducible refine Frame.foldl2 (fun _ _ _ => ?_) _ ?_)
    | (intro x; refine Frame.cut (w := wF) (z := zF) (x := x) ?_ ?_ <;> [subst x; (intro _; clear_value x)])
    | (intro x; refine Frame.cutS1 (w := wF) (z := zF) (x := x) ?_ ?_ <;> [(subst x; intro _ _; try beta_reduce); (intro _; clear_value x)])
    | (intro x; refine Frame.cutS2 (w := wF) (z := zF) (x := x) ?_ ?_ <;> [(subst x; intro _ _ _; try beta_reduce); (intro _; clear_value x)])
    | (intro x; refine Frame.cutF1 (w := wF) (z := zF) (x := x) ?_ ?_ <;> [(subst x; intro _; try beta_reduce); (intro _; clear_value x)])
    | (intro x; refine Frame.cutF2 (w := wF) (z := zF) (x := x) ?_ ?_ <;> [(subst x; intro _ _; try beta_reduce); (intro _; clear_value x)])
    | (intro x; clear_value x)
    | (intro _)
    | (with_reducible apply_assumption)
    | lift_lets
    | split

theorem State_compactSeg_fr {wF : Nat} {zF : State} {s : State} (o : Obj) (p : Pool) (t : Step) (q : Seq) (len : Nat) (path : List Nat) (l : Nat) (h : Nat) (hF : Frame wF zF s) (hW : Sub 0x5 wF) :
    Frame wF zF (State.compactSeg s o p t q len path l h) := by
  unfold State.compactSeg
  repeat' first
    | (with_reducible assumption)
    | (with_reducible exact hW)
    | (with_reducible exact Sub.trans (Sub.mk (by decide)) hW)
    | (with_reducible apply State_draw_fr)
    | (with_reducible apply State_modWrite_fr)
    | (with_reducible apply State_putValBlock_fr)
    | (with_reducible refine Frame.foldl (fun _ _ _ => ?_) _ ?_)
    | (with_reducible refine Frame.foldl1 (fun _ _ _ => ?_) _ ?_)
    | (with_reducible refine Frame.foldl2 (fun _ _ _ => ?_) _ ?_)
    | (with_reducible refine Frame.getD (fun _ _ => ?_) ?_)
    | (with_reducible (apply Frame.of_pair; assumption))
    | (with_reducible (apply Frame.of_pair'; assumption))
    | (intro x; refine Frame.cut (w := wF) (z := zF) (x := x) ?_ ?_ <;> [subst x; (intro _; clear_value x)])
    | (intro x; clear_value x)
    | (intro _)
    | lift_lets
    | split

theorem State_compact_fr {wF : Nat} {zF : State} {s : State} (t : Step) (q : Seq) (path : List Nat) (hF : Frame wF zF s) (hW : Sub 0x5 wF) :
    Frame wF zF (State.compact s t q path) := by
  unfold State.compact
  repeat' first
    | (with_reducible assumption)
    | (with_reducible exact hW)
    | (with_reducible exact Sub.trans (Sub.mk (by decide)) hW)
    | (with_reducible apply State_compactSeg_fr)
    | (with_reducible refine Frame.foldl (fun _ _ _ => ?_) _ ?_)
    | (with_reducible refine Frame.foldl1 (fun _ _ _ => ?_) _ ?_)
    | (with_reducible refine Frame.foldl2 (fun _ _ _ => ?_) _ ?_)
    | (with_reducible (apply Frame.of_pair; assumption))
    | (with_reducible (apply Frame.of_pair'; assumption))
    | (intro _)
    | split

end Sys2Proof.Machine
end

