-- ==== Sys2Proof/Laws/FrameSlices.lean ====
section
/-! SUPPORT. What each operation of Machine/Slices.lean may change. -/

set_option linter.all false

namespace Sys2Proof.Machine

open Sys2Proof

theorem State_loadBank_fr {wF : Nat} {zF : State} {s : State} (r : Ref) (b : List Byte) (hF : Frame wF zF s) (hW : Sub 0x20000000800100f8 wF) :
    Frame wF zF (State.loadBank s r b) := by
  have done : ∀ {s : State} (pl : Bool) (g a : Nat), Frame wF zF s → Frame wF zF ((s.modSlc (fld b 0 1) fun x => { x with
      loads := x.loads ++ [{ placement := pl, gen := g, atStep := a }] }).finish r stOK) :=
    fun pl g a h => State_finish_fr _ _ _ (State_modSlc_fr _ _ h (Sub.trans (Sub.mk (by decide)) hW)) (Sub.trans (Sub.mk (by decide)) hW)
  unfold State.loadBank
  extract_lets h pl gen x dn
  split
  · exact State_finish_fr _ _ _ hF (Sub.trans (Sub.mk (by decide)) hW)
  · split
    · split
      · exact State_finish_fr _ _ _ (State_modSlc_fr _ _ hF (Sub.trans (Sub.mk (by decide)) hW)) (Sub.trans (Sub.mk (by decide)) hW)
      · exact done _ _ _ (State_modSlc_fr _ _ hF (Sub.trans (Sub.mk (by decide)) hW))
    · split
      · exact State_finish_fr _ _ _ hF (Sub.trans (Sub.mk (by decide)) hW)
      · split
        · exact done _ _ _ (State_modSlc_fr _ _ hF (Sub.trans (Sub.mk (by decide)) hW))
        · exact State_finish_fr _ _ _ hF (Sub.trans (Sub.mk (by decide)) hW)

theorem opRouteLoad_fr {wF : Nat} {zF : State} (r : Ref) (b : List Byte) {s : State} (hF : Frame wF zF s) (hW : Sub 0x20080000800100f8 wF) :
    Frame wF zF (opRouteLoad r b s) := by
  have fin : ∀ n, Frame wF zF (s.finish r n) := fun n => State_finish_fr _ _ _ hF (Sub.trans (Sub.mk (by decide)) hW)
  unfold opRouteLoad
  refine Frame.ite (fin _) (Frame.ite (Frame.ite (fin _) ?_) (Frame.ite (fin _) (Frame.ite (fin _) (Frame.ite (fin _) (Frame.ite (fin _) (Frame.ite (fin _)
    (Frame.ite (fin _) (Frame.ite (fin _) (Frame.ite (fin _) (Frame.ite ?_ ?_))))))))))
  · split
    · exact fin _
    · exact Frame.ite (State_finish_fr _ _ _ (Frame.upd_router hF (Sub.trans (Sub.mk (by decide)) hW)) (Sub.trans (Sub.mk (by decide)) hW)) (fin _)
  · exact State_modSlc_fr _ _ hF (Sub.trans (Sub.mk (by decide)) hW)
  · exact State_loadBank_fr _ _ hF (Sub.trans (Sub.mk (by decide)) hW)

theorem State_routeWake_fr {wF : Nat} {zF : State} {s : State} (h : Nat) (hF : Frame wF zF s) (hW : Sub 0x20000000800100f8 wF) :
    Frame wF zF (State.routeWake s h) := by
  unfold State.routeWake
  repeat' first
    | (with_reducible assumption)
    | (with_reducible exact hW)
    | (with_reducible exact Sub.trans (Sub.mk (by decide)) hW)
    | (with_reducible apply State_modSlc_fr)
    | (with_reducible apply State_loadBank_fr)
    | (with_reducible refine Frame.foldl (fun _ _ _ => ?_) _ ?_)
    | (with_reducible refine Frame.foldl1 (fun _ _ _ => ?_) _ ?_)
    | (with_reducible refine Frame.foldl2 (fun _ _ _ => ?_) _ ?_)
    | (intro x; refine Frame.cut (w := wF) (z := zF) (x := x) ?_ ?_ <;> [subst x; (intro _; clear_value x)])
    | (intro x; clear_value x)
    | (intro _)
    | lift_lets
    | split

theorem State_genSwitch_fr {wF : Nat} {zF : State} {s : State} (h : Nat) (id : Nat) (hF : Frame wF zF s) (hW : Sub 0x80010000 wF) :
    Frame wF zF (State.genSwitch s h id) := by
  unfold State.genSwitch
  repeat' first
    | (with_reducible assumption)
    | (with_reducible exact hW)
    | (with_reducible exact Sub.trans (Sub.mk (by decide)) hW)
    | (with_reducible apply State_modSlc_fr)
    | (with_reducible apply State_raise_fr)
    | (intro x; refine Frame.cut (w := wF) (z := zF) (x := x) ?_ ?_ <;> [subst x; (intro _; clear_value x)])
    | (intro x; clear_value x)
    | (intro _)
    | lift_lets
    | split

theorem State_sendSlice_fr {wF : Nat} {zF : State} {s : State} (k : SlcKind) (dst : List Nat) (m : SliceMsg) (hF : Frame wF zF s) (hW : Sub 0x2000000000000000 wF) :
    Frame wF zF (State.sendSlice s k dst m) := by
  unfold State.sendSlice
  repeat' first
    | (with_reducible assumption)
    | (with_reducible exact hW)
    | (with_reducible exact Sub.trans (Sub.mk (by decide)) hW)
    | (with_reducible apply State_emits_fr)
    | (intro _)

theorem opSliceJoin_fr {wF : Nat} {zF : State} (r : Ref) (b : List Byte) {s : State} (hF : Frame wF zF s) (hW : Sub 0x20000004800100f8 wF) :
    Frame wF zF (opSliceJoin r b s) := by
  unfold opSliceJoin
  repeat' first
    | (with_reducible assumption)
    | (with_reducible exact hW)
    | (with_reducible exact Sub.trans (Sub.mk (by decide)) hW)
    | (with_reducible apply State_finish_fr)
    | (with_reducible apply State_modSlc_fr)
    | (with_reducible apply State_sendSlice_fr)
    | (with_reducible refine Frame.getD (fun _ _ => ?_) ?_)
    | (with_reducible (apply Frame.of_pair; assumption))
    | (with_reducible (apply Frame.of_pair'; assumption))
    | (intro x; refine Frame.cut (w := wF) (z := zF) (x := x) ?_ ?_ <;> [subst x; (intro _; clear_value x)])
    | (intro x; clear_value x)
    | (intro _)
    | lift_lets
    | ((fail_if_success split); with_reducible apply Frame.upd_joinQ)
    | split

theorem State_joinCheck_fr {wF : Nat} {zF : State} {s : State} (h : Nat) (hF : Frame wF zF s) (hW : Sub 0x2000000000000000 wF) :
    Frame wF zF (State.joinCheck s h) := by
  unfold State.joinCheck
  repeat' first
    | (with_reducible assumption)
    | (with_reducible exact hW)
    | (with_reducible exact Sub.trans (Sub.mk (by decide)) hW)
    | (with_reducible apply State_sendSlice_fr)
    | (with_reducible refine Frame.getD (fun _ _ => ?_) ?_)
    | (with_reducible (apply Frame.of_pair; assumption))
    | (with_reducible (apply Frame.of_pair'; assumption))
    | (intro x; refine Frame.cut (w := wF) (z := zF) (x := x) ?_ ?_ <;> [subst x; (intro _; clear_value x)])
    | (intro x; clear_value x)
    | (intro _)
    | lift_lets
    | split

theorem State_takeJoin_fr {wF : Nat} {zF : State} {s : State} (m : SliceMsg) (hF : Frame wF zF s) (hW : Sub 0x2000000480000000 wF) :
    Frame wF zF (State.takeJoin s m) := by
  unfold State.takeJoin
  repeat' first
    | (with_reducible assumption)
    | (with_reducible exact hW)
    | (with_reducible exact Sub.trans (Sub.mk (by decide)) hW)
    | (with_reducible apply State_modSlc_fr)
    | (with_reducible apply State_joinCheck_fr)
    | (with_reducible (apply Frame.of_pair; assumption))
    | (with_reducible (apply Frame.of_pair'; assumption))
    | (intro x; refine Frame.cut (w := wF) (z := zF) (x := x) ?_ ?_ <;> [subst x; (intro _; clear_value x)])
    | (intro x; clear_value x)
    | (intro _)
    | lift_lets
    | ((fail_if_success split); with_reducible apply Frame.upd_joinQ)
    | split

theorem State_takeAck_fr {wF : Nat} {zF : State} {s : State} (m : SliceMsg) (hF : Frame wF zF s) (hW : Sub 0x21800400800100f9 wF) :
    Frame wF zF (State.takeAck s m) := by
  unfold State.takeAck
  repeat' first
    | (with_reducible assumption)
    | (with_reducible exact hW)
    | (with_reducible exact Sub.trans (Sub.mk (by decide)) hW)
    | (with_reducible apply State_modSlc_fr)
    | (with_reducible apply State_jobStart_fr)
    | (with_reducible apply State_finish_fr)
    | (with_reducible (apply Frame.of_pair; assumption))
    | (with_reducible (apply Frame.of_pair'; assumption))
    | (intro x; refine Frame.cut (w := wF) (z := zF) (x := x) ?_ ?_ <;> [subst x; (intro _; clear_value x)])
    | (intro x; clear_value x)
    | (intro _)
    | lift_lets
    | split

theorem State_endJoin_fr {wF : Nat} {zF : State} {s : State} (h : Nat) (status : Nat) (hF : Frame wF zF s) (hW : Sub 0x20000000800100f8 wF) :
    Frame wF zF (State.endJoin s h status) := by
  unfold State.endJoin
  repeat' first
    | (with_reducible assumption)
    | (with_reducible exact hW)
    | (with_reducible exact Sub.trans (Sub.mk (by decide)) hW)
    | (with_reducible apply State_modSlc_fr)
    | (with_reducible apply State_raise_fr)
    | (with_reducible apply State_finishAll_fr)
    | (with_reducible apply State_finish_fr)
    | (with_reducible (apply Frame.of_pair; assumption))
    | (with_reducible (apply Frame.of_pair'; assumption))
    | (intro x; refine Frame.cut (w := wF) (z := zF) (x := x) ?_ ?_ <;> [subst x; (intro _; clear_value x)])
    | (intro x; clear_value x)
    | (intro _)
    | lift_lets
    | split

theorem State_takeJoinFail_fr {wF : Nat} {zF : State} {s : State} (m : SliceMsg) (hF : Frame wF zF s) (hW : Sub 0x20000000800100f8 wF) :
    Frame wF zF (State.takeJoinFail s m) := by
  unfold State.takeJoinFail
  repeat' first
    | (with_reducible assumption)
    | (with_reducible exact hW)
    | (with_reducible exact Sub.trans (Sub.mk (by decide)) hW)
    | (with_reducible apply State_endJoin_fr)
    | (with_reducible (apply Frame.of_pair; assumption))
    | (with_reducible (apply Frame.of_pair'; assumption))
    | split

theorem execJoin_fr {wF : Nat} {zF : State} (m : SliceMsg) {s : State} (hF : Frame wF zF s) (hW : Sub 0x2000000480000000 wF) :
    FrameO wF zF (execJoin m s) := by
  unfold execJoin
  repeat' first
    | (with_reducible assumption)
    | (with_reducible exact hW)
    | (with_reducible exact Sub.trans (Sub.mk (by decide)) hW)
    | (with_reducible apply State_takeJoin_fr)
    | (with_reducible refine FrameO.next ?_)
    | split

theorem execJoinAck_fr {wF : Nat} {zF : State} (m : SliceMsg) {s : State} (hF : Frame wF zF s) (hW : Sub 0x21800400800100f9 wF) :
    FrameO wF zF (execJoinAck m s) := by
  unfold execJoinAck
  repeat' first
    | (with_reducible assumption)
    | (with_reducible exact hW)
    | (with_reducible exact Sub.trans (Sub.mk (by decide)) hW)
    | (with_reducible apply State_takeAck_fr)
    | (with_reducible refine FrameO.next ?_)
    | split

theorem execJoinFail_fr {wF : Nat} {zF : State} (m : SliceMsg) {s : State} (hF : Frame wF zF s) (hW : Sub 0x20000000800100f8 wF) :
    FrameO wF zF (execJoinFail m s) := by
  unfold execJoinFail
  repeat' first
    | (with_reducible assumption)
    | (with_reducible exact hW)
    | (with_reducible exact Sub.trans (Sub.mk (by decide)) hW)
    | (with_reducible apply State_takeJoinFail_fr)
    | (with_reducible refine FrameO.next ?_)
    | split

theorem execJoinWaitExpire_fr {wF : Nat} {zF : State} (slice : Nat) {s : State} (hF : Frame wF zF s) (hW : Sub 0x20000000800100f8 wF) :
    FrameO wF zF (execJoinWaitExpire slice s) := by
  unfold execJoinWaitExpire
  repeat' first
    | (with_reducible assumption)
    | (with_reducible exact hW)
    | (with_reducible exact Sub.trans (Sub.mk (by decide)) hW)
    | (with_reducible apply State_endJoin_fr)
    | (with_reducible refine FrameO.next ?_)
    | split

end Sys2Proof.Machine
end

