-- ==== Sys2Proof/Laws/FrameSteps.lean ====
section
/-! SUPPORT. What each operation of Machine/Steps.lean may change. -/

set_option linter.all false

namespace Sys2Proof.Machine

open Sys2Proof

theorem State_pickTurn_fr {wF : Nat} {zF : State} {s : State} (ready : List Nat) (x0 : Nat) (hF : Frame wF zF s) (hW : Sub 0x1f000000000 wF) :
    Frame wF zF (State.pickTurn s ready x0) := by
  induction x0 generalizing s ready with
  | zero =>
    unfold State.pickTurn
    repeat' first
      | (with_reducible assumption)
      | (with_reducible exact hW)
      | (with_reducible exact Sub.trans (Sub.mk (by decide)) hW)
      | (with_reducible (apply Frame.of_pair; assumption))
      | (with_reducible (apply Frame.of_pair'; assumption))
      | (with_reducible show List.length _ = List.length _; simp)
      | (intro x; refine Frame.cut (w := wF) (z := zF) (x := x) ?_ ?_ <;> [subst x; (intro _; clear_value x)])
      | (intro x; clear_value x)
      | (intro _)
      | lift_lets
      | ((fail_if_success split); with_reducible apply Frame.upd_tenC_lastTenant)
      | ((fail_if_success split); with_reducible apply Frame.upd_curTenant_turnStart_turnEnd)
      | split
  | succ n ih =>
    unfold State.pickTurn
    repeat' first
      | (with_reducible assumption)
      | (with_reducible exact hW)
      | (with_reducible exact Sub.trans (Sub.mk (by decide)) hW)
      | (with_reducible apply ih)
      | (with_reducible (apply Frame.of_pair; assumption))
      | (with_reducible (apply Frame.of_pair'; assumption))
      | (with_reducible show List.length _ = List.length _; simp)
      | (intro x; refine Frame.cut (w := wF) (z := zF) (x := x) ?_ ?_ <;> [subst x; (intro _; clear_value x)])
      | (intro x; clear_value x)
      | (intro _)
      | lift_lets
      | ((fail_if_success split); with_reducible apply Frame.upd_tenC_lastTenant)
      | ((fail_if_success split); with_reducible apply Frame.upd_curTenant_turnStart_turnEnd)
      | split

theorem State_releaseStart_fr {wF : Nat} {zF : State} {s : State} (m : MasterStep) (t : Step) (hF : Frame wF zF s) (hW : Sub 0x2000018200000000 wF) :
    Frame wF zF (State.releaseStart s m t) := by
  unfold State.releaseStart
  repeat' first
    | (with_reducible assumption)
    | (with_reducible exact hW)
    | (with_reducible exact Sub.trans (Sub.mk (by decide)) hW)
    | (with_reducible apply State_modMst_fr)
    | (with_reducible apply State_toAll_fr)
    | (intro x; refine Frame.cut (w := wF) (z := zF) (x := x) ?_ ?_ <;> [subst x; (intro _; clear_value x)])
    | (intro x; clear_value x)
    | (intro _)
    | lift_lets
    | ((fail_if_success split); with_reducible apply Frame.upd_turnStart_turnEnd)
    | split

theorem State_passTurn_fr {wF : Nat} {zF : State} {s : State} (hF : Frame wF zF s) (hW : Sub 0x2181e800403c67 wF) :
    Frame wF zF (State.passTurn s) := by
  unfold State.passTurn
  repeat' first
    | (with_reducible assumption)
    | (with_reducible exact hW)
    | (with_reducible exact Sub.trans (Sub.mk (by decide)) hW)
    | (with_reducible apply State_applyQuanta_fr)
    | (with_reducible refine Frame.getD (fun _ _ => ?_) ?_)
    | ((fail_if_success split); with_reducible apply Frame.upd_curTenant_lastTenant_turnStart_turnEnd)

theorem State_schedule_fr {wF : Nat} {zF : State} {s : State} (hF : Frame wF zF s) (hW : Sub 0x202181fa00403c67 wF) :
    Frame wF zF (State.schedule s) := by
  unfold State.schedule
  repeat' first
    | (with_reducible assumption)
    | (with_reducible exact hW)
    | (with_reducible exact Sub.trans (Sub.mk (by decide)) hW)
    | (with_reducible apply State_passTurn_fr)
    | (with_reducible apply State_pickTurn_fr)
    | (with_reducible apply State_releaseStart_fr)
    | (with_reducible refine Frame.foldl (fun _ _ _ => ?_) _ ?_)
    | (with_reducible refine Frame.foldl1 (fun _ _ _ => ?_) _ ?_)
    | (with_reducible refine Frame.foldl2 (fun _ _ _ => ?_) _ ?_)
    | (with_reducible (apply Frame.of_pair; assumption))
    | (with_reducible (apply Frame.of_pair'; assumption))
    | (intro x; refine Frame.cut (w := wF) (z := zF) (x := x) ?_ ?_ <;> [subst x; (intro _; clear_value x)])
    | (intro x; clear_value x)
    | (intro _)
    | lift_lets
    | split

theorem State_turnDone_fr {wF : Nat} {zF : State} {s : State} (h : Nat) (id : Nat) (hF : Frame wF zF s) (hW : Sub 0x21000000000 wF) :
    Frame wF zF (State.turnDone s h id) := by
  unfold State.turnDone
  repeat' first
    | (with_reducible assumption)
    | (with_reducible exact hW)
    | (with_reducible exact Sub.trans (Sub.mk (by decide)) hW)
    | (with_reducible (apply Frame.of_pair; assumption))
    | (with_reducible (apply Frame.of_pair'; assumption))
    | (with_reducible show List.length _ = List.length _; simp)
    | (intro x; refine Frame.cut (w := wF) (z := zF) (x := x) ?_ ?_ <;> [subst x; (intro _; clear_value x)])
    | (intro x; clear_value x)
    | (intro _)
    | lift_lets
    | ((fail_if_success split); with_reducible apply Frame.upd_turnSteps)
    | ((fail_if_success split); with_reducible apply Frame.upd_tenC)
    | split

theorem State_dropStep_fr {wF : Nat} {zF : State} {s : State} (h : Nat) (id : Nat) (hF : Frame wF zF s) (hW : Sub 0x202181fb80413cff wF) :
    Frame wF zF (State.dropStep s h id) := by
  unfold State.dropStep
  repeat' first
    | (with_reducible assumption)
    | (with_reducible exact hW)
    | (with_reducible exact Sub.trans (Sub.mk (by decide)) hW)
    | (with_reducible apply State_routeWake_fr)
    | (with_reducible apply State_schedule_fr)
    | (intro _)
    | ((fail_if_success split); with_reducible apply Frame.upd_steps)

theorem State_postStep_fr {wF : Nat} {zF : State} {s : State} (t : Step) (status : Nat) (mask : Nat) (lost : Bool) (hF : Frame wF zF s) (hW : Sub 0x202181fb80413cff wF) :
    Frame wF zF (State.postStep s t status mask lost) := by
  unfold State.postStep
  repeat' first
    | (with_reducible assumption)
    | (with_reducible exact hW)
    | (with_reducible exact Sub.trans (Sub.mk (by decide)) hW)
    | (with_reducible apply State_finishWith_fr)
    | (with_reducible apply State_blame_fr)
    | (with_reducible apply State_dropStep_fr)
    | (with_reducible (apply Frame.of_pair; assumption))
    | (with_reducible (apply Frame.of_pair'; assumption))
    | (intro x; refine Frame.cut (w := wF) (z := zF) (x := x) ?_ ?_ <;> [subst x; (intro _; clear_value x)])
    | (intro x; clear_value x)
    | (intro _)
    | lift_lets
    | split

theorem State_stagePage_fr {wF : Nat} {zF : State} {s : State} (h : Nat) (id : Nat) (q : Seq) (lp : Nat) (hF : Frame wF zF s) (hW : Sub 0x100200001 wF) :
    Frame wF zF (State.stagePage s h id q lp).2 := by
  unfold State.stagePage
  repeat' first
    | (with_reducible assumption)
    | (with_reducible exact hW)
    | (with_reducible exact Sub.trans (Sub.mk (by decide)) hW)
    | (with_reducible apply State_allocPage_fr)
    | (with_reducible apply State_modStep_fr)
    | (with_reducible (apply Frame.of_pair; assumption))
    | (with_reducible (apply Frame.of_pair'; assumption))
    | (intro _)
    | split

theorem State_allocEntry_fr {wF : Nat} {zF : State} {s : State} (h : Nat) (id : Nat) (q : Seq) (p : PagePlan) (hF : Frame wF zF s) (hW : Sub 0x100200001 wF) :
    Frame wF zF (State.allocEntry s h id q p) := by
  unfold State.allocEntry
  extract_lets s1 s2
  have h1 : Frame wF zF s1 := by
    subst s1
    split
    · exact hF
    · rename_i src n _
      have c := State_stagePage_fr h id q (q.len / 64) hF (Sub.trans (Sub.mk (by decide)) hW)
      rcases e : s.stagePage h id q (q.len / 64) with ⟨_ | dst, s'⟩
      · rw [e] at c
        exact c
      · rw [e] at c
        exact Frame.ite (State_modPool_fr _ _ (State_modStep_fr _ _ _ c (Sub.trans (Sub.mk (by decide)) hW)) (Sub.trans (Sub.mk (by decide)) hW)) (State_modStep_fr _ _ _ c (Sub.trans (Sub.mk (by decide)) hW))
  clear_value s1
  have h2 : Frame wF zF s2 := Frame.foldl (fun _ _ h => State_stagePage_fr _ _ _ _ h (Sub.trans (Sub.mk (by decide)) hW)) _ h1
  clear_value s2
  refine Frame.foldl (fun s r h => ?_) _ h2
  have c := State_takeSlot_fr q.pool (.staged q.h r) h (Sub.trans (Sub.mk (by decide)) hW)
  split
  · rename_i e
    rw [e] at c
    exact State_modStep_fr _ _ _ c (Sub.trans (Sub.mk (by decide)) hW)
  · rename_i e
    rw [e] at c
    exact c

theorem State_pinStep_fr {wF : Nat} {zF : State} {s : State} (h : Nat) (id : Nat) (hF : Frame wF zF s) (hW : Sub 0x100200000 wF) :
    Frame wF zF (State.pinStep s h id) := by
  unfold State.pinStep
  repeat' first
    | (with_reducible assumption)
    | (with_reducible exact hW)
    | (with_reducible exact Sub.trans (Sub.mk (by decide)) hW)
    | (with_reducible apply State_pinPage_fr)
    | (with_reducible apply State_modStep_fr)
    | (with_reducible refine Frame.foldl (fun _ _ _ => ?_) _ ?_)
    | (with_reducible refine Frame.foldl1 (fun _ _ _ => ?_) _ ?_)
    | (with_reducible refine Frame.foldl2 (fun _ _ _ => ?_) _ ?_)
    | (with_reducible refine Frame.getD (fun _ _ => ?_) ?_)
    | (with_reducible (apply Frame.of_pair; assumption))
    | (with_reducible (apply Frame.of_pair'; assumption))
    | (intro x; refine Frame.cut (w := wF) (z := zF) (x := x) ?_ ?_ <;> [subst x; (intro _; clear_value x)])
    | (intro x; clear_value x)
    | (intro _)
    | lift_lets
    | split

theorem State_unpinStep_fr {wF : Nat} {zF : State} {s : State} (t : Step) (hF : Frame wF zF s) (hW : Sub 0x1000120210000 wF) :
    Frame wF zF (State.unpinStep s t) := by
  unfold State.unpinStep
  repeat' first
    | (with_reducible assumption)
    | (with_reducible exact hW)
    | (with_reducible exact Sub.trans (Sub.mk (by decide)) hW)
    | (with_reducible apply State_unpinPage_fr)
    | (with_reducible apply State_modStep_fr)
    | (with_reducible refine Frame.foldl (fun _ _ _ => ?_) _ ?_)
    | (with_reducible refine Frame.foldl1 (fun _ _ _ => ?_) _ ?_)
    | (with_reducible refine Frame.foldl2 (fun _ _ _ => ?_) _ ?_)
    | (intro _)

theorem State_dropStaged_fr {wF : Nat} {zF : State} {s : State} (pool : Nat) (p : Nat → Bool) (hF : Frame wF zF s) (hW : Sub 0x200000 wF) :
    Frame wF zF (State.dropStaged s pool p) := by
  unfold State.dropStaged
  repeat' first
    | (with_reducible assumption)
    | (with_reducible exact hW)
    | (with_reducible exact Sub.trans (Sub.mk (by decide)) hW)
    | (with_reducible apply State_modPool_fr)
    | (with_reducible (apply Frame.of_pair; assumption))
    | (with_reducible (apply Frame.of_pair'; assumption))
    | (intro x; refine Frame.cut (w := wF) (z := zF) (x := x) ?_ ?_ <;> [subst x; (intro _; clear_value x)])
    | (intro x; clear_value x)
    | (intro _)
    | lift_lets
    | split

theorem State_freeStepPages_fr {wF : Nat} {zF : State} {s : State} (t : Step) (hF : Frame wF zF s) (hW : Sub 0x1000120210000 wF) :
    Frame wF zF (State.freeStepPages s t) := by
  unfold State.freeStepPages
  repeat' first
    | (with_reducible assumption)
    | (with_reducible exact hW)
    | (with_reducible exact Sub.trans (Sub.mk (by decide)) hW)
    | (with_reducible apply State_freePage_fr)
    | (with_reducible apply State_dropStaged_fr)
    | (with_reducible apply State_unpinStep_fr)
    | (with_reducible apply State_modStep_fr)
    | (with_reducible refine Frame.foldl (fun _ _ _ => ?_) _ ?_)
    | (with_reducible refine Frame.foldl1 (fun _ _ _ => ?_) _ ?_)
    | (with_reducible refine Frame.foldl2 (fun _ _ _ => ?_) _ ?_)
    | (intro x; refine Frame.cut (w := wF) (z := zF) (x := x) ?_ ?_ <;> [subst x; (intro _; clear_value x)])
    | (intro x; clear_value x)
    | (intro _)
    | lift_lets

theorem State_freeSeqs_fr {wF : Nat} {zF : State} {s : State} (t : Step) (hF : Frame wF zF s) (hW : Sub 0x2001000022e100f9 wF) :
    Frame wF zF (State.freeSeqs s t) := by
  unfold State.freeSeqs
  repeat' first
    | (with_reducible assumption)
    | (with_reducible exact hW)
    | (with_reducible exact Sub.trans (Sub.mk (by decide)) hW)
    | (with_reducible apply State_modSeq_fr)
    | (with_reducible apply State_applyClose_fr)
    | (with_reducible refine Frame.foldl (fun _ _ _ => ?_) _ ?_)
    | (with_reducible refine Frame.foldl1 (fun _ _ _ => ?_) _ ?_)
    | (with_reducible refine Frame.foldl2 (fun _ _ _ => ?_) _ ?_)
    | (with_reducible refine Frame.getD (fun _ _ => ?_) ?_)
    | (intro x; refine Frame.cut (w := wF) (z := zF) (x := x) ?_ ?_ <;> [subst x; (intro _; clear_value x)])
    | (intro x; clear_value x)
    | (intro _)
    | lift_lets
    | split

theorem State_endStep_fr {wF : Nat} {zF : State} {s : State} (t : Step) (hF : Frame wF zF s) (hW : Sub 0x2001040162e100f9 wF) :
    Frame wF zF (State.endStep s t) := by
  unfold State.endStep
  repeat' first
    | (with_reducible assumption)
    | (with_reducible exact hW)
    | (with_reducible exact Sub.trans (Sub.mk (by decide)) hW)
    | (with_reducible apply State_freeSeqs_fr)
    | (with_reducible apply State_dropView_fr)
    | (with_reducible apply State_modDies_fr)
    | (with_reducible apply State_modStep_fr)
    | (with_reducible apply State_finishAll_fr)
    | (intro x; refine Frame.cut (w := wF) (z := zF) (x := x) ?_ ?_ <;> [subst x; (intro _; clear_value x)])
    | (intro x; clear_value x)
    | (intro _)
    | lift_lets

theorem State_sendStart_fr {wF : Nat} {zF : State} {s : State} (h : Nat) (id : Nat) (hF : Frame wF zF s) (hW : Sub 0x2000000100000000 wF) :
    Frame wF zF (State.sendStart s h id) := by
  unfold State.sendStart
  repeat' first
    | (with_reducible assumption)
    | (with_reducible exact hW)
    | (with_reducible exact Sub.trans (Sub.mk (by decide)) hW)
    | (with_reducible apply State_modStep_fr)
    | (with_reducible apply State_toMaster_fr)
    | (with_reducible (apply Frame.of_pair; assumption))
    | (with_reducible (apply Frame.of_pair'; assumption))
    | (intro x; refine Frame.cut (w := wF) (z := zF) (x := x) ?_ ?_ <;> [subst x; (intro _; clear_value x)])
    | (intro x; clear_value x)
    | (intro _)
    | lift_lets
    | split

theorem State_startRun_fr {wF : Nat} {zF : State} {s : State} (h : Nat) (id : Nat) (hF : Frame wF zF s) (hW : Sub 0x202185fbe2e13cff wF) :
    Frame wF zF (State.startRun s h id) := by
  unfold State.startRun
  repeat' first
    | (with_reducible assumption)
    | (with_reducible exact hW)
    | (with_reducible exact Sub.trans (Sub.mk (by decide)) hW)
    | (with_reducible apply State_allocEntry_fr)
    | (with_reducible apply State_pinStep_fr)
    | (with_reducible apply State_sendStart_fr)
    | (with_reducible apply State_failStep_fr)
    | (with_reducible apply State_modPool_fr)
    | (with_reducible apply State_endStep_fr)
    | (with_reducible apply State_finish_fr)
    | (with_reducible apply State_dropStep_fr)
    | (with_reducible refine Frame.foldl (fun _ _ _ => ?_) _ ?_)
    | (with_reducible refine Frame.foldl1 (fun _ _ _ => ?_) _ ?_)
    | (with_reducible refine Frame.foldl2 (fun _ _ _ => ?_) _ ?_)
    | (with_reducible (apply Frame.of_pair; assumption))
    | (with_reducible (apply Frame.of_pair'; assumption))
    | (intro x; refine Frame.cut (w := wF) (z := zF) (x := x) ?_ ?_ <;> [subst x; (intro _; clear_value x)])
    | (intro x; clear_value x)
    | (intro _)
    | lift_lets
    | split

theorem State_finishKill_fr {wF : Nat} {zF : State} {s : State} (t : Step) (hF : Frame wF zF s) (hW : Sub 0x202185fbe2e13cff wF) :
    Frame wF zF (State.finishKill s t) := by
  unfold State.finishKill
  repeat' first
    | (with_reducible assumption)
    | (with_reducible exact hW)
    | (with_reducible exact Sub.trans (Sub.mk (by decide)) hW)
    | (with_reducible apply State_freeStepPages_fr)
    | (with_reducible apply State_modDies_fr)
    | (with_reducible apply State_toMaster_fr)
    | (with_reducible apply State_modStep_fr)
    | (with_reducible apply State_endStep_fr)
    | (with_reducible apply State_postStep_fr)
    | (with_reducible refine Frame.getD (fun _ _ => ?_) ?_)
    | (with_reducible (apply Frame.of_pair; assumption))
    | (with_reducible (apply Frame.of_pair'; assumption))
    | (intro x; refine Frame.cut (w := wF) (z := zF) (x := x) ?_ ?_ <;> [subst x; (intro _; clear_value x)])
    | (intro x; clear_value x)
    | (intro _)
    | lift_lets
    | split

theorem State_restartRun_fr {wF : Nat} {zF : State} {s : State} (t : Step) (hF : Frame wF zF s) (hW : Sub 0x202185fbe2e13cff wF) :
    Frame wF zF (State.restartRun s t) := by
  unfold State.restartRun
  repeat' first
    | (with_reducible assumption)
    | (with_reducible exact hW)
    | (with_reducible exact Sub.trans (Sub.mk (by decide)) hW)
    | (with_reducible apply State_modStep_fr)
    | (with_reducible apply State_startRun_fr)
    | (with_reducible apply State_toMaster_fr)
    | (with_reducible (apply Frame.of_pair; assumption))
    | (with_reducible (apply Frame.of_pair'; assumption))
    | (intro x; refine Frame.cut (w := wF) (z := zF) (x := x) ?_ ?_ <;> [subst x; (intro _; clear_value x)])
    | (intro x; clear_value x)
    | (intro _)
    | lift_lets
    | split

theorem State_killCheck_fr {wF : Nat} {zF : State} {s : State} (h : Nat) (id : Nat) (hF : Frame wF zF s) (hW : Sub 0x202185fbe2e13cff wF) :
    Frame wF zF (State.killCheck s h id) := by
  unfold State.killCheck
  repeat' first
    | (with_reducible assumption)
    | (with_reducible exact hW)
    | (with_reducible exact Sub.trans (Sub.mk (by decide)) hW)
    | (with_reducible apply State_finishKill_fr)
    | (with_reducible (apply Frame.of_pair; assumption))
    | (with_reducible (apply Frame.of_pair'; assumption))
    | split

theorem State_killChecks_fr {wF : Nat} {zF : State} {s : State} (hF : Frame wF zF s) (hW : Sub 0x202185fbe2e13cff wF) :
    Frame wF zF (State.killChecks s) := by
  unfold State.killChecks
  repeat' first
    | (with_reducible assumption)
    | (with_reducible exact hW)
    | (with_reducible exact Sub.trans (Sub.mk (by decide)) hW)
    | (with_reducible apply State_killCheck_fr)
    | (with_reducible refine Frame.foldl (fun _ _ _ => ?_) _ ?_)
    | (with_reducible refine Frame.foldl1 (fun _ _ _ => ?_) _ ?_)
    | (with_reducible refine Frame.foldl2 (fun _ _ _ => ?_) _ ?_)
    | (intro _)

theorem State_killLocal_fr {wF : Nat} {zF : State} {s : State} (t : Step) (cause : Nat) (status : Nat) (hF : Frame wF zF s) (hW : Sub 0x202185fbe2e13cff wF) :
    Frame wF zF (State.killLocal s t cause status) := by
  unfold State.killLocal
  repeat' first
    | (with_reducible assumption)
    | (with_reducible exact hW)
    | (with_reducible exact Sub.trans (Sub.mk (by decide)) hW)
    | (with_reducible apply State_modStep_fr)
    | (with_reducible apply State_modDies_fr)
    | (with_reducible apply State_killCheck_fr)
    | (intro x; refine Frame.cut (w := wF) (z := zF) (x := x) ?_ ?_ <;> [subst x; (intro _; clear_value x)])
    | (intro x; clear_value x)
    | (intro _)
    | lift_lets

theorem State_stopStep_fr {wF : Nat} {zF : State} {s : State} (t : Step) (status : Nat) (hF : Frame wF zF s) (hW : Sub 0x202185fbe2e13cff wF) :
    Frame wF zF (State.stopStep s t status) := by
  unfold State.stopStep
  repeat' first
    | (with_reducible assumption)
    | (with_reducible exact hW)
    | (with_reducible exact Sub.trans (Sub.mk (by decide)) hW)
    | (with_reducible apply State_killLocal_fr)
    | (with_reducible apply State_postStep_fr)
    | (with_reducible apply State_freeStepPages_fr)
    | (with_reducible apply State_endStep_fr)
    | (with_reducible refine Frame.getD (fun _ _ => ?_) ?_)
    | (intro x; refine Frame.cut (w := wF) (z := zF) (x := x) ?_ ?_ <;> [subst x; (intro _; clear_value x)])
    | (intro x; clear_value x)
    | (intro _)
    | lift_lets
    | split

theorem State_stopJobAs_fr {wF : Nat} {zF : State} {s : State} (first : Bool) (h : Nat) (cause : Nat) (coord : Nat) (hF : Frame wF zF s) (hW : Sub 0x28a187fbe2e13cff wF) :
    Frame wF zF (State.stopJobAs s first h cause coord) := by
  unfold State.stopJobAs
  repeat' first
    | (with_reducible assumption)
    | (with_reducible exact hW)
    | (with_reducible exact Sub.trans (Sub.mk (by decide)) hW)
    | (with_reducible apply State_sendSlice_fr)
    | (with_reducible apply State_modSlc_fr)
    | (with_reducible apply State_stopStep_fr)
    | (with_reducible apply State_turnDone_fr)
    | (with_reducible apply State_finishAll_fr)
    | (with_reducible apply State_raise_fr)
    | (with_reducible apply State_schedule_fr)
    | (with_reducible apply State_faultTrigger_fr)
    | (with_reducible apply State_jobStopPins_fr)
    | (with_reducible refine Frame.foldl (fun _ _ _ => ?_) _ ?_)
    | (with_reducible refine Frame.foldl1 (fun _ _ _ => ?_) _ ?_)
    | (with_reducible refine Frame.foldl2 (fun _ _ _ => ?_) _ ?_)
    | (intro x; refine Frame.cut (w := wF) (z := zF) (x := x) ?_ ?_ <;> [subst x; (intro _; clear_value x)])
    | (intro x; clear_value x)
    | (intro _)
    | lift_lets
    | ((fail_if_success split); with_reducible apply Frame.upd_mst)
    | split

theorem State_stopJob_fr {wF : Nat} {zF : State} {s : State} (h : Nat) (cause : Nat) (coord : Nat) (hF : Frame wF zF s) (hW : Sub 0x28a187fbe2e13cff wF) :
    Frame wF zF (State.stopJob s h cause coord) := by
  unfold State.stopJob
  repeat' first
    | (with_reducible assumption)
    | (with_reducible exact hW)
    | (with_reducible exact Sub.trans (Sub.mk (by decide)) hW)
    | (with_reducible apply State_stopJobAs_fr)

theorem State_stopAll_fr {wF : Nat} {zF : State} {s : State} (cause : Nat) (hF : Frame wF zF s) (hW : Sub 0x28a187fbe2e13cff wF) :
    Frame wF zF (State.stopAll s cause) := by
  unfold State.stopAll
  repeat' first
    | (with_reducible assumption)
    | (with_reducible exact hW)
    | (with_reducible exact Sub.trans (Sub.mk (by decide)) hW)
    | (with_reducible apply State_stopJob_fr)
    | (with_reducible refine Frame.foldl (fun _ _ _ => ?_) _ ?_)
    | (with_reducible refine Frame.foldl1 (fun _ _ _ => ?_) _ ?_)
    | (with_reducible refine Frame.foldl2 (fun _ _ _ => ?_) _ ?_)
    | (intro _)

theorem State_takeStop_fr {wF : Nat} {zF : State} {s : State} (m : SliceMsg) (hF : Frame wF zF s) (hW : Sub 0x28a187fbe2e13cff wF) :
    Frame wF zF (State.takeStop s m) := by
  unfold State.takeStop
  repeat' first
    | (with_reducible assumption)
    | (with_reducible exact hW)
    | (with_reducible exact Sub.trans (Sub.mk (by decide)) hW)
    | (with_reducible apply State_stopJobAs_fr)
    | (with_reducible (apply Frame.of_pair; assumption))
    | (with_reducible (apply Frame.of_pair'; assumption))
    | split

theorem opSliceLeave_fr {wF : Nat} {zF : State} (r : Ref) (b : List Byte) {s : State} (hF : Frame wF zF s) (hW : Sub 0x28a187fbe2e13cff wF) :
    Frame wF zF (opSliceLeave r b s) := by
  unfold opSliceLeave
  repeat' first
    | (with_reducible assumption)
    | (with_reducible exact hW)
    | (with_reducible exact Sub.trans (Sub.mk (by decide)) hW)
    | (with_reducible apply State_finish_fr)
    | (with_reducible apply State_stopJob_fr)
    | (with_reducible apply State_applyClose_fr)
    | (with_reducible apply State_modSlc_fr)
    | (with_reducible refine Frame.foldl (fun _ _ _ => ?_) _ ?_)
    | (with_reducible refine Frame.foldl1 (fun _ _ _ => ?_) _ ?_)
    | (with_reducible refine Frame.foldl2 (fun _ _ _ => ?_) _ ?_)
    | (intro x; refine Frame.cut (w := wF) (z := zF) (x := x) ?_ ?_ <;> [subst x; (intro _; clear_value x)])
    | (intro x; clear_value x)
    | (intro _)
    | lift_lets
    | split

theorem State_killDone_fr {wF : Nat} {zF : State} {s : State} (h : Nat) (id : Nat) (hF : Frame wF zF s) (hW : Sub 0x202183fb80413cff wF) :
    Frame wF zF (State.killDone s h id) := by
  unfold State.killDone
  repeat' first
    | (with_reducible assumption)
    | (with_reducible exact hW)
    | (with_reducible exact Sub.trans (Sub.mk (by decide)) hW)
    | (with_reducible apply State_turnDone_fr)
    | (with_reducible apply State_modMst_fr)
    | (with_reducible apply State_toAll_fr)
    | (with_reducible apply State_schedule_fr)
    | (with_reducible apply State_postStep_fr)
    | (with_reducible apply State_dropMst_fr)
    | (with_reducible (apply Frame.of_pair; assumption))
    | (with_reducible (apply Frame.of_pair'; assumption))
    | (intro x; refine Frame.cut (w := wF) (z := zF) (x := x) ?_ ?_ <;> [subst x; (intro _; clear_value x)])
    | (intro x; clear_value x)
    | (intro _)
    | lift_lets
    | split

theorem State_masterKill1_fr {wF : Nat} {zF : State} {s : State} (h : Nat) (id : Nat) (cause : Nat) (status : Nat) (hF : Frame wF zF s) (hW : Sub 0x202183fb80413cff wF) :
    Frame wF zF (State.masterKill1 s h id cause status) := by
  unfold State.masterKill1
  repeat' first
    | (with_reducible assumption)
    | (with_reducible exact hW)
    | (with_reducible exact Sub.trans (Sub.mk (by decide)) hW)
    | (with_reducible apply State_modMst_fr)
    | (with_reducible apply State_toAll_fr)
    | (with_reducible apply State_killDone_fr)
    | (with_reducible (apply Frame.of_pair; assumption))
    | (with_reducible (apply Frame.of_pair'; assumption))
    | (intro x; refine Frame.cut (w := wF) (z := zF) (x := x) ?_ ?_ <;> [subst x; (intro _; clear_value x)])
    | (intro x; clear_value x)
    | (intro _)
    | lift_lets
    | split

theorem State_nextKill_fr {wF : Nat} {zF : State} {s : State} (h : Nat) (id : Nat) (hF : Frame wF zF s) (hW : Sub 0x202183fb80413cff wF) :
    Frame wF zF (State.nextKill s h id) := by
  unfold State.nextKill
  repeat' first
    | (with_reducible assumption)
    | (with_reducible exact hW)
    | (with_reducible exact Sub.trans (Sub.mk (by decide)) hW)
    | (with_reducible apply State_modMst_fr)
    | (with_reducible apply State_masterKill1_fr)
    | (with_reducible (apply Frame.of_pair; assumption))
    | (with_reducible (apply Frame.of_pair'; assumption))
    | (intro _)
    | split

theorem State_masterKill_fr {wF : Nat} {zF : State} {s : State} (h : Nat) (id : Nat) (cause : Nat) (status : Nat) (hF : Frame wF zF s) (hW : Sub 0x202183fb80413cff wF) :
    Frame wF zF (State.masterKill s h id cause status) := by
  unfold State.masterKill
  repeat' first
    | (with_reducible assumption)
    | (with_reducible exact hW)
    | (with_reducible exact Sub.trans (Sub.mk (by decide)) hW)
    | (with_reducible apply State_masterKill1_fr)
    | (with_reducible apply State_nextKill_fr)

theorem State_mapEntry_fr {wF : Nat} {zF : State} {s : State} (t : Step) (e : SeqEnt) (c : CommitEntry) (hF : Frame wF zF s) (hW : Sub 0x1000022210005 wF) :
    Frame wF zF (State.mapEntry s t e c) := by
  unfold State.mapEntry
  repeat' first
    | (with_reducible assumption)
    | (with_reducible exact hW)
    | (with_reducible exact Sub.trans (Sub.mk (by decide)) hW)
    | (with_reducible apply State_compact_fr)
    | (with_reducible apply State_modSeq_fr)
    | (with_reducible apply State_incRef_fr)
    | (with_reducible apply State_decRef_fr)
    | (with_reducible apply State_modPool_fr)
    | (with_reducible refine Frame.foldl (fun _ _ _ => ?_) _ ?_)
    | (with_reducible refine Frame.foldl1 (fun _ _ _ => ?_) _ ?_)
    | (with_reducible refine Frame.foldl2 (fun _ _ _ => ?_) _ ?_)
    | (with_reducible refine Frame.getD (fun _ _ => ?_) ?_)
    | (with_reducible (apply Frame.of_pair; assumption))
    | (with_reducible (apply Frame.of_pair'; assumption))
    | (intro x; refine Frame.cut (w := wF) (z := zF) (x := x) ?_ ?_ <;> [subst x; (intro _; clear_value x)])
    | (intro x; clear_value x)
    | (intro _)
    | lift_lets
    | split

theorem State_fillEntry_fr {wF : Nat} {zF : State} {s : State} (e : SeqEnt) (c : CommitEntry) (no : Nat) (hF : Frame wF zF s) (hW : Sub 0x2200000 wF) :
    Frame wF zF (State.fillEntry s e c no) := by
  unfold State.fillEntry
  repeat' first
    | (with_reducible assumption)
    | (with_reducible exact hW)
    | (with_reducible exact Sub.trans (Sub.mk (by decide)) hW)
    | (with_reducible apply State_modPage_fr)
    | (with_reducible apply State_modSeq_fr)
    | (with_reducible refine Frame.foldl (fun _ _ _ => ?_) _ ?_)
    | (with_reducible refine Frame.foldl1 (fun _ _ _ => ?_) _ ?_)
    | (with_reducible refine Frame.foldl2 (fun _ _ _ => ?_) _ ?_)
    | (with_reducible (apply Frame.of_pair; assumption))
    | (with_reducible (apply Frame.of_pair'; assumption))
    | (intro x; refine Frame.cut (w := wF) (z := zF) (x := x) ?_ ?_ <;> [subst x; (intro _; clear_value x)])
    | (intro x; clear_value x)
    | (intro _)
    | lift_lets
    | split

theorem State_freeRejected_fr {wF : Nat} {zF : State} {s : State} (t : Step) (hF : Frame wF zF s) (hW : Sub 0x1000020210000 wF) :
    Frame wF zF (State.freeRejected s t) := by
  unfold State.freeRejected
  repeat' first
    | (with_reducible assumption)
    | (with_reducible exact hW)
    | (with_reducible exact Sub.trans (Sub.mk (by decide)) hW)
    | (with_reducible apply State_freePage_fr)
    | (with_reducible apply State_dropStaged_fr)
    | (with_reducible refine Frame.foldl (fun _ _ _ => ?_) _ ?_)
    | (with_reducible refine Frame.foldl1 (fun _ _ _ => ?_) _ ?_)
    | (with_reducible refine Frame.foldl2 (fun _ _ _ => ?_) _ ?_)
    | (with_reducible (apply Frame.of_pair; assumption))
    | (with_reducible (apply Frame.of_pair'; assumption))
    | (intro x; refine Frame.cut (w := wF) (z := zF) (x := x) ?_ ?_ <;> [subst x; (intro _; clear_value x)])
    | (intro x; clear_value x)
    | (intro _)
    | lift_lets
    | split

theorem State_specEntry_fr {wF : Nat} {zF : State} {s : State} (t : Step) (e : SeqEnt) (c : CommitEntry) (no : Nat) (i : Nat) (hF : Frame wF zF s) (hW : Sub 0x2000000202000000 wF) :
    Frame wF zF (State.specEntry s t e c no i) := by
  unfold State.specEntry
  repeat' first
    | (with_reducible assumption)
    | (with_reducible exact hW)
    | (with_reducible exact Sub.trans (Sub.mk (by decide)) hW)
    | (with_reducible apply State_modSeq_fr)
    | (with_reducible apply State_emit_fr)
    | (with_reducible apply State_modMst_fr)
    | (with_reducible (apply Frame.of_pair; assumption))
    | (with_reducible (apply Frame.of_pair'; assumption))
    | (with_reducible show List.length _ = List.length _; simp)
    | (intro x; refine Frame.cut (w := wF) (z := zF) (x := x) ?_ ?_ <;> [subst x; (intro _; clear_value x)])
    | (intro x; clear_value x)
    | (intro _)
    | lift_lets
    | split

theorem State_applyCommit_fr {wF : Nat} {zF : State} {s : State} (t : Step) (body : List CommitEntry) (hF : Frame wF zF s) (hW : Sub 0x200104036ee100fd wF) :
    Frame wF zF (State.applyCommit s t body) := by
  unfold State.applyCommit
  repeat' first
    | (with_reducible assumption)
    | (with_reducible exact hW)
    | (with_reducible exact Sub.trans (Sub.mk (by decide)) hW)
    | (with_reducible apply State_mapEntry_fr)
    | (with_reducible apply State_fillEntry_fr)
    | (with_reducible apply State_freeRejected_fr)
    | (with_reducible apply State_specEntry_fr)
    | (with_reducible apply State_freeSeqs_fr)
    | (with_reducible apply State_unpinStep_fr)
    | (with_reducible apply State_modDies_fr)
    | (with_reducible apply State_dropView_fr)
    | (with_reducible apply State_modStep_fr)
    | (with_reducible apply State_finishAll_fr)
    | (with_reducible apply State_agedSlots_fr)
    | (with_reducible refine Frame.foldl (fun _ _ _ => ?_) _ ?_)
    | (with_reducible refine Frame.foldl1 (fun _ _ _ => ?_) _ ?_)
    | (with_reducible refine Frame.foldl2 (fun _ _ _ => ?_) _ ?_)
    | (intro x; refine Frame.cut (w := wF) (z := zF) (x := x) ?_ ?_ <;> [subst x; (intro _; clear_value x)])
    | (intro x; clear_value x)
    | (intro _)
    | lift_lets
    | ((fail_if_success split); with_reducible apply Frame.upd_commitNo)
    | ((fail_if_success split); with_reducible apply Frame.upd_commitNo_commitC)

theorem State_completeMaster_fr {wF : Nat} {zF : State} {s : State} (h : Nat) (id : Nat) (hF : Frame wF zF s) (hW : Sub 0x202183fb80413cff wF) :
    Frame wF zF (State.completeMaster s h id) := by
  unfold State.completeMaster
  repeat' first
    | (with_reducible assumption)
    | (with_reducible exact hW)
    | (with_reducible exact Sub.trans (Sub.mk (by decide)) hW)
    | (with_reducible apply State_hostWrite_fr)
    | (with_reducible apply State_postStep_fr)
    | (with_reducible apply State_dropMst_fr)
    | (with_reducible apply State_turnDone_fr)
    | (with_reducible apply State_schedule_fr)
    | (with_reducible (apply Frame.of_pair; assumption))
    | (with_reducible (apply Frame.of_pair'; assumption))
    | (intro x; refine Frame.cut (w := wF) (z := zF) (x := x) ?_ ?_ <;> [subst x; (intro _; clear_value x)])
    | (intro x; clear_value x)
    | (intro _)
    | lift_lets
    | split

end Sys2Proof.Machine
end

