-- ==== Sys2Proof/Laws/FrameStepRows.lean ====
section
/-! SUPPORT. What each operation of Machine/StepRows.lean may change. -/

set_option linter.all false

namespace Sys2Proof.Machine

open Sys2Proof

theorem State_acceptStep_fr {wF : Nat} {zF : State} {s : State} (r : Ref) (b : List Byte) (m : Model) (seqs : List SeqEnt) (slot : Nat) (hF : Frame wF zF s) (hW : Sub 0x28a187fbe6e13cff wF) :
    Frame wF zF (State.acceptStep s r b m seqs slot) := by
  unfold State.acceptStep
  repeat' first
    | (with_reducible assumption)
    | (with_reducible exact hW)
    | (with_reducible exact Sub.trans (Sub.mk (by decide)) hW)
    | (with_reducible apply State_genSwitch_fr)
    | (with_reducible apply State_modSlc_fr)
    | (with_reducible apply State_blame_fr)
    | (with_reducible apply State_modSeq_fr)
    | (with_reducible apply State_endSeqEnts_fr)
    | (with_reducible apply State_holdView_fr)
    | (with_reducible apply State_stopJob_fr)
    | (with_reducible apply State_startRun_fr)
    | (with_reducible refine Frame.foldl (fun _ _ _ => ?_) _ ?_)
    | (with_reducible refine Frame.foldl1 (fun _ _ _ => ?_) _ ?_)
    | (with_reducible refine Frame.foldl2 (fun _ _ _ => ?_) _ ?_)
    | (intro x; refine Frame.cut (w := wF) (z := zF) (x := x) ?_ ?_ <;> [subst x; (intro _; clear_value x)])
    | (intro x; clear_value x)
    | (intro _)
    | lift_lets
    | ((fail_if_success split); with_reducible apply Frame.upd_steps)
    | split

theorem State_readFailed_fr {wF : Nat} {zF : State} {s : State} (r : Ref) (h : Nat) (id : Nat) (hF : Frame wF zF s) (hW : Sub 0x20000000000100f8 wF) :
    Frame wF zF (State.readFailed s r h id) := by
  unfold State.readFailed
  repeat' first
    | (with_reducible assumption)
    | (with_reducible exact hW)
    | (with_reducible exact Sub.trans (Sub.mk (by decide)) hW)
    | (with_reducible apply State_finish_fr)
    | (with_reducible apply State_toMaster_fr)
    | (intro x; refine Frame.cut (w := wF) (z := zF) (x := x) ?_ ?_ <;> [subst x; (intro _; clear_value x)])
    | (intro x; clear_value x)
    | (intro _)
    | lift_lets

theorem opStepSubmit_fr {wF : Nat} {zF : State} (r : Ref) (b : List Byte) {s : State} (hF : Frame wF zF s) (hW : Sub 0x28a187fbe6e13cff wF) :
    Frame wF zF (opStepSubmit r b s) := by
  have no : ∀ n, Frame wF zF (s.finish r n (leBytes 8 (fld b 0 8))) := fun n => State_finish_fr _ _ _ hF (Sub.trans (Sub.mk (by decide)) hW)
  have rf : Frame wF zF (s.readFailed r (fld b 8 1) (fld b 0 8)) := State_readFailed_fr _ _ _ hF (Sub.trans (Sub.mk (by decide)) hW)
  unfold opStepSubmit
  refine Frame.ite (no _) (Frame.ite (no _) (Frame.ite (no _) ?_))
  split
  · exact no _
  · split
    · exact no _
    · refine Frame.ite (no _) ?_
      split
      refine Frame.ite rf (Frame.ite (no _) (Frame.ite (no _) ?_))
      split
      · exact rf
      · refine Frame.ite (no _) (Frame.ite (no _) (Frame.ite (no _) ?_))
        split
        · exact no _
        · exact State_acceptStep_fr _ _ _ _ _ hF (Sub.trans (Sub.mk (by decide)) hW)

theorem opStepKill_fr {wF : Nat} {zF : State} (r : Ref) (b : List Byte) {s : State} (hF : Frame wF zF s) (hW : Sub 0x20000001000100f8 wF) :
    Frame wF zF (opStepKill r b s) := by
  unfold opStepKill
  repeat' first
    | (with_reducible assumption)
    | (with_reducible exact hW)
    | (with_reducible exact Sub.trans (Sub.mk (by decide)) hW)
    | (with_reducible apply State_finish_fr)
    | (with_reducible apply State_modStep_fr)
    | (with_reducible apply State_toMaster_fr)
    | (with_reducible (apply Frame.of_pair; assumption))
    | (with_reducible (apply Frame.of_pair'; assumption))
    | (intro x; refine Frame.cut (w := wF) (z := zF) (x := x) ?_ ?_ <;> [subst x; (intro _; clear_value x)])
    | (intro x; clear_value x)
    | (intro _)
    | lift_lets
    | split

theorem State_forStep_fr {wF : Nat} {zF : State} {s : State} (tok : Token) (lim : Nat) (f : Step → State → State) (hF : Frame wF zF s) (hW : Sub 0x28a187fbe2e13cff wF) (hHf : ∀ v0 v1, Frame wF zF v1 → Frame wF zF (f v0 v1)) :
    Frame wF zF (State.forStep s tok lim f) := by
  unfold State.forStep
  repeat' first
    | (with_reducible assumption)
    | (with_reducible exact hW)
    | (with_reducible exact Sub.trans (Sub.mk (by decide)) hW)
    | (with_reducible apply State_stale_fr)
    | (with_reducible apply State_stopJob_fr)
    | (with_reducible apply hHf)
    | (with_reducible (apply Frame.of_pair; assumption))
    | (with_reducible (apply Frame.of_pair'; assumption))
    | split

theorem State_openAgents_fr {wF : Nat} {zF : State} {s : State} (t : Step) (hF : Frame wF zF s) (hW : Sub 0x28a187fbe2e13cff wF) :
    Frame wF zF (State.openAgents s t) := by
  unfold State.openAgents
  repeat' first
    | (with_reducible assumption)
    | (with_reducible exact hW)
    | (with_reducible exact Sub.trans (Sub.mk (by decide)) hW)
    | (with_reducible apply State_failStep_fr)
    | (with_reducible apply State_stopJob_fr)
    | (with_reducible apply State_modDie_fr)
    | (with_reducible refine Frame.foldl (fun _ _ _ => ?_) _ ?_)
    | (with_reducible refine Frame.foldl1 (fun _ _ _ => ?_) _ ?_)
    | (with_reducible refine Frame.foldl2 (fun _ _ _ => ?_) _ ?_)
    | (with_reducible (apply Frame.of_pair; assumption))
    | (with_reducible (apply Frame.of_pair'; assumption))
    | (intro x; refine Frame.cut (w := wF) (z := zF) (x := x) ?_ ?_ <;> [subst x; (intro _; clear_value x)])
    | (intro x; clear_value x)
    | (intro _)
    | lift_lets
    | split

theorem State_takeRelease_fr {wF : Nat} {zF : State} {s : State} (tok : Token) (hF : Frame wF zF s) (hW : Sub 0x28a187fbe2e13cff wF) :
    Frame wF zF (State.takeRelease s tok) := by
  unfold State.takeRelease
  repeat' first
    | (with_reducible assumption)
    | (with_reducible exact hW)
    | (with_reducible exact Sub.trans (Sub.mk (by decide)) hW)
    | (with_reducible apply State_forStep_fr)
    | (with_reducible apply State_restartRun_fr)
    | (with_reducible apply State_modStep_fr)
    | (with_reducible apply State_stopJob_fr)
    | (with_reducible apply State_openAgents_fr)
    | (with_reducible apply State_decCtr_fr)
    | (with_reducible refine Frame.foldl (fun _ _ _ => ?_) _ ?_)
    | (with_reducible refine Frame.foldl1 (fun _ _ _ => ?_) _ ?_)
    | (with_reducible refine Frame.foldl2 (fun _ _ _ => ?_) _ ?_)
    | (intro x; refine Frame.cut (w := wF) (z := zF) (x := x) ?_ ?_ <;> [subst x; (intro _; clear_value x)])
    | (intro x; clear_value x)
    | (intro _)
    | lift_lets
    | split

theorem State_takeKill_fr {wF : Nat} {zF : State} {s : State} (tok : Token) (hF : Frame wF zF s) (hW : Sub 0x28a187fbe2e13cff wF) :
    Frame wF zF (State.takeKill s tok) := by
  unfold State.takeKill
  repeat' first
    | (with_reducible assumption)
    | (with_reducible exact hW)
    | (with_reducible exact Sub.trans (Sub.mk (by decide)) hW)
    | (with_reducible apply State_forStep_fr)
    | (with_reducible apply State_killLocal_fr)
    | (intro x; refine Frame.cut (w := wF) (z := zF) (x := x) ?_ ?_ <;> [subst x; (intro _; clear_value x)])
    | (intro x; clear_value x)
    | (intro _)
    | lift_lets
    | split

theorem State_sendPrepared_fr {wF : Nat} {zF : State} {s : State} (h : Nat) (id : Nat) (hF : Frame wF zF s) (hW : Sub 0x2000000100000000 wF) :
    Frame wF zF (State.sendPrepared s h id) := by
  unfold State.sendPrepared
  repeat' first
    | (with_reducible assumption)
    | (with_reducible exact hW)
    | (with_reducible exact Sub.trans (Sub.mk (by decide)) hW)
    | (with_reducible apply State_modStep_fr)
    | (with_reducible apply State_toMaster_fr)
    | (with_reducible (apply Frame.of_pair; assumption))
    | (with_reducible (apply Frame.of_pair'; assumption))
    | (intro x; refine Frame.cut (w := wF) (z := zF) (x := x) ?_ ?_ <;> [subst x; (intro _; clear_value x)])
    | (intro x; clear_value x)
    | (intro _)
    | lift_lets
    | split

theorem State_takeCommit_fr {wF : Nat} {zF : State} {s : State} (tok : Token) (body : List CommitEntry) (hF : Frame wF zF s) (hW : Sub 0x28a187fbeee13cff wF) :
    Frame wF zF (State.takeCommit s tok body) := by
  unfold State.takeCommit
  repeat' first
    | (with_reducible assumption)
    | (with_reducible exact hW)
    | (with_reducible exact Sub.trans (Sub.mk (by decide)) hW)
    | (with_reducible apply State_forStep_fr)
    | (with_reducible apply State_stale_fr)
    | (with_reducible apply State_applyCommit_fr)
    | (with_reducible apply State_toMaster_fr)
    | (with_reducible apply State_routeWake_fr)
    | (with_reducible apply State_postStep_fr)
    | (with_reducible (apply Frame.of_pair; assumption))
    | (with_reducible (apply Frame.of_pair'; assumption))
    | (intro x; refine Frame.cut (w := wF) (z := zF) (x := x) ?_ ?_ <;> [subst x; (intro _; clear_value x)])
    | (intro x; clear_value x)
    | (intro _)
    | lift_lets
    | split

theorem State_forMst_fr {wF : Nat} {zF : State} {s : State} (tok : Token) (f : Nat → MasterStep → State → State) (hF : Frame wF zF s) (hW : Sub 0x28a187fbe2e13cff wF) (hHf : ∀ v0 v1 v2, Frame wF zF v2 → Frame wF zF (f v0 v1 v2)) :
    Frame wF zF (State.forMst s tok f) := by
  unfold State.forMst
  repeat' first
    | (with_reducible assumption)
    | (with_reducible exact hW)
    | (with_reducible exact Sub.trans (Sub.mk (by decide)) hW)
    | (with_reducible apply State_stale_fr)
    | (with_reducible apply State_stopJob_fr)
    | (with_reducible apply hHf)
    | (with_reducible refine Frame.getD (fun _ _ => ?_) ?_)
    | (with_reducible (apply Frame.of_pair; assumption))
    | (with_reducible (apply Frame.of_pair'; assumption))
    | (intro x; refine Frame.cut (w := wF) (z := zF) (x := x) ?_ ?_ <;> [subst x; (intro _; clear_value x)])
    | (intro x; clear_value x)
    | (intro _)
    | lift_lets
    | split

theorem State_startCheck_fr {wF : Nat} {zF : State} {s : State} (h : Nat) (id : Nat) (hF : Frame wF zF s) (hW : Sub 0x28a187fbe2e13cff wF) :
    Frame wF zF (State.startCheck s h id) := by
  unfold State.startCheck
  repeat' first
    | (with_reducible assumption)
    | (with_reducible exact hW)
    | (with_reducible exact Sub.trans (Sub.mk (by decide)) hW)
    | (with_reducible apply State_masterKill_fr)
    | (with_reducible apply State_stopJob_fr)
    | (with_reducible apply State_schedule_fr)
    | (with_reducible (apply Frame.of_pair; assumption))
    | (with_reducible (apply Frame.of_pair'; assumption))
    | (intro x; refine Frame.cut (w := wF) (z := zF) (x := x) ?_ ?_ <;> [subst x; (intro _; clear_value x)])
    | (intro x; clear_value x)
    | (intro _)
    | lift_lets
    | split

theorem State_startArrive_fr {wF : Nat} {zF : State} {s : State} (h : Nat) (tok : Token) (hF : Frame wF zF s) (hW : Sub 0x28a187fbe2e13cff wF) :
    Frame wF zF (State.startArrive s h tok) := by
  unfold State.startArrive
  repeat' first
    | (with_reducible assumption)
    | (with_reducible exact hW)
    | (with_reducible exact Sub.trans (Sub.mk (by decide)) hW)
    | (with_reducible apply State_openMst_fr)
    | (with_reducible apply State_stale_fr)
    | (with_reducible apply State_modMst_fr)
    | (with_reducible apply State_sendToken_fr)
    | (with_reducible apply State_startCheck_fr)
    | (with_reducible (apply Frame.of_pair; assumption))
    | (with_reducible (apply Frame.of_pair'; assumption))
    | (intro x; refine Frame.cut (w := wF) (z := zF) (x := x) ?_ ?_ <;> [subst x; (intro _; clear_value x)])
    | (intro x; clear_value x)
    | (intro _)
    | lift_lets
    | split

theorem State_takeArrive_fr {wF : Nat} {zF : State} {s : State} (tok : Token) (hF : Frame wF zF s) (hW : Sub 0x28a187fbe2e13cff wF) :
    Frame wF zF (State.takeArrive s tok) := by
  unfold State.takeArrive
  repeat' first
    | (with_reducible assumption)
    | (with_reducible exact hW)
    | (with_reducible exact Sub.trans (Sub.mk (by decide)) hW)
    | (with_reducible apply State_stale_fr)
    | (with_reducible apply State_startArrive_fr)
    | (with_reducible apply State_forMst_fr)
    | (with_reducible apply State_modMst_fr)
    | (with_reducible apply State_toAll_fr)
    | (with_reducible refine Frame.getD (fun _ _ => ?_) ?_)
    | (with_reducible (apply Frame.of_pair; assumption))
    | (with_reducible (apply Frame.of_pair'; assumption))
    | (intro x; refine Frame.cut (w := wF) (z := zF) (x := x) ?_ ?_ <;> [subst x; (intro _; clear_value x)])
    | (intro x; clear_value x)
    | (intro _)
    | lift_lets
    | split

theorem State_takePrepared_fr {wF : Nat} {zF : State} {s : State} (tok : Token) (flags : BitVec 5) (ovfPairs : Nat) (ovfRounds : Nat) (hF : Frame wF zF s) (hW : Sub 0x28a187fbe2e13cff wF) :
    Frame wF zF (State.takePrepared s tok flags ovfPairs ovfRounds) := by
  unfold State.takePrepared
  repeat' first
    | (with_reducible assumption)
    | (with_reducible exact hW)
    | (with_reducible exact Sub.trans (Sub.mk (by decide)) hW)
    | (with_reducible apply State_forMst_fr)
    | (with_reducible apply State_stale_fr)
    | (with_reducible apply State_modMst_fr)
    | (intro _)
    | split

theorem State_commitPoint_fr {wF : Nat} {zF : State} {s : State} (h : Nat) (id : Nat) (hF : Frame wF zF s) (hW : Sub 0x202183fb80413cff wF) :
    Frame wF zF (State.commitPoint s h id) := by
  unfold State.commitPoint
  repeat' first
    | (with_reducible assumption)
    | (with_reducible exact hW)
    | (with_reducible exact Sub.trans (Sub.mk (by decide)) hW)
    | (with_reducible apply State_masterKill_fr)
    | (with_reducible apply State_modMst_fr)
    | (with_reducible apply State_modStep_fr)
    | (with_reducible apply State_toAll_fr)
    | (with_reducible refine Frame.getD (fun _ _ => ?_) ?_)
    | (with_reducible (apply Frame.of_pair; assumption))
    | (with_reducible (apply Frame.of_pair'; assumption))
    | (intro x; refine Frame.cut (w := wF) (z := zF) (x := x) ?_ ?_ <;> [subst x; (intro _; clear_value x)])
    | (intro x; clear_value x)
    | (intro _)
    | lift_lets
    | split

theorem State_takeCommitted_fr {wF : Nat} {zF : State} {s : State} (tok : Token) (hF : Frame wF zF s) (hW : Sub 0x28a187fbe2e13cff wF) :
    Frame wF zF (State.takeCommitted s tok) := by
  unfold State.takeCommitted
  repeat' first
    | (with_reducible assumption)
    | (with_reducible exact hW)
    | (with_reducible exact Sub.trans (Sub.mk (by decide)) hW)
    | (with_reducible apply State_forMst_fr)
    | (with_reducible apply State_stale_fr)
    | (with_reducible apply State_modMst_fr)
    | (with_reducible apply State_completeMaster_fr)
    | (intro _)
    | split

theorem State_openKill_fr {wF : Nat} {zF : State} {s : State} (h : Nat) (tok : Token) (hF : Frame wF zF s) (hW : Sub 0x200000000 wF) :
    Frame wF zF (State.openKill s h tok) := by
  unfold State.openKill
  repeat' first
    | (with_reducible assumption)
    | (with_reducible exact hW)
    | (with_reducible exact Sub.trans (Sub.mk (by decide)) hW)
    | (with_reducible apply State_openMst_fr)
    | (with_reducible apply State_modMst_fr)
    | (with_reducible refine Frame.getD (fun _ _ => ?_) ?_)
    | (intro x; refine Frame.cut (w := wF) (z := zF) (x := x) ?_ ?_ <;> [subst x; (intro _; clear_value x)])
    | (intro x; clear_value x)
    | (intro _)
    | lift_lets
    | split

theorem State_takeKillReq_fr {wF : Nat} {zF : State} {s : State} (tok : Token) (hF : Frame wF zF s) (hW : Sub 0x28a187fbe2e13cff wF) :
    Frame wF zF (State.takeKillReq s tok) := by
  unfold State.takeKillReq
  repeat' first
    | (with_reducible assumption)
    | (with_reducible exact hW)
    | (with_reducible exact Sub.trans (Sub.mk (by decide)) hW)
    | (with_reducible apply State_stale_fr)
    | (with_reducible apply State_openKill_fr)
    | (with_reducible apply State_forMst_fr)
    | (with_reducible apply State_masterKill_fr)
    | (with_reducible (apply Frame.of_pair; assumption))
    | (with_reducible (apply Frame.of_pair'; assumption))
    | (intro _)
    | split

theorem State_takeKilled_fr {wF : Nat} {zF : State} {s : State} (tok : Token) (hF : Frame wF zF s) (hW : Sub 0x28a187fbe2e13cff wF) :
    Frame wF zF (State.takeKilled s tok) := by
  unfold State.takeKilled
  repeat' first
    | (with_reducible assumption)
    | (with_reducible exact hW)
    | (with_reducible exact Sub.trans (Sub.mk (by decide)) hW)
    | (with_reducible apply State_forMst_fr)
    | (with_reducible apply State_stale_fr)
    | (with_reducible apply State_modMst_fr)
    | (with_reducible apply State_killDone_fr)
    | (with_reducible apply State_nextKill_fr)
    | (intro _)
    | split

theorem State_startWaitEnd_fr {wF : Nat} {zF : State} {s : State} (h : Nat) (id : Nat) (hF : Frame wF zF s) (hW : Sub 0x202183fb80413cff wF) :
    Frame wF zF (State.startWaitEnd s h id) := by
  unfold State.startWaitEnd
  repeat' first
    | (with_reducible assumption)
    | (with_reducible exact hW)
    | (with_reducible exact Sub.trans (Sub.mk (by decide)) hW)
    | (with_reducible apply State_modMst_fr)
    | (with_reducible apply State_masterKill_fr)
    | (with_reducible apply State_killDone_fr)
    | (with_reducible (apply Frame.of_pair; assumption))
    | (with_reducible (apply Frame.of_pair'; assumption))
    | (intro x; refine Frame.cut (w := wF) (z := zF) (x := x) ?_ ?_ <;> [subst x; (intro _; clear_value x)])
    | (intro x; clear_value x)
    | (intro _)
    | lift_lets
    | split

theorem State_barrierWaitEnd_fr {wF : Nat} {zF : State} {s : State} (h : Nat) (id : Nat) (barrier : Nat) (hF : Frame wF zF s) (hW : Sub 0x28a187fbe2e13cff wF) :
    Frame wF zF (State.barrierWaitEnd s h id barrier) := by
  unfold State.barrierWaitEnd
  repeat' first
    | (with_reducible assumption)
    | (with_reducible exact hW)
    | (with_reducible exact Sub.trans (Sub.mk (by decide)) hW)
    | (with_reducible apply State_stopJob_fr)
    | (with_reducible (apply Frame.of_pair; assumption))
    | (with_reducible (apply Frame.of_pair'; assumption))
    | (intro x; refine Frame.cut (w := wF) (z := zF) (x := x) ?_ ?_ <;> [subst x; (intro _; clear_value x)])
    | (intro x; clear_value x)
    | (intro _)
    | lift_lets
    | split

theorem State_quantumEnd_fr {wF : Nat} {zF : State} {s : State} (hF : Frame wF zF s) (hW : Sub 0x202183fb80413cff wF) :
    Frame wF zF (State.quantumEnd s) := by
  unfold State.quantumEnd
  split
  · extract_lets own s1 s2 s3
    have h2 : Frame wF zF s2 := State_passTurn_fr (Frame.upd_turnSteps hF (Sub.trans (Sub.mk (by decide)) hW)) (Sub.trans (Sub.mk (by decide)) hW)
    clear_value s2
    refine State_schedule_fr (Frame.foldl (fun s t h => ?_) _ h2) (Sub.trans (Sub.mk (by decide)) hW)
    extract_lets s4
    have h4 : Frame wF zF s4 := Frame.ite (State_openMst_fr _ _ _ h (Sub.trans (Sub.mk (by decide)) hW)) h
    clear_value s4
    split
    · exact Frame.ite h4 (State_masterKill_fr _ _ _ _ h4 (Sub.trans (Sub.mk (by decide)) hW))
    · exact h4
  · exact hF

theorem State_takeCands_fr {wF : Nat} {zF : State} {s : State} (tag : Nat) (c : CandList) (hF : Frame wF zF s) (hW : Sub 0x202187fb80413cff wF) :
    Frame wF zF (State.takeCands s tag c) := by
  unfold State.takeCands
  repeat' first
    | (with_reducible assumption)
    | (with_reducible exact hW)
    | (with_reducible exact Sub.trans (Sub.mk (by decide)) hW)
    | (with_reducible apply State_stale_fr)
    | (with_reducible apply State_modMst_fr)
    | (with_reducible apply State_masterKill_fr)
    | (with_reducible (apply Frame.of_pair; assumption))
    | (with_reducible (apply Frame.of_pair'; assumption))
    | (intro x; refine Frame.cut (w := wF) (z := zF) (x := x) ?_ ?_ <;> [subst x; (intro _; clear_value x)])
    | (intro x; clear_value x)
    | (intro _)
    | lift_lets
    | split

theorem execArrive_fr {wF : Nat} {zF : State} (t : Token) {s : State} (hF : Frame wF zF s) (hW : Sub 0x28a187fbe2e13cff wF) :
    FrameO wF zF (execArrive t s) := by
  unfold execArrive
  repeat' first
    | (with_reducible assumption)
    | (with_reducible exact hW)
    | (with_reducible exact Sub.trans (Sub.mk (by decide)) hW)
    | (with_reducible apply State_takeArrive_fr)
    | (with_reducible refine FrameO.next ?_)
    | split

theorem execRelease_fr {wF : Nat} {zF : State} (t : Token) {s : State} (hF : Frame wF zF s) (hW : Sub 0x28a187fbe2e13cff wF) :
    FrameO wF zF (execRelease t s) := by
  unfold execRelease
  repeat' first
    | (with_reducible assumption)
    | (with_reducible exact hW)
    | (with_reducible exact Sub.trans (Sub.mk (by decide)) hW)
    | (with_reducible apply State_takeRelease_fr)
    | (with_reducible refine FrameO.next ?_)
    | split

theorem execPreparedSend_fr {wF : Nat} {zF : State} (slice : Nat) (stepId : Nat) {s : State} (hF : Frame wF zF s) (hW : Sub 0x2000000100000000 wF) :
    FrameO wF zF (execPreparedSend slice stepId s) := by
  unfold execPreparedSend
  repeat' first
    | (with_reducible assumption)
    | (with_reducible exact hW)
    | (with_reducible exact Sub.trans (Sub.mk (by decide)) hW)
    | (with_reducible apply State_sendPrepared_fr)
    | (with_reducible refine FrameO.next ?_)
    | split

theorem execPrepared_fr {wF : Nat} {zF : State} (t : Token) (flags : BitVec 5) (ovfPairs : Nat) (ovfRounds : Nat) {s : State} (hF : Frame wF zF s) (hW : Sub 0x28a187fbe2e13cff wF) :
    FrameO wF zF (execPrepared t flags ovfPairs ovfRounds s) := by
  unfold execPrepared
  repeat' first
    | (with_reducible assumption)
    | (with_reducible exact hW)
    | (with_reducible exact Sub.trans (Sub.mk (by decide)) hW)
    | (with_reducible apply State_takePrepared_fr)
    | (with_reducible refine FrameO.next ?_)
    | split

theorem execCommitPoint_fr {wF : Nat} {zF : State} (slice : Nat) (stepId : Nat) {s : State} (hF : Frame wF zF s) (hW : Sub 0x202183fb80413cff wF) :
    FrameO wF zF (execCommitPoint slice stepId s) := by
  unfold execCommitPoint
  repeat' first
    | (with_reducible assumption)
    | (with_reducible exact hW)
    | (with_reducible exact Sub.trans (Sub.mk (by decide)) hW)
    | (with_reducible apply State_commitPoint_fr)
    | (with_reducible refine FrameO.next ?_)
    | split

theorem execCommit_fr {wF : Nat} {zF : State} (t : Token) (body : List CommitEntry) {s : State} (hF : Frame wF zF s) (hW : Sub 0x28a187fbeee13cff wF) :
    FrameO wF zF (execCommit t body s) := by
  unfold execCommit
  repeat' first
    | (with_reducible assumption)
    | (with_reducible exact hW)
    | (with_reducible exact Sub.trans (Sub.mk (by decide)) hW)
    | (with_reducible apply State_takeCommit_fr)
    | (with_reducible refine FrameO.next ?_)
    | split

theorem execCommitted_fr {wF : Nat} {zF : State} (t : Token) {s : State} (hF : Frame wF zF s) (hW : Sub 0x28a187fbe2e13cff wF) :
    FrameO wF zF (execCommitted t s) := by
  unfold execCommitted
  repeat' first
    | (with_reducible assumption)
    | (with_reducible exact hW)
    | (with_reducible exact Sub.trans (Sub.mk (by decide)) hW)
    | (with_reducible apply State_takeCommitted_fr)
    | (with_reducible refine FrameO.next ?_)
    | split

theorem execKillReq_fr {wF : Nat} {zF : State} (t : Token) {s : State} (hF : Frame wF zF s) (hW : Sub 0x28a187fbe2e13cff wF) :
    FrameO wF zF (execKillReq t s) := by
  unfold execKillReq
  repeat' first
    | (with_reducible assumption)
    | (with_reducible exact hW)
    | (with_reducible exact Sub.trans (Sub.mk (by decide)) hW)
    | (with_reducible apply State_takeKillReq_fr)
    | (with_reducible refine FrameO.next ?_)
    | split

theorem execKill_fr {wF : Nat} {zF : State} (t : Token) {s : State} (hF : Frame wF zF s) (hW : Sub 0x28a187fbe2e13cff wF) :
    FrameO wF zF (execKill t s) := by
  unfold execKill
  repeat' first
    | (with_reducible assumption)
    | (with_reducible exact hW)
    | (with_reducible exact Sub.trans (Sub.mk (by decide)) hW)
    | (with_reducible apply State_takeKill_fr)
    | (with_reducible refine FrameO.next ?_)
    | split

theorem execKilled_fr {wF : Nat} {zF : State} (t : Token) {s : State} (hF : Frame wF zF s) (hW : Sub 0x28a187fbe2e13cff wF) :
    FrameO wF zF (execKilled t s) := by
  unfold execKilled
  repeat' first
    | (with_reducible assumption)
    | (with_reducible exact hW)
    | (with_reducible exact Sub.trans (Sub.mk (by decide)) hW)
    | (with_reducible apply State_takeKilled_fr)
    | (with_reducible refine FrameO.next ?_)
    | split

theorem execStartWaitExpire_fr {wF : Nat} {zF : State} (slice : Nat) (stepId : Nat) {s : State} (hF : Frame wF zF s) (hW : Sub 0x202183fb80413cff wF) :
    FrameO wF zF (execStartWaitExpire slice stepId s) := by
  unfold execStartWaitExpire
  repeat' first
    | (with_reducible assumption)
    | (with_reducible exact hW)
    | (with_reducible exact Sub.trans (Sub.mk (by decide)) hW)
    | (with_reducible apply State_startWaitEnd_fr)
    | (with_reducible refine FrameO.next ?_)
    | split

theorem execBarrierWaitExpire_fr {wF : Nat} {zF : State} (slice : Nat) (stepId : Nat) (barrier : Nat) {s : State} (hF : Frame wF zF s) (hW : Sub 0x28a187fbe2e13cff wF) :
    FrameO wF zF (execBarrierWaitExpire slice stepId barrier s) := by
  unfold execBarrierWaitExpire
  repeat' first
    | (with_reducible assumption)
    | (with_reducible exact hW)
    | (with_reducible exact Sub.trans (Sub.mk (by decide)) hW)
    | (with_reducible apply State_barrierWaitEnd_fr)
    | (with_reducible refine FrameO.next ?_)
    | split

theorem execQuantumExpire_fr {wF : Nat} {zF : State} {s : State} (hF : Frame wF zF s) (hW : Sub 0x202183fb80413cff wF) :
    FrameO wF zF (execQuantumExpire s) := by
  unfold execQuantumExpire
  repeat' first
    | (with_reducible assumption)
    | (with_reducible exact hW)
    | (with_reducible exact Sub.trans (Sub.mk (by decide)) hW)
    | (with_reducible apply State_quantumEnd_fr)
    | (with_reducible refine FrameO.next ?_)
    | split

theorem execCandidateList_fr {wF : Nat} {zF : State} (tag : Nat) (c : CandList) {s : State} (hF : Frame wF zF s) (hW : Sub 0x202187fb80413cff wF) :
    FrameO wF zF (execCandidateList tag c s) := by
  unfold execCandidateList
  repeat' first
    | (with_reducible assumption)
    | (with_reducible exact hW)
    | (with_reducible exact Sub.trans (Sub.mk (by decide)) hW)
    | (with_reducible apply State_takeCands_fr)
    | (with_reducible refine FrameO.next ?_)
    | split

theorem execStop_fr {wF : Nat} {zF : State} (m : SliceMsg) {s : State} (hF : Frame wF zF s) (hW : Sub 0x28a187fbe2e13cff wF) :
    FrameO wF zF (execStop m s) := by
  unfold execStop
  repeat' first
    | (with_reducible assumption)
    | (with_reducible exact hW)
    | (with_reducible exact Sub.trans (Sub.mk (by decide)) hW)
    | (with_reducible apply State_takeStop_fr)
    | (with_reducible refine FrameO.next ?_)
    | split

theorem execTailCopyDone_fr {wF : Nat} {zF : State} (slot : Nat) (seq : Nat) {s : State} (hF : Frame wF zF s) (hW : Sub 0x40100000004 wF) :
    FrameO wF zF (execTailCopyDone slot seq s) := by
  unfold execTailCopyDone
  repeat' first
    | (with_reducible assumption)
    | (with_reducible exact hW)
    | (with_reducible exact Sub.trans (Sub.mk (by decide)) hW)
    | (with_reducible apply State_copyTail_fr)
    | (with_reducible apply State_modStepAt_fr)
    | (with_reducible apply State_wakeCopy_fr)
    | (with_reducible refine FrameO.next ?_)
    | (with_reducible (apply Frame.of_pair; assumption))
    | (with_reducible (apply Frame.of_pair'; assumption))
    | (intro x; refine Frame.cut (w := wF) (z := zF) (x := x) ?_ ?_ <;> [subst x; (intro _; clear_value x)])
    | (intro x; clear_value x)
    | (intro _)
    | lift_lets
    | split

end Sys2Proof.Machine
end

