-- ==== Sys2Proof/Laws/FrameDistributary.lean ====
section
/-! SUPPORT. What each operation of Machine/Distributary.lean may change. -/

set_option linter.all false

namespace Sys2Proof.Machine

open Sys2Proof

theorem State_modCtx_fr {wF : Nat} {zF : State} {s : State} (k : Nat) (slot : Nat) (layer : Nat) (f : Ctx → Ctx) (hF : Frame wF zF s) (hW : Sub 0x40000000000 wF) :
    Frame wF zF (State.modCtx s k slot layer f) := by
  unfold State.modCtx
  repeat' first
    | (with_reducible assumption)
    | (with_reducible exact hW)
    | (with_reducible exact Sub.trans (Sub.mk (by decide)) hW)
    | (with_reducible apply State_modDie_fr)
    | (intro _)
    | split

theorem State_closeCtx_fr {wF : Nat} {zF : State} {s : State} (k : Nat) (slot : Nat) (layer : Nat) (hF : Frame wF zF s) (hW : Sub 0x40000000000 wF) :
    Frame wF zF (State.closeCtx s k slot layer) := by
  unfold State.closeCtx
  repeat' first
    | (with_reducible assumption)
    | (with_reducible exact hW)
    | (with_reducible exact Sub.trans (Sub.mk (by decide)) hW)
    | (with_reducible apply State_modDie_fr)
    | (intro _)

theorem State_sendDist_fr {wF : Nat} {zF : State} {s : State} (t : Step) (k : Nat) (kind : Nat) (member : Nat) (die : Nat) (e : Envelope) (a : Nat) (b : Nat) (nums : List Nat) (bytes : List Byte) (hF : Frame wF zF s) (hW : Sub 0x2000100000000000 wF) :
    Frame wF zF (State.sendDist s t k kind member die e a b nums bytes) := by
  unfold State.sendDist
  repeat' first
    | (with_reducible assumption)
    | (with_reducible exact hW)
    | (with_reducible exact Sub.trans (Sub.mk (by decide)) hW)
    | (with_reducible apply State_emit_fr)
    | (intro x; refine Frame.cut (w := wF) (z := zF) (x := x) ?_ ?_ <;> [subst x; (intro _; clear_value x)])
    | (intro x; clear_value x)
    | (intro _)
    | lift_lets
    | ((fail_if_success split); with_reducible apply Frame.upd_noc)
    | split

theorem State_onArrival_fr {wF : Nat} {zF : State} {s : State} (k : Nat) (kind : Nat) (e : Envelope) (a : Nat) (b : Nat) (nums : List Nat) (bytes : List Byte) (f : State → State) (hF : Frame wF zF s) (hW : Sub 0x100000000000 wF) (hHf : ∀ v0, Frame wF zF v0 → Frame wF zF (f v0)) :
    Frame wF zF (State.onArrival s k kind e a b nums bytes f) := by
  unfold State.onArrival
  repeat' first
    | (with_reducible assumption)
    | (with_reducible exact hW)
    | (with_reducible exact Sub.trans (Sub.mk (by decide)) hW)
    | (with_reducible (apply State_arrives_fr; case hT => assumption))
    | (with_reducible apply hHf)
    | (with_reducible (apply Frame.of_pair; assumption))
    | (with_reducible (apply Frame.of_pair'; assumption))
    | split

theorem State_distStale_fr {wF : Nat} {zF : State} {s : State} (k : Nat) (hF : Frame wF zF s) (hW : Sub 0x40000000000 wF) :
    Frame wF zF (State.distStale s k) := by
  unfold State.distStale
  repeat' first
    | (with_reducible assumption)
    | (with_reducible exact hW)
    | (with_reducible exact Sub.trans (Sub.mk (by decide)) hW)
    | (with_reducible apply State_modDie_fr)
    | (intro _)

theorem State_withMsg_fr {wF : Nat} {zF : State} {s : State} (k : Nat) (e : Envelope) (gen : Bool) (f : Step → State → State) (hF : Frame wF zF s) (hW : Sub 0x28a187fbe2e13cff wF) (hHf : ∀ v0 v1, Frame wF zF v1 → Frame wF zF (f v0 v1)) :
    Frame wF zF (State.withMsg s k e gen f) := by
  unfold State.withMsg
  repeat' first
    | (with_reducible assumption)
    | (with_reducible exact hW)
    | (with_reducible exact Sub.trans (Sub.mk (by decide)) hW)
    | (with_reducible apply State_distStale_fr)
    | (with_reducible apply State_stopJob_fr)
    | (with_reducible apply hHf)
    | (with_reducible (apply Frame.of_pair; assumption))
    | (with_reducible (apply Frame.of_pair'; assumption))
    | split

theorem State_sendCounts_fr {wF : Nat} {zF : State} {s : State} (t : Step) (k : Nat) (c : Ctx) (hF : Frame wF zF s) (hW : Sub 0x2000140000000000 wF) :
    Frame wF zF (State.sendCounts s t k c) := by
  unfold State.sendCounts
  repeat' first
    | (with_reducible assumption)
    | (with_reducible exact hW)
    | (with_reducible exact Sub.trans (Sub.mk (by decide)) hW)
    | (with_reducible apply State_modCtx_fr)
    | (with_reducible apply State_sendDist_fr)
    | (with_reducible refine Frame.foldl (fun _ _ _ => ?_) _ ?_)
    | (with_reducible refine Frame.foldl1 (fun _ _ _ => ?_) _ ?_)
    | (with_reducible refine Frame.foldl2 (fun _ _ _ => ?_) _ ?_)
    | (intro x; refine Frame.cut (w := wF) (z := zF) (x := x) ?_ ?_ <;> [subst x; (intro _; clear_value x)])
    | (intro x; clear_value x)
    | (intro _)
    | lift_lets

theorem State_sourceCheck_fr {wF : Nat} {zF : State} {s : State} (k : Nat) (slot : Nat) (layer : Nat) (hF : Frame wF zF s) (hW : Sub 0x40000000000 wF) :
    Frame wF zF (State.sourceCheck s k slot layer) := by
  unfold State.sourceCheck
  repeat' first
    | (with_reducible assumption)
    | (with_reducible exact hW)
    | (with_reducible exact Sub.trans (Sub.mk (by decide)) hW)
    | (with_reducible apply State_modCtx_fr)
    | (with_reducible apply State_closeCtx_fr)
    | (with_reducible (apply Frame.of_pair; assumption))
    | (with_reducible (apply Frame.of_pair'; assumption))
    | (intro x; refine Frame.cut (w := wF) (z := zF) (x := x) ?_ ?_ <;> [subst x; (intro _; clear_value x)])
    | (intro x; clear_value x)
    | (intro _)
    | lift_lets
    | split

theorem State_distSend_fr {wF : Nat} {zF : State} {s : State} (k : Nat) (hF : Frame wF zF s) (hW : Sub 0x2000140000000000 wF) :
    Frame wF zF (State.distSend s k) := by
  unfold State.distSend
  repeat' first
    | (with_reducible assumption)
    | (with_reducible exact hW)
    | (with_reducible exact Sub.trans (Sub.mk (by decide)) hW)
    | (with_reducible apply State_sendCounts_fr)
    | (with_reducible apply State_sourceCheck_fr)
    | (with_reducible refine Frame.foldl (fun _ _ _ => ?_) _ ?_)
    | (with_reducible refine Frame.foldl1 (fun _ _ _ => ?_) _ ?_)
    | (with_reducible refine Frame.foldl2 (fun _ _ _ => ?_) _ ?_)
    | (with_reducible (apply Frame.of_pair; assumption))
    | (with_reducible (apply Frame.of_pair'; assumption))
    | (intro _)
    | split

theorem State_modAgent_fr {wF : Nat} {zF : State} {s : State} (k : Nat) (slot : Nat) (f : Agent → Agent) (hF : Frame wF zF s) (hW : Sub 0x40000000000 wF) :
    Frame wF zF (State.modAgent s k slot f) := by
  unfold State.modAgent
  repeat' first
    | (with_reducible assumption)
    | (with_reducible exact hW)
    | (with_reducible exact Sub.trans (Sub.mk (by decide)) hW)
    | (with_reducible apply State_modDie_fr)
    | (intro _)
    | split

theorem State_askPages_fr {wF : Nat} {zF : State} {s : State} (e : Tile) (hF : Frame wF zF s) (hW : Sub 0x200000 wF) :
    Frame wF zF (State.askPages s e) := by
  unfold State.askPages
  repeat' first
    | (with_reducible assumption)
    | (with_reducible exact hW)
    | (with_reducible exact Sub.trans (Sub.mk (by decide)) hW)
    | (with_reducible apply State_modPool_fr)
    | (with_reducible refine Frame.foldl (fun _ _ _ => ?_) _ ?_)
    | (with_reducible refine Frame.foldl1 (fun _ _ _ => ?_) _ ?_)
    | (with_reducible refine Frame.foldl2 (fun _ _ _ => ?_) _ ?_)
    | (with_reducible (apply Frame.of_pair; assumption))
    | (with_reducible (apply Frame.of_pair'; assumption))
    | (intro x; refine Frame.cut (w := wF) (z := zF) (x := x) ?_ ?_ <;> [subst x; (intro _; clear_value x)])
    | (intro x; clear_value x)
    | (intro _)
    | lift_lets
    | split

theorem State_appendTile_fr {wF : Nat} {zF : State} {s : State} (t : Step) (k : Nat) (e : Tile) (hF : Frame wF zF s) (hW : Sub 0x40101200000 wF) :
    Frame wF zF (State.appendTile s t k e) := by
  unfold State.appendTile
  repeat' first
    | (with_reducible assumption)
    | (with_reducible exact hW)
    | (with_reducible exact Sub.trans (Sub.mk (by decide)) hW)
    | (with_reducible apply State_trigLayer_fr)
    | (with_reducible apply State_askPages_fr)
    | (with_reducible apply State_modDie_fr)
    | (with_reducible apply State_modAgent_fr)
    | (with_reducible apply State_placeTile_fr)
    | (intro x; refine Frame.cut (w := wF) (z := zF) (x := x) ?_ ?_ <;> [subst x; (intro _; clear_value x)])
    | (intro x; clear_value x)
    | (intro _)
    | lift_lets
    | split

theorem State_putExpert_fr {wF : Nat} {zF : State} {s : State} (t : Step) (k : Nat) (layer : Nat) (e : Tile) (hF : Frame wF zF s) (hW : Sub 0x40101210000 wF) :
    Frame wF zF (State.putExpert s t k layer e) := by
  unfold State.putExpert
  repeat' first
    | (with_reducible assumption)
    | (with_reducible exact hW)
    | (with_reducible exact Sub.trans (Sub.mk (by decide)) hW)
    | (with_reducible apply State_appendTile_fr)
    | (with_reducible apply State_modDie_fr)
    | (with_reducible apply State_raise_fr)
    | (with_reducible apply State_modCtx_fr)
    | (with_reducible refine Frame.getD (fun _ _ => ?_) ?_)
    | (intro x; refine Frame.cut (w := wF) (z := zF) (x := x) ?_ ?_ <;> [subst x; (intro _; clear_value x)])
    | (intro x; clear_value x)
    | (intro _)
    | lift_lets
    | split

theorem State_coldDemand_fr {wF : Nat} {zF : State} {s : State} (t : Step) (k : Nat) (layer : Nat) (ent : PlaceEnt) (o : Obj) (hF : Frame wF zF s) (hW : Sub 0x2000040100000000 wF) :
    Frame wF zF (State.coldDemand s t k layer ent o) := by
  unfold State.coldDemand
  repeat' first
    | (with_reducible assumption)
    | (with_reducible exact hW)
    | (with_reducible exact Sub.trans (Sub.mk (by decide)) hW)
    | (with_reducible apply State_modDie_fr)
    | (with_reducible apply State_failStep_fr)
    | (with_reducible refine Frame.foldl (fun _ _ _ => ?_) _ ?_)
    | (with_reducible refine Frame.foldl1 (fun _ _ _ => ?_) _ ?_)
    | (with_reducible refine Frame.foldl2 (fun _ _ _ => ?_) _ ?_)
    | (with_reducible refine Frame.getD (fun _ _ => ?_) ?_)
    | (with_reducible (apply Frame.of_pair; assumption))
    | (with_reducible (apply Frame.of_pair'; assumption))
    | (intro x; refine Frame.cut (w := wF) (z := zF) (x := x) ?_ ?_ <;> [subst x; (intro _; clear_value x)])
    | (intro x; clear_value x)
    | (intro _)
    | lift_lets
    | split

theorem State_startBlock_fr {wF : Nat} {zF : State} {s : State} (t : Step) (k : Nat) (layer : Nat) (b : RowBlk) (hF : Frame wF zF s) (hW : Sub 0x2000040101210000 wF) :
    Frame wF zF (State.startBlock s t k layer b) := by
  unfold State.startBlock
  extract_lets p
  split
  · split
    · exact State_failStep_fr _ _ _ hF (Sub.trans (Sub.mk (by decide)) hW)
    · refine State_modDie_fr _ _ (Frame.foldl (fun s i h => State_putExpert_fr _ _ _ _ h (Sub.trans (Sub.mk (by decide)) hW)) _ ?_) (Sub.trans (Sub.mk (by decide)) hW)
      exact State_modCtx_fr _ _ _ _ (State_setCtr_fr _ _ _ hF (Sub.trans (Sub.mk (by decide)) hW)) (Sub.trans (Sub.mk (by decide)) hW)
  · exact hF

theorem State_startBlocks_fr {wF : Nat} {zF : State} {s : State} (t : Step) (k : Nat) (slot : Nat) (layer : Nat) (hF : Frame wF zF s) (hW : Sub 0x2000040101210000 wF) :
    Frame wF zF (State.startBlocks s t k slot layer) := by
  unfold State.startBlocks
  repeat' first
    | (with_reducible assumption)
    | (with_reducible exact hW)
    | (with_reducible exact Sub.trans (Sub.mk (by decide)) hW)
    | (with_reducible apply State_startBlock_fr)
    | (with_reducible refine Frame.foldl (fun _ _ _ => ?_) _ ?_)
    | (with_reducible refine Frame.foldl1 (fun _ _ _ => ?_) _ ?_)
    | (with_reducible refine Frame.foldl2 (fun _ _ _ => ?_) _ ?_)
    | (with_reducible (apply Frame.of_pair; assumption))
    | (with_reducible (apply Frame.of_pair'; assumption))
    | (intro _)
    | split

theorem State_openBlock_fr {wF : Nat} {zF : State} {s : State} (t : Step) (k : Nat) (slot : Nat) (layer : Nat) (lslot : Nat) (first : Nat) (rows : Nat) (hF : Frame wF zF s) (hW : Sub 0x2000040101210000 wF) :
    Frame wF zF (State.openBlock s t k slot layer lslot first rows) := by
  unfold State.openBlock
  repeat' first
    | (with_reducible assumption)
    | (with_reducible exact hW)
    | (with_reducible exact Sub.trans (Sub.mk (by decide)) hW)
    | (with_reducible apply State_failStep_fr)
    | (with_reducible apply State_modCtx_fr)
    | (with_reducible apply State_coldDemand_fr)
    | (with_reducible apply State_startBlock_fr)
    | (with_reducible (apply Frame.of_pair; assumption))
    | (with_reducible (apply Frame.of_pair'; assumption))
    | (intro x; refine Frame.cut (w := wF) (z := zF) (x := x) ?_ ?_ <;> [subst x; (intro _; clear_value x)])
    | (intro x; clear_value x)
    | (intro _)
    | lift_lets
    | split

theorem State_grantRound_fr {wF : Nat} {zF : State} {s : State} (t : Step) (k : Nat) (c : Ctx) (hF : Frame wF zF s) (hW : Sub 0x2000140101210000 wF) :
    Frame wF zF (State.grantRound s t k c) := by
  unfold State.grantRound
  repeat' first
    | (with_reducible assumption)
    | (with_reducible exact hW)
    | (with_reducible exact Sub.trans (Sub.mk (by decide)) hW)
    | (with_reducible apply State_modCtx_fr)
    | (with_reducible apply State_modStep_fr)
    | (with_reducible apply State_modDie_fr)
    | (with_reducible apply State_raiseIf_fr)
    | (with_reducible apply State_sendDist_fr)
    | (with_reducible apply State_openBlock_fr)
    | (with_reducible apply State_closeCtx_fr)
    | (with_reducible refine Frame.foldl (fun _ _ _ => ?_) _ ?_)
    | (with_reducible refine Frame.foldl1 (fun _ _ _ => ?_) _ ?_)
    | (with_reducible refine Frame.foldl2 (fun _ _ _ => ?_) _ ?_)
    | (with_reducible refine Frame.getD (fun _ _ => ?_) ?_)
    | (with_reducible (apply Frame.of_pair; assumption))
    | (with_reducible (apply Frame.of_pair'; assumption))
    | (intro x; refine Frame.cut (w := wF) (z := zF) (x := x) ?_ ?_ <;> [subst x; (intro _; clear_value x)])
    | (intro x; clear_value x)
    | (intro _)
    | lift_lets
    | split

theorem State_countCheck_fr {wF : Nat} {zF : State} {s : State} (t : Step) (k : Nat) (layer : Nat) (hF : Frame wF zF s) (hW : Sub 0x2000140101210000 wF) :
    Frame wF zF (State.countCheck s t k layer) := by
  unfold State.countCheck
  repeat' first
    | (with_reducible assumption)
    | (with_reducible exact hW)
    | (with_reducible exact Sub.trans (Sub.mk (by decide)) hW)
    | (with_reducible apply State_grantRound_fr)
    | (with_reducible refine Frame.getD (fun _ _ => ?_) ?_)
    | (with_reducible (apply Frame.of_pair; assumption))
    | (with_reducible (apply Frame.of_pair'; assumption))
    | (intro x; refine Frame.cut (w := wF) (z := zF) (x := x) ?_ ?_ <;> [subst x; (intro _; clear_value x)])
    | (intro x; clear_value x)
    | (intro _)
    | lift_lets
    | split

theorem State_takeCount_fr {wF : Nat} {zF : State} {s : State} (k : Nat) (e : Envelope) (counts : List Nat) (hF : Frame wF zF s) (hW : Sub 0x28a197fbe3e13cff wF) :
    Frame wF zF (State.takeCount s k e counts) := by
  unfold State.takeCount
  repeat' first
    | (with_reducible assumption)
    | (with_reducible exact hW)
    | (with_reducible exact Sub.trans (Sub.mk (by decide)) hW)
    | (with_reducible apply State_withMsg_fr)
    | (with_reducible apply State_modDie_fr)
    | (with_reducible apply State_modCtx_fr)
    | (with_reducible apply State_countCheck_fr)
    | (with_reducible (apply Frame.of_pair; assumption))
    | (with_reducible (apply Frame.of_pair'; assumption))
    | (intro _)
    | split

theorem State_sendRows_fr {wF : Nat} {zF : State} {s : State} (t : Step) (k : Nat) (layer : Nat) (member : Nat) (die : Nat) (lslot : Nat) (off : Nat) (credit : Nat) (hF : Frame wF zF s) (hW : Sub 0x2000140000000000 wF) :
    Frame wF zF (State.sendRows s t k layer member die lslot off credit) := by
  unfold State.sendRows
  repeat' first
    | (with_reducible assumption)
    | (with_reducible exact hW)
    | (with_reducible exact Sub.trans (Sub.mk (by decide)) hW)
    | (with_reducible apply State_sendDist_fr)
    | (with_reducible apply State_modCtx_fr)
    | (with_reducible refine Frame.foldl (fun _ _ _ => ?_) _ ?_)
    | (with_reducible refine Frame.foldl1 (fun _ _ _ => ?_) _ ?_)
    | (with_reducible refine Frame.foldl2 (fun _ _ _ => ?_) _ ?_)
    | (with_reducible (apply Frame.of_pair; assumption))
    | (with_reducible (apply Frame.of_pair'; assumption))
    | (intro x; refine Frame.cut (w := wF) (z := zF) (x := x) ?_ ?_ <;> [subst x; (intro _; clear_value x)])
    | (intro x; clear_value x)
    | (intro _)
    | lift_lets
    | split

theorem State_takeGrant_fr {wF : Nat} {zF : State} {s : State} (k : Nat) (e : Envelope) (grants : List (Nat × Nat)) (hF : Frame wF zF s) (hW : Sub 0x28a197fbe2e13cff wF) :
    Frame wF zF (State.takeGrant s k e grants) := by
  unfold State.takeGrant
  repeat' first
    | (with_reducible assumption)
    | (with_reducible exact hW)
    | (with_reducible exact Sub.trans (Sub.mk (by decide)) hW)
    | (with_reducible apply State_withMsg_fr)
    | (with_reducible apply State_sendRows_fr)
    | (with_reducible refine Frame.foldl (fun _ _ _ => ?_) _ ?_)
    | (with_reducible refine Frame.foldl1 (fun _ _ _ => ?_) _ ?_)
    | (with_reducible refine Frame.foldl2 (fun _ _ _ => ?_) _ ?_)
    | (intro _)

theorem State_rowIn_fr {wF : Nat} {zF : State} {s : State} (k : Nat) (ctr : Nat) (hF : Frame wF zF s) (hW : Sub 0x2000040100000000 wF) :
    Frame wF zF (State.rowIn s k ctr) := by
  unfold State.rowIn
  repeat' first
    | (with_reducible assumption)
    | (with_reducible exact hW)
    | (with_reducible exact Sub.trans (Sub.mk (by decide)) hW)
    | (with_reducible apply State_decCtr_fr)
    | split

theorem State_takeRow_fr {wF : Nat} {zF : State} {s : State} (k : Nat) (e : Envelope) (q : Nat) (bytes : List Byte) (hF : Frame wF zF s) (hW : Sub 0x28a197fbe2e13cff wF) :
    Frame wF zF (State.takeRow s k e q bytes) := by
  unfold State.takeRow
  repeat' first
    | (with_reducible assumption)
    | (with_reducible exact hW)
    | (with_reducible exact Sub.trans (Sub.mk (by decide)) hW)
    | (with_reducible apply State_withMsg_fr)
    | (with_reducible apply State_distStale_fr)
    | (with_reducible apply State_modWrite_fr)
    | (with_reducible apply State_modCtx_fr)
    | (with_reducible apply State_rowIn_fr)
    | (with_reducible apply State_distSend_fr)
    | (with_reducible (apply Frame.of_pair; assumption))
    | (with_reducible (apply Frame.of_pair'; assumption))
    | (intro x; refine Frame.cut (w := wF) (z := zF) (x := x) ?_ ?_ <;> [subst x; (intro _; clear_value x)])
    | (intro x; clear_value x)
    | (intro _)
    | lift_lets
    | split

theorem State_ownerCheck_fr {wF : Nat} {zF : State} {s : State} (k : Nat) (slot : Nat) (layer : Nat) (hF : Frame wF zF s) (hW : Sub 0x40000000000 wF) :
    Frame wF zF (State.ownerCheck s k slot layer) := by
  unfold State.ownerCheck
  repeat' first
    | (with_reducible assumption)
    | (with_reducible exact hW)
    | (with_reducible exact Sub.trans (Sub.mk (by decide)) hW)
    | (with_reducible apply State_modCtx_fr)
    | (with_reducible apply State_closeCtx_fr)
    | (with_reducible (apply Frame.of_pair; assumption))
    | (with_reducible (apply Frame.of_pair'; assumption))
    | (intro _)
    | split

theorem State_freeBytes_fr {wF : Nat} {zF : State} {s : State} (n : Nat) (hF : Frame wF zF s) (hW : Sub 0x1 wF) :
    Frame wF zF (State.freeBytes s n).2 := by
  unfold State.freeBytes
  repeat' first
    | (with_reducible assumption)
    | (with_reducible exact hW)
    | (with_reducible exact Sub.trans (Sub.mk (by decide)) hW)
    | (with_reducible apply State_draw_fr)
    | (with_reducible (apply Frame.of_pair; assumption))
    | (with_reducible (apply Frame.of_pair'; assumption))
    | (intro x; refine Frame.cut (w := wF) (z := zF) (x := x) ?_ ?_ <;> [subst x; (intro _; clear_value x)])
    | (intro x; clear_value x)
    | (intro _)
    | lift_lets
    | split

theorem State_returnBlock_fr {wF : Nat} {zF : State} {s : State} (t : Step) (k : Nat) (layer : Nat) (c : Ctx) (b : RowBlk) (hF : Frame wF zF s) (hW : Sub 0x2000140101210005 wF) :
    Frame wF zF (State.returnBlock s t k layer c b) := by
  unfold State.returnBlock
  repeat' first
    | (with_reducible assumption)
    | (with_reducible exact hW)
    | (with_reducible exact Sub.trans (Sub.mk (by decide)) hW)
    | (with_reducible apply State_freeBytes_fr)
    | (with_reducible apply State_modWrite_fr)
    | (with_reducible apply State_sendDist_fr)
    | (with_reducible apply State_modCtx_fr)
    | (with_reducible apply State_startBlocks_fr)
    | (with_reducible apply State_ownerCheck_fr)
    | (with_reducible refine Frame.foldl (fun _ _ _ => ?_) _ ?_)
    | (with_reducible refine Frame.foldl1 (fun _ _ _ => ?_) _ ?_)
    | (with_reducible refine Frame.foldl2 (fun _ _ _ => ?_) _ ?_)
    | (with_reducible (apply Frame.of_pair; assumption))
    | (with_reducible (apply Frame.of_pair'; assumption))
    | (intro x; refine Frame.cut (w := wF) (z := zF) (x := x) ?_ ?_ <;> [subst x; (intro _; clear_value x)])
    | (intro x; clear_value x)
    | (intro _)
    | lift_lets
    | split

theorem State_blockTile_fr {wF : Nat} {zF : State} {s : State} (k : Nat) (e : Tile) (hF : Frame wF zF s) (hW : Sub 0x2000140101210005 wF) :
    Frame wF zF (State.blockTile s k e) := by
  unfold State.blockTile
  split
  · extract_lets s1
    have h1 : Frame wF zF s1 := State_modCtx_fr _ _ _ _ hF (Sub.trans (Sub.mk (by decide)) hW)
    clear_value s1
    split
    · split
      · exact Frame.ite (State_returnBlock_fr _ _ _ _ _ h1 (Sub.trans (Sub.mk (by decide)) hW)) h1
      · exact h1
    · exact h1
  · exact hF

theorem State_takeReturn_fr {wF : Nat} {zF : State} {s : State} (k : Nat) (e : Envelope) (addr : Nat) (ctr : Nat) (bytes : List Byte) (hF : Frame wF zF s) (hW : Sub 0x28a197fbe2e13cff wF) :
    Frame wF zF (State.takeReturn s k e addr ctr bytes) := by
  unfold State.takeReturn
  repeat' first
    | (with_reducible assumption)
    | (with_reducible exact hW)
    | (with_reducible exact Sub.trans (Sub.mk (by decide)) hW)
    | (with_reducible apply State_withMsg_fr)
    | (with_reducible apply State_modWrite_fr)
    | (with_reducible apply State_decCtr_fr)
    | (with_reducible apply State_distSend_fr)
    | (with_reducible apply State_sourceCheck_fr)
    | (intro _)

theorem State_recordIn_fr {wF : Nat} {zF : State} {s : State} (k : Nat) (entry : Nat) (part : Nat) (hF : Frame wF zF s) (hW : Sub 0x2000040100000000 wF) :
    Frame wF zF (State.recordIn s k entry part) := by
  unfold State.recordIn
  repeat' first
    | (with_reducible assumption)
    | (with_reducible exact hW)
    | (with_reducible exact Sub.trans (Sub.mk (by decide)) hW)
    | (with_reducible apply State_modDie_fr)
    | (with_reducible apply State_decCtr_fr)
    | (with_reducible (apply Frame.of_pair; assumption))
    | (with_reducible (apply Frame.of_pair'; assumption))
    | (intro x; refine Frame.cut (w := wF) (z := zF) (x := x) ?_ ?_ <;> [subst x; (intro _; clear_value x)])
    | (intro x; clear_value x)
    | (intro _)
    | lift_lets
    | split

theorem State_takeRecord_fr {wF : Nat} {zF : State} {s : State} (k : Nat) (e : Envelope) (entry : Nat) (part : Nat) (bytes : List Byte) (hF : Frame wF zF s) (hW : Sub 0x28a197fbe2e13cff wF) :
    Frame wF zF (State.takeRecord s k e entry part bytes) := by
  unfold State.takeRecord
  repeat' first
    | (with_reducible assumption)
    | (with_reducible exact hW)
    | (with_reducible exact Sub.trans (Sub.mk (by decide)) hW)
    | (with_reducible apply State_withMsg_fr)
    | (with_reducible apply State_distStale_fr)
    | (with_reducible apply State_modWrite_fr)
    | (with_reducible apply State_recordIn_fr)
    | (with_reducible apply State_distSend_fr)
    | (with_reducible (apply Frame.of_pair; assumption))
    | (with_reducible (apply Frame.of_pair'; assumption))
    | (intro _)
    | split

theorem State_takeRows_fr {wF : Nat} {zF : State} {s : State} (k : Nat) (e : Envelope) (addr : Nat) (ctr : Nat) (bytes : List Byte) (hF : Frame wF zF s) (hW : Sub 0x28a197fbe2e13cff wF) :
    Frame wF zF (State.takeRows s k e addr ctr bytes) := by
  unfold State.takeRows
  repeat' first
    | (with_reducible assumption)
    | (with_reducible exact hW)
    | (with_reducible exact Sub.trans (Sub.mk (by decide)) hW)
    | (with_reducible apply State_withMsg_fr)
    | (with_reducible apply State_modWrite_fr)
    | (with_reducible apply State_decCtr_fr)
    | (with_reducible apply State_distSend_fr)
    | (intro _)

theorem execCount_fr {wF : Nat} {zF : State} (die : Nat) (e : Envelope) (counts : List Nat) {s : State} (hF : Frame wF zF s) (hW : Sub 0x28a197fbe3e13cff wF) :
    FrameO wF zF (execCount die e counts s) := by
  unfold execCount
  repeat' first
    | (with_reducible assumption)
    | (with_reducible exact hW)
    | (with_reducible exact Sub.trans (Sub.mk (by decide)) hW)
    | (with_reducible apply State_onArrival_fr)
    | (with_reducible apply State_takeCount_fr)
    | (with_reducible refine FrameO.next ?_)
    | (intro _)

theorem execGrant_fr {wF : Nat} {zF : State} (die : Nat) (e : Envelope) (round : Nat) (grants : List (Nat × Nat)) {s : State} (hF : Frame wF zF s) (hW : Sub 0x28a197fbe2e13cff wF) :
    FrameO wF zF (execGrant die e round grants s) := by
  unfold execGrant
  repeat' first
    | (with_reducible assumption)
    | (with_reducible exact hW)
    | (with_reducible exact Sub.trans (Sub.mk (by decide)) hW)
    | (with_reducible apply State_onArrival_fr)
    | (with_reducible apply State_takeGrant_fr)
    | (with_reducible refine FrameO.next ?_)
    | (intro _)

theorem execRow_fr {wF : Nat} {zF : State} (die : Nat) (e : Envelope) (slotNo : Nat) (bytes : List Byte) {s : State} (hF : Frame wF zF s) (hW : Sub 0x28a197fbe2e13cff wF) :
    FrameO wF zF (execRow die e slotNo bytes s) := by
  unfold execRow
  repeat' first
    | (with_reducible assumption)
    | (with_reducible exact hW)
    | (with_reducible exact Sub.trans (Sub.mk (by decide)) hW)
    | (with_reducible apply State_onArrival_fr)
    | (with_reducible apply State_takeRow_fr)
    | (with_reducible refine FrameO.next ?_)
    | (intro _)

theorem execReturnMsg_fr {wF : Nat} {zF : State} (die : Nat) (e : Envelope) (addr : Nat) (ctr : Nat) (bytes : List Byte) {s : State} (hF : Frame wF zF s) (hW : Sub 0x28a197fbe2e13cff wF) :
    FrameO wF zF (execReturnMsg die e addr ctr bytes s) := by
  unfold execReturnMsg
  repeat' first
    | (with_reducible assumption)
    | (with_reducible exact hW)
    | (with_reducible exact Sub.trans (Sub.mk (by decide)) hW)
    | (with_reducible apply State_onArrival_fr)
    | (with_reducible apply State_takeReturn_fr)
    | (with_reducible refine FrameO.next ?_)
    | (intro _)

theorem execRecord_fr {wF : Nat} {zF : State} (die : Nat) (e : Envelope) (mergeEntry : Nat) (part : Nat) (bytes : List Byte) {s : State} (hF : Frame wF zF s) (hW : Sub 0x28a197fbe2e13cff wF) :
    FrameO wF zF (execRecord die e mergeEntry part bytes s) := by
  unfold execRecord
  repeat' first
    | (with_reducible assumption)
    | (with_reducible exact hW)
    | (with_reducible exact Sub.trans (Sub.mk (by decide)) hW)
    | (with_reducible apply State_onArrival_fr)
    | (with_reducible apply State_takeRecord_fr)
    | (with_reducible refine FrameO.next ?_)
    | (intro _)

theorem execQrow_fr {wF : Nat} {zF : State} (die : Nat) (e : Envelope) (addr : Nat) (ctr : Nat) (bytes : List Byte) {s : State} (hF : Frame wF zF s) (hW : Sub 0x28a197fbe2e13cff wF) :
    FrameO wF zF (execQrow die e addr ctr bytes s) := by
  unfold execQrow
  repeat' first
    | (with_reducible assumption)
    | (with_reducible exact hW)
    | (with_reducible exact Sub.trans (Sub.mk (by decide)) hW)
    | (with_reducible apply State_onArrival_fr)
    | (with_reducible apply State_takeRows_fr)
    | (with_reducible refine FrameO.next ?_)
    | (intro _)

theorem execKvrow_fr {wF : Nat} {zF : State} (die : Nat) (e : Envelope) (addr : Nat) (ctr : Nat) (bytes : List Byte) {s : State} (hF : Frame wF zF s) (hW : Sub 0x28a197fbe2e13cff wF) :
    FrameO wF zF (execKvrow die e addr ctr bytes s) := by
  unfold execKvrow
  repeat' first
    | (with_reducible assumption)
    | (with_reducible exact hW)
    | (with_reducible exact Sub.trans (Sub.mk (by decide)) hW)
    | (with_reducible apply State_onArrival_fr)
    | (with_reducible apply State_takeRows_fr)
    | (with_reducible refine FrameO.next ?_)
    | (intro _)

theorem execNextRound_fr {wF : Nat} {zF : State} (die : Nat) (slot : Nat) (layer : Nat) {s : State} (hF : Frame wF zF s) (hW : Sub 0x2000140101210000 wF) :
    FrameO wF zF (execNextRound die slot layer s) := by
  unfold execNextRound
  repeat' first
    | (with_reducible assumption)
    | (with_reducible exact hW)
    | (with_reducible exact Sub.trans (Sub.mk (by decide)) hW)
    | (with_reducible apply State_grantRound_fr)
    | (with_reducible refine FrameO.next ?_)
    | (with_reducible (apply Frame.of_pair; assumption))
    | (with_reducible (apply Frame.of_pair'; assumption))
    | (intro _)
    | split

end Sys2Proof.Machine
end

