-- ==== Sys2Proof/Laws/FrameProgram.lean ====
section
/-! SUPPORT. What each operation of Machine/Program.lean may change. -/

set_option linter.all false

namespace Sys2Proof.Machine

open Sys2Proof

theorem State_nextRec_fr {wF : Nat} {zF : State} {s : State} (k : Nat) (slot : Nat) (hF : Frame wF zF s) (hW : Sub 0x40000000000 wF) :
    Frame wF zF (State.nextRec s k slot) := by
  unfold State.nextRec
  repeat' first
    | (with_reducible assumption)
    | (with_reducible exact hW)
    | (with_reducible exact Sub.trans (Sub.mk (by decide)) hW)
    | (with_reducible apply State_modAgent_fr)
    | (intro _)

theorem State_ensureAgents_fr {wF : Nat} {zF : State} {s : State} (slot : Nat) (hF : Frame wF zF s) (hW : Sub 0x28a187fbe2e13cff wF) :
    Frame wF zF (State.ensureAgents s slot) := by
  unfold State.ensureAgents
  repeat' first
    | (with_reducible assumption)
    | (with_reducible exact hW)
    | (with_reducible exact Sub.trans (Sub.mk (by decide)) hW)
    | (with_reducible apply State_openAgents_fr)
    | (with_reducible (apply Frame.of_pair; assumption))
    | (with_reducible (apply Frame.of_pair'; assumption))
    | (intro _)
    | split

theorem State_progRec_fr {wF : Nat} {zF : State} {s0 : State} (k : Nat) (slot : Nat) (kind : Nat) (uses : List (Nat × Nat)) (f : Step → Agent → List Byte → State → State) (hF : Frame wF zF s0) (hW : Sub 0x28a187fbe2e13cff wF) (hHf : ∀ v0 v1 v2 v3, Frame wF zF v3 → Frame wF zF (f v0 v1 v2 v3)) :
    Frame wF zF (State.progRec s0 k slot kind uses f) := by
  unfold State.progRec
  repeat' first
    | (with_reducible assumption)
    | (with_reducible exact hW)
    | (with_reducible exact Sub.trans (Sub.mk (by decide)) hW)
    | (with_reducible apply State_ensureAgents_fr)
    | (with_reducible apply State_failSlot_fr)
    | (with_reducible apply hHf)
    | (with_reducible (apply Frame.of_pair; assumption))
    | (with_reducible (apply Frame.of_pair'; assumption))
    | (intro x; refine Frame.cut (w := wF) (z := zF) (x := x) ?_ ?_ <;> [subst x; (intro _; clear_value x)])
    | (intro x; clear_value x)
    | (intro _)
    | lift_lets
    | split

theorem State_atSwap_fr {wF : Nat} {zF : State} {s : State} (t : Step) (layer : Nat) (hF : Frame wF zF s) (hW : Sub 0x2000000100000000 wF) :
    Frame wF zF (State.atSwap s t layer) := by
  unfold State.atSwap
  repeat' first
    | (with_reducible assumption)
    | (with_reducible exact hW)
    | (with_reducible exact Sub.trans (Sub.mk (by decide)) hW)
    | (with_reducible apply State_modStep_fr)
    | (with_reducible apply State_arriveSwap_fr)
    | (with_reducible (apply Frame.of_pair; assumption))
    | (with_reducible (apply Frame.of_pair'; assumption))
    | (intro x; refine Frame.cut (w := wF) (z := zF) (x := x) ?_ ?_ <;> [subst x; (intro _; clear_value x)])
    | (intro x; clear_value x)
    | (intro _)
    | lift_lets
    | split

theorem State_appendRec_fr {wF : Nat} {zF : State} {s : State} (t : Step) (k : Nat) (a : Agent) (b : List Byte) (first : Bool) (hF : Frame wF zF s) (hW : Sub 0x2000040101210000 wF) :
    Frame wF zF (State.appendRec s t k a b first) := by
  unfold State.appendRec
  repeat' first
    | (with_reducible assumption)
    | (with_reducible exact hW)
    | (with_reducible exact Sub.trans (Sub.mk (by decide)) hW)
    | (with_reducible apply State_failSlot_fr)
    | (with_reducible apply State_atSwap_fr)
    | (with_reducible apply State_appendTile_fr)
    | (with_reducible apply State_nextRec_fr)
    | (with_reducible apply State_modAgent_fr)
    | (with_reducible apply State_modDie_fr)
    | (with_reducible apply State_raise_fr)
    | (intro x; refine Frame.cut (w := wF) (z := zF) (x := x) ?_ ?_ <;> [subst x; (intro _; clear_value x)])
    | (intro x; clear_value x)
    | (intro _)
    | lift_lets
    | split

theorem execProgTile_fr {wF : Nat} {zF : State} (die : Nat) (slot : Nat) {s : State} (hF : Frame wF zF s) (hW : Sub 0x28a187fbe3e13cff wF) :
    FrameO wF zF (execProgTile die slot s) := by
  unfold execProgTile
  repeat' first
    | (with_reducible assumption)
    | (with_reducible exact hW)
    | (with_reducible exact Sub.trans (Sub.mk (by decide)) hW)
    | (with_reducible apply State_progRec_fr)
    | (with_reducible apply State_appendRec_fr)
    | (with_reducible refine FrameO.next ?_)
    | (intro _)

theorem State_resumeTiles_fr {wF : Nat} {zF : State} {s : State} (t : Step) (k : Nat) (layer : Nat) (x0 : List Tile) (hF : Frame wF zF s) (hW : Sub 0x40101200000 wF) :
    Frame wF zF (State.resumeTiles s t k layer x0) := by
  induction x0 generalizing s t k layer with
  | nil =>
    unfold State.resumeTiles
    repeat' first
      | (with_reducible assumption)
      | (with_reducible exact hW)
      | (with_reducible exact Sub.trans (Sub.mk (by decide)) hW)
      | (with_reducible apply State_appendTile_fr)
      | (with_reducible apply State_modCtx_fr)
      | (intro _)
      | split
  | cons a l ih =>
    unfold State.resumeTiles
    repeat' first
      | (with_reducible assumption)
      | (with_reducible exact hW)
      | (with_reducible exact Sub.trans (Sub.mk (by decide)) hW)
      | (with_reducible apply ih)
      | (with_reducible apply State_appendTile_fr)
      | (with_reducible apply State_modCtx_fr)
      | (intro _)
      | split

theorem State_resumeLater_fr {wF : Nat} {zF : State} {s : State} (k : Nat) (slot : Nat) (hF : Frame wF zF s) (hW : Sub 0x2000040101210000 wF) :
    Frame wF zF (State.resumeLater s k slot) := by
  unfold State.resumeLater
  repeat' first
    | (with_reducible assumption)
    | (with_reducible exact hW)
    | (with_reducible exact Sub.trans (Sub.mk (by decide)) hW)
    | (with_reducible apply State_startBlocks_fr)
    | (with_reducible apply State_resumeTiles_fr)
    | (with_reducible refine Frame.foldl (fun _ _ _ => ?_) _ ?_)
    | (with_reducible refine Frame.foldl1 (fun _ _ _ => ?_) _ ?_)
    | (with_reducible refine Frame.foldl2 (fun _ _ _ => ?_) _ ?_)
    | (with_reducible (apply Frame.of_pair; assumption))
    | (with_reducible (apply Frame.of_pair'; assumption))
    | (intro x; refine Frame.cut (w := wF) (z := zF) (x := x) ?_ ?_ <;> [subst x; (intro _; clear_value x)])
    | (intro x; clear_value x)
    | (intro _)
    | lift_lets
    | split

theorem execAppendStallResume_fr {wF : Nat} {zF : State} (die : Nat) (slot : Nat) {s : State} (hF : Frame wF zF s) (hW : Sub 0x2000040101210000 wF) :
    FrameO wF zF (execAppendStallResume die slot s) := by
  unfold execAppendStallResume
  repeat' first
    | (with_reducible assumption)
    | (with_reducible exact hW)
    | (with_reducible exact Sub.trans (Sub.mk (by decide)) hW)
    | (with_reducible apply State_resumeLater_fr)
    | (with_reducible apply State_appendRec_fr)
    | (with_reducible refine FrameO.next ?_)
    | (with_reducible (apply Frame.of_pair; assumption))
    | (with_reducible (apply Frame.of_pair'; assumption))
    | (intro x; refine Frame.cut (w := wF) (z := zF) (x := x) ?_ ?_ <;> [subst x; (intro _; clear_value x)])
    | (intro x; clear_value x)
    | (intro _)
    | lift_lets
    | split

theorem execProgCounter_fr {wF : Nat} {zF : State} (die : Nat) (slot : Nat) {s : State} (hF : Frame wF zF s) (hW : Sub 0x28a187fbe2e13cff wF) :
    FrameO wF zF (execProgCounter die slot s) := by
  unfold execProgCounter
  repeat' first
    | (with_reducible assumption)
    | (with_reducible exact hW)
    | (with_reducible exact Sub.trans (Sub.mk (by decide)) hW)
    | (with_reducible apply State_progRec_fr)
    | (with_reducible apply State_failSlot_fr)
    | (with_reducible apply State_setCtr_fr)
    | (with_reducible apply State_nextRec_fr)
    | (with_reducible refine FrameO.next ?_)
    | (intro _)
    | split

theorem execProgPoolmask_fr {wF : Nat} {zF : State} (die : Nat) (slot : Nat) {s : State} (hF : Frame wF zF s) (hW : Sub 0x28a187fbe2e13cff wF) :
    FrameO wF zF (execProgPoolmask die slot s) := by
  unfold execProgPoolmask
  repeat' first
    | (with_reducible assumption)
    | (with_reducible exact hW)
    | (with_reducible exact Sub.trans (Sub.mk (by decide)) hW)
    | (with_reducible apply State_progRec_fr)
    | (with_reducible apply State_failSlot_fr)
    | (with_reducible apply State_modDie_fr)
    | (with_reducible apply State_nextRec_fr)
    | (with_reducible refine FrameO.next ?_)
    | (intro x; refine Frame.cut (w := wF) (z := zF) (x := x) ?_ ?_ <;> [subst x; (intro _; clear_value x)])
    | (intro x; clear_value x)
    | (intro _)
    | lift_lets
    | split

theorem execProgReduce_fr {wF : Nat} {zF : State} (die : Nat) (slot : Nat) {s : State} (hF : Frame wF zF s) (hW : Sub 0x28a187fbe2e13cff wF) :
    FrameO wF zF (execProgReduce die slot s) := by
  unfold execProgReduce
  repeat' first
    | (with_reducible assumption)
    | (with_reducible exact hW)
    | (with_reducible exact Sub.trans (Sub.mk (by decide)) hW)
    | (with_reducible apply State_progRec_fr)
    | (with_reducible apply State_failSlot_fr)
    | (with_reducible apply State_modWrite_fr)
    | (with_reducible apply State_modDie_fr)
    | (with_reducible apply State_nextRec_fr)
    | (with_reducible refine FrameO.next ?_)
    | (intro x; refine Frame.cut (w := wF) (z := zF) (x := x) ?_ ?_ <;> [subst x; (intro _; clear_value x)])
    | (intro x; clear_value x)
    | (intro _)
    | lift_lets
    | split

theorem execProgMerge_fr {wF : Nat} {zF : State} (die : Nat) (slot : Nat) {s : State} (hF : Frame wF zF s) (hW : Sub 0x28a187fbe2e13cff wF) :
    FrameO wF zF (execProgMerge die slot s) := by
  unfold execProgMerge
  repeat' first
    | (with_reducible assumption)
    | (with_reducible exact hW)
    | (with_reducible exact Sub.trans (Sub.mk (by decide)) hW)
    | (with_reducible apply State_progRec_fr)
    | (with_reducible apply State_failSlot_fr)
    | (with_reducible apply State_modDie_fr)
    | (with_reducible apply State_setCtr_fr)
    | (with_reducible apply State_nextRec_fr)
    | (with_reducible refine FrameO.next ?_)
    | (intro x; refine Frame.cut (w := wF) (z := zF) (x := x) ?_ ?_ <;> [subst x; (intro _; clear_value x)])
    | (intro x; clear_value x)
    | (intro _)
    | lift_lets
    | split

theorem State_barrierReached_fr {wF : Nat} {zF : State} {s : State} (t : Step) (barrier : Nat) (hF : Frame wF zF s) (hW : Sub 0x2000000100000000 wF) :
    Frame wF zF (State.barrierReached s t barrier) := by
  unfold State.barrierReached
  repeat' first
    | (with_reducible assumption)
    | (with_reducible exact hW)
    | (with_reducible exact Sub.trans (Sub.mk (by decide)) hW)
    | (with_reducible apply State_modStep_fr)
    | (with_reducible apply State_toMaster_fr)
    | (intro x; refine Frame.cut (w := wF) (z := zF) (x := x) ?_ ?_ <;> [subst x; (intro _; clear_value x)])
    | (intro x; clear_value x)
    | (intro _)
    | lift_lets
    | split

theorem execProgBarrier_fr {wF : Nat} {zF : State} (die : Nat) (slot : Nat) {s : State} (hF : Frame wF zF s) (hW : Sub 0x28a187fbe2e13cff wF) :
    FrameO wF zF (execProgBarrier die slot s) := by
  unfold execProgBarrier
  repeat' first
    | (with_reducible assumption)
    | (with_reducible exact hW)
    | (with_reducible exact Sub.trans (Sub.mk (by decide)) hW)
    | (with_reducible apply State_progRec_fr)
    | (with_reducible apply State_failSlot_fr)
    | (with_reducible apply State_modAgent_fr)
    | (with_reducible apply State_modStep_fr)
    | (with_reducible apply State_nextRec_fr)
    | (with_reducible apply State_barrierReached_fr)
    | (with_reducible refine FrameO.next ?_)
    | (intro x; refine Frame.cut (w := wF) (z := zF) (x := x) ?_ ?_ <;> [subst x; (intro _; clear_value x)])
    | (intro x; clear_value x)
    | (intro _)
    | lift_lets
    | split

theorem execProgSend_fr {wF : Nat} {zF : State} (die : Nat) (slot : Nat) {s : State} (hF : Frame wF zF s) (hW : Sub 0x28a187fbe2e13cff wF) :
    FrameO wF zF (execProgSend die slot s) := by
  unfold execProgSend
  repeat' first
    | (with_reducible assumption)
    | (with_reducible exact hW)
    | (with_reducible exact Sub.trans (Sub.mk (by decide)) hW)
    | (with_reducible apply State_progRec_fr)
    | (with_reducible apply State_failSlot_fr)
    | (with_reducible apply State_modAgent_fr)
    | (with_reducible apply State_nextRec_fr)
    | (with_reducible refine FrameO.next ?_)
    | (intro x; refine Frame.cut (w := wF) (z := zF) (x := x) ?_ ?_ <;> [subst x; (intro _; clear_value x)])
    | (intro x; clear_value x)
    | (intro _)
    | lift_lets
    | split

theorem execSendMessage_fr {wF : Nat} {zF : State} (die : Nat) (slot : Nat) (idx : Nat) {s : State} (hF : Frame wF zF s) (hW : Sub 0x2000140000000000 wF) :
    FrameO wF zF (execSendMessage die slot idx s) := by
  unfold execSendMessage
  repeat' first
    | (with_reducible assumption)
    | (with_reducible exact hW)
    | (with_reducible exact Sub.trans (Sub.mk (by decide)) hW)
    | (with_reducible apply State_modAgent_fr)
    | (with_reducible apply State_sendDist_fr)
    | (with_reducible refine FrameO.next ?_)
    | (with_reducible (apply Frame.of_pair; assumption))
    | (with_reducible (apply Frame.of_pair'; assumption))
    | (intro x; refine Frame.cut (w := wF) (z := zF) (x := x) ?_ ?_ <;> [subst x; (intro _; clear_value x)])
    | (intro x; clear_value x)
    | (intro _)
    | lift_lets
    | split

theorem State_setCombine_fr {wF : Nat} {zF : State} {s : State} (k : Nat) (a : Agent) (c : Ctx) (hF : Frame wF zF s) (hW : Sub 0x2000040100000000 wF) :
    Frame wF zF (State.setCombine s k a c) := by
  unfold State.setCombine
  repeat' first
    | (with_reducible assumption)
    | (with_reducible exact hW)
    | (with_reducible exact Sub.trans (Sub.mk (by decide)) hW)
    | (with_reducible apply State_setCtr_fr)
    | (with_reducible refine Frame.foldl (fun _ _ _ => ?_) _ ?_)
    | (with_reducible refine Frame.foldl1 (fun _ _ _ => ?_) _ ?_)
    | (with_reducible refine Frame.foldl2 (fun _ _ _ => ?_) _ ?_)
    | (intro _)

theorem State_takeEarly_fr {wF : Nat} {zF : State} {s : State} (t : Step) (k : Nat) (layer : Nat) (hF : Frame wF zF s) (hW : Sub 0x40000000000 wF) :
    Frame wF zF (State.takeEarly s t k layer) := by
  unfold State.takeEarly
  repeat' first
    | (with_reducible assumption)
    | (with_reducible exact hW)
    | (with_reducible exact Sub.trans (Sub.mk (by decide)) hW)
    | (with_reducible apply State_modDie_fr)
    | (with_reducible apply State_modCtx_fr)
    | (with_reducible refine Frame.foldl (fun _ _ _ => ?_) _ ?_)
    | (with_reducible refine Frame.foldl1 (fun _ _ _ => ?_) _ ?_)
    | (with_reducible refine Frame.foldl2 (fun _ _ _ => ?_) _ ?_)
    | (intro x; refine Frame.cut (w := wF) (z := zF) (x := x) ?_ ?_ <;> [subst x; (intro _; clear_value x)])
    | (intro x; clear_value x)
    | (intro _)
    | lift_lets

theorem State_openCtx_fr {wF : Nat} {zF : State} {s : State} (t : Step) (k : Nat) (a : Agent) (b : List Byte) (hF : Frame wF zF s) (hW : Sub 0x2000140101210000 wF) :
    Frame wF zF (State.openCtx s t k a b) := by
  unfold State.openCtx
  repeat' first
    | (with_reducible assumption)
    | (with_reducible exact hW)
    | (with_reducible exact Sub.trans (Sub.mk (by decide)) hW)
    | (with_reducible apply State_failSlot_fr)
    | (with_reducible apply State_modDie_fr)
    | (with_reducible apply State_setCombine_fr)
    | (with_reducible apply State_takeEarly_fr)
    | (with_reducible apply State_nextRec_fr)
    | (with_reducible apply State_countCheck_fr)
    | (with_reducible apply State_closeCtx_fr)
    | (intro x; refine Frame.cut (w := wF) (z := zF) (x := x) ?_ ?_ <;> [subst x; (intro _; clear_value x)])
    | (intro x; clear_value x)
    | (intro _)
    | lift_lets
    | split

theorem execProgMoeCtx_fr {wF : Nat} {zF : State} (die : Nat) (slot : Nat) {s : State} (hF : Frame wF zF s) (hW : Sub 0x28a197fbe3e13cff wF) :
    FrameO wF zF (execProgMoeCtx die slot s) := by
  unfold execProgMoeCtx
  repeat' first
    | (with_reducible assumption)
    | (with_reducible exact hW)
    | (with_reducible exact Sub.trans (Sub.mk (by decide)) hW)
    | (with_reducible apply State_progRec_fr)
    | (with_reducible apply State_modAgent_fr)
    | (with_reducible apply State_openCtx_fr)
    | (with_reducible refine FrameO.next ?_)
    | (intro _)
    | split

theorem execMoeCtxDeferredOpen_fr {wF : Nat} {zF : State} (die : Nat) (slot : Nat) {s : State} (hF : Frame wF zF s) (hW : Sub 0x2000140101210000 wF) :
    FrameO wF zF (execMoeCtxDeferredOpen die slot s) := by
  unfold execMoeCtxDeferredOpen
  repeat' first
    | (with_reducible assumption)
    | (with_reducible exact hW)
    | (with_reducible exact Sub.trans (Sub.mk (by decide)) hW)
    | (with_reducible apply State_openCtx_fr)
    | (with_reducible refine FrameO.next ?_)
    | (with_reducible (apply Frame.of_pair; assumption))
    | (with_reducible (apply Frame.of_pair'; assumption))
    | split

end Sys2Proof.Machine
end

