-- ==== Sys2Proof/Laws/FrameRoles.lean ====
section
/-! SUPPORT. What each operation of Machine/Roles.lean may change. -/

set_option linter.all false

namespace Sys2Proof.Machine

open Sys2Proof

theorem State_atomicAdd_fr {wF : Nat} {zF : State} {s : State} (a : Nat) (v : List W32) (hF : Frame wF zF s) (hW : Sub 0x4 wF) :
    Frame wF zF (State.atomicAdd s a v).1 := by
  unfold State.atomicAdd
  repeat' first
    | (with_reducible assumption)
    | (with_reducible exact hW)
    | (with_reducible exact Sub.trans (Sub.mk (by decide)) hW)
    | (with_reducible apply State_modWrite_fr)
    | (with_reducible refine Frame.foldl (fun _ _ _ => ?_) _ ?_)
    | (with_reducible refine Frame.foldl1 (fun _ _ _ => ?_) _ ?_)
    | (with_reducible refine Frame.foldl2 (fun _ _ _ => ?_) _ ?_)
    | (with_reducible (apply Frame.of_pair; assumption))
    | (with_reducible (apply Frame.of_pair'; assumption))
    | (intro x; refine Frame.cut (w := wF) (z := zF) (x := x) ?_ ?_ <;> [subst x; (intro _; clear_value x)])
    | (intro x; clear_value x)
    | (intro _)
    | lift_lets
    | split

theorem State_runVec_fr {wF : Nat} {zF : State} {s : State} (e : Tile) (hF : Frame wF zF s) (hW : Sub 0x4 wF) :
    Frame wF zF (State.runVec s e).1 := by
  unfold State.runVec
  repeat' first
    | (with_reducible assumption)
    | (with_reducible exact hW)
    | (with_reducible exact Sub.trans (Sub.mk (by decide)) hW)
    | (with_reducible apply State_modWrite_fr)
    | (with_reducible refine Frame.foldl (fun _ _ _ => ?_) _ ?_)
    | (with_reducible refine Frame.foldl1 (fun _ _ _ => ?_) _ ?_)
    | (with_reducible refine Frame.foldl2 (fun _ _ _ => ?_) _ ?_)
    | (with_reducible (apply Frame.of_pair; assumption))
    | (with_reducible (apply Frame.of_pair'; assumption))
    | (intro x; refine Frame.cut (w := wF) (z := zF) (x := x) ?_ ?_ <;> [subst x; (intro _; clear_value x)])
    | (intro x; clear_value x)
    | (intro _)
    | lift_lets
    | split

theorem State_runComb_fr {wF : Nat} {zF : State} {s : State} (k : Nat) (e : Tile) (hF : Frame wF zF s) (hW : Sub 0x4 wF) :
    Frame wF zF (State.runComb s k e).1 := by
  unfold State.runComb
  repeat' first
    | (with_reducible assumption)
    | (with_reducible exact hW)
    | (with_reducible exact Sub.trans (Sub.mk (by decide)) hW)
    | (with_reducible apply State_modWrite_fr)
    | (with_reducible refine Frame.foldl (fun _ _ _ => ?_) _ ?_)
    | (with_reducible refine Frame.foldl1 (fun _ _ _ => ?_) _ ?_)
    | (with_reducible refine Frame.foldl2 (fun _ _ _ => ?_) _ ?_)
    | (with_reducible (apply Frame.of_pair; assumption))
    | (with_reducible (apply Frame.of_pair'; assumption))
    | (intro x; refine Frame.cut (w := wF) (z := zF) (x := x) ?_ ?_ <;> [subst x; (intro _; clear_value x)])
    | (intro x; clear_value x)
    | (intro _)
    | lift_lets
    | split

theorem State_runKvw_fr {wF : Nat} {zF : State} {s : State} (t : Step) (e : Tile) (hF : Frame wF zF s) (hW : Sub 0x100000004 wF) :
    Frame wF zF (State.runKvw s t e).1 := by
  unfold State.runKvw
  repeat' first
    | (with_reducible assumption)
    | (with_reducible exact hW)
    | (with_reducible exact Sub.trans (Sub.mk (by decide)) hW)
    | (with_reducible apply State_kvWrite_fr)
    | (with_reducible (apply Frame.of_pair; assumption))
    | (with_reducible (apply Frame.of_pair'; assumption))
    | (intro x; refine Frame.cut (w := wF) (z := zF) (x := x) ?_ ?_ <;> [subst x; (intro _; clear_value x)])
    | (intro x; clear_value x)
    | (intro _)
    | lift_lets
    | split

theorem State_runAttn_fr {wF : Nat} {zF : State} {s : State} (t : Step) (k : Nat) (e : Tile) (hF : Frame wF zF s) (hW : Sub 0x4 wF) :
    Frame wF zF (State.runAttn s t k e).1 := by
  unfold State.runAttn
  extract_lets x
  split
  · exact hF
  · extract_lets d pages recs
    refine Frame.foldl1 (fun a r h => ?_) _ hF
    repeat' split
    all_goals exact State_modWrite_fr _ _ h (Sub.trans (Sub.mk (by decide)) hW)

theorem State_runSamp_fr {wF : Nat} {zF : State} {s : State} (t : Step) (k : Nat) (e : Tile) (hF : Frame wF zF s) (hW : Sub 0x2000000000000004 wF) :
    Frame wF zF (State.runSamp s t k e).1 := by
  unfold State.runSamp
  repeat' first
    | (with_reducible assumption)
    | (with_reducible exact hW)
    | (with_reducible exact Sub.trans (Sub.mk (by decide)) hW)
    | (with_reducible apply State_modWrite_fr)
    | (with_reducible apply State_emit_fr)
    | (with_reducible refine Frame.foldl (fun _ _ _ => ?_) _ ?_)
    | (with_reducible refine Frame.foldl1 (fun _ _ _ => ?_) _ ?_)
    | (with_reducible refine Frame.foldl2 (fun _ _ _ => ?_) _ ?_)
    | (with_reducible (apply Frame.of_pair; assumption))
    | (with_reducible (apply Frame.of_pair'; assumption))
    | (intro x; refine Frame.cut (w := wF) (z := zF) (x := x) ?_ ?_ <;> [subst x; (intro _; clear_value x)])
    | (intro x; clear_value x)
    | (intro _)
    | lift_lets
    | split

end Sys2Proof.Machine
end

