-- ==== Sys2Proof/Laws/FrameTileRows.lean ====
section
/-! SUPPORT. What each operation of Machine/TileRows.lean may change. -/

set_option linter.all false

namespace Sys2Proof.Machine

open Sys2Proof

theorem State_startReads_fr {wF : Nat} {zF : State} {s : State} (k : Nat) (e : Tile) (hF : Frame wF zF s) (hW : Sub 0x40000200000 wF) :
    Frame wF zF (State.startReads s k e) := by
  unfold State.startReads
  repeat' first
    | (with_reducible assumption)
    | (with_reducible exact hW)
    | (with_reducible exact Sub.trans (Sub.mk (by decide)) hW)
    | (with_reducible apply State_modDie_fr)
    | (with_reducible apply State_modObj_fr)
    | (with_reducible (apply Frame.of_pair; assumption))
    | (with_reducible (apply Frame.of_pair'; assumption))
    | (intro x; refine Frame.cut (w := wF) (z := zF) (x := x) ?_ ?_ <;> [subst x; (intro _; clear_value x)])
    | (intro x; clear_value x)
    | (intro _)
    | lift_lets
    | split

theorem State_answer_fr {wF : Nat} {zF : State} {s : State} (t : Step) (k : Nat) (e : Tile) (x0 : Chk) (hF : Frame wF zF s) (hW : Sub 0x28a187fbe2e13cff wF) :
    Frame wF zF (State.answer s t k e x0) := by
  unfold State.answer
  repeat' first
    | (with_reducible assumption)
    | (with_reducible exact hW)
    | (with_reducible exact Sub.trans (Sub.mk (by decide)) hW)
    | (with_reducible apply State_tileFailed_fr)
    | (with_reducible apply State_failStep_fr)
    | (with_reducible apply State_freeCore_fr)
    | (with_reducible apply State_toFailed_fr)
    | (with_reducible apply State_failSlot_fr)
    | (with_reducible apply State_stopJob_fr)
    | (intro x; refine Frame.cut (w := wF) (z := zF) (x := x) ?_ ?_ <;> [subst x; (intro _; clear_value x)])
    | (intro x; clear_value x)
    | (intro _)
    | lift_lets
    | split

theorem State_grantTile_fr {wF : Nat} {zF : State} {s : State} (k : Nat) (core : Nat) (e : Tile) (hF : Frame wF zF s) (hW : Sub 0x28a187fbe2e13cff wF) :
    Frame wF zF (State.grantTile s k core e) := by
  unfold State.grantTile
  repeat' first
    | (with_reducible assumption)
    | (with_reducible exact hW)
    | (with_reducible exact Sub.trans (Sub.mk (by decide)) hW)
    | (with_reducible apply State_grant_fr)
    | (with_reducible apply State_startReads_fr)
    | (with_reducible apply State_answer_fr)
    | (with_reducible (apply Frame.of_pair; assumption))
    | (with_reducible (apply Frame.of_pair'; assumption))
    | (intro x; refine Frame.cut (w := wF) (z := zF) (x := x) ?_ ?_ <;> [subst x; (intro _; clear_value x)])
    | (intro x; clear_value x)
    | (intro _)
    | lift_lets
    | split

theorem State_claim_fr {wF : Nat} {zF : State} {s : State} (k : Nat) (core : Nat) (hF : Frame wF zF s) (hW : Sub 0x28a187fbe2e13cff wF) :
    Frame wF zF (State.claim s k core) := by
  unfold State.claim
  repeat' first
    | (with_reducible assumption)
    | (with_reducible exact hW)
    | (with_reducible exact Sub.trans (Sub.mk (by decide)) hW)
    | (with_reducible apply State_grantTile_fr)
    | (with_reducible apply State_modDie_fr)
    | (with_reducible refine Frame.getD (fun _ _ => ?_) ?_)
    | (with_reducible (apply Frame.of_pair; assumption))
    | (with_reducible (apply Frame.of_pair'; assumption))
    | (intro x; refine Frame.cut (w := wF) (z := zF) (x := x) ?_ ?_ <;> [subst x; (intro _; clear_value x)])
    | (intro x; clear_value x)
    | (intro _)
    | lift_lets
    | split

theorem execTileClaim_fr {wF : Nat} {zF : State} (die : Nat) (core : Nat) {s : State} (hF : Frame wF zF s) (hW : Sub 0x28a187fbe2e13cff wF) :
    FrameO wF zF (execTileClaim die core s) := by
  unfold execTileClaim
  repeat' first
    | (with_reducible assumption)
    | (with_reducible exact hW)
    | (with_reducible exact Sub.trans (Sub.mk (by decide)) hW)
    | (with_reducible apply State_claim_fr)
    | (with_reducible refine FrameO.next ?_)

theorem execClaimGrant_fr {wF : Nat} {zF : State} (die : Nat) {s : State} (hF : Frame wF zF s) (hW : Sub 0x28a187fbe2e13cff wF) :
    FrameO wF zF (execClaimGrant die s) := by
  unfold execClaimGrant
  repeat' first
    | (with_reducible assumption)
    | (with_reducible exact hW)
    | (with_reducible exact Sub.trans (Sub.mk (by decide)) hW)
    | (with_reducible apply State_modDie_fr)
    | (with_reducible apply State_grantTile_fr)
    | (with_reducible refine FrameO.next ?_)
    | (with_reducible (apply Frame.of_pair; assumption))
    | (with_reducible (apply Frame.of_pair'; assumption))
    | (intro _)
    | split

theorem State_sendPart_fr {wF : Nat} {zF : State} {s : State} (t : Step) (k : Nat) (e : Tile) (hF : Frame wF zF s) (hW : Sub 0x2000100000000000 wF) :
    Frame wF zF (State.sendPart s t k e) := by
  unfold State.sendPart
  repeat' first
    | (with_reducible assumption)
    | (with_reducible exact hW)
    | (with_reducible exact Sub.trans (Sub.mk (by decide)) hW)
    | (with_reducible apply State_sendDist_fr)
    | (with_reducible (apply Frame.of_pair; assumption))
    | (with_reducible (apply Frame.of_pair'; assumption))
    | (intro x; refine Frame.cut (w := wF) (z := zF) (x := x) ?_ ?_ <;> [subst x; (intro _; clear_value x)])
    | (intro x; clear_value x)
    | (intro _)
    | lift_lets
    | split

theorem State_tileDone_fr {wF : Nat} {zF : State} {s : State} (t : Step) (k : Nat) (e : Tile) (flags : BitVec 5) (hF : Frame wF zF s) (hW : Sub 0x2000140101210005 wF) :
    Frame wF zF (State.tileDone s t k e flags) := by
  unfold State.tileDone
  repeat' first
    | (with_reducible assumption)
    | (with_reducible exact hW)
    | (with_reducible exact Sub.trans (Sub.mk (by decide)) hW)
    | (with_reducible apply State_freeCore_fr)
    | (with_reducible apply State_sendPart_fr)
    | (with_reducible apply State_modDie_fr)
    | (with_reducible apply State_completeEntry_fr)
    | (with_reducible apply State_recordIn_fr)
    | (with_reducible apply State_blockTile_fr)
    | (with_reducible apply State_distSend_fr)
    | (with_reducible (apply Frame.of_pair; assumption))
    | (with_reducible (apply Frame.of_pair'; assumption))
    | (intro x; refine Frame.cut (w := wF) (z := zF) (x := x) ?_ ?_ <;> [subst x; (intro _; clear_value x)])
    | (intro x; clear_value x)
    | (intro _)
    | lift_lets
    | split

theorem State_owe_fr {wF : Nat} {zF : State} {s : State} (k : Nat) (core : Nat) (engine : Nat) (cell : Nat) (entry : Nat) (hF : Frame wF zF s) (hW : Sub 0x100000000 wF) :
    Frame wF zF (State.owe s k core engine cell entry) := by
  unfold State.owe
  repeat' first
    | (with_reducible assumption)
    | (with_reducible exact hW)
    | (with_reducible exact Sub.trans (Sub.mk (by decide)) hW)
    | (with_reducible apply State_modStepAt_fr)
    | (with_reducible (apply Frame.of_pair; assumption))
    | (with_reducible (apply Frame.of_pair'; assumption))
    | (intro _)
    | split

theorem State_oweTile_fr {wF : Nat} {zF : State} {s : State} (k : Nat) (e : Tile) (hF : Frame wF zF s) (hW : Sub 0x100000000 wF) :
    Frame wF zF (State.oweTile s k e) := by
  unfold State.oweTile
  repeat' first
    | (with_reducible assumption)
    | (with_reducible exact hW)
    | (with_reducible exact Sub.trans (Sub.mk (by decide)) hW)
    | (with_reducible apply State_owe_fr)
    | (with_reducible refine Frame.foldl (fun _ _ _ => ?_) _ ?_)
    | (with_reducible refine Frame.foldl1 (fun _ _ _ => ?_) _ ?_)
    | (with_reducible refine Frame.foldl2 (fun _ _ _ => ?_) _ ?_)
    | (with_reducible (apply Frame.of_pair; assumption))
    | (with_reducible (apply Frame.of_pair'; assumption))
    | (intro x; refine Frame.cut (w := wF) (z := zF) (x := x) ?_ ?_ <;> [subst x; (intro _; clear_value x)])
    | (intro x; refine Frame.cutS1 (w := wF) (z := zF) (x := x) ?_ ?_ <;> [(subst x; intro _ _; try beta_reduce); (intro _; clear_value x)])
    | (intro x; refine Frame.cutS2 (w := wF) (z := zF) (x := x) ?_ ?_ <;> [(subst x; intro _ _ _; try beta_reduce); (intro _; clear_value x)])
    | (intro x; refine Frame.cutF1 (w := wF) (z := zF) (x := x) ?_ ?_ <;> [(subst x; intro _; try beta_reduce); (intro _; clear_value x)])
    | (intro x; refine Frame.cutF2 (w := wF) (z := zF) (x := x) ?_ ?_ <;> [(subst x; intro _ _; try beta_reduce); (intro _; clear_value x)])
    | (intro x; clear_value x)
    | (intro _)
    | (with_reducible apply_assumption)
    | lift_lets
    | split

theorem State_runMat_fr {wF : Nat} {zF : State} {s : State} (k : Nat) (e : Tile) (hF : Frame wF zF s) (hW : Sub 0x4 wF) {y : State × Fl}
    (h : State.runMat s k e = some y) : Frame wF zF y.1 := by
  unfold State.runMat at h
  extract_lets x at h
  split at h
  · obtain ⟨⟨l, xs⟩, _, rfl⟩ := Option.map_eq_some_iff.mp h
    refine Frame.foldl1 (fun a r h => ?_) _ hF
    dsimp only
    split
    · split
      · exact h
      · exact State_atomicAdd_fr _ _ h (Sub.trans (Sub.mk (by decide)) hW)
    · exact State_modWrite_fr _ _ h (Sub.trans (Sub.mk (by decide)) hW)
  · cases h
    exact hF

theorem State_runGate_fr {wF : Nat} {zF : State} {s : State} (k : Nat) (e : Tile) (hF : Frame wF zF s) (hW : Sub 0x40000000004 wF) {y : State × Fl}
    (h : State.runGate s k e = some y) : Frame wF zF y.1 := by
  unfold State.runGate at h
  extract_lets x at h
  split at h
  · obtain ⟨⟨l, xs⟩, _, rfl⟩ := Option.map_eq_some_iff.mp h
    exact Frame.foldl1 (fun a r h => Frame.foldl (fun s p k => State_modCtx_fr _ _ _ _ (State_modWrite_fr _ _ k (Sub.trans (Sub.mk (by decide)) hW)) (Sub.trans (Sub.mk (by decide)) hW)) _ h) _ hF
  · cases h
    exact hF

theorem State_roleRun_fr {wF : Nat} {zF : State} {s : State} (t : Step) (k : Nat) (e : Tile) (hF : Frame wF zF s) (hW : Sub 0x2000040100000004 wF) {y : State × Fl}
    (h : State.roleRun s t k e = some y) : Frame wF zF y.1 := by
  unfold State.roleRun at h
  split at h
  · exact State_runMat_fr _ _ hF (Sub.trans (Sub.mk (by decide)) hW) h
  · cases h
    exact State_runAttn_fr _ _ _ hF (Sub.trans (Sub.mk (by decide)) hW)
  · exact State_runGate_fr _ _ hF (Sub.trans (Sub.mk (by decide)) hW) h
  · cases h
    exact State_runVec_fr _ hF (Sub.trans (Sub.mk (by decide)) hW)
  · cases h
    exact State_runSamp_fr _ _ _ hF (Sub.trans (Sub.mk (by decide)) hW)
  · cases h
    exact State_runComb_fr _ _ hF (Sub.trans (Sub.mk (by decide)) hW)
  · cases h
    exact State_runKvw_fr _ _ hF (Sub.trans (Sub.mk (by decide)) hW)
  · cases h
    exact hF

theorem State_complete_fr {wF : Nat} {zF : State} {s : State} (k : Nat) (core : Nat) (i : Nat) (tileSeq : Nat) (attempt : Nat) (flags : BitVec 5) (hF : Frame wF zF s) (hW : Sub 0x28a197fbe3e13cff wF) :
    Frame wF zF (State.complete s k core i tileSeq attempt flags) := by
  unfold State.complete
  split
  · exact State_staleTile_fr _ hF (Sub.trans (Sub.mk (by decide)) hW)
  · split
    · exact State_staleTile_fr _ hF (Sub.trans (Sub.mk (by decide)) hW)
    · extract_lets c fl
      refine Frame.ite hF (Frame.ite (State_killChecks_fr (State_completeEntry_fr _ _ _ (State_freeCore_fr _ _ _ hF (Sub.trans (Sub.mk (by decide)) hW)) (Sub.trans (Sub.mk (by decide)) hW)) (Sub.trans (Sub.mk (by decide)) hW)) ?_)
      split
      · exact hF
      · split
        · exact State_tileFailed_fr _ _ _ (State_raise_fr _ _ (State_modDie_fr _ _ hF (Sub.trans (Sub.mk (by decide)) hW)) (Sub.trans (Sub.mk (by decide)) hW)) (Sub.trans (Sub.mk (by decide)) hW)
        · rename_i e
          exact State_tileDone_fr _ _ _ _ (State_oweTile_fr _ _ (State_roleRun_fr _ _ _ hF (Sub.trans (Sub.mk (by decide)) hW) e) (Sub.trans (Sub.mk (by decide)) hW)) (Sub.trans (Sub.mk (by decide)) hW)
      · exact State_answer_fr _ _ _ _ hF (Sub.trans (Sub.mk (by decide)) hW)

theorem execTileComplete_fr {wF : Nat} {zF : State} (die : Nat) (core : Nat) (entry : Nat) (tileSeq : Nat) (attempt : Nat) (flags : BitVec 5) {s : State} (hF : Frame wF zF s) (hW : Sub 0x28a197fbe3e13cff wF) :
    FrameO wF zF (execTileComplete die core entry tileSeq attempt flags s) := by
  unfold execTileComplete
  repeat' first
    | (with_reducible assumption)
    | (with_reducible exact hW)
    | (with_reducible exact Sub.trans (Sub.mk (by decide)) hW)
    | (with_reducible apply State_complete_fr)
    | (with_reducible refine FrameO.next ?_)

theorem execNopTileComplete_fr {wF : Nat} {zF : State} (die : Nat) (entry : Nat) {s : State} (hF : Frame wF zF s) (hW : Sub 0x2000140100000000 wF) :
    FrameO wF zF (execNopTileComplete die entry s) := by
  unfold execNopTileComplete
  repeat' first
    | (with_reducible assumption)
    | (with_reducible exact hW)
    | (with_reducible exact Sub.trans (Sub.mk (by decide)) hW)
    | (with_reducible apply State_completeEntry_fr)
    | (with_reducible apply State_distSend_fr)
    | (with_reducible refine FrameO.next ?_)
    | (with_reducible refine Frame.getD (fun _ _ => ?_) ?_)
    | (with_reducible (apply Frame.of_pair; assumption))
    | (with_reducible (apply Frame.of_pair'; assumption))
    | split

theorem State_abandon_fr {wF : Nat} {zF : State} {s : State} (k : Nat) (core : Nat) (i : Nat) (hF : Frame wF zF s) (hW : Sub 0x202185fbe2e13cff wF) :
    Frame wF zF (State.abandon s k core i) := by
  unfold State.abandon
  repeat' first
    | (with_reducible assumption)
    | (with_reducible exact hW)
    | (with_reducible exact Sub.trans (Sub.mk (by decide)) hW)
    | (with_reducible apply State_freeCore_fr)
    | (with_reducible apply State_modDie_fr)
    | (with_reducible apply State_killChecks_fr)
    | (intro _)

theorem State_reclaim_fr {wF : Nat} {zF : State} {s : State} (k : Nat) (e : Tile) (status : Nat) (hF : Frame wF zF s) (hW : Sub 0x202185fbe2e13cff wF) :
    Frame wF zF (State.reclaim s k e status) := by
  unfold State.reclaim
  repeat' first
    | (with_reducible assumption)
    | (with_reducible exact hW)
    | (with_reducible exact Sub.trans (Sub.mk (by decide)) hW)
    | (with_reducible apply State_abandon_fr)
    | (with_reducible apply State_freeCore_fr)
    | (with_reducible apply State_backToReady_fr)
    | (with_reducible refine Frame.getD (fun _ _ => ?_) ?_)
    | (intro x; refine Frame.cut (w := wF) (z := zF) (x := x) ?_ ?_ <;> [subst x; (intro _; clear_value x)])
    | (intro x; clear_value x)
    | (intro _)
    | lift_lets
    | split

theorem State_loseCore_fr {wF : Nat} {zF : State} {s : State} (k : Nat) (core : Nat) (cause : Nat) (status : Nat) (hF : Frame wF zF s) (hW : Sub 0x21a185fbe2e13cff wF) :
    Frame wF zF (State.loseCore s k core cause status) := by
  unfold State.loseCore
  repeat' first
    | (with_reducible assumption)
    | (with_reducible exact hW)
    | (with_reducible exact Sub.trans (Sub.mk (by decide)) hW)
    | (with_reducible apply State_modDie_fr)
    | (with_reducible apply State_reclaim_fr)
    | (with_reducible apply State_quarantine_fr)
    | (with_reducible refine Frame.foldl (fun _ _ _ => ?_) _ ?_)
    | (with_reducible refine Frame.foldl1 (fun _ _ _ => ?_) _ ?_)
    | (with_reducible refine Frame.foldl2 (fun _ _ _ => ?_) _ ?_)
    | (with_reducible refine Frame.getD (fun _ _ => ?_) ?_)
    | (intro x; refine Frame.cut (w := wF) (z := zF) (x := x) ?_ ?_ <;> [subst x; (intro _; clear_value x)])
    | (intro x; clear_value x)
    | (intro _)
    | lift_lets
    | split

theorem State_takeFail_fr {wF : Nat} {zF : State} {s : State} (k : Nat) (core : Nat) (i : Nat) (tileSeq : Nat) (status : Nat) (wrote : Bool) (hF : Frame wF zF s) (hW : Sub 0x202185fbe2e13cff wF) :
    Frame wF zF (State.takeFail s k core i tileSeq status wrote) := by
  unfold State.takeFail
  repeat' first
    | (with_reducible assumption)
    | (with_reducible exact hW)
    | (with_reducible exact Sub.trans (Sub.mk (by decide)) hW)
    | (with_reducible apply State_staleTile_fr)
    | (with_reducible apply State_abandon_fr)
    | (with_reducible apply State_modDie_fr)
    | (with_reducible apply State_raiseIf_fr)
    | (with_reducible apply State_tileFailed_fr)
    | (with_reducible refine Frame.getD (fun _ _ => ?_) ?_)
    | (with_reducible (apply Frame.of_pair; assumption))
    | (with_reducible (apply Frame.of_pair'; assumption))
    | (intro x; refine Frame.cut (w := wF) (z := zF) (x := x) ?_ ?_ <;> [subst x; (intro _; clear_value x)])
    | (intro x; clear_value x)
    | (intro _)
    | lift_lets
    | split

theorem execTileFail_fr {wF : Nat} {zF : State} (die : Nat) (core : Nat) (entry : Nat) (tileSeq : Nat) (status : Nat) (wrote : Bool) {s : State} (hF : Frame wF zF s) (hW : Sub 0x202185fbe2e13cff wF) :
    FrameO wF zF (execTileFail die core entry tileSeq status wrote s) := by
  unfold execTileFail
  repeat' first
    | (with_reducible assumption)
    | (with_reducible exact hW)
    | (with_reducible exact Sub.trans (Sub.mk (by decide)) hW)
    | (with_reducible apply State_takeFail_fr)
    | (with_reducible refine FrameO.next ?_)

theorem State_decideFailed_fr {wF : Nat} {zF : State} {s : State} (k : Nat) (i : Nat) (hF : Frame wF zF s) (hW : Sub 0x2000040100000000 wF) :
    Frame wF zF (State.decideFailed s k i) := by
  unfold State.decideFailed
  repeat' first
    | (with_reducible assumption)
    | (with_reducible exact hW)
    | (with_reducible exact Sub.trans (Sub.mk (by decide)) hW)
    | (with_reducible apply State_failSlot_fr)
    | (with_reducible apply State_backToReady_fr)
    | (with_reducible (apply Frame.of_pair; assumption))
    | (with_reducible (apply Frame.of_pair'; assumption))
    | split

theorem execFailedTileDecide_fr {wF : Nat} {zF : State} (die : Nat) (entry : Nat) {s : State} (hF : Frame wF zF s) (hW : Sub 0x2000040100000000 wF) :
    FrameO wF zF (execFailedTileDecide die entry s) := by
  unfold execFailedTileDecide
  repeat' first
    | (with_reducible assumption)
    | (with_reducible exact hW)
    | (with_reducible exact Sub.trans (Sub.mk (by decide)) hW)
    | (with_reducible apply State_decideFailed_fr)
    | (with_reducible refine FrameO.next ?_)

theorem execReduceGroupReset_fr {wF : Nat} {zF : State} (die : Nat) (group : Nat) {s : State} (hF : Frame wF zF s) (hW : Sub 0x2000040100000004 wF) :
    FrameO wF zF (execReduceGroupReset die group s) := by
  unfold execReduceGroupReset
  repeat' first
    | (with_reducible assumption)
    | (with_reducible exact hW)
    | (with_reducible exact Sub.trans (Sub.mk (by decide)) hW)
    | (with_reducible apply State_resetGroup_fr)
    | (with_reducible refine FrameO.next ?_)

theorem execAbandonConfirm_fr {wF : Nat} {zF : State} (die : Nat) (core : Nat) (entry : Nat) {s : State} (hF : Frame wF zF s) (hW : Sub 0x202185fbe2e13cff wF) :
    FrameO wF zF (execAbandonConfirm die core entry s) := by
  unfold execAbandonConfirm
  repeat' first
    | (with_reducible assumption)
    | (with_reducible exact hW)
    | (with_reducible exact Sub.trans (Sub.mk (by decide)) hW)
    | (with_reducible apply State_abandon_fr)
    | (with_reducible refine FrameO.next ?_)
    | (with_reducible refine Frame.getD (fun _ _ => ?_) ?_)
    | (with_reducible (apply Frame.of_pair; assumption))
    | (with_reducible (apply Frame.of_pair'; assumption))
    | split

theorem execHeartbeat_fr {wF : Nat} {zF : State} (die : Nat) (core : Nat) {s : State} (hF : Frame wF zF s) (hW : Sub 0x40000000000 wF) :
    FrameO wF zF (execHeartbeat die core s) := by
  unfold execHeartbeat
  repeat' first
    | (with_reducible assumption)
    | (with_reducible exact hW)
    | (with_reducible exact Sub.trans (Sub.mk (by decide)) hW)
    | (with_reducible apply State_modDie_fr)
    | (with_reducible refine FrameO.next ?_)
    | (intro _)
    | split

theorem execCoreLost_fr {wF : Nat} {zF : State} (die : Nat) (core : Nat) {s : State} (hF : Frame wF zF s) (hW : Sub 0x29a185fbe2e13cff wF) :
    FrameO wF zF (execCoreLost die core s) := by
  unfold execCoreLost
  repeat' first
    | (with_reducible assumption)
    | (with_reducible exact hW)
    | (with_reducible exact Sub.trans (Sub.mk (by decide)) hW)
    | (with_reducible apply State_loseCore_fr)
    | (with_reducible apply State_raise_fr)
    | (with_reducible apply State_faultTrigger_fr)
    | (with_reducible refine FrameO.next ?_)
    | (with_reducible refine Frame.getD (fun _ _ => ?_) ?_)
    | (intro x; refine Frame.cut (w := wF) (z := zF) (x := x) ?_ ?_ <;> [subst x; (intro _; clear_value x)])
    | (intro x; clear_value x)
    | (intro _)
    | lift_lets
    | split

theorem State_failRunning_fr {wF : Nat} {zF : State} {s : State} (k : Nat) (core : Nat) (status : Nat) (hF : Frame wF zF s) (hW : Sub 0x202185fbe2e13cff wF) :
    Frame wF zF (State.failRunning s k core status) := by
  unfold State.failRunning
  repeat' first
    | (with_reducible assumption)
    | (with_reducible exact hW)
    | (with_reducible exact Sub.trans (Sub.mk (by decide)) hW)
    | (with_reducible apply State_abandon_fr)
    | (with_reducible apply State_tileFailed_fr)
    | (with_reducible refine Frame.getD (fun _ _ => ?_) ?_)
    | (with_reducible (apply Frame.of_pair; assumption))
    | (with_reducible (apply Frame.of_pair'; assumption))
    | split

theorem execSeqWatchdog_fr {wF : Nat} {zF : State} (die : Nat) (core : Nat) {s : State} (hF : Frame wF zF s) (hW : Sub 0x21a185fbe2e13cff wF) :
    FrameO wF zF (execSeqWatchdog die core s) := by
  unfold execSeqWatchdog
  repeat' first
    | (with_reducible assumption)
    | (with_reducible exact hW)
    | (with_reducible exact Sub.trans (Sub.mk (by decide)) hW)
    | (with_reducible apply State_failRunning_fr)
    | (with_reducible apply State_modDie_fr)
    | (with_reducible apply State_loseCore_fr)
    | (with_reducible refine FrameO.next ?_)
    | (with_reducible refine Frame.getD (fun _ _ => ?_) ?_)
    | (intro x; refine Frame.cut (w := wF) (z := zF) (x := x) ?_ ?_ <;> [subst x; (intro _; clear_value x)])
    | (intro x; clear_value x)
    | (intro _)
    | lift_lets
    | split

end Sys2Proof.Machine
end

