-- ==== Sys2Proof/Laws/FrameCores.lean ====
section
/-! SUPPORT. What each operation of Machine/Cores.lean may change. -/

set_option linter.all false

namespace Sys2Proof.Machine

open Sys2Proof

theorem State_modCore_fr {wF : Nat} {zF : State} {s : State} (k : Nat) (j : Nat) (f : Core → Core) (hF : Frame wF zF s) (hW : Sub 0x40000000000 wF) :
    Frame wF zF (State.modCore s k j f) := by
  unfold State.modCore
  repeat' first
    | (with_reducible assumption)
    | (with_reducible exact hW)
    | (with_reducible exact Sub.trans (Sub.mk (by decide)) hW)
    | (with_reducible apply State_modDie_fr)
    | (intro _)

theorem State_failEntry_fr {wF : Nat} {zF : State} {s : State} (k : Nat) (core : Nat) (i : Nat) (status : Nat) (hF : Frame wF zF s) (hW : Sub 0x202185fbe2e13cff wF) :
    Frame wF zF (State.failEntry s k core i status) := by
  unfold State.failEntry
  repeat' first
    | (with_reducible assumption)
    | (with_reducible exact hW)
    | (with_reducible exact Sub.trans (Sub.mk (by decide)) hW)
    | (with_reducible apply State_abandon_fr)
    | (with_reducible apply State_tileFailed_fr)
    | (with_reducible refine Frame.getD (fun _ _ => ?_) ?_)
    | (with_reducible (apply Frame.of_pair; assumption))
    | (with_reducible (apply Frame.of_pair'; assumption))
    | split

theorem State_dispatch_fr {wF : Nat} {zF : State} {s : State} (k : Nat) (core : Nat) (engine : Nat) (entry : Nat) (j : CellJob) (hF : Frame wF zF s) (hW : Sub 0x202185fbe2e13cff wF) :
    Frame wF zF (State.dispatch s k core engine entry j) := by
  unfold State.dispatch
  repeat' first
    | (with_reducible assumption)
    | (with_reducible exact hW)
    | (with_reducible exact Sub.trans (Sub.mk (by decide)) hW)
    | (with_reducible apply State_modCore_fr)
    | (with_reducible apply State_failEntry_fr)
    | (with_reducible apply State_owe_fr)
    | (with_reducible apply State_modDie_fr)
    | (with_reducible apply State_raise_fr)
    | (with_reducible (apply Frame.of_pair; assumption))
    | (with_reducible (apply Frame.of_pair'; assumption))
    | (intro x; refine Frame.cut (w := wF) (z := zF) (x := x) ?_ ?_ <;> [subst x; (intro _; clear_value x)])
    | (intro x; clear_value x)
    | (intro _)
    | lift_lets
    | split

theorem State_startJob_fr {wF : Nat} {zF : State} {s : State} (k : Nat) (core : Nat) (engine : Nat) (entry : Nat) (j : CellJob) (hF : Frame wF zF s) (hW : Sub 0x202185fbe2e13cff wF) :
    Frame wF zF (State.startJob s k core engine entry j) := by
  unfold State.startJob
  repeat' first
    | (with_reducible assumption)
    | (with_reducible exact hW)
    | (with_reducible exact Sub.trans (Sub.mk (by decide)) hW)
    | (with_reducible apply State_failEntry_fr)
    | (with_reducible apply State_dispatch_fr)
    | (intro x; refine Frame.cut (w := wF) (z := zF) (x := x) ?_ ?_ <;> [subst x; (intro _; clear_value x)])
    | (intro x; clear_value x)
    | (intro _)
    | lift_lets
    | split

theorem State_vector_fr {wF : Nat} {zF : State} {s : State} (k : Nat) (core : Nat) (entry : Option Nat) (op : VecOp) (hF : Frame wF zF s) (hW : Sub 0x202185fbe2e13cff wF) :
    Frame wF zF (State.vector s k core entry op) := by
  have done : ∀ f : Core → Core, Frame wF zF (s.modCore k core fun c => { f c with lastProgress := s.now }) := fun f => State_modCore_fr _ _ _ hF (Sub.trans (Sub.mk (by decide)) hW)
  have fail : ∀ st : Nat, Frame wF zF (match entry with
      | some i => s.failEntry k core i st
      | none => s) := fun st => by
    split
    · exact State_failEntry_fr _ _ _ _ hF (Sub.trans (Sub.mk (by decide)) hW)
    · exact hF
  unfold State.vector
  refine Frame.ite (fail _) ?_
  split
  · exact Frame.ite (fail _) (done _)
  · exact Frame.ite (fail _) (done _)
  · split
    · exact done _
    · exact hF

theorem State_dmaMove_fr {wF : Nat} {zF : State} {s : State} (k : Nat) (core : Nat) (d : Dma) (hF : Frame wF zF s) (hW : Sub 0x40000000004 wF) :
    Frame wF zF (State.dmaMove s k core d) := by
  have one : ∀ {s : State} (a : Nat) (b : List Byte), Frame wF zF s →
      Frame wF zF (s.modCore k core fun c => { c with store := Memory.write c.store a b }) := fun a b h => State_modCore_fr _ _ _ h (Sub.trans (Sub.mk (by decide)) hW)
  unfold State.dmaMove
  split
  · split
    · exact one _ _ (one _ _ hF)
    · exact hF
  · exact Frame.foldl (fun _ _ h => Frame.ite (one _ _ h) (Frame.ite (State_atomicAdd_fr _ _ h (Sub.trans (Sub.mk (by decide)) hW)) (State_modWrite_fr _ _ h (Sub.trans (Sub.mk (by decide)) hW)))) _ hF

theorem State_startDma_fr {wF : Nat} {zF : State} {s : State} (k : Nat) (core : Nat) (entry : Nat) (d : Dma) (hF : Frame wF zF s) (hW : Sub 0x28a187fbe2e13cff wF) :
    Frame wF zF (State.startDma s k core entry d) := by
  unfold State.startDma
  split
  · exact hF
  · split
    · extract_lets go
      have h1 : Frame wF zF go := State_modDie_fr _ _ (State_modCore_fr _ _ _ hF (Sub.trans (Sub.mk (by decide)) hW)) (Sub.trans (Sub.mk (by decide)) hW)
      clear_value go
      split
      · exact h1
      · exact h1
      · exact State_failEntry_fr _ _ _ _ hF (Sub.trans (Sub.mk (by decide)) hW)
      · exact State_answer_fr _ _ _ _ hF (Sub.trans (Sub.mk (by decide)) hW)
    · exact hF

theorem State_issue_fr {wF : Nat} {zF : State} {s : State} (k : Nat) (core : Nat) (entry : Option Nat) (x0 : SeqCmd) (hF : Frame wF zF s) (hW : Sub 0x28a187fbe2e13cff wF) :
    Frame wF zF (State.issue s k core entry x0) := by
  unfold State.issue
  repeat' first
    | (with_reducible assumption)
    | (with_reducible exact hW)
    | (with_reducible exact Sub.trans (Sub.mk (by decide)) hW)
    | (with_reducible apply State_startJob_fr)
    | (with_reducible apply State_vector_fr)
    | (with_reducible apply State_startDma_fr)
    | (with_reducible (apply Frame.of_pair; assumption))
    | (with_reducible (apply Frame.of_pair'; assumption))
    | split

theorem State_drain_fr {wF : Nat} {zF : State} {s : State} (k : Nat) (core : Nat) (x0 : Nat) (hF : Frame wF zF s) (hW : Sub 0x28a187fbe2e13cff wF) :
    Frame wF zF (State.drain s k core x0) := by
  induction x0 generalizing s k core with
  | zero =>
    unfold State.drain
    repeat' first
      | (with_reducible assumption)
      | (with_reducible exact hW)
      | (with_reducible exact Sub.trans (Sub.mk (by decide)) hW)
      | (with_reducible apply State_modCore_fr)
      | (with_reducible apply State_issue_fr)
      | (with_reducible (apply Frame.of_pair; assumption))
      | (with_reducible (apply Frame.of_pair'; assumption))
      | (intro _)
      | split
  | succ n ih =>
    unfold State.drain
    repeat' first
      | (with_reducible assumption)
      | (with_reducible exact hW)
      | (with_reducible exact Sub.trans (Sub.mk (by decide)) hW)
      | (with_reducible apply ih)
      | (with_reducible apply State_modCore_fr)
      | (with_reducible apply State_issue_fr)
      | (with_reducible (apply Frame.of_pair; assumption))
      | (with_reducible (apply Frame.of_pair'; assumption))
      | (intro _)
      | split

theorem State_sequence_fr {wF : Nat} {zF : State} {s : State} (k : Nat) (core : Nat) (second : Bool) (x : SeqCmd) (hF : Frame wF zF s) (hW : Sub 0x28a187fbe2e13cff wF) :
    Frame wF zF (State.sequence s k core second x) := by
  unfold State.sequence
  repeat' first
    | (with_reducible assumption)
    | (with_reducible exact hW)
    | (with_reducible exact Sub.trans (Sub.mk (by decide)) hW)
    | (with_reducible apply State_modCore_fr)
    | (with_reducible apply State_drain_fr)
    | (intro x; refine Frame.cut (w := wF) (z := zF) (x := x) ?_ ?_ <;> [subst x; (intro _; clear_value x)])
    | (intro x; clear_value x)
    | (intro _)
    | lift_lets
    | split

theorem execCellJobStart_fr {wF : Nat} {zF : State} (die : Nat) (core : Nat) (engine : Nat) (x : TileJob) {s : State} (hF : Frame wF zF s) (hW : Sub 0x28a187fbe2e13cff wF) :
    FrameO wF zF (execCellJobStart die core engine x s) := by
  unfold execCellJobStart
  repeat' first
    | (with_reducible assumption)
    | (with_reducible exact hW)
    | (with_reducible exact Sub.trans (Sub.mk (by decide)) hW)
    | (with_reducible apply State_sequence_fr)
    | (with_reducible refine FrameO.next ?_)

theorem execVectorInstruction_fr {wF : Nat} {zF : State} (die : Nat) (core : Nat) (op : VecOp) {s : State} (hF : Frame wF zF s) (hW : Sub 0x28a187fbe2e13cff wF) :
    FrameO wF zF (execVectorInstruction die core op s) := by
  unfold execVectorInstruction
  repeat' first
    | (with_reducible assumption)
    | (with_reducible exact hW)
    | (with_reducible exact Sub.trans (Sub.mk (by decide)) hW)
    | (with_reducible apply State_sequence_fr)
    | (with_reducible refine FrameO.next ?_)

theorem execDmaTransfer_fr {wF : Nat} {zF : State} (die : Nat) (core : Nat) (x : TileDma) {s : State} (hF : Frame wF zF s) (hW : Sub 0x28a187fbe2e13cff wF) :
    FrameO wF zF (execDmaTransfer die core x s) := by
  unfold execDmaTransfer
  repeat' first
    | (with_reducible assumption)
    | (with_reducible exact hW)
    | (with_reducible exact Sub.trans (Sub.mk (by decide)) hW)
    | (with_reducible apply State_sequence_fr)
    | (with_reducible refine FrameO.next ?_)

theorem execFence_fr {wF : Nat} {zF : State} (die : Nat) (core : Nat) {s : State} (hF : Frame wF zF s) (hW : Sub 0x28a187fbe2e13cff wF) :
    FrameO wF zF (execFence die core s) := by
  unfold execFence
  repeat' first
    | (with_reducible assumption)
    | (with_reducible exact hW)
    | (with_reducible exact Sub.trans (Sub.mk (by decide)) hW)
    | (with_reducible apply State_sequence_fr)
    | (with_reducible refine FrameO.next ?_)

theorem State_nextJob_fr {wF : Nat} {zF : State} {s : State} (k : Nat) (core : Nat) (engine : Nat) (hF : Frame wF zF s) (hW : Sub 0x202185fbe2e13cff wF) :
    Frame wF zF (State.nextJob s k core engine) := by
  unfold State.nextJob
  repeat' first
    | (with_reducible assumption)
    | (with_reducible exact hW)
    | (with_reducible exact Sub.trans (Sub.mk (by decide)) hW)
    | (with_reducible apply State_modCore_fr)
    | (with_reducible apply State_dispatch_fr)
    | (with_reducible refine Frame.getD (fun _ _ => ?_) ?_)
    | (with_reducible (apply Frame.of_pair; assumption))
    | (with_reducible (apply Frame.of_pair'; assumption))
    | (intro x; refine Frame.cut (w := wF) (z := zF) (x := x) ?_ ?_ <;> [subst x; (intro _; clear_value x)])
    | (intro x; clear_value x)
    | (intro _)
    | lift_lets
    | split

theorem State_jobDone_fr {wF : Nat} {zF : State} {s : State} (k : Nat) (core : Nat) (engine : Nat) (cell : Nat) (hF : Frame wF zF s) (hW : Sub 0x28a187fbe2e13cff wF) :
    Frame wF zF (State.jobDone s k core engine cell) := by
  unfold State.jobDone
  repeat' first
    | (with_reducible assumption)
    | (with_reducible exact hW)
    | (with_reducible exact Sub.trans (Sub.mk (by decide)) hW)
    | (with_reducible apply State_modCore_fr)
    | (with_reducible apply State_nextJob_fr)
    | (with_reducible apply State_drain_fr)
    | (with_reducible refine Frame.foldl (fun _ _ _ => ?_) _ ?_)
    | (with_reducible refine Frame.foldl1 (fun _ _ _ => ?_) _ ?_)
    | (with_reducible refine Frame.foldl2 (fun _ _ _ => ?_) _ ?_)
    | (with_reducible (apply Frame.of_pair; assumption))
    | (with_reducible (apply Frame.of_pair'; assumption))
    | (intro x; refine Frame.cut (w := wF) (z := zF) (x := x) ?_ ?_ <;> [subst x; (intro _; clear_value x)])
    | (intro x; clear_value x)
    | (intro _)
    | lift_lets
    | split

theorem execCellJobDone_fr {wF : Nat} {zF : State} (die : Nat) (core : Nat) (engine : Nat) (cell : Nat) {s : State} (hF : Frame wF zF s) (hW : Sub 0x28a187fbe2e13cff wF) :
    FrameO wF zF (execCellJobDone die core engine cell s) := by
  unfold execCellJobDone
  repeat' first
    | (with_reducible assumption)
    | (with_reducible exact hW)
    | (with_reducible exact Sub.trans (Sub.mk (by decide)) hW)
    | (with_reducible apply State_jobDone_fr)
    | (with_reducible refine FrameO.next ?_)

theorem execDmaComplete_fr {wF : Nat} {zF : State} (die : Nat) (core : Nat) (ctx : Nat) (srcError : Bool) {s : State} (hF : Frame wF zF s) (hW : Sub 0x28a187fbe2e13cff wF) :
    FrameO wF zF (execDmaComplete die core ctx srcError s) := by
  unfold execDmaComplete
  repeat' first
    | (with_reducible assumption)
    | (with_reducible exact hW)
    | (with_reducible exact Sub.trans (Sub.mk (by decide)) hW)
    | (with_reducible apply State_modCore_fr)
    | (with_reducible apply State_failEntry_fr)
    | (with_reducible apply State_dmaMove_fr)
    | (with_reducible apply State_drain_fr)
    | (with_reducible refine FrameO.next ?_)
    | (with_reducible (apply Frame.of_pair; assumption))
    | (with_reducible (apply Frame.of_pair'; assumption))
    | (intro x; refine Frame.cut (w := wF) (z := zF) (x := x) ?_ ?_ <;> [subst x; (intro _; clear_value x)])
    | (intro x; clear_value x)
    | (intro _)
    | lift_lets
    | split

theorem execPaletteSlotLoadDone_fr {wF : Nat} {zF : State} (die : Nat) (core : Nat) {s : State} (hF : Frame wF zF s) (hW : Sub 0x40000000000 wF) :
    FrameO wF zF (execPaletteSlotLoadDone die core s) := by
  unfold execPaletteSlotLoadDone
  repeat' first
    | (with_reducible assumption)
    | (with_reducible exact hW)
    | (with_reducible exact Sub.trans (Sub.mk (by decide)) hW)
    | (with_reducible apply State_modCore_fr)
    | (with_reducible refine FrameO.next ?_)
    | (intro x; refine Frame.cut (w := wF) (z := zF) (x := x) ?_ ?_ <;> [subst x; (intro _; clear_value x)])
    | (intro x; clear_value x)
    | (intro _)
    | lift_lets
    | split

theorem State_rerunSteps_fr {wF : Nat} {zF : State} {s : State} (hF : Frame wF zF s) (hW : Sub 0x2000000000000000 wF) :
    Frame wF zF (State.rerunSteps s) := by
  unfold State.rerunSteps
  repeat' first
    | (with_reducible assumption)
    | (with_reducible exact hW)
    | (with_reducible exact Sub.trans (Sub.mk (by decide)) hW)
    | (with_reducible apply State_requestKill_fr)
    | (with_reducible refine Frame.foldl (fun _ _ _ => ?_) _ ?_)
    | (with_reducible refine Frame.foldl1 (fun _ _ _ => ?_) _ ?_)
    | (with_reducible refine Frame.foldl2 (fun _ _ _ => ?_) _ ?_)
    | (intro _)

theorem State_gtDone_fr {wF : Nat} {zF : State} {s : State} (k : Nat) (core : Nat) (engine : Nat) (cell : Nat) (after : Bool) (checks : List W32) (hF : Frame wF zF s) (hW : Sub 0x29a185fbe2e13cff wF) :
    Frame wF zF (State.gtDone s k core engine cell after checks) := by
  unfold State.gtDone
  repeat' first
    | (with_reducible assumption)
    | (with_reducible exact hW)
    | (with_reducible exact Sub.trans (Sub.mk (by decide)) hW)
    | (with_reducible apply State_modCore_fr)
    | (with_reducible apply State_modDie_fr)
    | (with_reducible apply State_loseCore_fr)
    | (with_reducible apply State_raise_fr)
    | (with_reducible apply State_rerunSteps_fr)
    | (with_reducible apply State_faultTrigger_fr)
    | (intro x; refine Frame.cut (w := wF) (z := zF) (x := x) ?_ ?_ <;> [subst x; (intro _; clear_value x)])
    | (intro x; clear_value x)
    | (intro _)
    | lift_lets
    | ((fail_if_success split); with_reducible apply Frame.upd_steps)
    | split

theorem execGtTileDone_fr {wF : Nat} {zF : State} (die : Nat) (core : Nat) (engine : Nat) (cell : Nat) (x : GtResult) {s : State} (hF : Frame wF zF s) (hW : Sub 0x29a185fbe2e13cff wF) :
    FrameO wF zF (execGtTileDone die core engine cell x s) := by
  unfold execGtTileDone
  repeat' first
    | (with_reducible assumption)
    | (with_reducible exact hW)
    | (with_reducible exact Sub.trans (Sub.mk (by decide)) hW)
    | (with_reducible apply State_gtDone_fr)
    | (with_reducible refine FrameO.next ?_)

theorem execGtForceTimer_fr {wF : Nat} {zF : State} (die : Nat) (core : Nat) (engine : Nat) (cell : Nat) {s : State} (hF : Frame wF zF s) (hW : Sub 0x40000000000 wF) :
    FrameO wF zF (execGtForceTimer die core engine cell s) := by
  unfold execGtForceTimer
  repeat' first
    | (with_reducible assumption)
    | (with_reducible exact hW)
    | (with_reducible exact Sub.trans (Sub.mk (by decide)) hW)
    | (with_reducible apply State_modCore_fr)
    | (with_reducible refine FrameO.next ?_)
    | (intro _)

theorem execCellParityError_fr {wF : Nat} {zF : State} (die : Nat) (core : Nat) (engine : Nat) (cell : Nat) {s : State} (hF : Frame wF zF s) (hW : Sub 0x21a185fbe2e13cff wF) :
    FrameO wF zF (execCellParityError die core engine cell s) := by
  unfold execCellParityError
  repeat' first
    | (with_reducible assumption)
    | (with_reducible exact hW)
    | (with_reducible exact Sub.trans (Sub.mk (by decide)) hW)
    | (with_reducible apply State_modCore_fr)
    | (with_reducible apply State_reclaim_fr)
    | (with_reducible apply State_loseCore_fr)
    | (with_reducible refine FrameO.next ?_)
    | (with_reducible (apply Frame.of_pair; assumption))
    | (with_reducible (apply Frame.of_pair'; assumption))
    | (intro x; refine Frame.cut (w := wF) (z := zF) (x := x) ?_ ?_ <;> [subst x; (intro _; clear_value x)])
    | (intro x; clear_value x)
    | (intro _)
    | lift_lets
    | split

theorem execBufferEccError_fr {wF : Nat} {zF : State} (die : Nat) (core : Nat) (u_engine : Nat) (double : Bool) {s : State} (hF : Frame wF zF s) (hW : Sub 0x202185fbe2e13cff wF) :
    FrameO wF zF (execBufferEccError die core u_engine double s) := by
  unfold execBufferEccError
  repeat' first
    | (with_reducible assumption)
    | (with_reducible exact hW)
    | (with_reducible exact Sub.trans (Sub.mk (by decide)) hW)
    | (with_reducible apply State_failRunning_fr)
    | (with_reducible apply State_modDie_fr)
    | (with_reducible refine FrameO.next ?_)
    | (intro _)
    | split

theorem execCoreStoreEccError_fr {wF : Nat} {zF : State} (die : Nat) (core : Nat) (double : Bool) {s : State} (hF : Frame wF zF s) (hW : Sub 0x21a185fbe2e13cff wF) :
    FrameO wF zF (execCoreStoreEccError die core double s) := by
  unfold execCoreStoreEccError
  repeat' first
    | (with_reducible assumption)
    | (with_reducible exact hW)
    | (with_reducible exact Sub.trans (Sub.mk (by decide)) hW)
    | (with_reducible apply State_modDie_fr)
    | (with_reducible apply State_modCore_fr)
    | (with_reducible apply State_failRunning_fr)
    | (with_reducible apply State_loseCore_fr)
    | (with_reducible refine FrameO.next ?_)
    | (intro x; refine Frame.cut (w := wF) (z := zF) (x := x) ?_ ?_ <;> [subst x; (intro _; clear_value x)])
    | (intro x; clear_value x)
    | (intro _)
    | lift_lets
    | split

theorem execVectorParityError_fr {wF : Nat} {zF : State} (die : Nat) (core : Nat) {s : State} (hF : Frame wF zF s) (hW : Sub 0x21a185fbe2e13cff wF) :
    FrameO wF zF (execVectorParityError die core s) := by
  unfold execVectorParityError
  repeat' first
    | (with_reducible assumption)
    | (with_reducible exact hW)
    | (with_reducible exact Sub.trans (Sub.mk (by decide)) hW)
    | (with_reducible apply State_failRunning_fr)
    | (with_reducible apply State_modCore_fr)
    | (with_reducible apply State_loseCore_fr)
    | (with_reducible refine FrameO.next ?_)
    | (intro x; refine Frame.cut (w := wF) (z := zF) (x := x) ?_ ?_ <;> [subst x; (intro _; clear_value x)])
    | (intro x; clear_value x)
    | (intro _)
    | lift_lets
    | split

theorem State_reloadSlot_fr {wF : Nat} {zF : State} {s : State} (k : Nat) (core : Nat) (hF : Frame wF zF s) (hW : Sub 0x40000000000 wF) :
    Frame wF zF (State.reloadSlot s k core) := by
  unfold State.reloadSlot
  repeat' first
    | (with_reducible assumption)
    | (with_reducible exact hW)
    | (with_reducible exact Sub.trans (Sub.mk (by decide)) hW)
    | (with_reducible apply State_modCore_fr)
    | (intro _)
    | split

theorem execSequencerEccError_fr {wF : Nat} {zF : State} (die : Nat) (core : Nat) {s : State} (hF : Frame wF zF s) (hW : Sub 0x21a185fbe2e13cff wF) :
    FrameO wF zF (execSequencerEccError die core s) := by
  unfold execSequencerEccError
  repeat' first
    | (with_reducible assumption)
    | (with_reducible exact hW)
    | (with_reducible exact Sub.trans (Sub.mk (by decide)) hW)
    | (with_reducible apply State_reloadSlot_fr)
    | (with_reducible apply State_failRunning_fr)
    | (with_reducible apply State_modCore_fr)
    | (with_reducible apply State_loseCore_fr)
    | (with_reducible refine FrameO.next ?_)
    | (intro x; refine Frame.cut (w := wF) (z := zF) (x := x) ?_ ?_ <;> [subst x; (intro _; clear_value x)])
    | (intro x; clear_value x)
    | (intro _)
    | lift_lets
    | split

theorem execUnpackError_fr {wF : Nat} {zF : State} (die : Nat) (core : Nat) (entry : Nat) {s : State} (hF : Frame wF zF s) (hW : Sub 0x202185fbe2e13cff wF) :
    FrameO wF zF (execUnpackError die core entry s) := by
  unfold execUnpackError
  repeat' first
    | (with_reducible assumption)
    | (with_reducible exact hW)
    | (with_reducible exact Sub.trans (Sub.mk (by decide)) hW)
    | (with_reducible apply State_takeFail_fr)
    | (with_reducible refine FrameO.next ?_)
    | (with_reducible (apply Frame.of_pair; assumption))
    | (with_reducible (apply Frame.of_pair'; assumption))
    | split

theorem execUnpackRereadDone_fr {wF : Nat} {zF : State} (die : Nat) (entry : Nat) {s : State} (hF : Frame wF zF s) (hW : Sub 0x2000040100000000 wF) :
    FrameO wF zF (execUnpackRereadDone die entry s) := by
  unfold execUnpackRereadDone
  repeat' first
    | (with_reducible assumption)
    | (with_reducible exact hW)
    | (with_reducible exact Sub.trans (Sub.mk (by decide)) hW)
    | (with_reducible apply State_backToReady_fr)
    | (with_reducible refine FrameO.next ?_)
    | (with_reducible (apply Frame.of_pair; assumption))
    | (with_reducible (apply Frame.of_pair'; assumption))
    | split

end Sys2Proof.Machine
end

