-- ==== Sys2Proof/Laws/FrameMovement.lean ====
section
/-! SUPPORT. What each operation of Machine/Movement.lean may change. -/

set_option linter.all false

namespace Sys2Proof.Machine

open Sys2Proof

theorem State_arrivalLost_fr {wF : Nat} {zF : State} {s : State} (id : Nat) (st : Nat) (hF : Frame wF zF s) (hW : Sub 0x202185fbe2e13cff wF) :
    Frame wF zF (State.arrivalLost s id st) := by
  unfold State.arrivalLost
  repeat' first
    | (with_reducible assumption)
    | (with_reducible exact hW)
    | (with_reducible exact Sub.trans (Sub.mk (by decide)) hW)
    | (with_reducible apply State_failSlot_fr)
    | (with_reducible apply State_arrivalFail_fr)
    | (with_reducible apply State_swapChecks_fr)
    | (with_reducible apply State_killChecks_fr)
    | (with_reducible refine Frame.foldl (fun _ _ _ => ?_) _ ?_)
    | (with_reducible refine Frame.foldl1 (fun _ _ _ => ?_) _ ?_)
    | (with_reducible refine Frame.foldl2 (fun _ _ _ => ?_) _ ?_)
    | (intro x; refine Frame.cut (w := wF) (z := zF) (x := x) ?_ ?_ <;> [subst x; (intro _; clear_value x)])
    | (intro x; clear_value x)
    | (intro _)
    | lift_lets

theorem State_arrivalWhole_fr {wF : Nat} {zF : State} {s : State} (id : Nat) (hF : Frame wF zF s) (hW : Sub 0x28a187fbe2e13cff wF) :
    Frame wF zF (State.arrivalWhole s id) := by
  unfold State.arrivalWhole
  repeat' first
    | (with_reducible assumption)
    | (with_reducible exact hW)
    | (with_reducible exact Sub.trans (Sub.mk (by decide)) hW)
    | (with_reducible apply State_openAgents_fr)
    | (with_reducible apply State_arrivalEnd_fr)
    | (with_reducible apply State_swapChecks_fr)
    | (with_reducible apply State_killChecks_fr)
    | (with_reducible refine Frame.foldl (fun _ _ _ => ?_) _ ?_)
    | (with_reducible refine Frame.foldl1 (fun _ _ _ => ?_) _ ?_)
    | (with_reducible refine Frame.foldl2 (fun _ _ _ => ?_) _ ?_)
    | (intro x; refine Frame.cut (w := wF) (z := zF) (x := x) ?_ ?_ <;> [subst x; (intro _; clear_value x)])
    | (intro x; clear_value x)
    | (intro _)
    | lift_lets

theorem State_readSource_fr {wF : Nat} {zF : State} {s : State} (src : LoadSrc) (id : Nat) (demand : Bool) (off : Nat) (n : Nat) (hF : Frame wF zF s) (hW : Sub 0x1000000010001 wF) :
    Frame wF zF (State.readSource s src id demand off n) := by
  unfold State.readSource
  repeat' first
    | (with_reducible assumption)
    | (with_reducible exact hW)
    | (with_reducible exact Sub.trans (Sub.mk (by decide)) hW)
    | (with_reducible apply State_readCopy_fr)
    | (with_reducible (apply Frame.of_pair; assumption))
    | (with_reducible (apply Frame.of_pair'; assumption))
    | split

theorem State_landTile_fr {wF : Nat} {zF : State} {s : State} (id : Nat) (i : Nat) (bytes : List Byte) (hF : Frame wF zF s) (hW : Sub 0x28a187fbe2e13cff wF) :
    Frame wF zF (State.landTile s id i bytes) := by
  unfold State.landTile
  repeat' first
    | (with_reducible assumption)
    | (with_reducible exact hW)
    | (with_reducible exact Sub.trans (Sub.mk (by decide)) hW)
    | (with_reducible apply State_arrivalLost_fr)
    | (with_reducible apply State_readSource_fr)
    | (with_reducible apply State_objWrite_fr)
    | (with_reducible apply State_arrivalWhole_fr)
    | (with_reducible apply State_modObj_fr)
    | (with_reducible apply State_emit_fr)
    | (with_reducible (apply Frame.of_pair; assumption))
    | (with_reducible (apply Frame.of_pair'; assumption))
    | (intro x; refine Frame.cut (w := wF) (z := zF) (x := x) ?_ ?_ <;> [subst x; (intro _; clear_value x)])
    | (intro x; clear_value x)
    | (intro _)
    | lift_lets
    | split

theorem execTileLand_fr {wF : Nat} {zF : State} (obj : Nat) (tile : Nat) (bytes : List Byte) {s : State} (hF : Frame wF zF s) (hW : Sub 0x28a187fbe2e13cff wF) :
    FrameO wF zF (execTileLand obj tile bytes s) := by
  unfold execTileLand
  repeat' first
    | (with_reducible assumption)
    | (with_reducible exact hW)
    | (with_reducible exact Sub.trans (Sub.mk (by decide)) hW)
    | (with_reducible apply State_landTile_fr)
    | (with_reducible refine FrameO.next ?_)

theorem execDepartWriteoutDone_fr {wF : Nat} {zF : State} (obj : Nat) {s : State} (hF : Frame wF zF s) (hW : Sub 0x1000000200001 wF) :
    FrameO wF zF (execDepartWriteoutDone obj s) := by
  unfold execDepartWriteoutDone
  repeat' first
    | (with_reducible assumption)
    | (with_reducible exact hW)
    | (with_reducible exact Sub.trans (Sub.mk (by decide)) hW)
    | (with_reducible apply State_startCopy_fr)
    | (with_reducible apply State_modObj_fr)
    | (with_reducible refine FrameO.next ?_)
    | (with_reducible (apply Frame.of_pair; assumption))
    | (with_reducible (apply Frame.of_pair'; assumption))
    | (intro _)
    | split

theorem execDepartRelease_fr {wF : Nat} {zF : State} (obj : Nat) {s : State} (hF : Frame wF zF s) (hW : Sub 0x20010400406100f9 wF) :
    FrameO wF zF (execDepartRelease obj s) := by
  unfold execDepartRelease
  repeat' first
    | (with_reducible assumption)
    | (with_reducible exact hW)
    | (with_reducible exact Sub.trans (Sub.mk (by decide)) hW)
    | (with_reducible apply State_releaseBytes_fr)
    | (with_reducible refine FrameO.next ?_)
    | (with_reducible (apply Frame.of_pair; assumption))
    | (with_reducible (apply Frame.of_pair'; assumption))
    | split

theorem execFlashCopyDurable_fr {wF : Nat} {zF : State} (obj : Nat) {s : State} (hF : Frame wF zF s) (hW : Sub 0x20010400406100f9 wF) :
    FrameO wF zF (execFlashCopyDurable obj s) := by
  unfold execFlashCopyDurable
  split
  · split
    · exact FrameO.next hF
    · extract_lets mark note s1 s2 s3
      have h3 : Frame wF zF s3 := State_finishWaiters_fr _ _ _ (State_modObj_fr _ _ (State_modFlash_fr _ hF (Sub.trans (Sub.mk (by decide)) hW)) (Sub.trans (Sub.mk (by decide)) hW)) (Sub.trans (Sub.mk (by decide)) hW)
      clear_value s3
      exact FrameO.next (Frame.ite (State_departDone_fr _ h3 (Sub.trans (Sub.mk (by decide)) hW)) h3)
  · exact FrameO.next hF

theorem State_stageLand_fr {wF : Nat} {zF : State} {s : State} (k : Nat) (x : StageEnt) (addr : Nat) (t : TileDir) (b : List Byte) (hF : Frame wF zF s) (hW : Sub 0x40000000004 wF) :
    Frame wF zF (State.stageLand s k x addr t b) := by
  unfold State.stageLand
  repeat' first
    | (with_reducible assumption)
    | (with_reducible exact hW)
    | (with_reducible exact Sub.trans (Sub.mk (by decide)) hW)
    | (with_reducible apply State_modWrite_fr)
    | (with_reducible apply State_modDie_fr)
    | (intro x; refine Frame.cut (w := wF) (z := zF) (x := x) ?_ ?_ <;> [subst x; (intro _; clear_value x)])
    | (intro x; clear_value x)
    | (intro _)
    | lift_lets
    | split

theorem execStageCopyWrite_fr {wF : Nat} {zF : State} (die : Nat) (obj : Nat) (tile : Nat) {s : State} (hF : Frame wF zF s) (hW : Sub 0x1040000010005 wF) :
    FrameO wF zF (execStageCopyWrite die obj tile s) := by
  unfold execStageCopyWrite
  split
  · exact FrameO.next hF
  · extract_lets drop
    have hd : ∀ {s : State}, Frame wF zF s → Frame wF zF (drop s) := fun h => State_modDie_fr _ _ h (Sub.trans (Sub.mk (by decide)) hW)
    split
    · exact FrameO.next (hd hF)
    · split
      · exact FrameO.next (hd hF)
      · split
        · exact FrameO.next hF
        · split
          · exact FrameO.next hF
          · split
            · exact FrameO.next (hd hF)
            · extract_lets s1 way s2
              have h1 : Frame wF zF s1 := Frame.ite hF (State_readTileCopy_fr _ _ _ hF (Sub.trans (Sub.mk (by decide)) hW))
              have h2 : Frame wF zF s2 := State_modDie_fr _ _ h1 (Sub.trans (Sub.mk (by decide)) hW)
              clear_value s1 s2
              split
              · exact FrameO.next h1
              · split
                · exact FrameO.next (State_stageLand_fr _ _ _ _ _ h2 (Sub.trans (Sub.mk (by decide)) hW))
                · exact FrameO.next h2

theorem State_coldLost_fr {wF : Nat} {zF : State} {s : State} (k : Nat) (x : StageEnt) (hF : Frame wF zF s) (hW : Sub 0x2000040100000000 wF) :
    Frame wF zF (State.coldLost s k x) := by
  unfold State.coldLost
  repeat' first
    | (with_reducible assumption)
    | (with_reducible exact hW)
    | (with_reducible exact Sub.trans (Sub.mk (by decide)) hW)
    | (with_reducible apply State_modDie_fr)
    | (with_reducible apply State_failSlot_fr)
    | (with_reducible refine Frame.foldl (fun _ _ _ => ?_) _ ?_)
    | (with_reducible refine Frame.foldl1 (fun _ _ _ => ?_) _ ?_)
    | (with_reducible refine Frame.foldl2 (fun _ _ _ => ?_) _ ?_)
    | (intro x; refine Frame.cut (w := wF) (z := zF) (x := x) ?_ ?_ <;> [subst x; (intro _; clear_value x)])
    | (intro x; clear_value x)
    | (intro _)
    | lift_lets

theorem execColdTileLand_fr {wF : Nat} {zF : State} (die : Nat) (obj : Nat) (tile : Nat) {s : State} (hF : Frame wF zF s) (hW : Sub 0x202185fbe2e13cff wF) :
    FrameO wF zF (execColdTileLand die obj tile s) := by
  unfold execColdTileLand
  extract_lets d mine
  split
  · exact FrameO.next hF
  · split
    · exact FrameO.next (State_modDie_fr _ _ hF (Sub.trans (Sub.mk (by decide)) hW))
    · split
      · split
        · extract_lets b s1 free d1 s2
          have h1 : Frame wF zF s1 := State_readTileCopy_fr _ _ _ hF (Sub.trans (Sub.mk (by decide)) hW)
          have h2 : Frame wF zF s2 := State_modDie_fr _ _ h1 (Sub.trans (Sub.mk (by decide)) hW)
          clear_value s1 s2
          split
          · exact FrameO.next (State_killChecks_fr (State_coldLost_fr _ _ h1 (Sub.trans (Sub.mk (by decide)) hW)) (Sub.trans (Sub.mk (by decide)) hW))
          · split
            · exact FrameO.next h2
            · split
              · exact FrameO.next h2
              · exact FrameO.next (Frame.foldl (fun _ _ h => State_wakeCopy_fr _ h (Sub.trans (Sub.mk (by decide)) hW)) _ (State_stageLand_fr _ _ _ _ _ h2 (Sub.trans (Sub.mk (by decide)) hW)))
        · exact FrameO.next (State_killChecks_fr (State_coldLost_fr _ _ hF (Sub.trans (Sub.mk (by decide)) hW)) (Sub.trans (Sub.mk (by decide)) hW))
      · exact FrameO.next (State_killChecks_fr (State_coldLost_fr _ _ hF (Sub.trans (Sub.mk (by decide)) hW)) (Sub.trans (Sub.mk (by decide)) hW))

theorem execSwapWriteStart_fr {wF : Nat} {zF : State} (model : Nat) {s : State} (hF : Frame wF zF s) (hW : Sub 0x202185fbe2e13cff wF) :
    FrameO wF zF (execSwapWriteStart model s) := by
  unfold execSwapWriteStart
  repeat' first
    | (with_reducible assumption)
    | (with_reducible exact hW)
    | (with_reducible exact Sub.trans (Sub.mk (by decide)) hW)
    | (with_reducible apply State_swapStart_fr)
    | (with_reducible apply State_killChecks_fr)
    | (with_reducible refine FrameO.next ?_)

theorem execTileRepair_fr {wF : Nat} {zF : State} (obj : Nat) (tile : Nat) {s : State} (hF : Frame wF zF s) (hW : Sub 0x1040000210005 wF) :
    FrameO wF zF (execTileRepair obj tile s) := by
  unfold execTileRepair
  repeat' first
    | (with_reducible assumption)
    | (with_reducible exact hW)
    | (with_reducible exact Sub.trans (Sub.mk (by decide)) hW)
    | (with_reducible apply State_readTileCopy_fr)
    | (with_reducible apply State_objWrite_fr)
    | (with_reducible apply State_modDie_fr)
    | (with_reducible apply State_raise_fr)
    | (with_reducible apply State_modObj_fr)
    | (with_reducible refine FrameO.next ?_)
    | (with_reducible (apply Frame.of_pair; assumption))
    | (with_reducible (apply Frame.of_pair'; assumption))
    | (intro x; refine Frame.cut (w := wF) (z := zF) (x := x) ?_ ?_ <;> [subst x; (intro _; clear_value x)])
    | (intro x; clear_value x)
    | (intro _)
    | lift_lets
    | split

end Sys2Proof.Machine
end

