-- ==== Sys2Proof/Laws/FrameMemRows.lean ====
section
/-! SUPPORT. What each operation of Machine/MemRows.lean may change. -/

set_option linter.all false

namespace Sys2Proof.Machine

open Sys2Proof

theorem State_lossChecks_fr {wF : Nat} {zF : State} {s : State} (hF : Frame wF zF s) (hW : Sub 0x28a187fbe2e13cff wF) :
    Frame wF zF (State.lossChecks s) := by
  unfold State.lossChecks
  repeat' first
    | (with_reducible assumption)
    | (with_reducible exact hW)
    | (with_reducible exact Sub.trans (Sub.mk (by decide)) hW)
    | (with_reducible apply State_stopJob_fr)
    | (with_reducible refine Frame.foldl (fun _ _ _ => ?_) _ ?_)
    | (with_reducible refine Frame.foldl1 (fun _ _ _ => ?_) _ ?_)
    | (with_reducible refine Frame.foldl2 (fun _ _ _ => ?_) _ ?_)
    | (with_reducible refine Frame.getD (fun _ _ => ?_) ?_)
    | (intro x; refine Frame.cut (w := wF) (z := zF) (x := x) ?_ ?_ <;> [subst x; (intro _; clear_value x)])
    | (intro x; clear_value x)
    | (intro _)
    | lift_lets
    | split

theorem State_sysLost_fr {wF : Nat} {zF : State} {s : State} (x : SysExt) (hF : Frame wF zF s) (hW : Sub 0x2001040040e100f9 wF) :
    Frame wF zF (State.sysLost s x) := by
  have gone : ∀ l : List Nat, Frame wF zF (l.foldl (fun s id => (s.modObj id fun o => { o with fcopy := false }).loseObj id) s) :=
    fun l => Frame.foldl (fun _ _ h => State_loseObj_fr _ (State_modObj_fr _ _ h (Sub.trans (Sub.mk (by decide)) hW)) (Sub.trans (Sub.mk (by decide)) hW)) l hF
  unfold State.sysLost
  split
  · exact gone _
  · exact State_modModel_fr _ _ hF (Sub.trans (Sub.mk (by decide)) hW)
  · exact gone _
  · exact Frame.upd_pfEnts hF (Sub.trans (Sub.mk (by decide)) hW)

theorem State_contentLost_fr {wF : Nat} {zF : State} {s : State} (hF : Frame wF zF s) (hW : Sub 0x2080000000010000 wF) :
    Frame wF zF (State.contentLost s) := by
  unfold State.contentLost
  repeat' first
    | (with_reducible assumption)
    | (with_reducible exact hW)
    | (with_reducible exact Sub.trans (Sub.mk (by decide)) hW)
    | (with_reducible apply State_modHealth_fr)
    | (with_reducible apply State_hltUpdate_fr)
    | (intro _)

theorem State_loseMemory_fr {wF : Nat} {zF : State} {s : State} (hit : Obj → Bool) (dead : Nat → Bool) (hF : Frame wF zF s) (hW : Sub 0x28a187fbe2e13cff wF) :
    Frame wF zF (State.loseMemory s hit dead) := by
  unfold State.loseMemory
  repeat' first
    | (with_reducible assumption)
    | (with_reducible exact hW)
    | (with_reducible exact Sub.trans (Sub.mk (by decide)) hW)
    | (with_reducible apply State_contentLost_fr)
    | (with_reducible apply State_loseObj_fr)
    | (with_reducible apply State_failSlot_fr)
    | (with_reducible apply State_sysLost_fr)
    | (with_reducible apply State_killChecks_fr)
    | (with_reducible apply State_mendSys_fr)
    | (with_reducible apply State_swapChecks_fr)
    | (with_reducible apply State_lossChecks_fr)
    | (with_reducible refine Frame.foldl (fun _ _ _ => ?_) _ ?_)
    | (with_reducible refine Frame.foldl1 (fun _ _ _ => ?_) _ ?_)
    | (with_reducible refine Frame.foldl2 (fun _ _ _ => ?_) _ ?_)
    | (intro x; refine Frame.cut (w := wF) (z := zF) (x := x) ?_ ?_ <;> [subst x; (intro _; clear_value x)])
    | (intro x; clear_value x)
    | (intro _)
    | lift_lets
    | ((fail_if_success split); with_reducible apply Frame.upd_sysExts)
    | split

theorem State_modChan_fr {wF : Nat} {zF : State} {s : State} (c : Nat) (f : Chan → Chan) (hF : Frame wF zF s) (hW : Sub 0x400000000000 wF) :
    Frame wF zF (State.modChan s c f) := by
  unfold State.modChan
  repeat' first
    | (with_reducible assumption)
    | (with_reducible exact hW)
    | (with_reducible exact Sub.trans (Sub.mk (by decide)) hW)
    | (with_reducible show List.length _ = List.length _; simp)
    | ((fail_if_success split); with_reducible apply Frame.upd_chans)

theorem State_channelFail_fr {wF : Nat} {zF : State} {s : State} (c : Nat) (hF : Frame wF zF s) (hW : Sub 0x29a1c7fbe2e13cff wF) :
    Frame wF zF (State.channelFail s c) := by
  unfold State.channelFail
  repeat' first
    | (with_reducible assumption)
    | (with_reducible exact hW)
    | (with_reducible exact Sub.trans (Sub.mk (by decide)) hW)
    | (with_reducible apply State_modChan_fr)
    | (with_reducible apply State_modNor_fr)
    | (with_reducible apply State_modGrp_fr)
    | (with_reducible apply State_setCause_fr)
    | (with_reducible apply State_loseMemory_fr)
    | (with_reducible apply State_faultTrigger_fr)
    | (with_reducible refine Frame.getD (fun _ _ => ?_) ?_)
    | (intro x; refine Frame.cut (w := wF) (z := zF) (x := x) ?_ ?_ <;> [subst x; (intro _; clear_value x)])
    | (intro x; clear_value x)
    | (intro _)
    | lift_lets
    | split

theorem execChannelFail_fr {wF : Nat} {zF : State} (ch : Nat) {s : State} (hF : Frame wF zF s) (hW : Sub 0x29a1c7fbe2e13cff wF) :
    FrameO wF zF (execChannelFail ch s) := by
  unfold execChannelFail
  repeat' first
    | (with_reducible assumption)
    | (with_reducible exact hW)
    | (with_reducible exact Sub.trans (Sub.mk (by decide)) hW)
    | (with_reducible apply State_channelFail_fr)
    | (with_reducible refine FrameO.next ?_)

theorem State_needR278_fr {wF : Nat} {zF : State} {s : State} (c : Nat) (hF : Frame wF zF s) (hW : Sub 0x29a1c7fbe2e13cff wF) :
    Frame wF zF (State.needR278 s c) := by
  unfold State.needR278
  repeat' first
    | (with_reducible assumption)
    | (with_reducible exact hW)
    | (with_reducible exact Sub.trans (Sub.mk (by decide)) hW)
    | (with_reducible apply State_modChan_fr)
    | (with_reducible apply State_channelFail_fr)
    | (intro x; refine Frame.cut (w := wF) (z := zF) (x := x) ?_ ?_ <;> [subst x; (intro _; clear_value x)])
    | (intro x; clear_value x)
    | (intro _)
    | lift_lets
    | split

theorem execMemReadUncorrectable_fr {wF : Nat} {zF : State} (addr : Nat) {s : State} (hF : Frame wF zF s) (hW : Sub 0x29a1c7fbe2e13cff wF) :
    FrameO wF zF (execMemReadUncorrectable addr s) := by
  unfold execMemReadUncorrectable
  repeat' first
    | (with_reducible assumption)
    | (with_reducible exact hW)
    | (with_reducible exact Sub.trans (Sub.mk (by decide)) hW)
    | (with_reducible apply State_modChan_fr)
    | (with_reducible apply State_needR278_fr)
    | (with_reducible apply State_loseMemory_fr)
    | (with_reducible refine FrameO.next ?_)
    | (with_reducible (apply Frame.of_pair; assumption))
    | (with_reducible (apply Frame.of_pair'; assumption))
    | (intro x; refine Frame.cut (w := wF) (z := zF) (x := x) ?_ ?_ <;> [subst x; (intro _; clear_value x)])
    | (intro x; clear_value x)
    | (intro _)
    | lift_lets
    | split

theorem execPatrolScrubMismatch_fr {wF : Nat} {zF : State} (group : Nat) (u_stripe : Nat) (persists : Bool) (unit : Option Nat) {s : State} (hF : Frame wF zF s) (hW : Sub 0x800000000000 wF) :
    FrameO wF zF (execPatrolScrubMismatch group u_stripe persists unit s) := by
  unfold execPatrolScrubMismatch
  repeat' first
    | (with_reducible assumption)
    | (with_reducible exact hW)
    | (with_reducible exact Sub.trans (Sub.mk (by decide)) hW)
    | (with_reducible apply State_modGrp_fr)
    | (with_reducible refine FrameO.next ?_)
    | (intro _)
    | split

theorem State_spareCheck_fr {wF : Nat} {zF : State} {s : State} (hF : Frame wF zF s) (hW : Sub 0x2081000000010000 wF) :
    Frame wF zF (State.spareCheck s) := by
  unfold State.spareCheck
  repeat' first
    | (with_reducible assumption)
    | (with_reducible exact hW)
    | (with_reducible exact Sub.trans (Sub.mk (by decide)) hW)
    | (with_reducible apply State_raise_fr)
    | (with_reducible apply State_setCause_fr)
    | (with_reducible apply State_modFlash_fr)
    | (intro x; refine Frame.cut (w := wF) (z := zF) (x := x) ?_ ?_ <;> [subst x; (intro _; clear_value x)])
    | (intro x; clear_value x)
    | (intro _)
    | lift_lets
    | split

theorem State_loseCopy_fr {wF : Nat} {zF : State} {s : State} (id : Nat) (hF : Frame wF zF s) (hW : Sub 0x20010400406100f9 wF) :
    Frame wF zF (State.loseCopy s id) := by
  unfold State.loseCopy
  repeat' first
    | (with_reducible assumption)
    | (with_reducible exact hW)
    | (with_reducible exact Sub.trans (Sub.mk (by decide)) hW)
    | (with_reducible apply State_dropCopy_fr)
    | (with_reducible apply State_modObj_fr)
    | (with_reducible apply State_loseObj_fr)
    | (with_reducible (apply Frame.of_pair; assumption))
    | (with_reducible (apply Frame.of_pair'; assumption))
    | (intro x; refine Frame.cut (w := wF) (z := zF) (x := x) ?_ ?_ <;> [subst x; (intro _; clear_value x)])
    | (intro x; clear_value x)
    | (intro _)
    | lift_lets
    | split

theorem State_setLoc_fr {wF : Nat} {zF : State} {s : State} (pool : Nat) (page : Nat) (loc : Nat) (hF : Frame wF zF s) (hW : Sub 0x1000000200000 wF) :
    Frame wF zF (State.setLoc s pool page loc) := by
  unfold State.setLoc
  repeat' first
    | (with_reducible assumption)
    | (with_reducible exact hW)
    | (with_reducible exact Sub.trans (Sub.mk (by decide)) hW)
    | (with_reducible apply State_modFlash_fr)
    | (with_reducible apply State_modPage_fr)
    | (with_reducible apply State_modPool_fr)
    | (intro x; refine Frame.cut (w := wF) (z := zF) (x := x) ?_ ?_ <;> [subst x; (intro _; clear_value x)])
    | (intro x; clear_value x)
    | (intro _)
    | lift_lets
    | split

theorem State_moveExt_fr {wF : Nat} {zF : State} {s : State} (pool : Nat) (page : Nat) (hF : Frame wF zF s) (hW : Sub 0x1000000210001 wF) :
    Frame wF zF (State.moveExt s pool page) := by
  unfold State.moveExt
  extract_lets n s1
  have h1 : Frame wF zF s1 := State_readExt_fr _ _ _ hF (Sub.trans (Sub.mk (by decide)) hW)
  clear_value s1
  split
  · rename_i e
    exact State_setLoc_fr _ _ _ (State_logSpill_fr _ _ _ (State_modFlash_fr _ h1 (Sub.trans (Sub.mk (by decide)) hW)) (Sub.trans (Sub.mk (by decide)) hW) e) (Sub.trans (Sub.mk (by decide)) hW)
  · exact h1

theorem State_moveOwner_fr {wF : Nat} {zF : State} {s : State} (x : Bool × Nat × Nat) (hF : Frame wF zF s) (hW : Sub 0x1000000210001 wF) :
    Frame wF zF (State.moveOwner s x) := by
  unfold State.moveOwner
  repeat' first
    | (with_reducible assumption)
    | (with_reducible exact hW)
    | (with_reducible exact Sub.trans (Sub.mk (by decide)) hW)
    | (with_reducible apply State_moveExt_fr)
    | (with_reducible apply State_moveUnit_fr)
    | split

theorem State_loseOwner_fr {wF : Nat} {zF : State} {s : State} (x : Bool × Nat × Nat) (hF : Frame wF zF s) (hW : Sub 0x20010400406100f9 wF) :
    Frame wF zF (State.loseOwner s x) := by
  unfold State.loseOwner
  repeat' first
    | (with_reducible assumption)
    | (with_reducible exact hW)
    | (with_reducible exact Sub.trans (Sub.mk (by decide)) hW)
    | (with_reducible apply State_modFlash_fr)
    | (with_reducible apply State_moveOwner_fr)
    | (with_reducible apply State_loseCopy_fr)
    | (with_reducible (apply Frame.of_pair; assumption))
    | (with_reducible (apply Frame.of_pair'; assumption))
    | (intro _)
    | split

theorem State_stripesLost_fr {wF : Nat} {zF : State} {s : State} (d : Nat) (hF : Frame wF zF s) (hW : Sub 0x28a187fbe2e13cff wF) :
    Frame wF zF (State.stripesLost s d) := by
  unfold State.stripesLost
  repeat' first
    | (with_reducible assumption)
    | (with_reducible exact hW)
    | (with_reducible exact Sub.trans (Sub.mk (by decide)) hW)
    | (with_reducible apply State_loseOwner_fr)
    | (with_reducible apply State_raise_fr)
    | (with_reducible apply State_lossChecks_fr)
    | (with_reducible refine Frame.foldl (fun _ _ _ => ?_) _ ?_)
    | (with_reducible refine Frame.foldl1 (fun _ _ _ => ?_) _ ?_)
    | (with_reducible refine Frame.foldl2 (fun _ _ _ => ?_) _ ?_)
    | (with_reducible refine Frame.getD (fun _ _ => ?_) ?_)
    | (intro x; refine Frame.cut (w := wF) (z := zF) (x := x) ?_ ?_ <;> [subst x; (intro _; clear_value x)])
    | (intro x; clear_value x)
    | (intro _)
    | lift_lets
    | split

theorem State_nandFail_fr {wF : Nat} {zF : State} {s : State} (d : Nat) (hF : Frame wF zF s) (hW : Sub 0x29a187fbe2e13cff wF) :
    Frame wF zF (State.nandFail s d) := by
  unfold State.nandFail
  repeat' first
    | (with_reducible assumption)
    | (with_reducible exact hW)
    | (with_reducible exact Sub.trans (Sub.mk (by decide)) hW)
    | (with_reducible apply State_modFlash_fr)
    | (with_reducible apply State_modNor_fr)
    | (with_reducible apply State_raise_fr)
    | (with_reducible apply State_stripesLost_fr)
    | (intro x; refine Frame.cut (w := wF) (z := zF) (x := x) ?_ ?_ <;> [subst x; (intro _; clear_value x)])
    | (intro x; clear_value x)
    | (intro _)
    | lift_lets
    | split

theorem execNandDieFail_fr {wF : Nat} {zF : State} (die : Nat) {s : State} (hF : Frame wF zF s) (hW : Sub 0x29a187fbe2e13cff wF) :
    FrameO wF zF (execNandDieFail die s) := by
  unfold execNandDieFail
  repeat' first
    | (with_reducible assumption)
    | (with_reducible exact hW)
    | (with_reducible exact Sub.trans (Sub.mk (by decide)) hW)
    | (with_reducible apply State_nandFail_fr)
    | (with_reducible refine FrameO.next ?_)

theorem execNandOpDone_fr {wF : Nat} {zF : State} (die : Nat) {s : State} (hF : Frame wF zF s) (hW : Sub 0x1000000000000 wF) :
    FrameO wF zF (execNandOpDone die s) := by
  unfold execNandOpDone
  repeat' first
    | (with_reducible assumption)
    | (with_reducible exact hW)
    | (with_reducible exact Sub.trans (Sub.mk (by decide)) hW)
    | (with_reducible apply State_modFlash_fr)
    | (with_reducible refine FrameO.next ?_)
    | (intro _)

theorem execNandProgramFail_fr {wF : Nat} {zF : State} (die : Nat) (block : Nat) {s : State} (hF : Frame wF zF s) (hW : Sub 0x29a187fbe2e13cff wF) :
    FrameO wF zF (execNandProgramFail die block s) := by
  unfold execNandProgramFail
  repeat' first
    | (with_reducible assumption)
    | (with_reducible exact hW)
    | (with_reducible exact Sub.trans (Sub.mk (by decide)) hW)
    | (with_reducible apply State_modFlash_fr)
    | (with_reducible apply State_modBlock_fr)
    | (with_reducible apply State_moveOwner_fr)
    | (with_reducible apply State_spareCheck_fr)
    | (with_reducible apply State_nandFail_fr)
    | (with_reducible refine FrameO.next ?_)
    | (with_reducible refine Frame.foldl (fun _ _ _ => ?_) _ ?_)
    | (with_reducible refine Frame.foldl1 (fun _ _ _ => ?_) _ ?_)
    | (with_reducible refine Frame.foldl2 (fun _ _ _ => ?_) _ ?_)
    | (intro x; refine Frame.cut (w := wF) (z := zF) (x := x) ?_ ?_ <;> [subst x; (intro _; clear_value x)])
    | (intro x; clear_value x)
    | (intro _)
    | lift_lets
    | split

theorem State_rebuildStripe_fr {wF : Nat} {zF : State} {s : State} (die : Nat) (t : Stripe) (hF : Frame wF zF s) (hW : Sub 0x1000000010001 wF) :
    Frame wF zF (State.rebuildStripe s die t) := by
  unfold State.rebuildStripe
  extract_lets n s1
  have h1 : Frame wF zF s1 := Frame.foldl (fun _ _ h => State_readNand_fr _ _ _ h (Sub.trans (Sub.mk (by decide)) hW)) _ hF
  clear_value s1
  have c := State_logPage_fr t.spill (pkgOf die) n h1 (Sub.trans (Sub.mk (by decide)) hW)
  rcases e : s1.logPage t.spill (pkgOf die) n with ⟨_ | q, s2⟩
  · rw [e] at c
    exact c
  · rw [e] at c
    exact State_modFlash_fr _ c (Sub.trans (Sub.mk (by decide)) hW)

theorem State_rebuild_fr {wF : Nat} {zF : State} {s : State} (die : Nat) (hF : Frame wF zF s) (hW : Sub 0x1000000210001 wF) :
    Frame wF zF (State.rebuild s die) := by
  unfold State.rebuild
  repeat' first
    | (with_reducible assumption)
    | (with_reducible exact hW)
    | (with_reducible exact Sub.trans (Sub.mk (by decide)) hW)
    | (with_reducible apply State_rebuildStripe_fr)
    | (with_reducible apply State_setLoc_fr)
    | (with_reducible apply State_moveOwner_fr)
    | (with_reducible refine Frame.foldl (fun _ _ _ => ?_) _ ?_)
    | (with_reducible refine Frame.foldl1 (fun _ _ _ => ?_) _ ?_)
    | (with_reducible refine Frame.foldl2 (fun _ _ _ => ?_) _ ?_)
    | (with_reducible (apply Frame.of_pair; assumption))
    | (with_reducible (apply Frame.of_pair'; assumption))
    | (intro x; refine Frame.cut (w := wF) (z := zF) (x := x) ?_ ?_ <;> [subst x; (intro _; clear_value x)])
    | (intro x; clear_value x)
    | (intro _)
    | lift_lets
    | split

theorem execNandRebuildDone_fr {wF : Nat} {zF : State} (die : Nat) (complete : Bool) {s : State} (hF : Frame wF zF s) (hW : Sub 0x28a197fbe3e13cff wF) :
    FrameO wF zF (execNandRebuildDone die complete s) := by
  unfold execNandRebuildDone
  repeat' first
    | (with_reducible assumption)
    | (with_reducible exact hW)
    | (with_reducible exact Sub.trans (Sub.mk (by decide)) hW)
    | (with_reducible apply State_rebuild_fr)
    | (with_reducible apply State_draw_fr)
    | (with_reducible apply State_complete_fr)
    | (with_reducible apply State_modFlash_fr)
    | (with_reducible apply State_raise_fr)
    | (with_reducible apply State_spareCheck_fr)
    | (with_reducible apply State_setCause_fr)
    | (with_reducible refine FrameO.next ?_)
    | (with_reducible (apply Frame.of_pair; assumption))
    | (with_reducible (apply Frame.of_pair'; assumption))
    | (intro x; refine Frame.cut (w := wF) (z := zF) (x := x) ?_ ?_ <;> [subst x; (intro _; clear_value x)])
    | (intro x; clear_value x)
    | (intro _)
    | lift_lets
    | split

theorem execReadDisturbDue_fr {wF : Nat} {zF : State} (die : Nat) (block : Nat) (reads : Nat) {s : State} (hF : Frame wF zF s) (hW : Sub 0x1000000010000 wF) :
    FrameO wF zF (execReadDisturbDue die block reads s) := by
  unfold execReadDisturbDue
  repeat' first
    | (with_reducible assumption)
    | (with_reducible exact hW)
    | (with_reducible exact Sub.trans (Sub.mk (by decide)) hW)
    | (with_reducible apply State_countBlock_fr)
    | (with_reducible refine FrameO.next ?_)
    | (intro _)

theorem State_readTemps_fr {wF : Nat} {zF : State} {s : State} (hF : Frame wF zF s) (hW : Sub 0x1000000000001 wF) :
    Frame wF zF (State.readTemps s) := by
  unfold State.readTemps
  repeat' first
    | (with_reducible assumption)
    | (with_reducible exact hW)
    | (with_reducible exact Sub.trans (Sub.mk (by decide)) hW)
    | (with_reducible apply State_draw_fr)
    | (with_reducible apply State_modFlash_fr)
    | (with_reducible refine Frame.foldl (fun _ _ _ => ?_) _ ?_)
    | (with_reducible refine Frame.foldl1 (fun _ _ _ => ?_) _ ?_)
    | (with_reducible refine Frame.foldl2 (fun _ _ _ => ?_) _ ?_)
    | (with_reducible (apply Frame.of_pair; assumption))
    | (with_reducible (apply Frame.of_pair'; assumption))
    | (with_reducible show List.length _ = List.length _; simp)
    | (intro x; refine Frame.cut (w := wF) (z := zF) (x := x) ?_ ?_ <;> [subst x; (intro _; clear_value x)])
    | (intro x; clear_value x)
    | (intro _)
    | lift_lets
    | split

theorem execThermalAgeTick_fr {wF : Nat} {zF : State} (minutes : Nat) {s : State} (hF : Frame wF zF s) (hW : Sub 0x1000000010001 wF) :
    FrameO wF zF (execThermalAgeTick minutes s) := by
  unfold execThermalAgeTick
  repeat' first
    | (with_reducible assumption)
    | (with_reducible exact hW)
    | (with_reducible exact Sub.trans (Sub.mk (by decide)) hW)
    | (with_reducible apply State_readTemps_fr)
    | (with_reducible apply State_modFlash_fr)
    | (with_reducible apply State_raiseIf_fr)
    | (with_reducible refine FrameO.next ?_)
    | (with_reducible refine Frame.getD (fun _ _ => ?_) ?_)
    | (intro x; refine Frame.cut (w := wF) (z := zF) (x := x) ?_ ?_ <;> [subst x; (intro _; clear_value x)])
    | (intro x; clear_value x)
    | (intro _)
    | lift_lets

theorem execRelocationDone_fr {wF : Nat} {zF : State} (die : Nat) (block : Nat) {s : State} (hF : Frame wF zF s) (hW : Sub 0x1000000210001 wF) :
    FrameO wF zF (execRelocationDone die block s) := by
  unfold execRelocationDone
  extract_lets hit l away
  split
  · exact FrameO.next hF
  · rename_i s1 _
    have h1 : Frame wF zF s1 := State_modFlash_fr _ (Frame.foldl (fun _ _ h => State_moveOwner_fr _ h (Sub.trans (Sub.mk (by decide)) hW)) _ hF) (Sub.trans (Sub.mk (by decide)) hW)
    clear_value s1
    exact FrameO.next (Frame.ite h1 (State_modFlash_fr _ (State_modBlock_fr _ _ _ h1 (Sub.trans (Sub.mk (by decide)) hW)) (Sub.trans (Sub.mk (by decide)) hW)))

theorem execNandOvertemp_fr {wF : Nat} {zF : State} (pkg : Nat) {s : State} (hF : Frame wF zF s) (hW : Sub 0x1000000010001 wF) :
    FrameO wF zF (execNandOvertemp pkg s) := by
  unfold execNandOvertemp
  repeat' first
    | (with_reducible assumption)
    | (with_reducible exact hW)
    | (with_reducible exact Sub.trans (Sub.mk (by decide)) hW)
    | (with_reducible apply State_draw_fr)
    | (with_reducible apply State_modFlash_fr)
    | (with_reducible apply State_raise_fr)
    | (with_reducible refine FrameO.next ?_)
    | (with_reducible (apply Frame.of_pair; assumption))
    | (with_reducible (apply Frame.of_pair'; assumption))
    | (with_reducible show List.length _ = List.length _; simp)
    | (intro x; refine Frame.cut (w := wF) (z := zF) (x := x) ?_ ?_ <;> [subst x; (intro _; clear_value x)])
    | (intro x; clear_value x)
    | (intro _)
    | lift_lets
    | split

theorem execNandTempOk_fr {wF : Nat} {zF : State} (pkg : Nat) {s : State} (hF : Frame wF zF s) (hW : Sub 0x1000000000001 wF) :
    FrameO wF zF (execNandTempOk pkg s) := by
  unfold execNandTempOk
  repeat' first
    | (with_reducible assumption)
    | (with_reducible exact hW)
    | (with_reducible exact Sub.trans (Sub.mk (by decide)) hW)
    | (with_reducible apply State_draw_fr)
    | (with_reducible apply State_modFlash_fr)
    | (with_reducible refine FrameO.next ?_)
    | (with_reducible (apply Frame.of_pair; assumption))
    | (with_reducible (apply Frame.of_pair'; assumption))
    | (with_reducible show List.length _ = List.length _; simp)
    | (intro x; refine Frame.cut (w := wF) (z := zF) (x := x) ?_ ?_ <;> [subst x; (intro _; clear_value x)])
    | (intro x; clear_value x)
    | (intro _)
    | lift_lets
    | split

theorem execFlashScrubPass_fr {wF : Nat} {zF : State} (die : Nat) (block : Nat) (corrected : Nat) {s : State} (hF : Frame wF zF s) (hW : Sub 0x1000000010000 wF) :
    FrameO wF zF (execFlashScrubPass die block corrected s) := by
  unfold execFlashScrubPass
  repeat' first
    | (with_reducible assumption)
    | (with_reducible exact hW)
    | (with_reducible exact Sub.trans (Sub.mk (by decide)) hW)
    | (with_reducible apply State_countBlock_fr)
    | (with_reducible apply State_modFlash_fr)
    | (with_reducible refine FrameO.next ?_)
    | (intro _)

end Sys2Proof.Machine
end

