-- ==== Sys2Proof/Laws/FrameSpillway.lean ====
section
/-! SUPPORT. What each operation of Machine/Spillway.lean may change. -/

set_option linter.all false

namespace Sys2Proof.Machine

open Sys2Proof

theorem State_stall_fr {wF : Nat} {zF : State} {s : State} (pool : Nat) (hF : Frame wF zF s) (hW : Sub 0x20210000 wF) :
    Frame wF zF (State.stall s pool) := by
  unfold State.stall
  repeat' first
    | (with_reducible assumption)
    | (with_reducible exact hW)
    | (with_reducible exact Sub.trans (Sub.mk (by decide)) hW)
    | (with_reducible apply State_modPool_fr)
    | (with_reducible apply State_raise_fr)
    | (intro _)
    | ((fail_if_success split); with_reducible apply Frame.upd_spillPool)

theorem State_spillTo_fr {wF : Nat} {zF : State} {s : State} (pool : Nat) (page : Nat) (tier : Nat) (place : Nat) (hF : Frame wF zF s) (hW : Sub 0x200000 wF) :
    Frame wF zF (State.spillTo s pool page tier place) := by
  unfold State.spillTo
  repeat' first
    | (with_reducible assumption)
    | (with_reducible exact hW)
    | (with_reducible exact Sub.trans (Sub.mk (by decide)) hW)
    | (with_reducible apply State_modPage_fr)
    | (with_reducible apply State_modPool_fr)
    | (intro _)

theorem State_spillHost_fr {wF : Nat} {zF : State} {s : State} (pool : Nat) (page : Nat) (p : Pool) (hF : Frame wF zF s) (hW : Sub 0x20210001 wF) :
    Frame wF zF (State.spillHost s pool page p) := by
  unfold State.spillHost
  repeat' first
    | (with_reducible assumption)
    | (with_reducible exact hW)
    | (with_reducible exact Sub.trans (Sub.mk (by decide)) hW)
    | (with_reducible apply State_choose_fr)
    | (with_reducible apply State_spillTo_fr)
    | (with_reducible apply State_stall_fr)
    | (with_reducible (apply Frame.of_pair; assumption))
    | (with_reducible (apply Frame.of_pair'; assumption))
    | split

theorem State_spillFlash_fr {wF : Nat} {zF : State} {s : State} (pool : Nat) (page : Nat) (p : Pool) (hF : Frame wF zF s) (hW : Sub 0x1000020210001 wF) :
    Frame wF zF (State.spillFlash s pool page p) := by
  unfold State.spillFlash
  split
  · rename_i e
    exact State_spillTo_fr _ _ _ _ (State_modFlash_fr _ (State_logSpill_fr _ _ _ hF (Sub.trans (Sub.mk (by decide)) hW) e) (Sub.trans (Sub.mk (by decide)) hW)) (Sub.trans (Sub.mk (by decide)) hW)
  · exact State_stall_fr _ hF (Sub.trans (Sub.mk (by decide)) hW)

theorem State_spillNext_fr {wF : Nat} {zF : State} {s : State} (pool : Nat) (hF : Frame wF zF s) (hW : Sub 0x1000020210001 wF) :
    Frame wF zF (State.spillNext s pool) := by
  unfold State.spillNext
  repeat' first
    | (with_reducible assumption)
    | (with_reducible exact hW)
    | (with_reducible exact Sub.trans (Sub.mk (by decide)) hW)
    | (with_reducible apply State_modPool_fr)
    | (with_reducible apply State_spillHost_fr)
    | (with_reducible apply State_spillFlash_fr)
    | (with_reducible apply State_raiseIf_fr)
    | (with_reducible apply State_stall_fr)
    | (with_reducible (apply Frame.of_pair; assumption))
    | (with_reducible (apply Frame.of_pair'; assumption))
    | (intro x; refine Frame.cut (w := wF) (z := zF) (x := x) ?_ ?_ <;> [subst x; (intro _; clear_value x)])
    | (intro x; clear_value x)
    | (intro _)
    | lift_lets
    | split

theorem execSpillStart_fr {wF : Nat} {zF : State} (pool : Nat) {s : State} (hF : Frame wF zF s) (hW : Sub 0x1000020210001 wF) :
    FrameO wF zF (execSpillStart pool s) := by
  unfold execSpillStart
  repeat' first
    | (with_reducible assumption)
    | (with_reducible exact hW)
    | (with_reducible exact Sub.trans (Sub.mk (by decide)) hW)
    | (with_reducible apply State_modPool_fr)
    | (with_reducible apply State_spillNext_fr)
    | (with_reducible refine FrameO.next ?_)
    | (with_reducible (apply Frame.of_pair; assumption))
    | (with_reducible (apply Frame.of_pair'; assumption))
    | (intro _)
    | split

theorem State_spillEnd_fr {wF : Nat} {zF : State} {s : State} (pool : Nat) (page : Nat) (hF : Frame wF zF s) (hW : Sub 0x1000020210000 wF) :
    Frame wF zF (State.spillEnd s pool page) := by
  unfold State.spillEnd
  repeat' first
    | (with_reducible assumption)
    | (with_reducible exact hW)
    | (with_reducible exact Sub.trans (Sub.mk (by decide)) hW)
    | (with_reducible apply State_modPage_fr)
    | (with_reducible apply State_modPool_fr)
    | (with_reducible apply State_spillTo_fr)
    | (with_reducible apply State_hostRoom_fr)
    | (with_reducible apply State_modFlash_fr)
    | (with_reducible refine Frame.getD (fun _ _ => ?_) ?_)
    | (with_reducible (apply Frame.of_pair; assumption))
    | (with_reducible (apply Frame.of_pair'; assumption))
    | (intro x; refine Frame.cut (w := wF) (z := zF) (x := x) ?_ ?_ <;> [subst x; (intro _; clear_value x)])
    | (intro x; clear_value x)
    | (intro _)
    | lift_lets
    | split

theorem State_spillWrite_fr {wF : Nat} {zF : State} {s : State} (p : Pool) (pool : Nat) (page : Nat) (tier : Nat) (place : Nat) (bytes : List Byte) (hF : Frame wF zF s) (hW : Sub 0x1000000000018 wF) {tT : State} (hT : State.spillWrite s p pool page tier place bytes = some tT) :
    Frame wF zF tT := by
  unfold State.spillWrite at hT
  split at hT
  · split at hT
    · split at hT
      · cases hT
      · cases hT
        exact State_hostWrite_fr _ _ _ hF (Sub.trans (Sub.mk (by decide)) hW)
    · cases hT
  · split at hT
    · cases hT
    · cases hT
      exact State_modFlash_fr _ hF (Sub.trans (Sub.mk (by decide)) hW)

theorem execSpillWriteDone_fr {wF : Nat} {zF : State} (pool : Nat) (page : Nat) {s : State} (hF : Frame wF zF s) (hW : Sub 0x1000020210019 wF) :
    FrameO wF zF (execSpillWriteDone pool page s) := by
  unfold execSpillWriteDone
  repeat' first
    | (with_reducible assumption)
    | (with_reducible exact hW)
    | (with_reducible exact Sub.trans (Sub.mk (by decide)) hW)
    | (with_reducible apply State_spillTo_fr)
    | (with_reducible apply State_spillEnd_fr)
    | (with_reducible apply State_settlePage_fr)
    | (with_reducible apply State_spillNext_fr)
    | (with_reducible (apply State_spillWrite_fr; case hT => assumption))
    | (with_reducible apply State_stall_fr)
    | (with_reducible apply State_modPage_fr)
    | (with_reducible apply State_modPool_fr)
    | (with_reducible refine FrameO.next ?_)
    | (with_reducible (apply Frame.of_pair; assumption))
    | (with_reducible (apply Frame.of_pair'; assumption))
    | (intro x; refine Frame.cut (w := wF) (z := zF) (x := x) ?_ ?_ <;> [subst x; (intro _; clear_value x)])
    | (intro x; clear_value x)
    | (intro _)
    | lift_lets
    | split

theorem execPageReturnStart_fr {wF : Nat} {zF : State} (pool : Nat) (page : Nat) {s : State} (hF : Frame wF zF s) (hW : Sub 0x1000000210001 wF) :
    FrameO wF zF (execPageReturnStart pool page s) := by
  unfold execPageReturnStart
  repeat' first
    | (with_reducible assumption)
    | (with_reducible exact hW)
    | (with_reducible exact Sub.trans (Sub.mk (by decide)) hW)
    | (with_reducible apply State_modPool_fr)
    | (with_reducible apply State_choose_fr)
    | (with_reducible apply State_readExt_fr)
    | (with_reducible apply State_modPage_fr)
    | (with_reducible refine FrameO.next ?_)
    | (with_reducible (apply Frame.of_pair; assumption))
    | (with_reducible (apply Frame.of_pair'; assumption))
    | (intro x; refine Frame.cut (w := wF) (z := zF) (x := x) ?_ ?_ <;> [subst x; (intro _; clear_value x)])
    | (intro x; clear_value x)
    | (intro _)
    | lift_lets
    | split

theorem State_dropSpill_fr {wF : Nat} {zF : State} {s : State} (pool : Nat) (page : Nat) (hF : Frame wF zF s) (hW : Sub 0x1000020210000 wF) :
    Frame wF zF (State.dropSpill s pool page) := by
  unfold State.dropSpill
  repeat' first
    | (with_reducible assumption)
    | (with_reducible exact hW)
    | (with_reducible exact Sub.trans (Sub.mk (by decide)) hW)
    | (with_reducible apply State_modPage_fr)
    | (with_reducible apply State_hostRoom_fr)
    | (with_reducible apply State_modFlash_fr)
    | (with_reducible refine Frame.getD (fun _ _ => ?_) ?_)
    | (intro x; refine Frame.cut (w := wF) (z := zF) (x := x) ?_ ?_ <;> [subst x; (intro _; clear_value x)])
    | (intro x; clear_value x)
    | (intro _)
    | lift_lets
    | split

theorem State_loseKv_fr {wF : Nat} {zF : State} {s : State} (pool : Nat) (page : Nat) (hF : Frame wF zF s) (hW : Sub 0x2000000100210000 wF) :
    Frame wF zF (State.loseKv s pool page) := by
  unfold State.loseKv
  repeat' first
    | (with_reducible assumption)
    | (with_reducible exact hW)
    | (with_reducible exact Sub.trans (Sub.mk (by decide)) hW)
    | (with_reducible apply State_modPage_fr)
    | (with_reducible apply State_raise_fr)
    | (with_reducible apply State_blame_fr)
    | (with_reducible apply State_failStep_fr)
    | (with_reducible refine Frame.foldl (fun _ _ _ => ?_) _ ?_)
    | (with_reducible refine Frame.foldl1 (fun _ _ _ => ?_) _ ?_)
    | (with_reducible refine Frame.foldl2 (fun _ _ _ => ?_) _ ?_)
    | (intro x; refine Frame.cut (w := wF) (z := zF) (x := x) ?_ ?_ <;> [subst x; (intro _; clear_value x)])
    | (intro x; clear_value x)
    | (intro _)
    | lift_lets
    | split

theorem execPageReturnDone_fr {wF : Nat} {zF : State} (pool : Nat) (page : Nat) (readOk : Bool) {s : State} (hF : Frame wF zF s) (hW : Sub 0x2001040120210005 wF) :
    FrameO wF zF (execPageReturnDone pool page readOk s) := by
  unfold execPageReturnDone
  repeat' first
    | (with_reducible assumption)
    | (with_reducible exact hW)
    | (with_reducible exact Sub.trans (Sub.mk (by decide)) hW)
    | (with_reducible apply State_modPage_fr)
    | (with_reducible apply State_dropSpill_fr)
    | (with_reducible apply State_settlePage_fr)
    | (with_reducible apply State_loseKv_fr)
    | (with_reducible apply State_modWrite_fr)
    | (with_reducible apply State_wakeCopy_fr)
    | (with_reducible apply State_readExt_fr)
    | (with_reducible refine FrameO.next ?_)
    | (with_reducible refine Frame.foldl (fun _ _ _ => ?_) _ ?_)
    | (with_reducible refine Frame.foldl1 (fun _ _ _ => ?_) _ ?_)
    | (with_reducible refine Frame.foldl2 (fun _ _ _ => ?_) _ ?_)
    | (with_reducible (apply Frame.of_pair; assumption))
    | (with_reducible (apply Frame.of_pair'; assumption))
    | (intro x; refine Frame.cut (w := wF) (z := zF) (x := x) ?_ ?_ <;> [subst x; (intro _; clear_value x)])
    | (intro x; clear_value x)
    | (intro _)
    | lift_lets
    | split

theorem execQuotaReturn_fr {wF : Nat} {zF : State} (pool : Nat) {s : State} (hF : Frame wF zF s) (hW : Sub 0x1000020210001 wF) :
    FrameO wF zF (execQuotaReturn pool s) := by
  unfold execQuotaReturn
  repeat' first
    | (with_reducible assumption)
    | (with_reducible exact hW)
    | (with_reducible exact Sub.trans (Sub.mk (by decide)) hW)
    | (with_reducible apply State_modPool_fr)
    | (with_reducible apply State_raise_fr)
    | (with_reducible apply State_spillNext_fr)
    | (with_reducible refine FrameO.next ?_)
    | (with_reducible (apply Frame.of_pair; assumption))
    | (with_reducible (apply Frame.of_pair'; assumption))
    | (intro _)
    | ((fail_if_success split); with_reducible apply Frame.upd_spillPool)
    | split

end Sys2Proof.Machine
end

