-- ==== Sys2Proof/Laws/FrameLinks.lean ====
section
/-! SUPPORT. What each operation of Machine/Links.lean may change. -/

set_option linter.all false

namespace Sys2Proof.Machine

open Sys2Proof

theorem State_sendData_fr {wF : Nat} {zF : State} {s : State} (i : Nat) (f : Flit) (hF : Frame wF zF s) (hW : Sub 0x2000000000000000 wF) :
    Frame wF zF (State.sendData s i f) := by
  unfold State.sendData
  repeat' first
    | (with_reducible assumption)
    | (with_reducible exact hW)
    | (with_reducible exact Sub.trans (Sub.mk (by decide)) hW)
    | (with_reducible apply State_emit_fr)
    | (intro x; refine Frame.cut (w := wF) (z := zF) (x := x) ?_ ?_ <;> [subst x; (intro _; clear_value x)])
    | (intro x; clear_value x)
    | (intro _)
    | lift_lets

theorem State_sendIdent_fr {wF : Nat} {zF : State} {s : State} (i : Nat) (x : Ident) (hF : Frame wF zF s) (hW : Sub 0x2000000000000000 wF) :
    Frame wF zF (State.sendIdent s i x) := by
  unfold State.sendIdent
  repeat' first
    | (with_reducible assumption)
    | (with_reducible exact hW)
    | (with_reducible exact Sub.trans (Sub.mk (by decide)) hW)
    | (with_reducible apply State_emit_fr)

theorem State_emitNak_fr {wF : Nat} {zF : State} {s : State} (i : Nat) (hF : Frame wF zF s) (hW : Sub 0x2000000000000000 wF) :
    Frame wF zF (State.emitNak s i) := by
  unfold State.emitNak
  repeat' first
    | (with_reducible assumption)
    | (with_reducible exact hW)
    | (with_reducible exact Sub.trans (Sub.mk (by decide)) hW)
    | (with_reducible apply State_emit_fr)
    | (intro x; refine Frame.cut (w := wF) (z := zF) (x := x) ?_ ?_ <;> [subst x; (intro _; clear_value x)])
    | (intro x; clear_value x)
    | (intro _)
    | lift_lets

theorem State_sendCredit_fr {wF : Nat} {zF : State} {s : State} (i : Nat) (hF : Frame wF zF s) (hW : Sub 0x2002000000000000 wF) :
    Frame wF zF (State.sendCredit s i) := by
  unfold State.sendCredit
  repeat' first
    | (with_reducible assumption)
    | (with_reducible exact hW)
    | (with_reducible exact Sub.trans (Sub.mk (by decide)) hW)
    | (with_reducible apply State_emit_fr)
    | (with_reducible apply State_modLink_fr)
    | (with_reducible refine Frame.getD (fun _ _ => ?_) ?_)
    | (intro x; refine Frame.cut (w := wF) (z := zF) (x := x) ?_ ?_ <;> [subst x; (intro _; clear_value x)])
    | (intro x; clear_value x)
    | (intro _)
    | lift_lets

theorem State_sendHeld_fr {wF : Nat} {zF : State} (i : Nat) : ∀ (n : Nat) {s : State} (_hF : Frame wF zF s) (_hW : Sub 0x2002000000000000 wF),
    Frame wF zF (State.sendHeld s i n)
  | 0, _, h, _ => h
  | n + 1, s, hF, hW => by
    unfold State.sendHeld
    extract_lets l
    split
    · exact hF
    · split
      · exact hF
      · exact State_sendHeld_fr i n (State_sendData_fr _ _ (State_modLink_fr _ _ hF (Sub.trans (Sub.mk (by decide)) hW)) (Sub.trans (Sub.mk (by decide)) hW)) hW

theorem State_pump_fr {wF : Nat} {zF : State} {s : State} (i : Nat) (hF : Frame wF zF s) (hW : Sub 0x2002000000000000 wF) :
    Frame wF zF (State.pump s i) := by
  unfold State.pump
  repeat' first
    | (with_reducible assumption)
    | (with_reducible exact hW)
    | (with_reducible exact Sub.trans (Sub.mk (by decide)) hW)
    | (with_reducible apply State_sendHeld_fr)
    | (with_reducible refine Frame.foldl (fun _ _ _ => ?_) _ ?_)
    | (with_reducible refine Frame.foldl1 (fun _ _ _ => ?_) _ ?_)
    | (with_reducible refine Frame.foldl2 (fun _ _ _ => ?_) _ ?_)

theorem State_sendOn_fr {wF : Nat} {zF : State} {s : State} (b : Nat) (p : Packet) (hF : Frame wF zF s) (hW : Sub 0x2002000000000000 wF) :
    Frame wF zF (State.sendOn s b p) := by
  unfold State.sendOn
  repeat' first
    | (with_reducible assumption)
    | (with_reducible exact hW)
    | (with_reducible exact Sub.trans (Sub.mk (by decide)) hW)
    | (with_reducible apply State_modLink_fr)
    | (with_reducible apply State_pump_fr)
    | (with_reducible (apply Frame.of_pair; assumption))
    | (with_reducible (apply Frame.of_pair'; assumption))
    | (intro _)
    | split

theorem State_sendFirst_fr {wF : Nat} {zF : State} {s : State} (b : Nat) (ps : List Packet) (hF : Frame wF zF s) (hW : Sub 0x2000000000000 wF) :
    Frame wF zF (State.sendFirst s b ps) := by
  unfold State.sendFirst
  repeat' first
    | (with_reducible assumption)
    | (with_reducible exact hW)
    | (with_reducible exact Sub.trans (Sub.mk (by decide)) hW)
    | (with_reducible apply State_modLink_fr)
    | (with_reducible refine Frame.foldl (fun _ _ _ => ?_) _ ?_)
    | (with_reducible refine Frame.foldl1 (fun _ _ _ => ?_) _ ?_)
    | (with_reducible refine Frame.foldl2 (fun _ _ _ => ?_) _ ?_)
    | (with_reducible refine Frame.getD (fun _ _ => ?_) ?_)
    | (with_reducible (apply Frame.of_pair; assumption))
    | (with_reducible (apply Frame.of_pair'; assumption))
    | (intro x; refine Frame.cut (w := wF) (z := zF) (x := x) ?_ ?_ <;> [subst x; (intro _; clear_value x)])
    | (intro x; clear_value x)
    | (intro _)
    | lift_lets
    | split

theorem State_dropMask_fr {wF : Nat} {zF : State} {s : State} (hF : Frame wF zF s) (hW : Sub 0x8000000010000 wF) :
    Frame wF zF (State.dropMask s) := by
  unfold State.dropMask
  repeat' first
    | (with_reducible assumption)
    | (with_reducible exact hW)
    | (with_reducible exact Sub.trans (Sub.mk (by decide)) hW)
    | (with_reducible apply State_raise_fr)
    | ((fail_if_success split); with_reducible apply Frame.upd_router)

theorem State_dropForeign_fr {wF : Nat} {zF : State} {s : State} (hF : Frame wF zF s) (hW : Sub 0x8000000010000 wF) :
    Frame wF zF (State.dropForeign s) := by
  unfold State.dropForeign
  repeat' first
    | (with_reducible assumption)
    | (with_reducible exact hW)
    | (with_reducible exact Sub.trans (Sub.mk (by decide)) hW)
    | (with_reducible apply State_raise_fr)
    | ((fail_if_success split); with_reducible apply Frame.upd_router)

theorem State_forward_fr {wF : Nat} {zF : State} {s : State} (b : Nat) (p : Packet) (hF : Frame wF zF s) (hW : Sub 0x200a000000010000 wF) :
    Frame wF zF (State.forward s b p) := by
  unfold State.forward
  repeat' first
    | (with_reducible assumption)
    | (with_reducible exact hW)
    | (with_reducible exact Sub.trans (Sub.mk (by decide)) hW)
    | (with_reducible apply State_dropForeign_fr)
    | (with_reducible apply State_sendOn_fr)
    | split

theorem State_transit_fr {wF : Nat} {zF : State} {s : State} (p : Packet) (hF : Frame wF zF s) (hW : Sub 0x200a000000010000 wF) :
    Frame wF zF (State.transit s p).1 := by
  unfold State.transit
  repeat' first
    | (with_reducible assumption)
    | (with_reducible exact hW)
    | (with_reducible exact Sub.trans (Sub.mk (by decide)) hW)
    | (with_reducible apply State_dropForeign_fr)
    | (with_reducible apply State_forward_fr)
    | (with_reducible refine Frame.getD (fun _ _ => ?_) ?_)
    | (with_reducible (apply Frame.of_pair; assumption))
    | (with_reducible (apply Frame.of_pair'; assumption))
    | (intro x; refine Frame.cut (w := wF) (z := zF) (x := x) ?_ ?_ <;> [subst x; (intro _; clear_value x)])
    | (intro x; clear_value x)
    | (intro _)
    | lift_lets
    | ((fail_if_success split); with_reducible apply Frame.upd_router)
    | split

theorem State_routePacket_fr {wF : Nat} {zF : State} {s : State} (p : Packet) (hF : Frame wF zF s) (hW : Sub 0x200a000000010000 wF) :
    Frame wF zF (State.routePacket s p).1 := by
  unfold State.routePacket
  repeat' first
    | (with_reducible assumption)
    | (with_reducible exact hW)
    | (with_reducible exact Sub.trans (Sub.mk (by decide)) hW)
    | (with_reducible apply State_transit_fr)
    | (with_reducible apply State_emit_fr)
    | (with_reducible apply State_forward_fr)
    | (with_reducible apply State_dropMask_fr)
    | (with_reducible (apply Frame.of_pair; assumption))
    | (with_reducible (apply Frame.of_pair'; assumption))
    | split

theorem State_route_fr {wF : Nat} {zF : State} {s : State} (i : Nat) (p : Packet) (hF : Frame wF zF s) (hW : Sub 0x200a000000010000 wF) :
    Frame wF zF (State.route s i p).1 := by
  have c := State_routePacket_fr p hF (Sub.trans (Sub.mk (by decide)) hW)
  unfold State.route
  rcases e : s.routePacket p with ⟨s', _ | _⟩ <;> rw [e] at c
  · exact c
  · exact State_raise_fr _ _ (Frame.upd_router c (Sub.trans (Sub.mk (by decide)) hW)) (Sub.trans (Sub.mk (by decide)) hW)

theorem execPacketRoute_fr {wF : Nat} {zF : State} (p : Packet) {s : State} (hF : Frame wF zF s) (hW : Sub 0x200a000000010000 wF) :
    FrameO wF zF (execPacketRoute p s) := by
  unfold execPacketRoute
  repeat' first
    | (with_reducible assumption)
    | (with_reducible exact hW)
    | (with_reducible exact Sub.trans (Sub.mk (by decide)) hW)
    | (with_reducible apply State_route_fr)
    | (with_reducible refine FrameO.next ?_)

theorem State_ackIn_fr {wF : Nat} {zF : State} {s : State} (i : Nat) (ack : Nat) (hF : Frame wF zF s) (hW : Sub 0x2002000000000000 wF) :
    Frame wF zF (State.ackIn s i ack) := by
  unfold State.ackIn
  repeat' first
    | (with_reducible assumption)
    | (with_reducible exact hW)
    | (with_reducible exact Sub.trans (Sub.mk (by decide)) hW)
    | (with_reducible apply State_modLink_fr)
    | (with_reducible apply State_pump_fr)
    | (intro x; refine Frame.cut (w := wF) (z := zF) (x := x) ?_ ?_ <;> [subst x; (intro _; clear_value x)])
    | (intro x; clear_value x)
    | (intro _)
    | lift_lets
    | split

theorem State_giveBack_fr {wF : Nat} {zF : State} {s : State} (i : Nat) (cls : Nat) (n : Nat) (hF : Frame wF zF s) (hW : Sub 0x2002000000000000 wF) :
    Frame wF zF (State.giveBack s i cls n) := by
  unfold State.giveBack
  repeat' first
    | (with_reducible assumption)
    | (with_reducible exact hW)
    | (with_reducible exact Sub.trans (Sub.mk (by decide)) hW)
    | (with_reducible apply State_modLink_fr)
    | (with_reducible apply State_sendCredit_fr)
    | (with_reducible refine Frame.getD (fun _ _ => ?_) ?_)
    | (with_reducible show List.length _ = List.length _; simp)
    | (intro x; refine Frame.cut (w := wF) (z := zF) (x := x) ?_ ?_ <;> [subst x; (intro _; clear_value x)])
    | (intro x; clear_value x)
    | (intro _)
    | lift_lets
    | split

theorem execCreditTimer_fr {wF : Nat} {zF : State} (link : Nat) {s : State} (hF : Frame wF zF s) (hW : Sub 0x2002000000000000 wF) :
    FrameO wF zF (execCreditTimer link s) := by
  unfold execCreditTimer
  repeat' first
    | (with_reducible assumption)
    | (with_reducible exact hW)
    | (with_reducible exact Sub.trans (Sub.mk (by decide)) hW)
    | (with_reducible apply State_sendCredit_fr)
    | (with_reducible refine FrameO.next ?_)
    | (intro _)
    | split

theorem execCreditReceived_fr {wF : Nat} {zF : State} (rx : RxHead) (c0 : Nat) (c1 : Nat) (c2 : Nat) {s : State} (hF : Frame wF zF s) (hW : Sub 0x2002000000000000 wF) :
    FrameO wF zF (execCreditReceived rx c0 c1 c2 s) := by
  unfold execCreditReceived
  repeat' first
    | (with_reducible assumption)
    | (with_reducible exact hW)
    | (with_reducible exact Sub.trans (Sub.mk (by decide)) hW)
    | (with_reducible apply State_ackIn_fr)
    | (with_reducible apply State_modLink_fr)
    | (with_reducible apply State_pump_fr)
    | (with_reducible refine FrameO.next ?_)
    | (with_reducible refine Frame.getD (fun _ _ => ?_) ?_)
    | (intro x; refine Frame.cut (w := wF) (z := zF) (x := x) ?_ ?_ <;> [subst x; (intro _; clear_value x)])
    | (intro x; clear_value x)
    | (intro _)
    | lift_lets

theorem execTransitWindow_fr {wF : Nat} {zF : State} {s : State} (hF : Frame wF zF s) (hW : Sub 0x200a000000010000 wF) :
    FrameO wF zF (execTransitWindow s) := by
  unfold execTransitWindow
  repeat' first
    | (with_reducible assumption)
    | (with_reducible exact hW)
    | (with_reducible exact Sub.trans (Sub.mk (by decide)) hW)
    | (with_reducible apply State_route_fr)
    | (with_reducible apply State_giveBack_fr)
    | (with_reducible refine FrameO.next ?_)
    | (with_reducible refine Frame.foldl (fun _ _ _ => ?_) _ ?_)
    | (with_reducible refine Frame.foldl1 (fun _ _ _ => ?_) _ ?_)
    | (with_reducible refine Frame.foldl2 (fun _ _ _ => ?_) _ ?_)
    | (with_reducible (apply Frame.of_pair; assumption))
    | (with_reducible (apply Frame.of_pair'; assumption))
    | (intro x; refine Frame.cut (w := wF) (z := zF) (x := x) ?_ ?_ <;> [subst x; (intro _; clear_value x)])
    | (intro x; clear_value x)
    | (intro _)
    | lift_lets
    | ((fail_if_success split); with_reducible apply Frame.upd_router)
    | split

theorem State_bundleLost_fr {wF : Nat} {zF : State} {s : State} (b : Nat) (hF : Frame wF zF s) (hW : Sub 0x28a187fbe2e13cff wF) :
    Frame wF zF (State.bundleLost s b) := by
  unfold State.bundleLost
  repeat' first
    | (with_reducible assumption)
    | (with_reducible exact hW)
    | (with_reducible exact Sub.trans (Sub.mk (by decide)) hW)
    | (with_reducible apply State_stopJob_fr)
    | (with_reducible refine Frame.foldl (fun _ _ _ => ?_) _ ?_)
    | (with_reducible refine Frame.foldl1 (fun _ _ _ => ?_) _ ?_)
    | (with_reducible refine Frame.foldl2 (fun _ _ _ => ?_) _ ?_)
    | (intro _)
    | split

theorem State_bundleChecks_fr {wF : Nat} {zF : State} {s : State} (hF : Frame wF zF s) (hW : Sub 0x20040000000100f8 wF) :
    Frame wF zF (State.bundleChecks s) := by
  unfold State.bundleChecks
  repeat' first
    | (with_reducible assumption)
    | (with_reducible exact hW)
    | (with_reducible exact Sub.trans (Sub.mk (by decide)) hW)
    | (with_reducible apply State_finish_fr)
    | (with_reducible refine Frame.foldl (fun _ _ _ => ?_) _ ?_)
    | (with_reducible refine Frame.foldl1 (fun _ _ _ => ?_) _ ?_)
    | (with_reducible refine Frame.foldl2 (fun _ _ _ => ?_) _ ?_)
    | (with_reducible (apply Frame.of_pair; assumption))
    | (with_reducible (apply Frame.of_pair'; assumption))
    | (intro x; refine Frame.cut (w := wF) (z := zF) (x := x) ?_ ?_ <;> [subst x; (intro _; clear_value x)])
    | (intro x; clear_value x)
    | (intro _)
    | lift_lets
    | ((fail_if_success split); with_reducible apply Frame.upd_bundleW)
    | split

theorem State_linkTo_fr {wF : Nat} {zF : State} {s : State} (i : Nat) (st : LState) (hF : Frame wF zF s) (hW : Sub 0x2000000010000 wF) :
    Frame wF zF (State.linkTo s i st) := by
  unfold State.linkTo
  repeat' first
    | (with_reducible assumption)
    | (with_reducible exact hW)
    | (with_reducible exact Sub.trans (Sub.mk (by decide)) hW)
    | (with_reducible apply State_modLink_fr)
    | (with_reducible apply State_raiseIf_fr)
    | (intro x; refine Frame.cut (w := wF) (z := zF) (x := x) ?_ ?_ <;> [subst x; (intro _; clear_value x)])
    | (intro x; clear_value x)
    | (intro _)
    | lift_lets

theorem State_freshLink_fr {wF : Nat} {zF : State} {s : State} (i : Nat) (hF : Frame wF zF s) (hW : Sub 0xa000000000000 wF) :
    Frame wF zF (State.freshLink s i) := by
  unfold State.freshLink
  repeat' first
    | (with_reducible assumption)
    | (with_reducible exact hW)
    | (with_reducible exact Sub.trans (Sub.mk (by decide)) hW)
    | (with_reducible apply State_modLink_fr)
    | (intro _)
    | ((fail_if_success split); with_reducible apply Frame.upd_router)
    | split

theorem State_retrain_fr {wF : Nat} {zF : State} {s : State} (i : Nat) (hF : Frame wF zF s) (hW : Sub 0x208e0000000100f8 wF) :
    Frame wF zF (State.retrain s i) := by
  unfold State.retrain
  repeat' first
    | (with_reducible assumption)
    | (with_reducible exact hW)
    | (with_reducible exact Sub.trans (Sub.mk (by decide)) hW)
    | (with_reducible apply State_linkTo_fr)
    | (with_reducible apply State_freshLink_fr)
    | (with_reducible apply State_narrowCause_fr)
    | (with_reducible apply State_bundleChecks_fr)

theorem State_linkGone_fr {wF : Nat} {zF : State} {s : State} (i : Nat) (st : LState) (hF : Frame wF zF s) (hW : Sub 0x28af87fbe2e13cff wF) :
    Frame wF zF (State.linkGone s i st) := by
  unfold State.linkGone
  repeat' first
    | (with_reducible assumption)
    | (with_reducible exact hW)
    | (with_reducible exact Sub.trans (Sub.mk (by decide)) hW)
    | (with_reducible apply State_linkTo_fr)
    | (with_reducible apply State_freshLink_fr)
    | (with_reducible apply State_sendFirst_fr)
    | (with_reducible apply State_pump_fr)
    | (with_reducible apply State_narrowCause_fr)
    | (with_reducible apply State_bundleLost_fr)
    | (with_reducible apply State_bundleChecks_fr)
    | (with_reducible refine Frame.foldl (fun _ _ _ => ?_) _ ?_)
    | (with_reducible refine Frame.foldl1 (fun _ _ _ => ?_) _ ?_)
    | (with_reducible refine Frame.foldl2 (fun _ _ _ => ?_) _ ?_)
    | (intro x; refine Frame.cut (w := wF) (z := zF) (x := x) ?_ ?_ <;> [subst x; (intro _; clear_value x)])
    | (intro x; clear_value x)
    | (intro _)
    | lift_lets
    | split

theorem State_linkFail_fr {wF : Nat} {zF : State} {s : State} (i : Nat) (hF : Frame wF zF s) (hW : Sub 0x28af87fbe2e13cff wF) :
    Frame wF zF (State.linkFail s i) := by
  unfold State.linkFail
  repeat' first
    | (with_reducible assumption)
    | (with_reducible exact hW)
    | (with_reducible exact Sub.trans (Sub.mk (by decide)) hW)
    | (with_reducible apply State_linkGone_fr)
    | (with_reducible apply State_raise_fr)
    | (with_reducible apply State_faultTrigger_fr)
    | (with_reducible (apply Frame.of_pair; assumption))
    | (with_reducible (apply Frame.of_pair'; assumption))
    | split

theorem execLinkFail_fr {wF : Nat} {zF : State} (link : Nat) {s : State} (hF : Frame wF zF s) (hW : Sub 0x28af87fbe2e13cff wF) :
    FrameO wF zF (execLinkFail link s) := by
  unfold execLinkFail
  repeat' first
    | (with_reducible assumption)
    | (with_reducible exact hW)
    | (with_reducible exact Sub.trans (Sub.mk (by decide)) hW)
    | (with_reducible apply State_linkFail_fr)
    | (with_reducible refine FrameO.next ?_)

theorem State_takePacket_fr {wF : Nat} {zF : State} {s : State} (i : Nat) (p : Packet) (hF : Frame wF zF s) (hW : Sub 0x200a000000010000 wF) :
    Frame wF zF (State.takePacket s i p) := by
  unfold State.takePacket
  repeat' first
    | (with_reducible assumption)
    | (with_reducible exact hW)
    | (with_reducible exact Sub.trans (Sub.mk (by decide)) hW)
    | (with_reducible apply State_emit_fr)
    | (with_reducible apply State_giveBack_fr)
    | (with_reducible apply State_modLink_fr)
    | (with_reducible apply State_raise_fr)
    | (with_reducible apply State_route_fr)
    | (with_reducible (apply Frame.of_pair; assumption))
    | (with_reducible (apply Frame.of_pair'; assumption))
    | (intro x; refine Frame.cut (w := wF) (z := zF) (x := x) ?_ ?_ <;> [subst x; (intro _; clear_value x)])
    | (intro x; clear_value x)
    | (intro _)
    | lift_lets
    | ((fail_if_success split); with_reducible apply Frame.upd_router)
    | split

theorem State_sendNak_fr {wF : Nat} {zF : State} {s : State} (i : Nat) (hF : Frame wF zF s) (hW : Sub 0x2002000000000000 wF) :
    Frame wF zF (State.sendNak s i) := by
  unfold State.sendNak
  repeat' first
    | (with_reducible assumption)
    | (with_reducible exact hW)
    | (with_reducible exact Sub.trans (Sub.mk (by decide)) hW)
    | (with_reducible apply State_emitNak_fr)
    | (with_reducible apply State_modLink_fr)
    | (intro _)
    | split

theorem execDataFlitReceived_fr {wF : Nat} {zF : State} (link : Nat) (f : Flit) (intact : Bool) {s : State} (hF : Frame wF zF s) (hW : Sub 0x200a000000010001 wF) :
    FrameO wF zF (execDataFlitReceived link f intact s) := by
  unfold execDataFlitReceived
  repeat' first
    | (with_reducible assumption)
    | (with_reducible exact hW)
    | (with_reducible exact Sub.trans (Sub.mk (by decide)) hW)
    | (with_reducible apply State_draw_fr)
    | (with_reducible apply State_modLink_fr)
    | (with_reducible apply State_sendNak_fr)
    | (with_reducible apply State_ackIn_fr)
    | (with_reducible apply State_takePacket_fr)
    | (with_reducible apply State_giveBack_fr)
    | (with_reducible refine FrameO.next ?_)
    | (with_reducible (apply Frame.of_pair; assumption))
    | (with_reducible (apply Frame.of_pair'; assumption))
    | (intro x; refine Frame.cut (w := wF) (z := zF) (x := x) ?_ ?_ <;> [subst x; (intro _; clear_value x)])
    | (intro x; clear_value x)
    | (intro _)
    | lift_lets
    | split

theorem State_replay_fr {wF : Nat} {zF : State} {s : State} (i : Nat) (fs : List Flit) (hF : Frame wF zF s) (hW : Sub 0x28af87fbe2e13cff wF) :
    Frame wF zF (State.replay s i fs) := by
  unfold State.replay
  repeat' first
    | (with_reducible assumption)
    | (with_reducible exact hW)
    | (with_reducible exact Sub.trans (Sub.mk (by decide)) hW)
    | (with_reducible apply State_sendData_fr)
    | (with_reducible apply State_modLink_fr)
    | (with_reducible apply State_linkFail_fr)
    | (with_reducible refine Frame.foldl (fun _ _ _ => ?_) _ ?_)
    | (with_reducible refine Frame.foldl1 (fun _ _ _ => ?_) _ ?_)
    | (with_reducible refine Frame.foldl2 (fun _ _ _ => ?_) _ ?_)
    | (with_reducible (apply Frame.of_pair; assumption))
    | (with_reducible (apply Frame.of_pair'; assumption))
    | (intro x; refine Frame.cut (w := wF) (z := zF) (x := x) ?_ ?_ <;> [subst x; (intro _; clear_value x)])
    | (intro x; clear_value x)
    | (intro _)
    | lift_lets
    | split

theorem execNakReceived_fr {wF : Nat} {zF : State} (rx : RxHead) (nakSeq : Nat) {s : State} (hF : Frame wF zF s) (hW : Sub 0x28af87fbe2e13cff wF) :
    FrameO wF zF (execNakReceived rx nakSeq s) := by
  unfold execNakReceived
  repeat' first
    | (with_reducible assumption)
    | (with_reducible exact hW)
    | (with_reducible exact Sub.trans (Sub.mk (by decide)) hW)
    | (with_reducible apply State_modLink_fr)
    | (with_reducible apply State_replay_fr)
    | (with_reducible apply State_pump_fr)
    | (with_reducible refine FrameO.next ?_)
    | (intro x; refine Frame.cut (w := wF) (z := zF) (x := x) ?_ ?_ <;> [subst x; (intro _; clear_value x)])
    | (intro x; clear_value x)
    | (intro _)
    | lift_lets
    | split

theorem execAckTimeout_fr {wF : Nat} {zF : State} (link : Nat) {s : State} (hF : Frame wF zF s) (hW : Sub 0x28af87fbe2e13cff wF) :
    FrameO wF zF (execAckTimeout link s) := by
  unfold execAckTimeout
  repeat' first
    | (with_reducible assumption)
    | (with_reducible exact hW)
    | (with_reducible exact Sub.trans (Sub.mk (by decide)) hW)
    | (with_reducible apply State_replay_fr)
    | (with_reducible refine FrameO.next ?_)
    | split

theorem execLinkTrainDone_fr {wF : Nat} {zF : State} (link : Nat) (good : Nat) (pol : Nat) (reversed : Bool) {s : State} (hF : Frame wF zF s) (hW : Sub 0x28af87fbe2e13cff wF) :
    FrameO wF zF (execLinkTrainDone link good pol reversed s) := by
  unfold execLinkTrainDone
  repeat' first
    | (with_reducible assumption)
    | (with_reducible exact hW)
    | (with_reducible exact Sub.trans (Sub.mk (by decide)) hW)
    | (with_reducible apply State_retrain_fr)
    | (with_reducible apply State_linkFail_fr)
    | (with_reducible apply State_modLink_fr)
    | (with_reducible apply State_sendIdent_fr)
    | (with_reducible apply State_narrowCause_fr)
    | (with_reducible refine FrameO.next ?_)
    | (intro x; refine Frame.cut (w := wF) (z := zF) (x := x) ?_ ?_ <;> [subst x; (intro _; clear_value x)])
    | (intro x; clear_value x)
    | (intro _)
    | lift_lets
    | split

theorem execLinkTrainTimeout_fr {wF : Nat} {zF : State} (link : Nat) {s : State} (hF : Frame wF zF s) (hW : Sub 0x28af87fbe2e13cff wF) :
    FrameO wF zF (execLinkTrainTimeout link s) := by
  unfold execLinkTrainTimeout
  repeat' first
    | (with_reducible assumption)
    | (with_reducible exact hW)
    | (with_reducible exact Sub.trans (Sub.mk (by decide)) hW)
    | (with_reducible apply State_retrain_fr)
    | (with_reducible apply State_linkFail_fr)
    | (with_reducible refine FrameO.next ?_)
    | (intro x; refine Frame.cut (w := wF) (z := zF) (x := x) ?_ ?_ <;> [subst x; (intro _; clear_value x)])
    | (intro x; clear_value x)
    | (intro _)
    | lift_lets
    | split

theorem State_linkUp_fr {wF : Nat} {zF : State} {s : State} (i : Nat) (hF : Frame wF zF s) (hW : Sub 0x288e0000000100f9 wF) :
    Frame wF zF (State.linkUp s i) := by
  unfold State.linkUp
  repeat' first
    | (with_reducible assumption)
    | (with_reducible exact hW)
    | (with_reducible exact Sub.trans (Sub.mk (by decide)) hW)
    | (with_reducible apply State_retrain_fr)
    | (with_reducible apply State_modLink_fr)
    | (with_reducible apply State_raise_fr)
    | (with_reducible apply State_sendData_fr)
    | (with_reducible apply State_faultTrigger_fr)
    | (with_reducible apply State_pump_fr)
    | (with_reducible apply State_narrowCause_fr)
    | (with_reducible apply State_bundleChecks_fr)
    | (with_reducible refine Frame.foldl (fun _ _ _ => ?_) _ ?_)
    | (with_reducible refine Frame.foldl1 (fun _ _ _ => ?_) _ ?_)
    | (with_reducible refine Frame.foldl2 (fun _ _ _ => ?_) _ ?_)
    | (intro x; refine Frame.cut (w := wF) (z := zF) (x := x) ?_ ?_ <;> [subst x; (intro _; clear_value x)])
    | (intro x; clear_value x)
    | (intro _)
    | lift_lets
    | split

theorem execIdentReceived_fr {wF : Nat} {zF : State} (rx : RxHead) (i : Ident) {s : State} (hF : Frame wF zF s) (hW : Sub 0x28af87fbe2e13cff wF) :
    FrameO wF zF (execIdentReceived rx i s) := by
  unfold execIdentReceived
  repeat' first
    | (with_reducible assumption)
    | (with_reducible exact hW)
    | (with_reducible exact Sub.trans (Sub.mk (by decide)) hW)
    | (with_reducible apply State_ackIn_fr)
    | (with_reducible apply State_retrain_fr)
    | (with_reducible apply State_modLink_fr)
    | (with_reducible apply State_linkUp_fr)
    | (with_reducible apply State_raise_fr)
    | (with_reducible apply State_bundleChecks_fr)
    | (with_reducible apply State_linkFail_fr)
    | (with_reducible refine FrameO.next ?_)
    | (with_reducible (apply Frame.of_pair; assumption))
    | (with_reducible (apply Frame.of_pair'; assumption))
    | (intro x; refine Frame.cut (w := wF) (z := zF) (x := x) ?_ ?_ <;> [subst x; (intro _; clear_value x)])
    | (intro x; clear_value x)
    | (intro _)
    | lift_lets
    | split

theorem execMiswireRecheck_fr {wF : Nat} {zF : State} (link : Nat) {s : State} (hF : Frame wF zF s) (hW : Sub 0x288e0000000100f9 wF) :
    FrameO wF zF (execMiswireRecheck link s) := by
  unfold execMiswireRecheck
  repeat' first
    | (with_reducible assumption)
    | (with_reducible exact hW)
    | (with_reducible exact Sub.trans (Sub.mk (by decide)) hW)
    | (with_reducible apply State_sendIdent_fr)
    | (with_reducible apply State_linkUp_fr)
    | (with_reducible refine FrameO.next ?_)
    | (with_reducible (apply Frame.of_pair; assumption))
    | (with_reducible (apply Frame.of_pair'; assumption))
    | (intro x; refine Frame.cut (w := wF) (z := zF) (x := x) ?_ ?_ <;> [subst x; (intro _; clear_value x)])
    | (intro x; clear_value x)
    | (intro _)
    | lift_lets
    | split

theorem execLaneFault_fr {wF : Nat} {zF : State} (link : Nat) (lane : Nat) {s : State} (hF : Frame wF zF s) (hW : Sub 0x28af87fbe2e13cff wF) :
    FrameO wF zF (execLaneFault link lane s) := by
  unfold execLaneFault
  repeat' first
    | (with_reducible assumption)
    | (with_reducible exact hW)
    | (with_reducible exact Sub.trans (Sub.mk (by decide)) hW)
    | (with_reducible apply State_draw_fr)
    | (with_reducible apply State_raiseIf_fr)
    | (with_reducible apply State_linkFail_fr)
    | (with_reducible apply State_linkTo_fr)
    | (with_reducible apply State_retrain_fr)
    | (with_reducible apply State_modLink_fr)
    | (with_reducible refine FrameO.next ?_)
    | (with_reducible (apply Frame.of_pair; assumption))
    | (with_reducible (apply Frame.of_pair'; assumption))
    | (intro x; refine Frame.cut (w := wF) (z := zF) (x := x) ?_ ?_ <;> [subst x; (intro _; clear_value x)])
    | (intro x; clear_value x)
    | (intro _)
    | lift_lets
    | split

theorem execLinkRetryTimer_fr {wF : Nat} {zF : State} (link : Nat) {s : State} (hF : Frame wF zF s) (hW : Sub 0x208e0000000100f8 wF) :
    FrameO wF zF (execLinkRetryTimer link s) := by
  unfold execLinkRetryTimer
  repeat' first
    | (with_reducible assumption)
    | (with_reducible exact hW)
    | (with_reducible exact Sub.trans (Sub.mk (by decide)) hW)
    | (with_reducible apply State_retrain_fr)
    | (with_reducible refine FrameO.next ?_)
    | split

theorem execLinkRestore_fr {wF : Nat} {zF : State} (link : Nat) {s : State} (hF : Frame wF zF s) (hW : Sub 0x208e0000000100f8 wF) :
    FrameO wF zF (execLinkRestore link s) := by
  unfold execLinkRestore
  repeat' first
    | (with_reducible assumption)
    | (with_reducible exact hW)
    | (with_reducible exact Sub.trans (Sub.mk (by decide)) hW)
    | (with_reducible apply State_retrain_fr)
    | (with_reducible refine FrameO.next ?_)
    | (intro x; refine Frame.cut (w := wF) (z := zF) (x := x) ?_ ?_ <;> [subst x; (intro _; clear_value x)])
    | (intro x; clear_value x)
    | (intro _)
    | lift_lets
    | split

theorem State_lnkRetrain_fr {wF : Nat} {zF : State} {s : State} (link : Nat) (hF : Frame wF zF s) (hW : Sub 0x208e0000000100f8 wF) :
    Frame wF zF (State.lnkRetrain s link) := by
  unfold State.lnkRetrain
  repeat' first
    | (with_reducible assumption)
    | (with_reducible exact hW)
    | (with_reducible exact Sub.trans (Sub.mk (by decide)) hW)
    | (with_reducible apply State_raise_fr)
    | (with_reducible apply State_retrain_fr)
    | (with_reducible (apply Frame.of_pair; assumption))
    | (with_reducible (apply Frame.of_pair'; assumption))
    | split

theorem execLnkRetrain_fr {wF : Nat} {zF : State} (m : Master) (link : Nat) {s : State} (hF : Frame wF zF s) (hW : Sub 0x208e0000000100f8 wF) :
    FrameO wF zF (execLnkRetrain m link s) := by
  unfold execLnkRetrain
  repeat' first
    | (with_reducible assumption)
    | (with_reducible exact hW)
    | (with_reducible exact Sub.trans (Sub.mk (by decide)) hW)
    | (with_reducible apply State_lnkRetrain_fr)
    | (with_reducible refine FrameO.next ?_)
    | split

theorem State_linkStart_fr {wF : Nat} {zF : State} {s : State} (i : Nat) (hF : Frame wF zF s) (hW : Sub 0x208e0000000100f8 wF) :
    Frame wF zF (State.linkStart s i) := by
  unfold State.linkStart
  repeat' first
    | (with_reducible assumption)
    | (with_reducible exact hW)
    | (with_reducible exact Sub.trans (Sub.mk (by decide)) hW)
    | (with_reducible apply State_retrain_fr)
    | (with_reducible apply State_modLink_fr)
    | (intro x; refine Frame.cut (w := wF) (z := zF) (x := x) ?_ ?_ <;> [subst x; (intro _; clear_value x)])
    | (intro x; clear_value x)
    | (intro _)
    | lift_lets
    | split

theorem State_lnkEnable_fr {wF : Nat} {zF : State} {s : State} (link : Nat) (en : Bool) (hF : Frame wF zF s) (hW : Sub 0x28af87fbe2e53cff wF) :
    Frame wF zF (State.lnkEnable s link en) := by
  unfold State.lnkEnable
  repeat' first
    | (with_reducible assumption)
    | (with_reducible exact hW)
    | (with_reducible exact Sub.trans (Sub.mk (by decide)) hW)
    | (with_reducible apply State_modLink_fr)
    | (with_reducible apply State_linkStart_fr)
    | (with_reducible apply State_linkGone_fr)
    | (intro x; refine Frame.cut (w := wF) (z := zF) (x := x) ?_ ?_ <;> [subst x; (intro _; clear_value x)])
    | (intro x; clear_value x)
    | (intro _)
    | lift_lets
    | ((fail_if_success split); with_reducible apply Frame.upd_lkIgnore)
    | split

theorem execLnkEnableWrite_fr {wF : Nat} {zF : State} (m : Master) (link : Nat) (en : Bool) {s : State} (hF : Frame wF zF s) (hW : Sub 0x28af87fbe2e53cff wF) :
    FrameO wF zF (execLnkEnableWrite m link en s) := by
  unfold execLnkEnableWrite
  repeat' first
    | (with_reducible assumption)
    | (with_reducible exact hW)
    | (with_reducible exact Sub.trans (Sub.mk (by decide)) hW)
    | (with_reducible apply State_lnkEnable_fr)
    | (with_reducible refine FrameO.next ?_)
    | split

theorem opBundleSet_fr {wF : Nat} {zF : State} (r : Ref) (b : List Byte) {s : State} (hF : Frame wF zF s) (hW : Sub 0x209e0000000100f8 wF) :
    Frame wF zF (opBundleSet r b s) := by
  unfold opBundleSet
  repeat' first
    | (with_reducible assumption)
    | (with_reducible exact hW)
    | (with_reducible exact Sub.trans (Sub.mk (by decide)) hW)
    | (with_reducible apply State_finish_fr)
    | (with_reducible apply State_linkTo_fr)
    | (with_reducible apply State_freshLink_fr)
    | (with_reducible apply State_modLink_fr)
    | (with_reducible apply State_linkStart_fr)
    | (with_reducible apply State_narrowCause_fr)
    | (with_reducible apply State_bundleChecks_fr)
    | (with_reducible refine Frame.foldl (fun _ _ _ => ?_) _ ?_)
    | (with_reducible refine Frame.foldl1 (fun _ _ _ => ?_) _ ?_)
    | (with_reducible refine Frame.foldl2 (fun _ _ _ => ?_) _ ?_)
    | (intro x; refine Frame.cut (w := wF) (z := zF) (x := x) ?_ ?_ <;> [subst x; (intro _; clear_value x)])
    | (intro x; clear_value x)
    | (intro _)
    | lift_lets
    | ((fail_if_success split); with_reducible apply Frame.upd_coord)
    | ((fail_if_success split); with_reducible apply Frame.upd_bundleW)
    | split

theorem execTwinTileRequest_fr {wF : Nat} {zF : State} (obj : Nat) (tile : Nat) {s : State} (hF : Frame wF zF s) (hW : Sub 0x2001000000010001 wF) :
    FrameO wF zF (execTwinTileRequest obj tile s) := by
  unfold execTwinTileRequest
  repeat' first
    | (with_reducible assumption)
    | (with_reducible exact hW)
    | (with_reducible exact Sub.trans (Sub.mk (by decide)) hW)
    | (with_reducible apply State_emit_fr)
    | (with_reducible apply State_readTileCopy_fr)
    | (with_reducible apply State_readCopy_fr)
    | (with_reducible refine FrameO.next ?_)
    | (with_reducible (apply Frame.of_pair; assumption))
    | (with_reducible (apply Frame.of_pair'; assumption))
    | (intro x; refine Frame.cut (w := wF) (z := zF) (x := x) ?_ ?_ <;> [subst x; (intro _; clear_value x)])
    | (intro x; clear_value x)
    | (intro _)
    | lift_lets
    | split

theorem execNoSourceAnswer_fr {wF : Nat} {zF : State} (obj : Nat) {s : State} (hF : Frame wF zF s) (hW : Sub 0x202185fbe2e13cff wF) :
    FrameO wF zF (execNoSourceAnswer obj s) := by
  unfold execNoSourceAnswer
  repeat' first
    | (with_reducible assumption)
    | (with_reducible exact hW)
    | (with_reducible exact Sub.trans (Sub.mk (by decide)) hW)
    | (with_reducible apply State_arrivalLost_fr)
    | (with_reducible refine FrameO.next ?_)
    | (with_reducible (apply Frame.of_pair; assumption))
    | (with_reducible (apply Frame.of_pair'; assumption))
    | split

theorem State_linksAgain_fr {wF : Nat} {zF : State} {s : State} (hF : Frame wF zF s) (hW : Sub 0x208e0000000100f8 wF) :
    Frame wF zF (State.linksAgain s) := by
  unfold State.linksAgain
  repeat' first
    | (with_reducible assumption)
    | (with_reducible exact hW)
    | (with_reducible exact Sub.trans (Sub.mk (by decide)) hW)
    | (with_reducible apply State_retrain_fr)
    | (with_reducible apply State_linkTo_fr)
    | (with_reducible apply State_freshLink_fr)
    | (with_reducible refine Frame.foldl (fun _ _ _ => ?_) _ ?_)
    | (with_reducible refine Frame.foldl1 (fun _ _ _ => ?_) _ ?_)
    | (with_reducible refine Frame.foldl2 (fun _ _ _ => ?_) _ ?_)
    | (intro _)
    | split

theorem State_writeCoord_fr {wF : Nat} {zF : State} {s : State} (v : Nat) (hF : Frame wF zF s) (hW : Sub 0x209e0000000100f8 wF) :
    Frame wF zF (State.writeCoord s v) := by
  unfold State.writeCoord
  repeat' first
    | (with_reducible assumption)
    | (with_reducible exact hW)
    | (with_reducible exact Sub.trans (Sub.mk (by decide)) hW)
    | (with_reducible apply State_raise_fr)
    | (with_reducible apply State_linksAgain_fr)
    | (intro x; refine Frame.cut (w := wF) (z := zF) (x := x) ?_ ?_ <;> [subst x; (intro _; clear_value x)])
    | (intro x; clear_value x)
    | (intro _)
    | lift_lets
    | ((fail_if_success split); with_reducible apply Frame.upd_coord)
    | split

theorem execRteCoordWrite_fr {wF : Nat} {zF : State} (m : Master) (v : W32) {s : State} (hF : Frame wF zF s) (hW : Sub 0x209e0000000100f8 wF) :
    FrameO wF zF (execRteCoordWrite m v s) := by
  unfold execRteCoordWrite
  repeat' first
    | (with_reducible assumption)
    | (with_reducible exact hW)
    | (with_reducible exact Sub.trans (Sub.mk (by decide)) hW)
    | (with_reducible apply State_writeCoord_fr)
    | (with_reducible refine FrameO.next ?_)
    | split

theorem execStillToken_fr {wF : Nat} {zF : State} (tag : Nat) (origin : Nat) (capNo : Nat) {s : State} (hF : Frame wF zF s) (hW : Sub 0x2800000000000000 wF) :
    FrameO wF zF (execStillToken tag origin capNo s) := by
  unfold execStillToken
  repeat' first
    | (with_reducible assumption)
    | (with_reducible exact hW)
    | (with_reducible exact Sub.trans (Sub.mk (by decide)) hW)
    | (with_reducible apply State_modSnap_fr)
    | (with_reducible apply State_emits_fr)
    | (with_reducible apply State_capture_fr)
    | (with_reducible refine FrameO.next ?_)
    | (with_reducible (apply Frame.of_pair; assumption))
    | (with_reducible (apply Frame.of_pair'; assumption))
    | (intro x; refine Frame.cut (w := wF) (z := zF) (x := x) ?_ ?_ <;> [subst x; (intro _; clear_value x)])
    | (intro x; clear_value x)
    | (intro _)
    | lift_lets
    | split

theorem execStillInFall_fr {wF : Nat} {zF : State} (highNs : Nat) {s : State} (hF : Frame wF zF s) (hW : Sub 0x2800000000000000 wF) :
    FrameO wF zF (execStillInFall highNs s) := by
  unfold execStillInFall
  repeat' first
    | (with_reducible assumption)
    | (with_reducible exact hW)
    | (with_reducible exact Sub.trans (Sub.mk (by decide)) hW)
    | (with_reducible apply State_trigger_fr)
    | (with_reducible refine FrameO.next ?_)
    | split

theorem execStillOutPulseEnd_fr {wF : Nat} {zF : State} {s : State} (hF : Frame wF zF s) (hW : Sub 0x800000000000000 wF) :
    FrameO wF zF (execStillOutPulseEnd s) := by
  unfold execStillOutPulseEnd
  repeat' first
    | (with_reducible assumption)
    | (with_reducible exact hW)
    | (with_reducible exact Sub.trans (Sub.mk (by decide)) hW)
    | (with_reducible apply State_modSnap_fr)
    | (with_reducible refine FrameO.next ?_)
    | (intro _)

end Sys2Proof.Machine
end

