-- ==== Sys2Proof/Laws/FramePorts.lean ====
section
/-! SUPPORT. What each operation of Machine/Ports.lean may change. -/

set_option linter.all false

namespace Sys2Proof.Machine

open Sys2Proof

theorem State_portEvt_fr {wF : Nat} {zF : State} {s : State} (p : Port) (b : Nat) (hF : Frame wF zF s) (hW : Sub 0x10000 wF) :
    Frame wF zF (State.portEvt s p b) := by
  unfold State.portEvt
  repeat' first
    | (with_reducible assumption)
    | (with_reducible exact hW)
    | (with_reducible exact Sub.trans (Sub.mk (by decide)) hW)
    | (with_reducible apply State_raiseIf_fr)

theorem State_portDownEffects_fr {wF : Nat} {zF : State} {s : State} (p : Port) (hF : Frame wF zF s) (hW : Sub 0x202185fbe2e13cff wF) :
    Frame wF zF (State.portDownEffects s p) := by
  unfold State.portDownEffects
  repeat' first
    | (with_reducible assumption)
    | (with_reducible exact hW)
    | (with_reducible exact Sub.trans (Sub.mk (by decide)) hW)
    | (with_reducible apply State_modPort_fr)
    | (with_reducible apply State_arrivalLost_fr)
    | (with_reducible apply State_dropCopy_fr)
    | (with_reducible apply State_modObj_fr)
    | (with_reducible apply State_finishWaiters_fr)
    | (with_reducible refine Frame.foldl (fun _ _ _ => ?_) _ ?_)
    | (with_reducible refine Frame.foldl1 (fun _ _ _ => ?_) _ ?_)
    | (with_reducible refine Frame.foldl2 (fun _ _ _ => ?_) _ ?_)
    | (intro x; refine Frame.cut (w := wF) (z := zF) (x := x) ?_ ?_ <;> [subst x; (intro _; clear_value x)])
    | (intro x; clear_value x)
    | (intro _)
    | lift_lets

theorem State_portChange_fr {wF : Nat} {zF : State} {s : State} (p : Port) (f : PortSt → PortSt) (hF : Frame wF zF s) (hW : Sub 0x202185fbe2e13cff wF) :
    Frame wF zF (State.portChange s p f) := by
  unfold State.portChange
  repeat' first
    | (with_reducible assumption)
    | (with_reducible exact hW)
    | (with_reducible exact Sub.trans (Sub.mk (by decide)) hW)
    | (with_reducible apply State_modPort_fr)
    | (with_reducible apply State_portEvt_fr)
    | (with_reducible apply State_portDownEffects_fr)
    | (intro x; refine Frame.cut (w := wF) (z := zF) (x := x) ?_ ?_ <;> [subst x; (intro _; clear_value x)])
    | (intro x; clear_value x)
    | (intro _)
    | lift_lets
    | split

theorem execPerstAssert_fr {wF : Nat} {zF : State} (p : Port) {s : State} (hF : Frame wF zF s) (hW : Sub 0x202185fbe2e13cff wF) :
    FrameO wF zF (execPerstAssert p s) := by
  unfold execPerstAssert
  repeat' first
    | (with_reducible assumption)
    | (with_reducible exact hW)
    | (with_reducible exact Sub.trans (Sub.mk (by decide)) hW)
    | (with_reducible apply State_portChange_fr)
    | (with_reducible apply State_portEvt_fr)
    | (with_reducible refine FrameO.next ?_)
    | (intro _)

theorem execPerstDeassert_fr {wF : Nat} {zF : State} (p : Port) {s : State} (hF : Frame wF zF s) (hW : Sub 0x60 wF) :
    FrameO wF zF (execPerstDeassert p s) := by
  unfold execPerstDeassert
  repeat' first
    | (with_reducible assumption)
    | (with_reducible exact hW)
    | (with_reducible exact Sub.trans (Sub.mk (by decide)) hW)
    | (with_reducible apply State_modPort_fr)
    | (with_reducible refine FrameO.next ?_)
    | (intro _)

theorem execPcieHotReset_fr {wF : Nat} {zF : State} (p : Port) (u_how : PortReset) {s : State} (hF : Frame wF zF s) (hW : Sub 0x202185fbe2e13cff wF) :
    FrameO wF zF (execPcieHotReset p u_how s) := by
  unfold execPcieHotReset
  repeat' first
    | (with_reducible assumption)
    | (with_reducible exact hW)
    | (with_reducible exact Sub.trans (Sub.mk (by decide)) hW)
    | (with_reducible apply State_portChange_fr)
    | (with_reducible apply State_portEvt_fr)
    | (with_reducible refine FrameO.next ?_)
    | (intro _)

theorem execPcieFlr_fr {wF : Nat} {zF : State} (p : Port) {s : State} (hF : Frame wF zF s) (hW : Sub 0x202185fbe2e13cff wF) :
    FrameO wF zF (execPcieFlr p s) := by
  unfold execPcieFlr
  repeat' first
    | (with_reducible assumption)
    | (with_reducible exact hW)
    | (with_reducible exact Sub.trans (Sub.mk (by decide)) hW)
    | (with_reducible apply State_portChange_fr)
    | (with_reducible apply State_portEvt_fr)
    | (with_reducible refine FrameO.next ?_)
    | (intro _)

theorem execPcieLinkUp_fr {wF : Nat} {zF : State} (p : Port) (rate : Nat) (width : Nat) (flit : Bool) (reversed : Bool) (bestRate : Bool) {s : State} (hF : Frame wF zF s) (hW : Sub 0x288e0000000100f9 wF) :
    FrameO wF zF (execPcieLinkUp p rate width flit reversed bestRate s) := by
  unfold execPcieLinkUp
  repeat' first
    | (with_reducible assumption)
    | (with_reducible exact hW)
    | (with_reducible exact Sub.trans (Sub.mk (by decide)) hW)
    | (with_reducible apply State_modPort_fr)
    | (with_reducible apply State_linkUp_fr)
    | (with_reducible apply State_raise_fr)
    | (with_reducible apply State_raiseIf_fr)
    | (with_reducible refine FrameO.next ?_)
    | (intro x; refine Frame.cut (w := wF) (z := zF) (x := x) ?_ ?_ <;> [subst x; (intro _; clear_value x)])
    | (intro x; clear_value x)
    | (intro _)
    | lift_lets
    | split

theorem execPcieLinkDown_fr {wF : Nat} {zF : State} (p : Port) {s : State} (hF : Frame wF zF s) (hW : Sub 0x202185fbe2e13cff wF) :
    FrameO wF zF (execPcieLinkDown p s) := by
  unfold execPcieLinkDown
  repeat' first
    | (with_reducible assumption)
    | (with_reducible exact hW)
    | (with_reducible exact Sub.trans (Sub.mk (by decide)) hW)
    | (with_reducible apply State_portChange_fr)
    | (with_reducible refine FrameO.next ?_)

theorem execD3hotEntry_fr {wF : Nat} {zF : State} (p : Port) {s : State} (hF : Frame wF zF s) (hW : Sub 0x28af85fbe2e13cff wF) :
    FrameO wF zF (execD3hotEntry p s) := by
  unfold execD3hotEntry
  repeat' first
    | (with_reducible assumption)
    | (with_reducible exact hW)
    | (with_reducible exact Sub.trans (Sub.mk (by decide)) hW)
    | (with_reducible apply State_portChange_fr)
    | (with_reducible apply State_linkUp_fr)
    | (with_reducible refine FrameO.next ?_)
    | (intro _)

theorem execD3hotExit_fr {wF : Nat} {zF : State} (p : Port) {s : State} (hF : Frame wF zF s) (hW : Sub 0x60 wF) :
    FrameO wF zF (execD3hotExit p s) := by
  unfold execD3hotExit
  repeat' first
    | (with_reducible assumption)
    | (with_reducible exact hW)
    | (with_reducible exact Sub.trans (Sub.mk (by decide)) hW)
    | (with_reducible apply State_modPort_fr)
    | (with_reducible refine FrameO.next ?_)
    | (intro _)

theorem execIdeFail_fr {wF : Nat} {zF : State} (p : Port) (stream : Nat) {s : State} (hF : Frame wF zF s) (hW : Sub 0x28af85fbe2e13cff wF) :
    FrameO wF zF (execIdeFail p stream s) := by
  unfold execIdeFail
  repeat' first
    | (with_reducible assumption)
    | (with_reducible exact hW)
    | (with_reducible exact Sub.trans (Sub.mk (by decide)) hW)
    | (with_reducible apply State_linkUp_fr)
    | (with_reducible apply State_portChange_fr)
    | (with_reducible apply State_portEvt_fr)
    | (with_reducible refine FrameO.next ?_)
    | (intro _)
    | split

theorem execIdeKeyProgram_fr {wF : Nat} {zF : State} (p : Port) (stream : Nat) {s : State} (hF : Frame wF zF s) (hW : Sub 0x288e0000000100f9 wF) :
    FrameO wF zF (execIdeKeyProgram p stream s) := by
  unfold execIdeKeyProgram
  repeat' first
    | (with_reducible assumption)
    | (with_reducible exact hW)
    | (with_reducible exact Sub.trans (Sub.mk (by decide)) hW)
    | (with_reducible apply State_linkUp_fr)
    | (with_reducible apply State_modPort_fr)
    | (with_reducible refine FrameO.next ?_)
    | (intro x; refine Frame.cut (w := wF) (z := zF) (x := x) ?_ ?_ <;> [subst x; (intro _; clear_value x)])
    | (intro x; clear_value x)
    | (intro _)
    | lift_lets
    | split

theorem execConfigurationRequest_fr {wF : Nat} {zF : State} (p : Port) (r : CfgReq) {s : State} (hF : Frame wF zF s) (hW : Sub 0x61 wF) :
    FrameO wF zF (execConfigurationRequest p r s) := by
  unfold execConfigurationRequest
  repeat' first
    | (with_reducible assumption)
    | (with_reducible exact hW)
    | (with_reducible exact Sub.trans (Sub.mk (by decide)) hW)
    | (with_reducible apply State_draw_fr)
    | (with_reducible apply State_modPort_fr)
    | (with_reducible refine FrameO.next ?_)
    | (with_reducible (apply Frame.of_pair; assumption))
    | (with_reducible (apply Frame.of_pair'; assumption))
    | (intro x; refine Frame.cut (w := wF) (z := zF) (x := x) ?_ ?_ <;> [subst x; (intro _; clear_value x)])
    | (intro x; clear_value x)
    | (intro _)
    | lift_lets
    | split

theorem execBar4Read_fr {wF : Nat} {zF : State} (p : Port) (off : Nat) (n : Nat) {s : State} (hF : Frame wF zF s) (hW : Sub 0x2000000000000060 wF) :
    FrameO wF zF (execBar4Read p off n s) := by
  unfold execBar4Read
  repeat' first
    | (with_reducible assumption)
    | (with_reducible exact hW)
    | (with_reducible exact Sub.trans (Sub.mk (by decide)) hW)
    | (with_reducible apply State_emit_fr)
    | (with_reducible apply State_modPort_fr)
    | (with_reducible refine FrameO.next ?_)
    | (with_reducible (apply Frame.of_pair; assumption))
    | (with_reducible (apply Frame.of_pair'; assumption))
    | (intro x; refine Frame.cut (w := wF) (z := zF) (x := x) ?_ ?_ <;> [subst x; (intro _; clear_value x)])
    | (intro x; clear_value x)
    | (intro _)
    | lift_lets
    | split

theorem execBar4Write_fr {wF : Nat} {zF : State} (p : Port) (off : Nat) (bytes : List Byte) {s : State} (hF : Frame wF zF s) (hW : Sub 0x64 wF) :
    FrameO wF zF (execBar4Write p off bytes s) := by
  unfold execBar4Write
  repeat' first
    | (with_reducible assumption)
    | (with_reducible exact hW)
    | (with_reducible exact Sub.trans (Sub.mk (by decide)) hW)
    | (with_reducible apply State_modWrite_fr)
    | (with_reducible apply State_modPort_fr)
    | (with_reducible refine FrameO.next ?_)
    | (with_reducible refine Frame.foldl (fun _ _ _ => ?_) _ ?_)
    | (with_reducible refine Frame.foldl1 (fun _ _ _ => ?_) _ ?_)
    | (with_reducible refine Frame.foldl2 (fun _ _ _ => ?_) _ ?_)
    | (with_reducible (apply Frame.of_pair; assumption))
    | (with_reducible (apply Frame.of_pair'; assumption))
    | (intro x; refine Frame.cut (w := wF) (z := zF) (x := x) ?_ ?_ <;> [subst x; (intro _; clear_value x)])
    | (intro x; clear_value x)
    | (intro _)
    | lift_lets
    | split

end Sys2Proof.Machine
end

