-- ==== Sys2Proof/Laws/FrameReadback.lean ====
section
/-! SUPPORT. What each operation of Machine/Readback.lean may change. -/

set_option linter.all false

namespace Sys2Proof.Machine

open Sys2Proof

theorem State_dumpTo_fr {wF : Nat} {zF : State} {s : State} (r : Ref) (dst : Nat) (b : List Byte) (more : List Byte) (hF : Frame wF zF s) (hW : Sub 0x20000000000100f8 wF) :
    Frame wF zF (State.dumpTo s r dst b more) := by
  unfold State.dumpTo
  repeat' first
    | (with_reducible assumption)
    | (with_reducible exact hW)
    | (with_reducible exact Sub.trans (Sub.mk (by decide)) hW)
    | (with_reducible apply State_hostWrite_fr)
    | (with_reducible apply State_finishWith_fr)
    | (with_reducible (apply Frame.of_pair; assumption))
    | (with_reducible (apply Frame.of_pair'; assumption))
    | (intro x; refine Frame.cut (w := wF) (z := zF) (x := x) ?_ ?_ <;> [subst x; (intro _; clear_value x)])
    | (intro x; clear_value x)
    | (intro _)
    | lift_lets
    | split

theorem opStateDump_fr {wF : Nat} {zF : State} (r : Ref) (b : List Byte) {s : State} (hF : Frame wF zF s) (hW : Sub 0x20000000000100f8 wF) :
    Frame wF zF (opStateDump r b s) := by
  unfold opStateDump
  repeat' first
    | (with_reducible assumption)
    | (with_reducible exact hW)
    | (with_reducible exact Sub.trans (Sub.mk (by decide)) hW)
    | (with_reducible apply State_finish_fr)
    | (with_reducible apply State_dumpTo_fr)
    | (intro x; refine Frame.cut (w := wF) (z := zF) (x := x) ?_ ?_ <;> [subst x; (intro _; clear_value x)])
    | (intro x; clear_value x)
    | (intro _)
    | lift_lets
    | split

theorem opSnapRead_fr {wF : Nat} {zF : State} (r : Ref) (b : List Byte) {s : State} (hF : Frame wF zF s) (hW : Sub 0x20000000000100f8 wF) :
    Frame wF zF (opSnapRead r b s) := by
  unfold opSnapRead
  repeat' first
    | (with_reducible assumption)
    | (with_reducible exact hW)
    | (with_reducible exact Sub.trans (Sub.mk (by decide)) hW)
    | (with_reducible apply State_finish_fr)
    | (with_reducible apply State_dumpTo_fr)
    | split

theorem execSnapTrig_fr {wF : Nat} {zF : State} (m : Master) {s : State} (hF : Frame wF zF s) (hW : Sub 0x2800000000000000 wF) :
    FrameO wF zF (execSnapTrig m s) := by
  unfold execSnapTrig
  repeat' first
    | (with_reducible assumption)
    | (with_reducible exact hW)
    | (with_reducible exact Sub.trans (Sub.mk (by decide)) hW)
    | (with_reducible apply State_trigger_fr)
    | (with_reducible refine FrameO.next ?_)
    | split

theorem State_rearm_fr {wF : Nat} {zF : State} {s : State} (hF : Frame wF zF s) (hW : Sub 0x800000000000000 wF) :
    Frame wF zF (State.rearm s) := by
  unfold State.rearm
  repeat' first
    | (with_reducible assumption)
    | (with_reducible exact hW)
    | (with_reducible exact Sub.trans (Sub.mk (by decide)) hW)
    | (with_reducible apply State_modSnap_fr)
    | (intro _)

theorem execSnapRearm_fr {wF : Nat} {zF : State} (m : Master) {s : State} (hF : Frame wF zF s) (hW : Sub 0x800000000000000 wF) :
    FrameO wF zF (execSnapRearm m s) := by
  unfold execSnapRearm
  repeat' first
    | (with_reducible assumption)
    | (with_reducible exact hW)
    | (with_reducible exact Sub.trans (Sub.mk (by decide)) hW)
    | (with_reducible apply State_rearm_fr)
    | (with_reducible refine FrameO.next ?_)
    | split

end Sys2Proof.Machine
end

