-- ==== Sys2Proof/Laws/FrameFaults.lean ====
section
/-! SUPPORT. What each operation of Machine/Faults.lean may change. -/

set_option linter.all false

namespace Sys2Proof.Machine

open Sys2Proof

theorem State_fail_fr {wF : Nat} {zF : State} {s : State} (easel : Bool) (hF : Frame wF zF s) (hW : Sub 0x2880000000010001 wF) :
    Frame wF zF (State.fail s easel) := by
  unfold State.fail
  repeat' first
    | (with_reducible assumption)
    | (with_reducible exact hW)
    | (with_reducible exact Sub.trans (Sub.mk (by decide)) hW)
    | (with_reducible apply State_modHealth_fr)
    | (with_reducible apply State_sendSlice_fr)
    | (with_reducible apply State_hltUpdate_fr)
    | (with_reducible apply State_faultTrigger_fr)
    | (with_reducible apply State_jobStopPins_fr)
    | (with_reducible refine Frame.foldl (fun _ _ _ => ?_) _ ?_)
    | (with_reducible refine Frame.foldl1 (fun _ _ _ => ?_) _ ?_)
    | (with_reducible refine Frame.foldl2 (fun _ _ _ => ?_) _ ?_)
    | (intro x; refine Frame.cut (w := wF) (z := zF) (x := x) ?_ ?_ <;> [subst x; (intro _; clear_value x)])
    | (intro x; clear_value x)
    | (intro _)
    | lift_lets
    | split

theorem State_mismatch_fr {wF : Nat} {zF : State} {s : State} (hF : Frame wF zF s) (hW : Sub 0x2980000000010001 wF) :
    Frame wF zF (State.mismatch s) := by
  unfold State.mismatch
  repeat' first
    | (with_reducible assumption)
    | (with_reducible exact hW)
    | (with_reducible exact Sub.trans (Sub.mk (by decide)) hW)
    | (with_reducible apply State_modNor_fr)
    | (with_reducible apply State_fail_fr)
    | (with_reducible (apply Frame.of_pair; assumption))
    | (with_reducible (apply Frame.of_pair'; assumption))
    | (intro _)
    | split

theorem execLockstepMismatch_fr {wF : Nat} {zF : State} {s : State} (hF : Frame wF zF s) (hW : Sub 0x2980000000010001 wF) :
    FrameO wF zF (execLockstepMismatch s) := by
  unfold execLockstepMismatch
  repeat' first
    | (with_reducible assumption)
    | (with_reducible exact hW)
    | (with_reducible exact Sub.trans (Sub.mk (by decide)) hW)
    | (with_reducible apply State_mismatch_fr)
    | (with_reducible refine FrameO.next ?_)
    | (with_reducible (apply Frame.of_pair; assumption))
    | (with_reducible (apply Frame.of_pair'; assumption))
    | split

theorem execEaselSramError_fr {wF : Nat} {zF : State} {s : State} (hF : Frame wF zF s) (hW : Sub 0x2980000000010001 wF) :
    FrameO wF zF (execEaselSramError s) := by
  unfold execEaselSramError
  repeat' first
    | (with_reducible assumption)
    | (with_reducible exact hW)
    | (with_reducible exact Sub.trans (Sub.mk (by decide)) hW)
    | (with_reducible apply State_mismatch_fr)
    | (with_reducible refine FrameO.next ?_)
    | (with_reducible (apply Frame.of_pair; assumption))
    | (with_reducible (apply Frame.of_pair'; assumption))
    | split

theorem State_ioParts_fr {wF : Nat} {zF : State} {s : State} (m : Nat) (hF : Frame wF zF s) (hW : Sub 0x288f0000000100f9 wF) :
    Frame wF zF (State.ioParts s m) := by
  unfold State.ioParts
  repeat' first
    | (with_reducible assumption)
    | (with_reducible exact hW)
    | (with_reducible exact Sub.trans (Sub.mk (by decide)) hW)
    | (with_reducible apply State_modPort_fr)
    | (with_reducible apply State_linkUp_fr)
    | (with_reducible apply State_modFlash_fr)
    | (with_reducible apply State_narrowCause_fr)
    | (with_reducible refine Frame.foldl (fun _ _ _ => ?_) _ ?_)
    | (with_reducible refine Frame.foldl1 (fun _ _ _ => ?_) _ ?_)
    | (with_reducible refine Frame.foldl2 (fun _ _ _ => ?_) _ ?_)
    | (with_reducible show List.length _ = List.length _; simp)
    | (intro x; refine Frame.cut (w := wF) (z := zF) (x := x) ?_ ?_ <;> [subst x; (intro _; clear_value x)])
    | (intro x; clear_value x)
    | (intro _)
    | lift_lets
    | ((fail_if_success split); with_reducible apply Frame.upd_links)
    | split

theorem State_ioLose_fr {wF : Nat} {zF : State} {s : State} (m : Nat) (hF : Frame wF zF s) (hW : Sub 0x288f0000000100f9 wF) :
    Frame wF zF (State.ioLose s m) := by
  unfold State.ioLose
  repeat' first
    | (with_reducible assumption)
    | (with_reducible exact hW)
    | (with_reducible exact Sub.trans (Sub.mk (by decide)) hW)
    | (with_reducible apply State_ioParts_fr)
    | (with_reducible apply State_modHealth_fr)
    | (with_reducible apply State_fail_fr)
    | (intro _)
    | split

theorem State_dieLose_fr {wF : Nat} {zF : State} {s : State} (k : Nat) (hF : Frame wF zF s) (hW : Sub 0x29a197fbe2e13cff wF) :
    Frame wF zF (State.dieLose s k) := by
  unfold State.dieLose
  repeat' first
    | (with_reducible assumption)
    | (with_reducible exact hW)
    | (with_reducible exact Sub.trans (Sub.mk (by decide)) hW)
    | (with_reducible apply State_modDie_fr)
    | (with_reducible apply State_modNor_fr)
    | (with_reducible apply State_setCause_fr)
    | (with_reducible apply State_stopAll_fr)
    | (with_reducible apply State_loseMemory_fr)
    | (with_reducible refine Frame.getD (fun _ _ => ?_) ?_)
    | (with_reducible show List.length _ = List.length _; simp)
    | (intro x; refine Frame.cut (w := wF) (z := zF) (x := x) ?_ ?_ <;> [subst x; (intro _; clear_value x)])
    | (intro x; clear_value x)
    | (intro _)
    | lift_lets
    | ((fail_if_success split); with_reducible apply Frame.upd_noc_grps)
    | split

theorem execDieLost_fr {wF : Nat} {zF : State} (die : Nat) {s : State} (hF : Frame wF zF s) (hW : Sub 0x29a197fbe2e13cff wF) :
    FrameO wF zF (execDieLost die s) := by
  unfold execDieLost
  repeat' first
    | (with_reducible assumption)
    | (with_reducible exact hW)
    | (with_reducible exact Sub.trans (Sub.mk (by decide)) hW)
    | (with_reducible apply State_dieLose_fr)
    | (with_reducible refine FrameO.next ?_)

theorem State_nextInRow_fr {wF : Nat} {zF : State} {s : State} (n : Nat) (hF : Frame wF zF s) (hW : Sub 0x1 wF) :
    Frame wF zF (State.nextInRow s n).2 := by
  unfold State.nextInRow
  repeat' first
    | (with_reducible assumption)
    | (with_reducible exact hW)
    | (with_reducible exact Sub.trans (Sub.mk (by decide)) hW)
    | (with_reducible apply State_draw_fr)
    | (with_reducible (apply Frame.of_pair; assumption))
    | (with_reducible (apply Frame.of_pair'; assumption))
    | (intro x; refine Frame.cut (w := wF) (z := zF) (x := x) ?_ ?_ <;> [subst x; (intro _; clear_value x)])
    | (intro x; clear_value x)
    | (intro _)
    | lift_lets
    | split

theorem State_modD2d_fr {wF : Nat} {zF : State} {s : State} (i : Nat) (f : D2d → D2d) (hF : Frame wF zF s) (hW : Sub 0x80000000000 wF) :
    Frame wF zF (State.modD2d s i f) := by
  unfold State.modD2d
  repeat' first
    | (with_reducible assumption)
    | (with_reducible exact hW)
    | (with_reducible exact Sub.trans (Sub.mk (by decide)) hW)
    | (with_reducible show List.length _ = List.length _; simp)
    | ((fail_if_success split); with_reducible apply Frame.upd_d2d)

theorem State_d2dFail_fr {wF : Nat} {zF : State} {s : State} (i : Nat) (hF : Frame wF zF s) (hW : Sub 0x28af8ffbe2e13cff wF) :
    Frame wF zF (State.d2dFail s i) := by
  unfold State.d2dFail
  repeat' first
    | (with_reducible assumption)
    | (with_reducible exact hW)
    | (with_reducible exact Sub.trans (Sub.mk (by decide)) hW)
    | (with_reducible apply State_modD2d_fr)
    | (with_reducible apply State_stopAll_fr)
    | (with_reducible apply State_setCause_fr)
    | (with_reducible apply State_ioLose_fr)
    | (with_reducible refine Frame.foldl (fun _ _ _ => ?_) _ ?_)
    | (with_reducible refine Frame.foldl1 (fun _ _ _ => ?_) _ ?_)
    | (with_reducible refine Frame.foldl2 (fun _ _ _ => ?_) _ ?_)
    | (intro x; refine Frame.cut (w := wF) (z := zF) (x := x) ?_ ?_ <;> [subst x; (intro _; clear_value x)])
    | (intro x; clear_value x)
    | (intro _)
    | lift_lets
    | split

theorem execD2dCrcError_fr {wF : Nat} {zF : State} (port : D2dPort) {s : State} (hF : Frame wF zF s) (hW : Sub 0x28af8ffbe2e13cff wF) :
    FrameO wF zF (execD2dCrcError port s) := by
  unfold execD2dCrcError
  repeat' first
    | (with_reducible assumption)
    | (with_reducible exact hW)
    | (with_reducible exact Sub.trans (Sub.mk (by decide)) hW)
    | (with_reducible apply State_nextInRow_fr)
    | (with_reducible apply State_d2dFail_fr)
    | (with_reducible apply State_modD2d_fr)
    | (with_reducible refine FrameO.next ?_)
    | (with_reducible (apply Frame.of_pair; assumption))
    | (with_reducible (apply Frame.of_pair'; assumption))
    | (intro x; refine Frame.cut (w := wF) (z := zF) (x := x) ?_ ?_ <;> [subst x; (intro _; clear_value x)])
    | (intro x; clear_value x)
    | (intro _)
    | lift_lets
    | split

theorem execNodCrcError_fr {wF : Nat} {zF : State} (die : Nat) {s : State} (hF : Frame wF zF s) (hW : Sub 0x29a197fbe2e13cff wF) :
    FrameO wF zF (execNodCrcError die s) := by
  unfold execNodCrcError
  repeat' first
    | (with_reducible assumption)
    | (with_reducible exact hW)
    | (with_reducible exact Sub.trans (Sub.mk (by decide)) hW)
    | (with_reducible apply State_nextInRow_fr)
    | (with_reducible apply State_dieLose_fr)
    | (with_reducible apply State_modDie_fr)
    | (with_reducible refine FrameO.next ?_)
    | (with_reducible (apply Frame.of_pair; assumption))
    | (with_reducible (apply Frame.of_pair'; assumption))
    | (intro x; refine Frame.cut (w := wF) (z := zF) (x := x) ?_ ?_ <;> [subst x; (intro _; clear_value x)])
    | (intro x; clear_value x)
    | (intro _)
    | lift_lets
    | split

theorem State_agentRestart_fr {wF : Nat} {zF : State} {s : State} (k : Nat) (hF : Frame wF zF s) (hW : Sub 0x29a197fbe2e13cff wF) :
    Frame wF zF (State.agentRestart s k) := by
  unfold State.agentRestart
  repeat' first
    | (with_reducible assumption)
    | (with_reducible exact hW)
    | (with_reducible exact Sub.trans (Sub.mk (by decide)) hW)
    | (with_reducible apply State_dieLose_fr)
    | (with_reducible apply State_modDie_fr)
    | (with_reducible apply State_rerunSteps_fr)
    | (intro _)
    | split

theorem execDieAgentWatchdog_fr {wF : Nat} {zF : State} (die : Nat) {s : State} (hF : Frame wF zF s) (hW : Sub 0x29a197fbe2e13cff wF) :
    FrameO wF zF (execDieAgentWatchdog die s) := by
  unfold execDieAgentWatchdog
  repeat' first
    | (with_reducible assumption)
    | (with_reducible exact hW)
    | (with_reducible exact Sub.trans (Sub.mk (by decide)) hW)
    | (with_reducible apply State_agentRestart_fr)
    | (with_reducible refine FrameO.next ?_)
    | split

theorem execDiePoolUncorrectable_fr {wF : Nat} {zF : State} (die : Nat) (off : Nat) {s : State} (hF : Frame wF zF s) (hW : Sub 0x29a197fbe2e13cff wF) :
    FrameO wF zF (execDiePoolUncorrectable die off s) := by
  unfold execDiePoolUncorrectable
  repeat' first
    | (with_reducible assumption)
    | (with_reducible exact hW)
    | (with_reducible exact Sub.trans (Sub.mk (by decide)) hW)
    | (with_reducible apply State_agentRestart_fr)
    | (with_reducible apply State_modDie_fr)
    | (with_reducible apply State_killChecks_fr)
    | (with_reducible apply State_loseMemory_fr)
    | (with_reducible refine FrameO.next ?_)
    | (with_reducible refine Frame.foldl (fun _ _ _ => ?_) _ ?_)
    | (with_reducible refine Frame.foldl1 (fun _ _ _ => ?_) _ ?_)
    | (with_reducible refine Frame.foldl2 (fun _ _ _ => ?_) _ ?_)
    | (with_reducible (apply Frame.of_pair; assumption))
    | (with_reducible (apply Frame.of_pair'; assumption))
    | (intro x; refine Frame.cut (w := wF) (z := zF) (x := x) ?_ ?_ <;> [subst x; (intro _; clear_value x)])
    | (intro x; clear_value x)
    | (intro _)
    | lift_lets
    | split

theorem State_ceUnitSample_fr {wF : Nat} {zF : State} {s : State} (cls : Nat) (lim : Nat) (u : Nat) (v : Nat) (hF : Frame wF zF s) (hW : Sub 0x2080000000010000 wF) :
    Frame wF zF (State.ceUnitSample s cls lim u v) := by
  unfold State.ceUnitSample
  repeat' first
    | (with_reducible assumption)
    | (with_reducible exact hW)
    | (with_reducible exact Sub.trans (Sub.mk (by decide)) hW)
    | (with_reducible apply State_modHealth_fr)
    | (with_reducible apply State_setCause_fr)
    | (with_reducible refine Frame.getD (fun _ _ => ?_) ?_)
    | (intro x; refine Frame.cut (w := wF) (z := zF) (x := x) ?_ ?_ <;> [subst x; (intro _; clear_value x)])
    | (intro x; clear_value x)
    | (intro _)
    | lift_lets
    | split

theorem execCeSample_fr {wF : Nat} {zF : State} {s : State} (hF : Frame wF zF s) (hW : Sub 0x2080000000010000 wF) :
    FrameO wF zF (execCeSample s) := by
  unfold execCeSample
  repeat' first
    | (with_reducible assumption)
    | (with_reducible exact hW)
    | (with_reducible exact Sub.trans (Sub.mk (by decide)) hW)
    | (with_reducible apply State_ceUnitSample_fr)
    | (with_reducible refine FrameO.next ?_)
    | (with_reducible refine Frame.foldl (fun _ _ _ => ?_) _ ?_)
    | (with_reducible refine Frame.foldl1 (fun _ _ _ => ?_) _ ?_)
    | (with_reducible refine Frame.foldl2 (fun _ _ _ => ?_) _ ?_)
    | (intro _)
    | split

theorem execRegisterScrub_fr {wF : Nat} {zF : State} {s : State} (hF : Frame wF zF s) (hW : Sub 0x180000 wF) :
    FrameO wF zF (execRegisterScrub s) := by
  unfold execRegisterScrub
  repeat' first
    | (with_reducible assumption)
    | (with_reducible exact hW)
    | (with_reducible exact Sub.trans (Sub.mk (by decide)) hW)
    | (with_reducible refine FrameO.next ?_)
    | ((fail_if_success split); with_reducible apply Frame.upd_regFix_upsets)
    | split

theorem State_sendAlert_fr {wF : Nat} {zF : State} {s : State} (body : List Byte) (hF : Frame wF zF s) (hW : Sub 0x2000000000000000 wF) :
    Frame wF zF (State.sendAlert s body) := by
  unfold State.sendAlert
  repeat' first
    | (with_reducible assumption)
    | (with_reducible exact hW)
    | (with_reducible exact Sub.trans (Sub.mk (by decide)) hW)
    | (with_reducible apply State_emit_fr)
    | split

theorem execHealthMessage_fr {wF : Nat} {zF : State} {s : State} (hF : Frame wF zF s) (hW : Sub 0x2080000000000000 wF) :
    FrameO wF zF (execHealthMessage s) := by
  unfold execHealthMessage
  repeat' first
    | (with_reducible assumption)
    | (with_reducible exact hW)
    | (with_reducible exact Sub.trans (Sub.mk (by decide)) hW)
    | (with_reducible apply State_modHealth_fr)
    | (with_reducible apply State_sendAlert_fr)
    | (with_reducible refine FrameO.next ?_)
    | (intro x; refine Frame.cut (w := wF) (z := zF) (x := x) ?_ ?_ <;> [subst x; (intro _; clear_value x)])
    | (intro x; clear_value x)
    | (intro _)
    | lift_lets
    | split

theorem execHealthRepeatTimer_fr {wF : Nat} {zF : State} {s : State} (hF : Frame wF zF s) (hW : Sub 0x2000000000000000 wF) :
    FrameO wF zF (execHealthRepeatTimer s) := by
  unfold execHealthRepeatTimer
  repeat' first
    | (with_reducible assumption)
    | (with_reducible exact hW)
    | (with_reducible exact Sub.trans (Sub.mk (by decide)) hW)
    | (with_reducible apply State_sendAlert_fr)
    | (with_reducible refine FrameO.next ?_)
    | split

theorem execFaultPulseEnd_fr {wF : Nat} {zF : State} {s : State} (hF : Frame wF zF s) (hW : Sub 0x80000000000000 wF) :
    FrameO wF zF (execFaultPulseEnd s) := by
  unfold execFaultPulseEnd
  repeat' first
    | (with_reducible assumption)
    | (with_reducible exact hW)
    | (with_reducible exact Sub.trans (Sub.mk (by decide)) hW)
    | (with_reducible apply State_modHealth_fr)
    | (with_reducible refine FrameO.next ?_)
    | (intro _)

end Sys2Proof.Machine
end

