-- ==== Sys2Proof/Laws/FramePower.lean ====
section
/-! SUPPORT. What each operation of Machine/Power.lean may change. -/

set_option linter.all false

namespace Sys2Proof.Machine

open Sys2Proof

theorem State_setPulses_fr {wF : Nat} {zF : State} {s : State} (k : Nat) (n : Nat) (hF : Frame wF zF s) (hW : Sub 0x40000000000 wF) :
    Frame wF zF (State.setPulses s k n) := by
  unfold State.setPulses
  repeat' first
    | (with_reducible assumption)
    | (with_reducible exact hW)
    | (with_reducible exact Sub.trans (Sub.mk (by decide)) hW)
    | (with_reducible apply State_modDie_fr)
    | (intro x; refine Frame.cut (w := wF) (z := zF) (x := x) ?_ ?_ <;> [subst x; (intro _; clear_value x)])
    | (intro x; clear_value x)
    | (intro _)
    | lift_lets

theorem State_setThrottled_fr {wF : Nat} {zF : State} {s : State} (on : Bool) (hF : Frame wF zF s) (hW : Sub 0x20000000010000 wF) :
    Frame wF zF (State.setThrottled s on) := by
  unfold State.setThrottled
  repeat' first
    | (with_reducible assumption)
    | (with_reducible exact hW)
    | (with_reducible exact Sub.trans (Sub.mk (by decide)) hW)
    | (with_reducible apply State_modPower_fr)
    | (with_reducible apply State_raiseIf_fr)
    | (intro x; refine Frame.cut (w := wF) (z := zF) (x := x) ?_ ?_ <;> [subst x; (intro _; clear_value x)])
    | (intro x; clear_value x)
    | (intro _)
    | lift_lets

theorem State_stretch_fr {wF : Nat} {zF : State} {s : State} (hF : Frame wF zF s) (hW : Sub 0x20040000010001 wF) :
    Frame wF zF (State.stretch s) := by
  unfold State.stretch
  repeat' first
    | (with_reducible assumption)
    | (with_reducible exact hW)
    | (with_reducible exact Sub.trans (Sub.mk (by decide)) hW)
    | (with_reducible apply State_draw_fr)
    | (with_reducible apply State_setPulses_fr)
    | (with_reducible apply State_setThrottled_fr)
    | (with_reducible refine Frame.foldl (fun _ _ _ => ?_) _ ?_)
    | (with_reducible refine Frame.foldl1 (fun _ _ _ => ?_) _ ?_)
    | (with_reducible refine Frame.foldl2 (fun _ _ _ => ?_) _ ?_)
    | (with_reducible (apply Frame.of_pair; assumption))
    | (with_reducible (apply Frame.of_pair'; assumption))
    | (intro x; refine Frame.cut (w := wF) (z := zF) (x := x) ?_ ?_ <;> [subst x; (intro _; clear_value x)])
    | (intro x; clear_value x)
    | (intro _)
    | lift_lets
    | split

theorem execVoltageStageSettle_fr {wF : Nat} {zF : State} {s : State} (hF : Frame wF zF s) (hW : Sub 0x20040000010001 wF) :
    FrameO wF zF (execVoltageStageSettle s) := by
  unfold execVoltageStageSettle
  repeat' first
    | (with_reducible assumption)
    | (with_reducible exact hW)
    | (with_reducible exact Sub.trans (Sub.mk (by decide)) hW)
    | (with_reducible apply State_draw_fr)
    | (with_reducible apply State_setPulses_fr)
    | (with_reducible apply State_modDie_fr)
    | (with_reducible apply State_setThrottled_fr)
    | (with_reducible refine FrameO.next ?_)
    | (with_reducible refine Frame.foldl (fun _ _ _ => ?_) _ ?_)
    | (with_reducible refine Frame.foldl1 (fun _ _ _ => ?_) _ ?_)
    | (with_reducible refine Frame.foldl2 (fun _ _ _ => ?_) _ ?_)
    | (with_reducible (apply Frame.of_pair; assumption))
    | (with_reducible (apply Frame.of_pair'; assumption))
    | (intro x; refine Frame.cut (w := wF) (z := zF) (x := x) ?_ ?_ <;> [subst x; (intro _; clear_value x)])
    | (intro x; refine Frame.cutS1 (w := wF) (z := zF) (x := x) ?_ ?_ <;> [(subst x; intro _ _; try beta_reduce); (intro _; clear_value x)])
    | (intro x; refine Frame.cutS2 (w := wF) (z := zF) (x := x) ?_ ?_ <;> [(subst x; intro _ _ _; try beta_reduce); (intro _; clear_value x)])
    | (intro x; refine Frame.cutF1 (w := wF) (z := zF) (x := x) ?_ ?_ <;> [(subst x; intro _; try beta_reduce); (intro _; clear_value x)])
    | (intro x; refine Frame.cutF2 (w := wF) (z := zF) (x := x) ?_ ?_ <;> [(subst x; intro _ _; try beta_reduce); (intro _; clear_value x)])
    | (intro x; clear_value x)
    | (intro _)
    | (with_reducible apply_assumption)
    | lift_lets
    | split

theorem State_heldEnd_fr {wF : Nat} {zF : State} {s : State} (hF : Frame wF zF s) (hW : Sub 0x28a187fbe2e13cff wF) :
    Frame wF zF (State.heldEnd s) := by
  unfold State.heldEnd
  repeat' first
    | (with_reducible assumption)
    | (with_reducible exact hW)
    | (with_reducible exact Sub.trans (Sub.mk (by decide)) hW)
    | (with_reducible apply State_modPower_fr)
    | (with_reducible apply State_modDies_fr)
    | (with_reducible apply State_sendStart_fr)
    | (with_reducible apply State_nextJob_fr)
    | (with_reducible apply State_drain_fr)
    | (with_reducible refine Frame.foldl (fun _ _ _ => ?_) _ ?_)
    | (with_reducible refine Frame.foldl1 (fun _ _ _ => ?_) _ ?_)
    | (with_reducible refine Frame.foldl2 (fun _ _ _ => ?_) _ ?_)
    | (intro x; refine Frame.cut (w := wF) (z := zF) (x := x) ?_ ?_ <;> [subst x; (intro _; clear_value x)])
    | (intro x; clear_value x)
    | (intro _)
    | lift_lets

theorem State_holdCheck_fr {wF : Nat} {zF : State} {s : State} (hF : Frame wF zF s) (hW : Sub 0x28a187fbe2e13cff wF) :
    Frame wF zF (State.holdCheck s) := by
  unfold State.holdCheck
  repeat' first
    | (with_reducible assumption)
    | (with_reducible exact hW)
    | (with_reducible exact Sub.trans (Sub.mk (by decide)) hW)
    | (with_reducible apply State_modPower_fr)
    | (with_reducible apply State_raise_fr)
    | (with_reducible apply State_raiseIf_fr)
    | (with_reducible apply State_heldEnd_fr)
    | (intro x; refine Frame.cut (w := wF) (z := zF) (x := x) ?_ ?_ <;> [subst x; (intro _; clear_value x)])
    | (intro x; clear_value x)
    | (intro _)
    | lift_lets
    | split

theorem State_pwrUpdate_fr {wF : Nat} {zF : State} {s : State} (hF : Frame wF zF s) (hW : Sub 0x28a187fbe2e13cff wF) :
    Frame wF zF (State.pwrUpdate s) := by
  unfold State.pwrUpdate
  repeat' first
    | (with_reducible assumption)
    | (with_reducible exact hW)
    | (with_reducible exact Sub.trans (Sub.mk (by decide)) hW)
    | (with_reducible apply State_modPower_fr)
    | (with_reducible apply State_raiseIf_fr)
    | (with_reducible apply State_holdCheck_fr)
    | (with_reducible apply State_stretch_fr)
    | (intro x; refine Frame.cut (w := wF) (z := zF) (x := x) ?_ ?_ <;> [subst x; (intro _; clear_value x)])
    | (intro x; clear_value x)
    | (intro _)
    | lift_lets
    | split

theorem execHeldExit_fr {wF : Nat} {zF : State} {s : State} (hF : Frame wF zF s) (hW : Sub 0x28a187fbe2e13cff wF) :
    FrameO wF zF (execHeldExit s) := by
  unfold execHeldExit
  repeat' first
    | (with_reducible assumption)
    | (with_reducible exact hW)
    | (with_reducible exact Sub.trans (Sub.mk (by decide)) hW)
    | (with_reducible apply State_modPower_fr)
    | (with_reducible apply State_holdCheck_fr)
    | (with_reducible refine FrameO.next ?_)
    | (intro _)

theorem State_setRackCap_fr {wF : Nat} {zF : State} {s : State} (v : Nat) (hF : Frame wF zF s) (hW : Sub 0x28a187fbe2e13cff wF) :
    Frame wF zF (State.setRackCap s v) := by
  unfold State.setRackCap
  repeat' first
    | (with_reducible assumption)
    | (with_reducible exact hW)
    | (with_reducible exact Sub.trans (Sub.mk (by decide)) hW)
    | (with_reducible apply State_modPower_fr)
    | (with_reducible apply State_pwrUpdate_fr)
    | (intro _)

theorem State_setHostCap_fr {wF : Nat} {zF : State} {s : State} (v : Nat) (hF : Frame wF zF s) (hW : Sub 0x28a187fbe2e13cff wF) :
    Frame wF zF (State.setHostCap s v) := by
  unfold State.setHostCap
  repeat' first
    | (with_reducible assumption)
    | (with_reducible exact hW)
    | (with_reducible exact Sub.trans (Sub.mk (by decide)) hW)
    | (with_reducible apply State_modPower_fr)
    | (with_reducible apply State_pwrUpdate_fr)
    | (intro _)

theorem execRackCapWrite_fr {wF : Nat} {zF : State} (m : Master) (v : W32) {s : State} (hF : Frame wF zF s) (hW : Sub 0x28a187fbe2e13cff wF) :
    FrameO wF zF (execRackCapWrite m v s) := by
  unfold execRackCapWrite
  repeat' first
    | (with_reducible assumption)
    | (with_reducible exact hW)
    | (with_reducible exact Sub.trans (Sub.mk (by decide)) hW)
    | (with_reducible apply State_setRackCap_fr)
    | (with_reducible refine FrameO.next ?_)
    | split

theorem execHostCapWrite_fr {wF : Nat} {zF : State} (m : Master) (v : W32) {s : State} (hF : Frame wF zF s) (hW : Sub 0x28a187fbe2e13cff wF) :
    FrameO wF zF (execHostCapWrite m v s) := by
  unfold execHostCapWrite
  repeat' first
    | (with_reducible assumption)
    | (with_reducible exact hW)
    | (with_reducible exact Sub.trans (Sub.mk (by decide)) hW)
    | (with_reducible apply State_setHostCap_fr)
    | (with_reducible refine FrameO.next ?_)
    | split

theorem opPowerPolicy_fr {wF : Nat} {zF : State} (r : Ref) (b : List Byte) {s : State} (hF : Frame wF zF s) (hW : Sub 0x28a187fbe2e13cff wF) :
    Frame wF zF (opPowerPolicy r b s) := by
  unfold opPowerPolicy
  repeat' first
    | (with_reducible assumption)
    | (with_reducible exact hW)
    | (with_reducible exact Sub.trans (Sub.mk (by decide)) hW)
    | (with_reducible apply State_finish_fr)
    | (with_reducible apply State_modPower_fr)
    | (with_reducible apply State_setHostCap_fr)
    | (intro x; refine Frame.cut (w := wF) (z := zF) (x := x) ?_ ?_ <;> [subst x; (intro _; clear_value x)])
    | (intro x; clear_value x)
    | (intro _)
    | lift_lets
    | split

theorem execWeirNAssert_fr {wF : Nat} {zF : State} {s : State} (hF : Frame wF zF s) (hW : Sub 0x28a187fbe2e13cff wF) :
    FrameO wF zF (execWeirNAssert s) := by
  unfold execWeirNAssert
  repeat' first
    | (with_reducible assumption)
    | (with_reducible exact hW)
    | (with_reducible exact Sub.trans (Sub.mk (by decide)) hW)
    | (with_reducible apply State_modPower_fr)
    | (with_reducible apply State_raise_fr)
    | (with_reducible apply State_pwrUpdate_fr)
    | (with_reducible apply State_faultTrigger_fr)
    | (with_reducible refine FrameO.next ?_)
    | (intro _)
    | split

theorem execWeirNRelease_fr {wF : Nat} {zF : State} {s : State} (hF : Frame wF zF s) (hW : Sub 0x28a187fbe2e13cff wF) :
    FrameO wF zF (execWeirNRelease s) := by
  unfold execWeirNRelease
  repeat' first
    | (with_reducible assumption)
    | (with_reducible exact hW)
    | (with_reducible exact Sub.trans (Sub.mk (by decide)) hW)
    | (with_reducible apply State_modPower_fr)
    | (with_reducible apply State_pwrUpdate_fr)
    | (with_reducible refine FrameO.next ?_)
    | (intro _)

theorem State_beat_fr {wF : Nat} {zF : State} {s : State} (hF : Frame wF zF s) (hW : Sub 0x38a187fbe2e13cff wF) :
    Frame wF zF (State.beat s) := by
  unfold State.beat
  repeat' first
    | (with_reducible assumption)
    | (with_reducible exact hW)
    | (with_reducible exact Sub.trans (Sub.mk (by decide)) hW)
    | (with_reducible apply State_modPower_fr)
    | (with_reducible apply State_pwrUpdate_fr)
    | (intro _)
    | ((fail_if_success split); with_reducible apply Frame.upd_side)

theorem execSidebandHeartbeat_fr {wF : Nat} {zF : State} {s : State} (hF : Frame wF zF s) (hW : Sub 0x38a187fbe2e13cff wF) :
    FrameO wF zF (execSidebandHeartbeat s) := by
  unfold execSidebandHeartbeat
  repeat' first
    | (with_reducible assumption)
    | (with_reducible exact hW)
    | (with_reducible exact Sub.trans (Sub.mk (by decide)) hW)
    | (with_reducible apply State_beat_fr)
    | (with_reducible refine FrameO.next ?_)
    | split

theorem execHealthAck_fr {wF : Nat} {zF : State} (aseq : Nat) {s : State} (hF : Frame wF zF s) (hW : Sub 0x38a187fbe2e13cff wF) :
    FrameO wF zF (execHealthAck aseq s) := by
  unfold execHealthAck
  repeat' first
    | (with_reducible assumption)
    | (with_reducible exact hW)
    | (with_reducible exact Sub.trans (Sub.mk (by decide)) hW)
    | (with_reducible apply State_beat_fr)
    | (with_reducible apply State_modHealth_fr)
    | (with_reducible refine FrameO.next ?_)
    | (intro x; refine Frame.cut (w := wF) (z := zF) (x := x) ?_ ?_ <;> [subst x; (intro _; clear_value x)])
    | (intro x; clear_value x)
    | (intro _)
    | lift_lets
    | split

theorem execOrphanTimeout_fr {wF : Nat} {zF : State} {s : State} (hF : Frame wF zF s) (hW : Sub 0x28a187fbe2e13cff wF) :
    FrameO wF zF (execOrphanTimeout s) := by
  unfold execOrphanTimeout
  repeat' first
    | (with_reducible assumption)
    | (with_reducible exact hW)
    | (with_reducible exact Sub.trans (Sub.mk (by decide)) hW)
    | (with_reducible apply State_modPower_fr)
    | (with_reducible apply State_raise_fr)
    | (with_reducible apply State_pwrUpdate_fr)
    | (with_reducible refine FrameO.next ?_)
    | (intro _)
    | split

theorem execMillpondTick_fr {wF : Nat} {zF : State} (p1ms : Nat) (p10ms : Nat) (v1ms : Nat) (coresFull : Bool) {s : State} (hF : Frame wF zF s) (hW : Sub 0x20040000010001 wF) :
    FrameO wF zF (execMillpondTick p1ms p10ms v1ms coresFull s) := by
  unfold execMillpondTick
  repeat' first
    | (with_reducible assumption)
    | (with_reducible exact hW)
    | (with_reducible exact Sub.trans (Sub.mk (by decide)) hW)
    | (with_reducible apply State_modPower_fr)
    | (with_reducible apply State_stretch_fr)
    | (with_reducible refine FrameO.next ?_)
    | (intro x; refine Frame.cut (w := wF) (z := zF) (x := x) ?_ ?_ <;> [subst x; (intro _; clear_value x)])
    | (intro x; clear_value x)
    | (intro _)
    | lift_lets
    | split

theorem execInputSag_fr {wF : Nat} {zF : State} {s : State} (hF : Frame wF zF s) (hW : Sub 0x20000000010000 wF) :
    FrameO wF zF (execInputSag s) := by
  unfold execInputSag
  repeat' first
    | (with_reducible assumption)
    | (with_reducible exact hW)
    | (with_reducible exact Sub.trans (Sub.mk (by decide)) hW)
    | (with_reducible apply State_modPower_fr)
    | (with_reducible apply State_raiseIf_fr)
    | (with_reducible refine FrameO.next ?_)
    | (intro _)
    | split

theorem execSagCapTimer_fr {wF : Nat} {zF : State} {s : State} (hF : Frame wF zF s) (hW : Sub 0x28a187fbe2e13cff wF) :
    FrameO wF zF (execSagCapTimer s) := by
  unfold execSagCapTimer
  repeat' first
    | (with_reducible assumption)
    | (with_reducible exact hW)
    | (with_reducible exact Sub.trans (Sub.mk (by decide)) hW)
    | (with_reducible apply State_modPower_fr)
    | (with_reducible apply State_pwrUpdate_fr)
    | (with_reducible refine FrameO.next ?_)
    | (intro _)
    | split

theorem execSagHoldTimer_fr {wF : Nat} {zF : State} {s : State} (hF : Frame wF zF s) (hW : Sub 0x28a187fbe2e13cff wF) :
    FrameO wF zF (execSagHoldTimer s) := by
  unfold execSagHoldTimer
  repeat' first
    | (with_reducible assumption)
    | (with_reducible exact hW)
    | (with_reducible exact Sub.trans (Sub.mk (by decide)) hW)
    | (with_reducible apply State_modPower_fr)
    | (with_reducible apply State_pwrUpdate_fr)
    | (with_reducible refine FrameO.next ?_)
    | (intro _)
    | split

theorem execInputRecover_fr {wF : Nat} {zF : State} {s : State} (hF : Frame wF zF s) (hW : Sub 0x28a187fbe2e13cff wF) :
    FrameO wF zF (execInputRecover s) := by
  unfold execInputRecover
  repeat' first
    | (with_reducible assumption)
    | (with_reducible exact hW)
    | (with_reducible exact Sub.trans (Sub.mk (by decide)) hW)
    | (with_reducible apply State_modPower_fr)
    | (with_reducible apply State_pwrUpdate_fr)
    | (with_reducible refine FrameO.next ?_)
    | (intro _)

theorem execInputOvervoltage_fr {wF : Nat} {zF : State} {s : State} (hF : Frame wF zF s) (hW : Sub 0x28a187fbe2e13cff wF) :
    FrameO wF zF (execInputOvervoltage s) := by
  unfold execInputOvervoltage
  repeat' first
    | (with_reducible assumption)
    | (with_reducible exact hW)
    | (with_reducible exact Sub.trans (Sub.mk (by decide)) hW)
    | (with_reducible apply State_modPower_fr)
    | (with_reducible apply State_holdCheck_fr)
    | (with_reducible refine FrameO.next ?_)
    | (intro _)
    | split

theorem execPhaseFail_fr {wF : Nat} {zF : State} (r : Rail) {s : State} (hF : Frame wF zF s) (hW : Sub 0x21a0040000010001 wF) :
    FrameO wF zF (execPhaseFail r s) := by
  unfold execPhaseFail
  repeat' first
    | (with_reducible assumption)
    | (with_reducible exact hW)
    | (with_reducible exact Sub.trans (Sub.mk (by decide)) hW)
    | (with_reducible apply State_modPower_fr)
    | (with_reducible apply State_modNor_fr)
    | (with_reducible apply State_raise_fr)
    | (with_reducible apply State_setCause_fr)
    | (with_reducible apply State_modHealth_fr)
    | (with_reducible apply State_draw_fr)
    | (with_reducible apply State_modDie_fr)
    | (with_reducible apply State_setPulses_fr)
    | (with_reducible refine FrameO.next ?_)
    | (with_reducible (apply Frame.of_pair; assumption))
    | (with_reducible (apply Frame.of_pair'; assumption))
    | (intro x; refine Frame.cut (w := wF) (z := zF) (x := x) ?_ ?_ <;> [subst x; (intro _; clear_value x)])
    | (intro x; clear_value x)
    | (intro _)
    | lift_lets
    | split

theorem execRailShort_fr {wF : Nat} {zF : State} (r : Rail) {s : State} (hF : Frame wF zF s) (hW : Sub 0x29af97fbe2e13cff wF) :
    FrameO wF zF (execRailShort r s) := by
  unfold execRailShort
  repeat' first
    | (with_reducible assumption)
    | (with_reducible exact hW)
    | (with_reducible exact Sub.trans (Sub.mk (by decide)) hW)
    | (with_reducible apply State_modPower_fr)
    | (with_reducible apply State_dieLose_fr)
    | (with_reducible apply State_ioLose_fr)
    | (with_reducible refine FrameO.next ?_)
    | (with_reducible (apply Frame.of_pair; assumption))
    | (with_reducible (apply Frame.of_pair'; assumption))
    | (intro x; refine Frame.cut (w := wF) (z := zF) (x := x) ?_ ?_ <;> [subst x; (intro _; clear_value x)])
    | (intro x; clear_value x)
    | (intro _)
    | lift_lets
    | split

theorem State_apart_fr {wF : Nat} {zF : State} {s : State} (i : Nat) (hF : Frame wF zF s) (hW : Sub 0x2880000000010001 wF) :
    Frame wF zF (State.apart s i).2 := by
  unfold State.apart
  repeat' first
    | (with_reducible assumption)
    | (with_reducible exact hW)
    | (with_reducible exact Sub.trans (Sub.mk (by decide)) hW)
    | (with_reducible apply State_draw_fr)
    | (with_reducible apply State_fail_fr)
    | (with_reducible (apply Frame.of_pair; assumption))
    | (with_reducible (apply Frame.of_pair'; assumption))
    | (intro x; refine Frame.cut (w := wF) (z := zF) (x := x) ?_ ?_ <;> [subst x; (intro _; clear_value x)])
    | (intro x; clear_value x)
    | (intro _)
    | lift_lets
    | split

theorem State_judgeSensor_fr {wF : Nat} {zF : State} {s : State} (i : Nat) (hF : Frame wF zF s) (hW : Sub 0x28c0000000010001 wF) :
    Frame wF zF (State.judgeSensor s i) := by
  unfold State.judgeSensor
  repeat' first
    | (with_reducible assumption)
    | (with_reducible exact hW)
    | (with_reducible exact Sub.trans (Sub.mk (by decide)) hW)
    | (with_reducible apply State_apart_fr)
    | (with_reducible apply State_modMon_fr)
    | (with_reducible apply State_fail_fr)
    | (with_reducible apply State_raise_fr)
    | (with_reducible (apply Frame.of_pair; assumption))
    | (with_reducible (apply Frame.of_pair'; assumption))
    | (intro x; refine Frame.cut (w := wF) (z := zF) (x := x) ?_ ?_ <;> [subst x; (intro _; clear_value x)])
    | (intro x; clear_value x)
    | (intro _)
    | lift_lets
    | split

theorem State_thermDie_fr {wF : Nat} {zF : State} {s : State} (k : Nat) (hF : Frame wF zF s) (hW : Sub 0x40000000001 wF) :
    Frame wF zF (State.thermDie s k) := by
  unfold State.thermDie
  repeat' first
    | (with_reducible assumption)
    | (with_reducible exact hW)
    | (with_reducible exact Sub.trans (Sub.mk (by decide)) hW)
    | (with_reducible apply State_setPulses_fr)
    | (with_reducible apply State_draw_fr)
    | (with_reducible apply State_modDie_fr)
    | (with_reducible refine Frame.getD (fun _ _ => ?_) ?_)
    | (with_reducible (apply Frame.of_pair; assumption))
    | (with_reducible (apply Frame.of_pair'; assumption))
    | (intro x; refine Frame.cut (w := wF) (z := zF) (x := x) ?_ ?_ <;> [subst x; (intro _; clear_value x)])
    | (intro x; clear_value x)
    | (intro _)
    | lift_lets
    | split

theorem State_readSpeed_fr {wF : Nat} {zF : State} {s : State} (hF : Frame wF zF s) (hW : Sub 0x40000000000001 wF) :
    Frame wF zF (State.readSpeed s) := by
  unfold State.readSpeed
  repeat' first
    | (with_reducible assumption)
    | (with_reducible exact hW)
    | (with_reducible exact Sub.trans (Sub.mk (by decide)) hW)
    | (with_reducible apply State_draw_fr)
    | (with_reducible apply State_modMon_fr)
    | (with_reducible refine Frame.foldl (fun _ _ _ => ?_) _ ?_)
    | (with_reducible refine Frame.foldl1 (fun _ _ _ => ?_) _ ?_)
    | (with_reducible refine Frame.foldl2 (fun _ _ _ => ?_) _ ?_)
    | (with_reducible (apply Frame.of_pair; assumption))
    | (with_reducible (apply Frame.of_pair'; assumption))
    | (with_reducible show List.length _ = List.length _; simp)
    | (intro x; refine Frame.cut (w := wF) (z := zF) (x := x) ?_ ?_ <;> [subst x; (intro _; clear_value x)])
    | (intro x; clear_value x)
    | (intro _)
    | lift_lets
    | split

theorem execThermalSample_fr {wF : Nat} {zF : State} (readings : List (Nat × Int)) {s : State} (hF : Frame wF zF s) (hW : Sub 0x28e187fbe2e13cff wF) :
    FrameO wF zF (execThermalSample readings s) := by
  unfold execThermalSample
  repeat' first
    | (with_reducible assumption)
    | (with_reducible exact hW)
    | (with_reducible exact Sub.trans (Sub.mk (by decide)) hW)
    | (with_reducible apply State_modMon_fr)
    | (with_reducible apply State_judgeSensor_fr)
    | (with_reducible apply State_thermDie_fr)
    | (with_reducible apply State_raiseIf_fr)
    | (with_reducible apply State_pwrUpdate_fr)
    | (with_reducible apply State_readSpeed_fr)
    | (with_reducible refine FrameO.next ?_)
    | (with_reducible refine Frame.foldl (fun _ _ _ => ?_) _ ?_)
    | (with_reducible refine Frame.foldl1 (fun _ _ _ => ?_) _ ?_)
    | (with_reducible refine Frame.foldl2 (fun _ _ _ => ?_) _ ?_)
    | (intro x; refine Frame.cut (w := wF) (z := zF) (x := x) ?_ ?_ <;> [subst x; (intro _; clear_value x)])
    | (intro x; clear_value x)
    | (intro _)
    | lift_lets
    | split

theorem execThermtrip_fr {wF : Nat} {zF : State} (sensor : Nat) {s : State} (hF : Frame wF zF s) (hW : Sub 0x29a387fbe2e13cff wF) :
    FrameO wF zF (execThermtrip sensor s) := by
  unfold execThermtrip
  split
  · exact FrameO.next hF
  · extract_lets s1 s2 s3 s4
    have h1 : Frame wF zF s1 := State_fail_fr _ (State_modNor_fr _ hF (Sub.trans (Sub.mk (by decide)) hW)) (Sub.trans (Sub.mk (by decide)) hW)
    clear_value s1
    have h2 : Frame wF zF s2 := State_modHealth_fr _ h1 (Sub.trans (Sub.mk (by decide)) hW)
    clear_value s2
    have h3 : Frame wF zF s3 := State_portChange_fr _ _ (State_portChange_fr _ _ h2 (Sub.trans (Sub.mk (by decide)) hW)) (Sub.trans (Sub.mk (by decide)) hW)
    clear_value s3
    have h4 : Frame wF zF s4 := Frame.upd_links h3 (Sub.trans (Sub.mk (by decide)) hW) (List.length_map _)
    clear_value s4
    exact FrameO.next (Frame.mem_set (State_loseMemory_fr _ _ h4 (Sub.trans (Sub.mk (by decide)) hW)) (Sub.trans (Sub.mk (by decide)) hW) [] fun _ => Memory.wf_nil)

theorem execDroopTrip_fr {wF : Nat} {zF : State} (die : Nat) {s : State} (hF : Frame wF zF s) (hW : Sub 0x40000000000000 wF) :
    FrameO wF zF (execDroopTrip die s) := by
  unfold execDroopTrip
  repeat' first
    | (with_reducible assumption)
    | (with_reducible exact hW)
    | (with_reducible exact Sub.trans (Sub.mk (by decide)) hW)
    | (with_reducible apply State_modMon_fr)
    | (with_reducible refine FrameO.next ?_)
    | (intro _)
    | split

theorem execCoolantEstimate_fr {wF : Nat} {zF : State} (inA : Int) (inB : Int) (outA : Int) (outB : Int) (p1s : Nat) {s : State} (hF : Frame wF zF s) (hW : Sub 0x28e187fbe2e13cff wF) :
    FrameO wF zF (execCoolantEstimate inA inB outA outB p1s s) := by
  unfold execCoolantEstimate
  repeat' first
    | (with_reducible assumption)
    | (with_reducible exact hW)
    | (with_reducible exact Sub.trans (Sub.mk (by decide)) hW)
    | (with_reducible apply State_modMon_fr)
    | (with_reducible apply State_modPower_fr)
    | (with_reducible apply State_raiseIf_fr)
    | (with_reducible apply State_pwrUpdate_fr)
    | (with_reducible apply State_coolCause_fr)
    | (with_reducible refine FrameO.next ?_)
    | (with_reducible refine Frame.getD (fun _ _ => ?_) ?_)
    | (intro x; refine Frame.cut (w := wF) (z := zF) (x := x) ?_ ?_ <;> [subst x; (intro _; clear_value x)])
    | (intro x; clear_value x)
    | (intro _)
    | lift_lets
    | split

end Sys2Proof.Machine
end

