-- ==== Sys2Proof/Laws/FrameSecurity.lean ====
section
/-! SUPPORT. What each operation of Machine/Security.lean may change. -/

set_option linter.all false

namespace Sys2Proof.Machine

open Sys2Proof

theorem opFwUpdate_fr {wF : Nat} {zF : State} (r : Ref) (b : List Byte) {s : State} (hF : Frame wF zF s) (hW : Sub 0x24218008004100ff wF) :
    Frame wF zF (opFwUpdate r b s) := by
  unfold opFwUpdate
  repeat' first
    | (with_reducible assumption)
    | (with_reducible exact hW)
    | (with_reducible exact Sub.trans (Sub.mk (by decide)) hW)
    | (with_reducible apply State_finish_fr)
    | (with_reducible apply State_modSec_fr)
    | (with_reducible apply State_activate_fr)
    | (with_reducible exact SecKeep.of_eq (Eq.refl _) (Eq.refl _) (Eq.refl _))
    | (with_reducible (apply Frame.of_pair; assumption))
    | (with_reducible (apply Frame.of_pair'; assumption))
    | (intro x; refine Frame.cut (w := wF) (z := zF) (x := x) ?_ ?_ <;> [subst x; (intro _; clear_value x)])
    | (intro x; clear_value x)
    | (intro _)
    | lift_lets
    | split

theorem execUpdateDone_fr {wF : Nat} {zF : State} {s : State} (hF : Frame wF zF s) (hW : Sub 0x24218008004100ff wF) :
    FrameO wF zF (execUpdateDone s) := by
  unfold execUpdateDone
  repeat' first
    | (with_reducible assumption)
    | (with_reducible exact hW)
    | (with_reducible exact Sub.trans (Sub.mk (by decide)) hW)
    | (with_reducible apply State_modSec_fr)
    | (with_reducible apply State_activate_fr)
    | (with_reducible apply State_raise_fr)
    | (with_reducible apply State_finish_fr)
    | (with_reducible refine FrameO.next ?_)
    | (with_reducible exact SecKeep.of_eq (Eq.refl _) (Eq.refl _) (Eq.refl _))
    | (with_reducible (apply Frame.of_pair; assumption))
    | (with_reducible (apply Frame.of_pair'; assumption))
    | (intro x; refine Frame.cut (w := wF) (z := zF) (x := x) ?_ ?_ <;> [subst x; (intro _; clear_value x)])
    | (intro x; clear_value x)
    | (intro _)
    | lift_lets
    | split

theorem State_svnCommit_fr {wF : Nat} {zF : State} {s : State} (hF : Frame wF zF s) (hW : Sub 0x400000000010000 wF) :
    Frame wF zF (State.svnCommit s) := by
  unfold State.svnCommit
  split
  · split
    · exact hF
    · rename_i h
      exact State_raise_fr _ _ (State_measure_fr _ _ _ (State_modSec_fr _ hF (Sub.trans (Sub.mk (by decide)) hW)
        ⟨Eq.refl _, Nat.le_of_lt (Nat.lt_of_not_le fun k => h (Or.inr k)), BitVec.or_self, id⟩) (Sub.trans (Sub.mk (by decide)) hW)) (Sub.trans (Sub.mk (by decide)) hW)
  · exact hF

theorem execSvnCommit_fr {wF : Nat} {zF : State} (m : Master) {s : State} (hF : Frame wF zF s) (hW : Sub 0x400000000010000 wF) :
    FrameO wF zF (execSvnCommit m s) := by
  unfold execSvnCommit
  repeat' first
    | (with_reducible assumption)
    | (with_reducible exact hW)
    | (with_reducible exact Sub.trans (Sub.mk (by decide)) hW)
    | (with_reducible apply State_svnCommit_fr)
    | (with_reducible refine FrameO.next ?_)
    | split

/-- Revoking a slot whose pair is not revoked leaves a key of each kind. -/
theorem keysOk_revoke (r : BitVec 4) (slot : Nat) (hs : ¬ 3 < slot) (ho : ¬ r.getLsbD (if slot % 2 = 0 then slot + 1 else slot - 1) = true)
    (hk : (!(r.getLsbD 0 && r.getLsbD 1) && !(r.getLsbD 2 && r.getLsbD 3)) = true) :
    (!((r ||| 1 <<< slot).getLsbD 0 && (r ||| 1 <<< slot).getLsbD 1) && !((r ||| 1 <<< slot).getLsbD 2 && (r ||| 1 <<< slot).getLsbD 3)) = true := by
  have h4 : ∀ (r : BitVec 4) (slot : Fin 4), ¬ r.getLsbD (if slot.val % 2 = 0 then slot.val + 1 else slot.val - 1) = true →
      (!(r.getLsbD 0 && r.getLsbD 1) && !(r.getLsbD 2 && r.getLsbD 3)) = true →
      (!((r ||| 1 <<< slot.val).getLsbD 0 && (r ||| 1 <<< slot.val).getLsbD 1) && !((r ||| 1 <<< slot.val).getLsbD 2 && (r ||| 1 <<< slot.val).getLsbD 3)) = true := by
    decide
  exact h4 r ⟨slot, by omega⟩ ho hk

theorem State_keyRevoke_fr {wF : Nat} {zF : State} {s : State} (slot : Nat) (hF : Frame wF zF s) (hW : Sub 0x400000000010000 wF) :
    Frame wF zF (State.keyRevoke s slot) := by
  unfold State.keyRevoke
  extract_lets c other
  split
  · exact hF
  · rename_i h
    have k : SecKeep s.sec ((fun c : Sec => { c with revoked := c.revoked ||| (1 <<< slot) }) s.sec) :=
      ⟨Eq.refl _, Nat.le_refl _, by
        show s.sec.revoked ||| 1 <<< slot ||| s.sec.revoked = _
        rw [BitVec.or_comm, ← BitVec.or_assoc, BitVec.or_self],
        keysOk_revoke s.sec.revoked slot (fun x => h (Or.inl x)) (fun x => h (Or.inr (Or.inr (Or.inl x))))⟩
    exact State_raise_fr _ _ (State_measure_fr _ _ _ (State_modSec_fr _ hF (Sub.trans (Sub.mk (by decide)) hW) k) (Sub.trans (Sub.mk (by decide)) hW)) (Sub.trans (Sub.mk (by decide)) hW)

theorem execKeyRevoke_fr {wF : Nat} {zF : State} (m : Master) (slot : Nat) {s : State} (hF : Frame wF zF s) (hW : Sub 0x400000000010000 wF) :
    FrameO wF zF (execKeyRevoke m slot s) := by
  unfold execKeyRevoke
  repeat' first
    | (with_reducible assumption)
    | (with_reducible exact hW)
    | (with_reducible exact Sub.trans (Sub.mk (by decide)) hW)
    | (with_reducible apply State_keyRevoke_fr)
    | (with_reducible refine FrameO.next ?_)
    | split

theorem State_alChange_fr {wF : Nat} {zF : State} {s : State} (man : Bool) (l : List (List Byte)) (hF : Frame wF zF s) (hW : Sub 0x400000000010000 wF) :
    Frame wF zF (State.alChange s man l) := by
  unfold State.alChange
  repeat' first
    | (with_reducible assumption)
    | (with_reducible exact hW)
    | (with_reducible exact Sub.trans (Sub.mk (by decide)) hW)
    | (with_reducible apply State_modSec_fr)
    | (with_reducible apply State_measure_fr)
    | (with_reducible apply State_raise_fr)
    | (with_reducible exact SecKeep.of_eq (Eq.refl _) (Eq.refl _) (Eq.refl _))
    | (intro x; refine Frame.cut (w := wF) (z := zF) (x := x) ?_ ?_ <;> [subst x; (intro _; clear_value x)])
    | (intro x; clear_value x)
    | (intro _)
    | lift_lets
    | split

theorem State_alAdd_fr {wF : Nat} {zF : State} {s : State} (man : Bool) (hF : Frame wF zF s) (hW : Sub 0x400000000010000 wF) :
    Frame wF zF (State.alAdd s man) := by
  unfold State.alAdd
  repeat' first
    | (with_reducible assumption)
    | (with_reducible exact hW)
    | (with_reducible exact Sub.trans (Sub.mk (by decide)) hW)
    | (with_reducible apply State_modSec_fr)
    | (with_reducible apply State_alChange_fr)
    | (with_reducible exact SecKeep.of_eq (Eq.refl _) (Eq.refl _) (Eq.refl _))
    | (intro x; refine Frame.cut (w := wF) (z := zF) (x := x) ?_ ?_ <;> [subst x; (intro _; clear_value x)])
    | (intro x; clear_value x)
    | (intro _)
    | lift_lets
    | split

theorem State_alRemove_fr {wF : Nat} {zF : State} {s : State} (man : Bool) (hF : Frame wF zF s) (hW : Sub 0x400000000010000 wF) :
    Frame wF zF (State.alRemove s man) := by
  unfold State.alRemove
  repeat' first
    | (with_reducible assumption)
    | (with_reducible exact hW)
    | (with_reducible exact Sub.trans (Sub.mk (by decide)) hW)
    | (with_reducible apply State_alChange_fr)
    | (intro x; refine Frame.cut (w := wF) (z := zF) (x := x) ?_ ?_ <;> [subst x; (intro _; clear_value x)])
    | (intro x; clear_value x)
    | (intro _)
    | lift_lets
    | split

theorem State_alClear_fr {wF : Nat} {zF : State} {s : State} (man : Bool) (hF : Frame wF zF s) (hW : Sub 0x400000000010000 wF) :
    Frame wF zF (State.alClear s man) := by
  unfold State.alClear
  repeat' first
    | (with_reducible assumption)
    | (with_reducible exact hW)
    | (with_reducible exact Sub.trans (Sub.mk (by decide)) hW)
    | (with_reducible apply State_alChange_fr)
    | split

theorem execAllowlistAdd_fr {wF : Nat} {zF : State} (m : Master) (manifest : Bool) {s : State} (hF : Frame wF zF s) (hW : Sub 0x400000000010000 wF) :
    FrameO wF zF (execAllowlistAdd m manifest s) := by
  unfold execAllowlistAdd
  repeat' first
    | (with_reducible assumption)
    | (with_reducible exact hW)
    | (with_reducible exact Sub.trans (Sub.mk (by decide)) hW)
    | (with_reducible apply State_alAdd_fr)
    | (with_reducible refine FrameO.next ?_)
    | split

theorem execAllowlistRemove_fr {wF : Nat} {zF : State} (m : Master) (manifest : Bool) {s : State} (hF : Frame wF zF s) (hW : Sub 0x400000000010000 wF) :
    FrameO wF zF (execAllowlistRemove m manifest s) := by
  unfold execAllowlistRemove
  repeat' first
    | (with_reducible assumption)
    | (with_reducible exact hW)
    | (with_reducible exact Sub.trans (Sub.mk (by decide)) hW)
    | (with_reducible apply State_alRemove_fr)
    | (with_reducible refine FrameO.next ?_)
    | split

theorem execAllowlistClear_fr {wF : Nat} {zF : State} (m : Master) (manifest : Bool) {s : State} (hF : Frame wF zF s) (hW : Sub 0x400000000010000 wF) :
    FrameO wF zF (execAllowlistClear m manifest s) := by
  unfold execAllowlistClear
  repeat' first
    | (with_reducible assumption)
    | (with_reducible exact hW)
    | (with_reducible exact Sub.trans (Sub.mk (by decide)) hW)
    | (with_reducible apply State_alClear_fr)
    | (with_reducible refine FrameO.next ?_)
    | split

theorem State_writeSecCtl_fr {wF : Nat} {zF : State} {s : State} (v : Nat) (hF : Frame wF zF s) (hW : Sub 0x400000000050000 wF) :
    Frame wF zF (State.writeSecCtl s v) := by
  unfold State.writeSecCtl
  repeat' first
    | (with_reducible assumption)
    | (with_reducible exact hW)
    | (with_reducible exact Sub.trans (Sub.mk (by decide)) hW)
    | (with_reducible apply State_modSec_fr)
    | (with_reducible apply State_svnCommit_fr)
    | (with_reducible apply State_keyRevoke_fr)
    | (with_reducible refine Frame.foldl (fun _ _ _ => ?_) _ ?_)
    | (with_reducible refine Frame.foldl1 (fun _ _ _ => ?_) _ ?_)
    | (with_reducible refine Frame.foldl2 (fun _ _ _ => ?_) _ ?_)
    | (with_reducible exact SecKeep.of_eq (Eq.refl _) (Eq.refl _) (Eq.refl _))
    | (intro x; refine Frame.cut (w := wF) (z := zF) (x := x) ?_ ?_ <;> [subst x; (intro _; clear_value x)])
    | (intro x; clear_value x)
    | (intro _)
    | lift_lets
    | ((fail_if_success split); with_reducible apply Frame.upd_lkIgnore)
    | split

theorem State_writeAlCmd_fr {wF : Nat} {zF : State} {s : State} (v : Nat) (hF : Frame wF zF s) (hW : Sub 0x400000000010000 wF) :
    Frame wF zF (State.writeAlCmd s v) := by
  unfold State.writeAlCmd
  repeat' first
    | (with_reducible assumption)
    | (with_reducible exact hW)
    | (with_reducible exact Sub.trans (Sub.mk (by decide)) hW)
    | (with_reducible apply State_alAdd_fr)
    | (with_reducible apply State_alRemove_fr)
    | (with_reducible apply State_alClear_fr)
    | (with_reducible (apply Frame.of_pair; assumption))
    | (with_reducible (apply Frame.of_pair'; assumption))
    | split

theorem State_removePalette_fr {wF : Nat} {zF : State} {s : State} (r : Ref) (b : List Byte) (hF : Frame wF zF s) (hW : Sub 0x20002400000100f8 wF) :
    Frame wF zF (State.removePalette s r b) := by
  unfold State.removePalette
  repeat' first
    | (with_reducible assumption)
    | (with_reducible exact hW)
    | (with_reducible exact Sub.trans (Sub.mk (by decide)) hW)
    | (with_reducible apply State_finish_fr)
    | (with_reducible apply State_modDies_fr)
    | (intro x; refine Frame.cut (w := wF) (z := zF) (x := x) ?_ ?_ <;> [subst x; (intro _; clear_value x)])
    | (intro x; clear_value x)
    | (intro _)
    | lift_lets
    | ((fail_if_success split); with_reducible apply Frame.upd_pals)
    | split

theorem State_admitPalette_fr {wF : Nat} {zF : State} {s : State} (r : Ref) (img : List Byte) (hF : Frame wF zF s) (hW : Sub 0x24002400000100f8 wF) :
    Frame wF zF (State.admitPalette s r img) := by
  have fin : ∀ (n : Nat) (b : List Byte), Frame wF zF (s.finish r n b) := fun n b => State_finish_fr _ _ _ hF (Sub.trans (Sub.mk (by decide)) hW)
  have logged : ∀ {s : State} (a : Nat) (d b : List Byte), Frame wF zF s → Frame wF zF ((s.measure 3 a d).finish r stOK b) :=
    fun a d b h => State_finish_fr _ _ _ (State_measure_fr _ _ _ h (Sub.trans (Sub.mk (by decide)) hW)) (Sub.trans (Sub.mk (by decide)) hW)
  unfold State.admitPalette
  extract_lets id p lg
  split
  · exact Frame.ite (fin _ _) (Frame.ite (fin _ _) (logged _ _ _ (State_modDies_fr _ (Frame.upd_pals hF (Sub.trans (Sub.mk (by decide)) hW)) (Sub.trans (Sub.mk (by decide)) hW))))
  · exact Frame.ite (fin _ _) (logged _ _ _ (Frame.upd_pals hF (Sub.trans (Sub.mk (by decide)) hW)))

theorem opPaletteLoad_fr {wF : Nat} {zF : State} (r : Ref) (b : List Byte) {s : State} (hF : Frame wF zF s) (hW : Sub 0x24002400000100f8 wF) :
    Frame wF zF (opPaletteLoad r b s) := by
  unfold opPaletteLoad
  repeat' first
    | (with_reducible assumption)
    | (with_reducible exact hW)
    | (with_reducible exact Sub.trans (Sub.mk (by decide)) hW)
    | (with_reducible apply State_finish_fr)
    | (with_reducible apply State_removePalette_fr)
    | (with_reducible apply State_admitPalette_fr)
    | (with_reducible (apply Frame.of_pair; assumption))
    | (with_reducible (apply Frame.of_pair'; assumption))
    | (intro x; refine Frame.cut (w := wF) (z := zF) (x := x) ?_ ?_ <;> [subst x; (intro _; clear_value x)])
    | (intro x; clear_value x)
    | (intro _)
    | lift_lets
    | split

theorem State_askReport_fr {wF : Nat} {zF : State} {s : State} (q : RptReq) (hF : Frame wF zF s) (hW : Sub 0x400000000000000 wF) :
    Frame wF zF (State.askReport s q) := by
  unfold State.askReport
  repeat' first
    | (with_reducible assumption)
    | (with_reducible exact hW)
    | (with_reducible exact Sub.trans (Sub.mk (by decide)) hW)
    | (with_reducible apply State_modSec_fr)
    | (with_reducible exact SecKeep.of_eq (Eq.refl _) (Eq.refl _) (Eq.refl _))
    | (intro _)

theorem opAttest_fr {wF : Nat} {zF : State} (r : Ref) (b : List Byte) {s : State} (hF : Frame wF zF s) (hW : Sub 0x24000000000100f8 wF) :
    Frame wF zF (opAttest r b s) := by
  unfold opAttest
  repeat' first
    | (with_reducible assumption)
    | (with_reducible exact hW)
    | (with_reducible exact Sub.trans (Sub.mk (by decide)) hW)
    | (with_reducible apply State_finish_fr)
    | (with_reducible apply State_askReport_fr)
    | split

theorem execReportSigned_fr {wF : Nat} {zF : State} {s : State} (hF : Frame wF zF s) (hW : Sub 0x24000000000100f9 wF) :
    FrameO wF zF (execReportSigned s) := by
  unfold execReportSigned
  split
  · exact FrameO.next hF
  · split
    · exact FrameO.next hF
    · rename_i q t _ _
      have h1 : Frame wF zF (s.modSec fun c => { c with rpts := t }) :=
        State_modSec_fr _ hF (Sub.trans (Sub.mk (by decide)) hW) (SecKeep.of_eq (Eq.refl _) (Eq.refl _) (Eq.refl _))
      extract_lets s1 rpt
      change Frame wF zF s1 at h1
      clear_value s1
      split
      · rename_i r _
        have c := State_hostWrite_fr r.src.port q.dst rpt h1 (Sub.trans (Sub.mk (by decide)) hW)
        exact FrameO.next (State_finishWith_fr _ _ _ _ _ c (Sub.trans (Sub.mk (by decide)) hW))
      · split
        · exact FrameO.next (State_emit_fr _ h1 (Sub.trans (Sub.mk (by decide)) hW))
        · exact FrameO.next (State_emits_fr _ (State_draw_fr h1 (Sub.trans (Sub.mk (by decide)) hW)) (Sub.trans (Sub.mk (by decide)) hW))

theorem execSidebandAttestRequest_fr {wF : Nat} {zF : State} (nonce : List Byte) {s : State} (hF : Frame wF zF s) (hW : Sub 0x3ca187fbe2e13cff wF) :
    FrameO wF zF (execSidebandAttestRequest nonce s) := by
  unfold execSidebandAttestRequest
  repeat' first
    | (with_reducible assumption)
    | (with_reducible exact hW)
    | (with_reducible exact Sub.trans (Sub.mk (by decide)) hW)
    | (with_reducible apply State_beat_fr)
    | (with_reducible apply State_askReport_fr)
    | (with_reducible refine FrameO.next ?_)
    | (intro x; refine Frame.cut (w := wF) (z := zF) (x := x) ?_ ?_ <;> [subst x; (intro _; clear_value x)])
    | (intro x; clear_value x)
    | (intro _)
    | lift_lets
    | split

theorem execSpdmRequest_fr {wF : Nat} {zF : State} (p : Port) (nonce : List Byte) {s : State} (hF : Frame wF zF s) (hW : Sub 0x400000000000000 wF) :
    FrameO wF zF (execSpdmRequest p nonce s) := by
  unfold execSpdmRequest
  repeat' first
    | (with_reducible assumption)
    | (with_reducible exact hW)
    | (with_reducible exact Sub.trans (Sub.mk (by decide)) hW)
    | (with_reducible apply State_askReport_fr)
    | (with_reducible refine FrameO.next ?_)
    | (intro x; refine Frame.cut (w := wF) (z := zF) (x := x) ?_ ?_ <;> [subst x; (intro _; clear_value x)])
    | (intro x; clear_value x)
    | (intro _)
    | lift_lets
    | split

end Sys2Proof.Machine
end

