-- ==== Sys2Proof/Laws/FrameRegisters.lean ====
section
/-! SUPPORT. What each operation of Machine/Registers.lean may change. -/

set_option linter.all false

namespace Sys2Proof.Machine

open Sys2Proof

theorem State_sqRead_fr {wF : Nat} {zF : State} {s : State} (m : Master) (r : SqReg) (hF : Frame wF zF s) (hW : Sub 0x2000000000010000 wF) :
    Frame wF zF (State.sqRead s m r) := by
  unfold State.sqRead
  repeat' first
    | (with_reducible assumption)
    | (with_reducible exact hW)
    | (with_reducible exact Sub.trans (Sub.mk (by decide)) hW)
    | (with_reducible apply State_emit_fr)
    | (intro x; refine Frame.cut (w := wF) (z := zF) (x := x) ?_ ?_ <;> [subst x; (intro _; clear_value x)])
    | (intro x; clear_value x)
    | (intro _)
    | lift_lets
    | ((fail_if_success split); with_reducible apply Frame.upd_sq)
    | split

theorem execSqEventRead_fr {wF : Nat} {zF : State} (m : Master) (r : SqReg) {s : State} (hF : Frame wF zF s) (hW : Sub 0x2000000000010000 wF) :
    FrameO wF zF (execSqEventRead m r s) := by
  unfold execSqEventRead
  repeat' first
    | (with_reducible assumption)
    | (with_reducible exact hW)
    | (with_reducible exact Sub.trans (Sub.mk (by decide)) hW)
    | (with_reducible apply State_sqRead_fr)
    | (with_reducible refine FrameO.next ?_)
    | split

theorem State_sqClear_fr {wF : Nat} {zF : State} {s : State} (m : Master) (r : SqReg) (v : W32) (hF : Frame wF zF s) (hW : Sub 0x30000 wF) :
    Frame wF zF (State.sqClear s m r v) := by
  unfold State.sqClear
  repeat' first
    | (with_reducible assumption)
    | (with_reducible exact hW)
    | (with_reducible exact Sub.trans (Sub.mk (by decide)) hW)
    | (intro x; refine Frame.cut (w := wF) (z := zF) (x := x) ?_ ?_ <;> [subst x; (intro _; clear_value x)])
    | (intro x; clear_value x)
    | (intro _)
    | lift_lets
    | ((fail_if_success split); with_reducible apply Frame.upd_sq)
    | ((fail_if_success split); with_reducible apply Frame.upd_seqMiss)
    | split

theorem execSqEventClear_fr {wF : Nat} {zF : State} (m : Master) (r : SqReg) (v : W32) {s : State} (hF : Frame wF zF s) (hW : Sub 0x30000 wF) :
    FrameO wF zF (execSqEventClear m r v s) := by
  unfold execSqEventClear
  repeat' first
    | (with_reducible assumption)
    | (with_reducible exact hW)
    | (with_reducible exact Sub.trans (Sub.mk (by decide)) hW)
    | (with_reducible apply State_sqClear_fr)
    | (with_reducible refine FrameO.next ?_)
    | split

theorem State_bfWrite_fr {wF : Nat} {zF : State} {s : State} (m : Master) (off : Nat) (v : W32) (early : Bool) (hF : Frame wF zF s) (hW : Sub 0x3c00 wF) :
    Frame wF zF (State.bfWrite s m off v early) := by
  unfold State.bfWrite
  repeat' first
    | (with_reducible assumption)
    | (with_reducible exact hW)
    | (with_reducible exact Sub.trans (Sub.mk (by decide)) hW)
    | (with_reducible apply State_modMaster_fr)
    | (intro _)
    | split

theorem execBfWrite_fr {wF : Nat} {zF : State} (m : Master) (off : Nat) (v : W32) {s : State} (hF : Frame wF zF s) (hW : Sub 0x3c00 wF) :
    FrameO wF zF (execBfWrite m off v s) := by
  unfold execBfWrite
  repeat' first
    | (with_reducible assumption)
    | (with_reducible exact hW)
    | (with_reducible exact Sub.trans (Sub.mk (by decide)) hW)
    | (with_reducible apply State_bfWrite_fr)
    | (with_reducible refine FrameO.next ?_)
    | split

theorem State_genCheck_fr {wF : Nat} {zF : State} {s : State} (m : Master) (hF : Frame wF zF s) (hW : Sub 0x3c00 wF) :
    Frame wF zF (State.genCheck s m) := by
  unfold State.genCheck
  repeat' first
    | (with_reducible assumption)
    | (with_reducible exact hW)
    | (with_reducible exact Sub.trans (Sub.mk (by decide)) hW)
    | (with_reducible apply State_modMaster_fr)
    | (with_reducible refine Frame.getD (fun _ _ => ?_) ?_)
    | (with_reducible (apply Frame.of_pair; assumption))
    | (with_reducible (apply Frame.of_pair'; assumption))
    | (intro x; refine Frame.cut (w := wF) (z := zF) (x := x) ?_ ?_ <;> [subst x; (intro _; clear_value x)])
    | (intro x; clear_value x)
    | (intro _)
    | lift_lets
    | split

theorem State_genChecks_fr {wF : Nat} {zF : State} {s : State} (x0 : Nat) (hF : Frame wF zF s) (hW : Sub 0x3c00 wF) :
    Frame wF zF (State.genChecks s x0) := by
  induction x0 generalizing s with
  | zero =>
    unfold State.genChecks
    repeat' first
      | (with_reducible assumption)
      | (with_reducible exact hW)
      | (with_reducible exact Sub.trans (Sub.mk (by decide)) hW)
      | (with_reducible apply State_genCheck_fr)
      | (with_reducible (apply Frame.of_pair; assumption))
      | (with_reducible (apply Frame.of_pair'; assumption))
      | (intro _)
      | split
  | succ n ih =>
    unfold State.genChecks
    repeat' first
      | (with_reducible assumption)
      | (with_reducible exact hW)
      | (with_reducible exact Sub.trans (Sub.mk (by decide)) hW)
      | (with_reducible apply ih)
      | (with_reducible apply State_genCheck_fr)
      | (with_reducible (apply Frame.of_pair; assumption))
      | (with_reducible (apply Frame.of_pair'; assumption))
      | (intro _)
      | split

theorem State_cfgGo_fr {wF : Nat} {zF : State} {s : State} (m : Master) (hF : Frame wF zF s) (hW : Sub 0xbc00 wF) :
    Frame wF zF (State.cfgGo s m) := by
  unfold State.cfgGo
  repeat' first
    | (with_reducible assumption)
    | (with_reducible exact hW)
    | (with_reducible exact Sub.trans (Sub.mk (by decide)) hW)
    | (with_reducible apply State_modMaster_fr)
    | (with_reducible apply State_genChecks_fr)
    | (intro x; refine Frame.cut (w := wF) (z := zF) (x := x) ?_ ?_ <;> [subst x; (intro _; clear_value x)])
    | (intro x; clear_value x)
    | (intro _)
    | lift_lets
    | ((fail_if_success split); with_reducible apply Frame.upd_accNo)
    | split

theorem State_cfgDiscard_fr {wF : Nat} {zF : State} {s : State} (m : Master) (hF : Frame wF zF s) (hW : Sub 0x3c00 wF) :
    Frame wF zF (State.cfgDiscard s m) := by
  unfold State.cfgDiscard
  repeat' first
    | (with_reducible assumption)
    | (with_reducible exact hW)
    | (with_reducible exact Sub.trans (Sub.mk (by decide)) hW)
    | (with_reducible apply State_modMaster_fr)
    | (intro _)

theorem execCfgCommitGo_fr {wF : Nat} {zF : State} (m : Master) {s : State} (hF : Frame wF zF s) (hW : Sub 0xbc00 wF) :
    FrameO wF zF (execCfgCommitGo m s) := by
  unfold execCfgCommitGo
  repeat' first
    | (with_reducible assumption)
    | (with_reducible exact hW)
    | (with_reducible exact Sub.trans (Sub.mk (by decide)) hW)
    | (with_reducible apply State_cfgGo_fr)
    | (with_reducible refine FrameO.next ?_)
    | split

theorem execCfgCommitDiscard_fr {wF : Nat} {zF : State} (m : Master) {s : State} (hF : Frame wF zF s) (hW : Sub 0x3c00 wF) :
    FrameO wF zF (execCfgCommitDiscard m s) := by
  unfold execCfgCommitDiscard
  repeat' first
    | (with_reducible assumption)
    | (with_reducible exact hW)
    | (with_reducible exact Sub.trans (Sub.mk (by decide)) hW)
    | (with_reducible apply State_cfgDiscard_fr)
    | (with_reducible refine FrameO.next ?_)
    | split

theorem execGenerationApply_fr {wF : Nat} {zF : State} (m : Master) {s : State} (hF : Frame wF zF s) (hW : Sub 0x21800800403c67 wF) :
    FrameO wF zF (execGenerationApply m s) := by
  unfold execGenerationApply
  repeat' first
    | (with_reducible assumption)
    | (with_reducible exact hW)
    | (with_reducible exact Sub.trans (Sub.mk (by decide)) hW)
    | (with_reducible apply State_applyGen_fr)
    | (with_reducible refine FrameO.next ?_)
    | (with_reducible (apply Frame.of_pair; assumption))
    | (with_reducible (apply Frame.of_pair'; assumption))
    | (intro _)
    | split

theorem State_writeRack_fr {wF : Nat} {zF : State} {s : State} (v : Nat) (hF : Frame wF zF s) (hW : Sub 0x10000000010000 wF) :
    Frame wF zF (State.writeRack s v) := by
  unfold State.writeRack
  repeat' first
    | (with_reducible assumption)
    | (with_reducible exact hW)
    | (with_reducible exact Sub.trans (Sub.mk (by decide)) hW)
    | (with_reducible apply State_raise_fr)
    | (intro _)
    | ((fail_if_success split); with_reducible apply Frame.upd_coord)
    | split

theorem State_writeLnkCtl_fr {wF : Nat} {zF : State} {s : State} (i : Nat) (v : Nat) (hF : Frame wF zF s) (hW : Sub 0x28af87fbe2e53cff wF) :
    Frame wF zF (State.writeLnkCtl s i v) := by
  unfold State.writeLnkCtl
  repeat' first
    | (with_reducible assumption)
    | (with_reducible exact hW)
    | (with_reducible exact Sub.trans (Sub.mk (by decide)) hW)
    | (with_reducible apply State_lnkEnable_fr)
    | (with_reducible apply State_modLink_fr)
    | (with_reducible apply State_lnkRetrain_fr)
    | (intro x; refine Frame.cut (w := wF) (z := zF) (x := x) ?_ ?_ <;> [subst x; (intro _; clear_value x)])
    | (intro x; clear_value x)
    | (intro _)
    | lift_lets
    | split

theorem State_lockSet_fr {wF : Nat} {zF : State} {s : State} (m : Master) (off : Nat) (hF : Frame wF zF s) (hW : Sub 0x412000000040000 wF) :
    Frame wF zF (State.lockSet s m off) := by
  unfold State.lockSet
  repeat' first
    | (with_reducible assumption)
    | (with_reducible exact hW)
    | (with_reducible exact Sub.trans (Sub.mk (by decide)) hW)
    | (with_reducible apply State_modSec_fr)
    | (with_reducible apply State_modLink_fr)
    | (with_reducible exact SecKeep.of_eq (Eq.refl _) (Eq.refl _) (Eq.refl _))
    | (with_reducible (apply Frame.of_pair; assumption))
    | (with_reducible (apply Frame.of_pair'; assumption))
    | (intro x; refine Frame.cut (w := wF) (z := zF) (x := x) ?_ ?_ <;> [subst x; (intro _; clear_value x)])
    | (intro x; clear_value x)
    | (intro _)
    | lift_lets
    | ((fail_if_success split); with_reducible apply Frame.upd_lkIgnore)
    | ((fail_if_success split); with_reducible apply Frame.upd_coord)
    | split

theorem execLockSet_fr {wF : Nat} {zF : State} (m : Master) (off : Nat) {s : State} (hF : Frame wF zF s) (hW : Sub 0x412000000040000 wF) :
    FrameO wF zF (execLockSet m off s) := by
  unfold execLockSet
  repeat' first
    | (with_reducible assumption)
    | (with_reducible exact hW)
    | (with_reducible exact Sub.trans (Sub.mk (by decide)) hW)
    | (with_reducible apply State_lockSet_fr)
    | (with_reducible refine FrameO.next ?_)
    | split

theorem State_writeSnapCtl_fr {wF : Nat} {zF : State} {s : State} (v : Nat) (hF : Frame wF zF s) (hW : Sub 0x2800000000000000 wF) :
    Frame wF zF (State.writeSnapCtl s v) := by
  unfold State.writeSnapCtl
  repeat' first
    | (with_reducible assumption)
    | (with_reducible exact hW)
    | (with_reducible exact Sub.trans (Sub.mk (by decide)) hW)
    | (with_reducible apply State_modSnap_fr)
    | (with_reducible apply State_trigger_fr)
    | (with_reducible apply State_rearm_fr)
    | (intro x; refine Frame.cut (w := wF) (z := zF) (x := x) ?_ ?_ <;> [subst x; (intro _; clear_value x)])
    | (intro x; clear_value x)
    | (intro _)
    | lift_lets
    | split

theorem State_privWrite_fr {wF : Nat} {zF : State} {s : State} (m : Master) (f : State → State) (hF : Frame wF zF s) (hW : Sub 0x0 wF) (hHf : ∀ v0, Frame wF zF v0 → Frame wF zF (f v0)) :
    Frame wF zF (State.privWrite s m f) := by
  unfold State.privWrite
  repeat' first
    | (with_reducible assumption)
    | (with_reducible exact hW)
    | (with_reducible exact Sub.trans (Sub.mk (by decide)) hW)
    | (with_reducible apply hHf)
    | split

theorem State_landWrite_fr {wF : Nat} {zF : State} {s : State} (m : Master) (off : Nat) (w : W32) (early : Bool) (hF : Frame wF zF s) (hW : Sub 0x2cff87fbe2e7bcff wF) :
    Frame wF zF (State.landWrite s m off w early) := by
  have pv : ∀ f : State → State, (∀ s, Frame wF zF s → Frame wF zF (f s)) → Frame wF zF (s.privWrite m f) := fun f h => State_privWrite_fr _ _ hF (Sub.trans (Sub.mk (by decide)) hW) h
  unfold State.landWrite
  refine Frame.ite (State_bfWrite_fr _ _ _ _ hF (Sub.trans (Sub.mk (by decide)) hW)) ?_
  split
  · exact State_sqClear_fr _ _ _ hF (Sub.trans (Sub.mk (by decide)) hW)
  · refine Frame.ite (Frame.ite (State_cfgGo_fr _ hF (Sub.trans (Sub.mk (by decide)) hW)) (Frame.ite (State_cfgDiscard_fr _ hF (Sub.trans (Sub.mk (by decide)) hW)) hF)) ?_
    refine Frame.ite (pv _ fun _ h => State_setRackCap_fr _ h (Sub.trans (Sub.mk (by decide)) hW)) ?_
    refine Frame.ite (State_setHostCap_fr _ hF (Sub.trans (Sub.mk (by decide)) hW)) ?_
    refine Frame.ite (pv _ fun _ h => State_pwrUpdate_fr (State_modPower_fr _ h (Sub.trans (Sub.mk (by decide)) hW)) (Sub.trans (Sub.mk (by decide)) hW)) ?_
    refine Frame.ite (pv _ fun _ h => State_modPower_fr _ h (Sub.trans (Sub.mk (by decide)) hW)) ?_
    refine Frame.ite (State_modMon_fr _ hF (Sub.trans (Sub.mk (by decide)) hW)) ?_
    refine Frame.ite (State_writeSnapCtl_fr _ hF (Sub.trans (Sub.mk (by decide)) hW)) ?_
    refine Frame.ite (State_modSnap_fr _ hF (Sub.trans (Sub.mk (by decide)) hW)) ?_
    refine Frame.ite (State_modMaster_fr _ _ hF (Sub.trans (Sub.mk (by decide)) hW)) ?_
    refine Frame.ite (pv _ fun _ h => State_writeSecCtl_fr _ h (Sub.trans (Sub.mk (by decide)) hW)) ?_
    refine Frame.ite (pv _ fun _ h => State_writeAlCmd_fr _ h (Sub.trans (Sub.mk (by decide)) hW)) ?_
    refine Frame.ite (pv _ fun _ h => State_modSec_fr _ h (Sub.trans (Sub.mk (by decide)) hW) (SecKeep.of_eq (Eq.refl _) (Eq.refl _) (Eq.refl _))) ?_
    refine Frame.ite (pv _ fun _ h => State_writeCoord_fr _ h (Sub.trans (Sub.mk (by decide)) hW)) ?_
    refine Frame.ite (pv _ fun _ h => State_writeRack_fr _ h (Sub.trans (Sub.mk (by decide)) hW)) ?_
    split
    · exact Frame.ite (State_writeLnkCtl_fr _ _ hF (Sub.trans (Sub.mk (by decide)) hW)) hF
    · exact hF

theorem State_accClear_fr {wF : Nat} {zF : State} {s : State} (m : Master) (blk : PwBlk) (hF : Frame wF zF s) (hW : Sub 0x4000 wF) :
    Frame wF zF (State.accClear s m blk) := by
  unfold State.accClear
  repeat' first
    | (with_reducible assumption)
    | (with_reducible exact hW)
    | (with_reducible exact Sub.trans (Sub.mk (by decide)) hW)
    | (with_reducible apply State_setAcc_fr)

theorem State_postWrite_fr {wF : Nat} {zF : State} {s : State} (m : Master) (blk : PwBlk) (off : Nat) (v : W32) (hF : Frame wF zF s) (hW : Sub 0xc000 wF) :
    Frame wF zF (State.postWrite s m blk off v) := by
  unfold State.postWrite
  repeat' first
    | (with_reducible assumption)
    | (with_reducible exact hW)
    | (with_reducible exact Sub.trans (Sub.mk (by decide)) hW)
    | (with_reducible apply State_setAcc_fr)
    | (intro x; refine Frame.cut (w := wF) (z := zF) (x := x) ?_ ?_ <;> [subst x; (intro _; clear_value x)])
    | (intro x; clear_value x)
    | (intro _)
    | lift_lets
    | ((fail_if_success split); with_reducible apply Frame.upd_accNo)
    | split

theorem State_pwWrite_fr {wF : Nat} {zF : State} {s : State} (m : Master) (blk : PwBlk) (off : Nat) (v : W32) (hF : Frame wF zF s) (hW : Sub 0xc000 wF) :
    Frame wF zF (State.pwWrite s m blk off v) := by
  unfold State.pwWrite
  repeat' first
    | (with_reducible assumption)
    | (with_reducible exact hW)
    | (with_reducible exact Sub.trans (Sub.mk (by decide)) hW)
    | (with_reducible apply State_accClear_fr)
    | (with_reducible apply State_postWrite_fr)
    | split

theorem execPwWrite_fr {wF : Nat} {zF : State} (m : Master) (off : Nat) (v : W32) {s : State} (hF : Frame wF zF s) (hW : Sub 0xc000 wF) :
    FrameO wF zF (execPwWrite m off v s) := by
  unfold execPwWrite
  repeat' first
    | (with_reducible assumption)
    | (with_reducible exact hW)
    | (with_reducible exact Sub.trans (Sub.mk (by decide)) hW)
    | (with_reducible apply State_pwWrite_fr)
    | (with_reducible refine FrameO.next ?_)
    | (with_reducible (apply Frame.of_pair; assumption))
    | (with_reducible (apply Frame.of_pair'; assumption))
    | split

theorem execPwWriteLand_fr {wF : Nat} {zF : State} (m : Master) (blk : PwBlk) {s : State} (hF : Frame wF zF s) (hW : Sub 0x2cff87fbe2e7fcff wF) :
    FrameO wF zF (execPwWriteLand m blk s) := by
  unfold execPwWriteLand
  repeat' first
    | (with_reducible assumption)
    | (with_reducible exact hW)
    | (with_reducible exact Sub.trans (Sub.mk (by decide)) hW)
    | (with_reducible apply State_setAcc_fr)
    | (with_reducible apply State_landWrite_fr)
    | (with_reducible apply State_genChecks_fr)
    | (with_reducible refine FrameO.next ?_)
    | (intro x; refine Frame.cut (w := wF) (z := zF) (x := x) ?_ ?_ <;> [subst x; (intro _; clear_value x)])
    | (intro x; clear_value x)
    | (intro _)
    | lift_lets
    | split

theorem execAccDropClear_fr {wF : Nat} {zF : State} (m : Master) (blk : PwBlk) {s : State} (hF : Frame wF zF s) (hW : Sub 0x4000 wF) :
    FrameO wF zF (execAccDropClear m blk s) := by
  unfold execAccDropClear
  repeat' first
    | (with_reducible assumption)
    | (with_reducible exact hW)
    | (with_reducible exact Sub.trans (Sub.mk (by decide)) hW)
    | (with_reducible apply State_accClear_fr)
    | (with_reducible refine FrameO.next ?_)
    | split

theorem execTimeLoRead_fr {wF : Nat} {zF : State} (m : Master) {s : State} (hF : Frame wF zF s) (hW : Sub 0x2000000000003c00 wF) :
    FrameO wF zF (execTimeLoRead m s) := by
  unfold execTimeLoRead
  repeat' first
    | (with_reducible assumption)
    | (with_reducible exact hW)
    | (with_reducible exact Sub.trans (Sub.mk (by decide)) hW)
    | (with_reducible apply State_modMaster_fr)
    | (with_reducible apply State_emit_fr)
    | (with_reducible refine FrameO.next ?_)
    | (intro _)
    | split

end Sys2Proof.Machine
end

