-- ==== Sys2Proof/Laws/FrameBoot.lean ====
section
/-! SUPPORT. What each operation of Machine/Boot.lean may change. -/

set_option linter.all false

namespace Sys2Proof.Machine

open Sys2Proof

theorem State_moduleReset_fr {wF : Nat} {zF : State} {s : State} (cause : Nat) (hF : Frame wF zF s) (hW : Sub 0x3fffffffffffffff wF) :
    Frame wF zF (State.moduleReset s cause) := by
  have l : ∀ v, Sub v wF → Sub v wF := fun _ h => h
  constructor
  case pending => exact hF.pending
  case okMem => exact fun _ => Memory.wf_nil
  case okA => exact hF.okA
  case okB => exact hF.okB
  case okShape =>
    intro h
    have k := hF.okShape h
    unfold State.shapeOk at k ⊢
    simp only [State.moduleReset, List.length_map, Bool.and_eq_true, beq_iff_eq] at k ⊢
    exact ⟨⟨⟨⟨⟨List.length_range, k.1.1.1.1.2⟩, List.length_replicate⟩, List.length_replicate⟩, List.length_replicate⟩, by
      show ((List.range 30).map State.link0).length = 30
      rw [List.length_map, List.length_range]⟩
  case okSec => exact hF.okSec.trans (SecKeep.of_eq (Eq.refl _) (Eq.refl _) (Eq.refl _))
  all_goals exact Or.inl (Sub.trans (Sub.mk (by decide)) hW)

theorem execModRstNAssert_fr {wF : Nat} {zF : State} {s : State} (hF : Frame wF zF s) (hW : Sub 0x3fffffffffffffff wF) :
    FrameO wF zF (execModRstNAssert s) := by
  unfold execModRstNAssert
  repeat' first
    | (with_reducible assumption)
    | (with_reducible exact hW)
    | (with_reducible exact Sub.trans (Sub.mk (by decide)) hW)
    | (with_reducible apply State_moduleReset_fr)
    | (with_reducible refine FrameO.next ?_)
    | split

theorem execPowerOff_fr {wF : Nat} {zF : State} {s : State} (hF : Frame wF zF s) (hW : Sub 0x3fffffffffffffff wF) :
    FrameO wF zF (execPowerOff s) := by
  unfold execPowerOff
  repeat' first
    | (with_reducible assumption)
    | (with_reducible exact hW)
    | (with_reducible exact Sub.trans (Sub.mk (by decide)) hW)
    | (with_reducible apply State_moduleReset_fr)
    | (with_reducible apply State_modClk_fr)
    | (with_reducible refine FrameO.next ?_)
    | (intro _)

theorem execPowerOn_fr {wF : Nat} {zF : State} {s : State} (hF : Frame wF zF s) (hW : Sub 0x3fffffffffffffff wF) :
    FrameO wF zF (execPowerOn s) := by
  unfold execPowerOn
  repeat' first
    | (with_reducible assumption)
    | (with_reducible exact hW)
    | (with_reducible exact Sub.trans (Sub.mk (by decide)) hW)
    | (with_reducible apply State_moduleReset_fr)
    | (with_reducible apply State_modClk_fr)
    | (with_reducible refine FrameO.next ?_)
    | (intro _)
    | split

theorem execResetScopeDelayExpire_fr {wF : Nat} {zF : State} {s : State} (hF : Frame wF zF s) (hW : Sub 0x3fffffffffffffff wF) :
    FrameO wF zF (execResetScopeDelayExpire s) := by
  unfold execResetScopeDelayExpire
  repeat' first
    | (with_reducible assumption)
    | (with_reducible exact hW)
    | (with_reducible exact Sub.trans (Sub.mk (by decide)) hW)
    | (with_reducible apply State_moduleReset_fr)
    | (with_reducible refine FrameO.next ?_)
    | split

theorem execModuleResetEnd_fr {wF : Nat} {zF : State} {s : State} (hF : Frame wF zF s) (hW : Sub 0x2aa187fbe2e13cff wF) :
    FrameO wF zF (execModuleResetEnd s) := by
  unfold execModuleResetEnd
  repeat' first
    | (with_reducible assumption)
    | (with_reducible exact hW)
    | (with_reducible exact Sub.trans (Sub.mk (by decide)) hW)
    | (with_reducible apply State_modClk_fr)
    | (with_reducible apply State_emit_fr)
    | (with_reducible apply State_pwrUpdate_fr)
    | (with_reducible refine FrameO.next ?_)
    | (intro x; refine Frame.cut (w := wF) (z := zF) (x := x) ?_ ?_ <;> [subst x; (intro _; clear_value x)])
    | (intro x; clear_value x)
    | (intro _)
    | lift_lets
    | ((fail_if_success split); with_reducible apply Frame.upd_now_pa_pb)
    | split

theorem execRefClockLoss_fr {wF : Nat} {zF : State} {s : State} (hF : Frame wF zF s) (hW : Sub 0x200000000000000 wF) :
    FrameO wF zF (execRefClockLoss s) := by
  unfold execRefClockLoss
  repeat' first
    | (with_reducible assumption)
    | (with_reducible exact hW)
    | (with_reducible exact Sub.trans (Sub.mk (by decide)) hW)
    | (with_reducible apply State_modClk_fr)
    | (with_reducible refine FrameO.next ?_)
    | (intro _)

theorem execRefHoldoverExpire_fr {wF : Nat} {zF : State} {s : State} (hF : Frame wF zF s) (hW : Sub 0x3fffffffffffffff wF) :
    FrameO wF zF (execRefHoldoverExpire s) := by
  unfold execRefHoldoverExpire
  repeat' first
    | (with_reducible assumption)
    | (with_reducible exact hW)
    | (with_reducible exact Sub.trans (Sub.mk (by decide)) hW)
    | (with_reducible apply State_moduleReset_fr)
    | (with_reducible refine FrameO.next ?_)
    | split

theorem execRefClockReturn_fr {wF : Nat} {zF : State} {s : State} (hF : Frame wF zF s) (hW : Sub 0x200000000010000 wF) :
    FrameO wF zF (execRefClockReturn s) := by
  unfold execRefClockReturn
  repeat' first
    | (with_reducible assumption)
    | (with_reducible exact hW)
    | (with_reducible exact Sub.trans (Sub.mk (by decide)) hW)
    | (with_reducible apply State_modClk_fr)
    | (with_reducible apply State_raise_fr)
    | (with_reducible refine FrameO.next ?_)
    | (intro _)
    | split

theorem execPllUnlock_fr {wF : Nat} {zF : State} (die : Nat) {s : State} (hF : Frame wF zF s) (hW : Sub 0x2baf97fbe2e13cff wF) :
    FrameO wF zF (execPllUnlock die s) := by
  unfold execPllUnlock
  repeat' first
    | (with_reducible assumption)
    | (with_reducible exact hW)
    | (with_reducible exact Sub.trans (Sub.mk (by decide)) hW)
    | (with_reducible apply State_modClk_fr)
    | (with_reducible apply State_raise_fr)
    | (with_reducible apply State_dieLose_fr)
    | (with_reducible apply State_ioLose_fr)
    | (with_reducible refine FrameO.next ?_)
    | (intro x; refine Frame.cut (w := wF) (z := zF) (x := x) ?_ ?_ <;> [subst x; (intro _; clear_value x)])
    | (intro x; clear_value x)
    | (intro _)
    | lift_lets
    | split

theorem State_dieReset_fr {wF : Nat} {zF : State} {s : State} (k : Nat) (hF : Frame wF zF s) (hW : Sub 0x40000000000 wF) :
    Frame wF zF (State.dieReset s k) := by
  unfold State.dieReset
  repeat' first
    | (with_reducible assumption)
    | (with_reducible exact hW)
    | (with_reducible exact Sub.trans (Sub.mk (by decide)) hW)
    | (with_reducible apply State_modDie_fr)
    | (intro x; refine Frame.cut (w := wF) (z := zF) (x := x) ?_ ?_ <;> [subst x; (intro _; clear_value x)])
    | (intro x; clear_value x)
    | (intro _)
    | lift_lets

theorem opResetScope_fr {wF : Nat} {zF : State} (r : Ref) (b : List Byte) {s : State} (hF : Frame wF zF s) (hW : Sub 0x22010400000100f8 wF) :
    Frame wF zF (opResetScope r b s) := by
  unfold opResetScope
  repeat' first
    | (with_reducible assumption)
    | (with_reducible exact hW)
    | (with_reducible exact Sub.trans (Sub.mk (by decide)) hW)
    | (with_reducible apply State_finish_fr)
    | (with_reducible apply State_modClk_fr)
    | (with_reducible apply State_dieReset_fr)
    | (with_reducible apply State_modFlash_fr)
    | (intro x; refine Frame.cut (w := wF) (z := zF) (x := x) ?_ ?_ <;> [subst x; (intro _; clear_value x)])
    | (intro x; clear_value x)
    | (intro _)
    | lift_lets
    | split

theorem execDieResetDone_fr {wF : Nat} {zF : State} (die : Nat) {s : State} (hF : Frame wF zF s) (hW : Sub 0x40000010000 wF) :
    FrameO wF zF (execDieResetDone die s) := by
  unfold execDieResetDone
  repeat' first
    | (with_reducible assumption)
    | (with_reducible exact hW)
    | (with_reducible exact Sub.trans (Sub.mk (by decide)) hW)
    | (with_reducible apply State_modDie_fr)
    | (with_reducible apply State_raise_fr)
    | (with_reducible refine FrameO.next ?_)
    | (intro _)
    | split

theorem execFlashResetDone_fr {wF : Nat} {zF : State} {s : State} (hF : Frame wF zF s) (hW : Sub 0x201000000010000 wF) :
    FrameO wF zF (execFlashResetDone s) := by
  unfold execFlashResetDone
  repeat' first
    | (with_reducible assumption)
    | (with_reducible exact hW)
    | (with_reducible exact Sub.trans (Sub.mk (by decide)) hW)
    | (with_reducible apply State_modClk_fr)
    | (with_reducible apply State_modFlash_fr)
    | (with_reducible apply State_raise_fr)
    | (with_reducible refine FrameO.next ?_)
    | (intro _)
    | split

theorem State_setStage_fr {wF : Nat} {zF : State} {s : State} (n : Nat) (hF : Frame wF zF s) (hW : Sub 0x2200000000000000 wF) :
    Frame wF zF (State.setStage s n) := by
  unfold State.setStage
  repeat' first
    | (with_reducible assumption)
    | (with_reducible exact hW)
    | (with_reducible exact Sub.trans (Sub.mk (by decide)) hW)
    | (with_reducible apply State_modClk_fr)
    | (with_reducible apply State_emit_fr)
    | (intro _)

theorem State_checkSlot_fr {wF : Nat} {zF : State} {s : State} (b : Bool) (hF : Frame wF zF s) (hW : Sub 0x400000000000000 wF) :
    Frame wF zF (State.checkSlot s b).2 := by
  unfold State.checkSlot
  repeat' first
    | (with_reducible assumption)
    | (with_reducible exact hW)
    | (with_reducible exact Sub.trans (Sub.mk (by decide)) hW)
    | (with_reducible apply State_modSec_fr)
    | (with_reducible refine Frame.getD (fun _ _ => ?_) ?_)
    | (with_reducible exact SecKeep.of_eq (Eq.refl _) (Eq.refl _) (Eq.refl _))
    | (intro x; refine Frame.cut (w := wF) (z := zF) (x := x) ?_ ?_ <;> [subst x; (intro _; clear_value x)])
    | (intro x; clear_value x)
    | (intro _)
    | lift_lets
    | split

theorem State_retrainD2d_fr {wF : Nat} {zF : State} {s : State} (i : Nat) (hF : Frame wF zF s) (hW : Sub 0x100080000000001 wF) :
    Frame wF zF (State.retrainD2d s i) := by
  unfold State.retrainD2d
  repeat' first
    | (with_reducible assumption)
    | (with_reducible exact hW)
    | (with_reducible exact Sub.trans (Sub.mk (by decide)) hW)
    | (with_reducible apply State_draw_fr)
    | (with_reducible apply State_modD2d_fr)
    | (with_reducible apply State_modNor_fr)
    | (with_reducible refine Frame.getD (fun _ _ => ?_) ?_)
    | (with_reducible (apply Frame.of_pair; assumption))
    | (with_reducible (apply Frame.of_pair'; assumption))
    | (intro x; refine Frame.cut (w := wF) (z := zF) (x := x) ?_ ?_ <;> [subst x; (intro _; clear_value x)])
    | (intro x; clear_value x)
    | (intro _)
    | lift_lets
    | split

theorem State_healthFromRecord_fr {wF : Nat} {zF : State} {s : State} (hF : Frame wF zF s) (hW : Sub 0x298f8c00000100f9 wF) :
    Frame wF zF (State.healthFromRecord s) := by
  have ite : ∀ {s t : State} (b : Bool), Frame wF zF s → Frame wF zF t → Frame wF zF (if b = true then s else t) := fun b h k => Frame.ite h k
  have sc : ∀ {s : State} (n : Nat), Frame wF zF s → Frame wF zF (s.setCause n) := fun n h => State_setCause_fr n h (Sub.trans (Sub.mk (by decide)) hW)
  unfold State.healthFromRecord
  extract_lets s1 s2 out s3 s4 beyond s5 s6 s7 short
  have h1 : Frame wF zF s1 := Frame.foldl (fun _ _ h => State_retrainD2d_fr _ h (Sub.trans (Sub.mk (by decide)) hW)) _ hF
  clear_value s1
  have h2 : Frame wF zF s2 := ite _ (sc _ h1) h1
  clear_value s2
  have h3 : Frame wF zF s3 := Frame.upd_grps h2 (Sub.trans (Sub.mk (by decide)) hW) List.length_mapIdx
  clear_value s3
  have h4 : Frame wF zF s4 := ite _ h3 (sc _ h3)
  clear_value s4
  have h5 : Frame wF zF s5 := State_modHealth_fr _ h4 (Sub.trans (Sub.mk (by decide)) hW)
  clear_value s5
  have h6 : Frame wF zF s6 := ite _ h5 (sc _ h5)
  clear_value s6
  have h7 : Frame wF zF s7 := Frame.foldl (fun _ _ h => State_setPulses_fr _ _ h (Sub.trans (Sub.mk (by decide)) hW)) _ h6
  clear_value s7
  refine State_hltUpdate_fr (Frame.foldl (fun s r h => ?_) _ h7) (Sub.trans (Sub.mk (by decide)) hW)
  cases r with
  | io m => exact State_ioLose_fr _ h (Sub.trans (Sub.mk (by decide)) hW)
  | aux m => exact State_ioLose_fr _ h (Sub.trans (Sub.mk (by decide)) hW)
  | compute _ => exact h
  | lpddr _ => exact h

theorem State_verifyBoot_fr {wF : Nat} {zF : State} {s : State} (hF : Frame wF zF s) (hW : Sub 0x2f8f8c00000100f9 wF) :
    Frame wF zF (State.verifyBoot s) := by
  unfold State.verifyBoot
  extract_lets p st
  have go : ∀ {s : State} (b : Bool), Frame wF zF s → Frame wF zF (st s b) := by
    intro s b h
    show Frame wF zF (match s.sec.img b with
      | some x => ((((s.modSec fun c => { c with running := some x }).modClk fun c => { c with image := b }).setStage 3).measure 2 (boolNat b)
          x.digest).healthFromRecord
      | none => s)
    split
    · exact State_healthFromRecord_fr (State_measure_fr _ _ _ (State_setStage_fr _ (State_modClk_fr _ (State_modSec_fr _ h (Sub.trans (Sub.mk (by decide)) hW)
        (SecKeep.of_eq (Eq.refl _) (Eq.refl _) (Eq.refl _))) (Sub.trans (Sub.mk (by decide)) hW)) (Sub.trans (Sub.mk (by decide)) hW)) (Sub.trans (Sub.mk (by decide)) hW)) (Sub.trans (Sub.mk (by decide)) hW)
    · exact h
  clear_value st
  have c1 := State_checkSlot_fr p hF (Sub.trans (Sub.mk (by decide)) hW)
  have fin : ∀ {s1 : State}, Frame wF zF s1 → Frame wF zF (match s1.checkSlot (!p) with
      | (ok, s) => if ok then st (s.raise .sec 0) (!p) else s.modClk fun c => { c with noImage := true }) := by
    intro s1 h
    have c2 := State_checkSlot_fr (!p) h (Sub.trans (Sub.mk (by decide)) hW)
    rcases e : s1.checkSlot (!p) with ⟨ok, s2⟩
    rw [e] at c2
    exact Frame.ite (go _ (State_raise_fr _ _ c2 (Sub.trans (Sub.mk (by decide)) hW))) (State_modClk_fr _ c2 (Sub.trans (Sub.mk (by decide)) hW))
  rcases e : s.checkSlot p with ⟨ok, s1⟩
  rw [e] at c1
  exact Frame.ite (go _ c1) (fin c1)

theorem execBootStageDone_fr {wF : Nat} {zF : State} {s : State} (hF : Frame wF zF s) (hW : Sub 0x2f8f8c00000100f9 wF) :
    FrameO wF zF (execBootStageDone s) := by
  unfold execBootStageDone
  repeat' first
    | (with_reducible assumption)
    | (with_reducible exact hW)
    | (with_reducible exact Sub.trans (Sub.mk (by decide)) hW)
    | (with_reducible apply State_setStage_fr)
    | (with_reducible apply State_measure_fr)
    | (with_reducible apply State_verifyBoot_fr)
    | (with_reducible refine FrameO.next ?_)
    | (with_reducible (apply Frame.of_pair; assumption))
    | (with_reducible (apply Frame.of_pair'; assumption))
    | split

theorem execMemoryTrainingDone_fr {wF : Nat} {zF : State} (failed : List Nat) {s : State} (hF : Frame wF zF s) (hW : Sub 0x2ba1c7fbe2e13cff wF) :
    FrameO wF zF (execMemoryTrainingDone failed s) := by
  unfold execMemoryTrainingDone
  repeat' first
    | (with_reducible assumption)
    | (with_reducible exact hW)
    | (with_reducible exact Sub.trans (Sub.mk (by decide)) hW)
    | (with_reducible apply State_modNor_fr)
    | (with_reducible apply State_channelFail_fr)
    | (with_reducible apply State_setStage_fr)
    | (with_reducible apply State_modClk_fr)
    | (with_reducible apply State_bootScrub_fr)
    | (with_reducible apply State_jobStart_fr)
    | (with_reducible apply State_raise_fr)
    | (with_reducible refine FrameO.next ?_)
    | (with_reducible refine Frame.foldl (fun _ _ _ => ?_) _ ?_)
    | (with_reducible refine Frame.foldl1 (fun _ _ _ => ?_) _ ?_)
    | (with_reducible refine Frame.foldl2 (fun _ _ _ => ?_) _ ?_)
    | (with_reducible show List.length _ = List.length _; simp)
    | (intro x; refine Frame.cut (w := wF) (z := zF) (x := x) ?_ ?_ <;> [subst x; (intro _; clear_value x)])
    | (intro x; clear_value x)
    | (intro _)
    | lift_lets
    | ((fail_if_success split); with_reducible apply Frame.upd_chans)
    | split

theorem execFtlReady_fr {wF : Nat} {zF : State} {s : State} (hF : Frame wF zF s) (hW : Sub 0x2081000000210001 wF) :
    FrameO wF zF (execFtlReady s) := by
  unfold execFtlReady
  repeat' first
    | (with_reducible assumption)
    | (with_reducible exact hW)
    | (with_reducible exact Sub.trans (Sub.mk (by decide)) hW)
    | (with_reducible apply State_modFlash_fr)
    | (with_reducible apply State_rebuild_fr)
    | (with_reducible apply State_spareCheck_fr)
    | (with_reducible apply State_bootScrub_fr)
    | (with_reducible refine FrameO.next ?_)
    | (intro x; refine Frame.cut (w := wF) (z := zF) (x := x) ?_ ?_ <;> [subst x; (intro _; clear_value x)])
    | (intro x; clear_value x)
    | (intro _)
    | lift_lets
    | split

theorem execRecoveryImageMessage_fr {wF : Nat} {zF : State} (last : Bool) (bytes : List Byte) {s : State} (hF : Frame wF zF s) (hW : Sub 0x3fffffffffffffff wF) :
    FrameO wF zF (execRecoveryImageMessage last bytes s) := by
  unfold execRecoveryImageMessage
  repeat' first
    | (with_reducible assumption)
    | (with_reducible exact hW)
    | (with_reducible exact Sub.trans (Sub.mk (by decide)) hW)
    | (with_reducible apply State_modSec_fr)
    | (with_reducible apply State_moduleReset_fr)
    | (with_reducible apply State_emit_fr)
    | (with_reducible refine FrameO.next ?_)
    | (with_reducible exact SecKeep.of_eq (Eq.refl _) (Eq.refl _) (Eq.refl _))
    | (intro x; refine Frame.cut (w := wF) (z := zF) (x := x) ?_ ?_ <;> [subst x; (intro _; clear_value x)])
    | (intro x; clear_value x)
    | (intro _)
    | lift_lets
    | split

theorem execSidebandBusStuck_fr {wF : Nat} {zF : State} {s : State} (hF : Frame wF zF s) (hW : Sub 0x1000000000000000 wF) :
    FrameO wF zF (execSidebandBusStuck s) := by
  unfold execSidebandBusStuck
  repeat' first
    | (with_reducible assumption)
    | (with_reducible exact hW)
    | (with_reducible exact Sub.trans (Sub.mk (by decide)) hW)
    | (with_reducible refine FrameO.next ?_)
    | ((fail_if_success split); with_reducible apply Frame.upd_side)

theorem execSidebandLinesHigh_fr {wF : Nat} {zF : State} {s : State} (hF : Frame wF zF s) (hW : Sub 0x1000000000000000 wF) :
    FrameO wF zF (execSidebandLinesHigh s) := by
  unfold execSidebandLinesHigh
  repeat' first
    | (with_reducible assumption)
    | (with_reducible exact hW)
    | (with_reducible exact Sub.trans (Sub.mk (by decide)) hW)
    | (with_reducible refine FrameO.next ?_)
    | ((fail_if_success split); with_reducible apply Frame.upd_side)

theorem execDynamicAddressAssign_fr {wF : Nat} {zF : State} (addr : Nat) {s : State} (hF : Frame wF zF s) (hW : Sub 0x1000000000000000 wF) :
    FrameO wF zF (execDynamicAddressAssign addr s) := by
  unfold execDynamicAddressAssign
  repeat' first
    | (with_reducible assumption)
    | (with_reducible exact hW)
    | (with_reducible exact Sub.trans (Sub.mk (by decide)) hW)
    | (with_reducible refine FrameO.next ?_)
    | ((fail_if_success split); with_reducible apply Frame.upd_side)
    | split

theorem execDynamicAddressReset_fr {wF : Nat} {zF : State} {s : State} (hF : Frame wF zF s) (hW : Sub 0x1000000000000000 wF) :
    FrameO wF zF (execDynamicAddressReset s) := by
  unfold execDynamicAddressReset
  repeat' first
    | (with_reducible assumption)
    | (with_reducible exact hW)
    | (with_reducible exact Sub.trans (Sub.mk (by decide)) hW)
    | (with_reducible refine FrameO.next ?_)
    | ((fail_if_success split); with_reducible apply Frame.upd_side)
    | split

theorem execTapInstruction_fr {wF : Nat} {zF : State} (ir : Nat) {s : State} (hF : Frame wF zF s) (hW : Sub 0x3000000000000000 wF) :
    FrameO wF zF (execTapInstruction ir s) := by
  unfold execTapInstruction
  repeat' first
    | (with_reducible assumption)
    | (with_reducible exact hW)
    | (with_reducible exact Sub.trans (Sub.mk (by decide)) hW)
    | (with_reducible apply State_emit_fr)
    | (with_reducible refine FrameO.next ?_)
    | (intro x; refine Frame.cut (w := wF) (z := zF) (x := x) ?_ ?_ <;> [subst x; (intro _; clear_value x)])
    | (intro x; clear_value x)
    | (intro _)
    | lift_lets
    | ((fail_if_success split); with_reducible apply Frame.upd_side)
    | split

end Sys2Proof.Machine
end

