-- ==== Sys2Proof/Laws/FrameCommand.lean ====
section
/-! SUPPORT. What each operation of Machine/Command.lean may change. -/

set_option linter.all false

namespace Sys2Proof.Machine

open Sys2Proof

theorem opDevInfo_fr {wF : Nat} {zF : State} (r : Ref) (b : List Byte) {s : State} (hF : Frame wF zF s) (hW : Sub 0x20000000000100f8 wF) :
    Frame wF zF (opDevInfo r b s) := by
  unfold opDevInfo
  repeat' first
    | (with_reducible assumption)
    | (with_reducible exact hW)
    | (with_reducible exact Sub.trans (Sub.mk (by decide)) hW)
    | (with_reducible apply State_finish_fr)
    | split

theorem State_installRing_fr {wF : Nat} {zF : State} {s : State} (r : Ref) (b : List Byte) (hF : Frame wF zF s) (hW : Sub 0x20000000000100f8 wF) :
    Frame wF zF (State.installRing s r b) := by
  unfold State.installRing
  repeat' first
    | (with_reducible assumption)
    | (with_reducible exact hW)
    | (with_reducible exact Sub.trans (Sub.mk (by decide)) hW)
    | (with_reducible apply State_modPort_fr)
    | (with_reducible apply State_finish_fr)
    | (with_reducible apply State_flushHeld_fr)
    | (intro x; refine Frame.cut (w := wF) (z := zF) (x := x) ?_ ?_ <;> [subst x; (intro _; clear_value x)])
    | (intro x; clear_value x)
    | (intro _)
    | lift_lets

theorem State_adoptHeld_fr {wF : Nat} {zF : State} {s : State} (p : Port) (c : Cpl) (hF : Frame wF zF s) (hW : Sub 0x20000000000100f8 wF) :
    Frame wF zF (State.adoptHeld s p c) := by
  unfold State.adoptHeld
  repeat' first
    | (with_reducible assumption)
    | (with_reducible exact hW)
    | (with_reducible exact Sub.trans (Sub.mk (by decide)) hW)
    | (with_reducible apply State_postCpl_fr)
    | (with_reducible apply State_holdCpl_fr)
    | split

theorem State_takeover_fr {wF : Nat} {zF : State} {s : State} (r : Ref) (hF : Frame wF zF s) (hW : Sub 0x20000000000100f8 wF) :
    Frame wF zF (State.takeover s r) := by
  unfold State.takeover
  repeat' first
    | (with_reducible assumption)
    | (with_reducible exact hW)
    | (with_reducible exact Sub.trans (Sub.mk (by decide)) hW)
    | (with_reducible apply State_finish_fr)
    | (with_reducible apply State_modPort_fr)
    | (with_reducible apply State_adoptHeld_fr)
    | (with_reducible refine Frame.foldl (fun _ _ _ => ?_) _ ?_)
    | (with_reducible refine Frame.foldl1 (fun _ _ _ => ?_) _ ?_)
    | (with_reducible refine Frame.foldl2 (fun _ _ _ => ?_) _ ?_)
    | (intro x; refine Frame.cut (w := wF) (z := zF) (x := x) ?_ ?_ <;> [subst x; (intro _; clear_value x)])
    | (intro x; clear_value x)
    | (intro _)
    | lift_lets
    | ((fail_if_success split); with_reducible apply Frame.upd_cmds)
    | split

theorem opRingSetup_fr {wF : Nat} {zF : State} (r : Ref) (b : List Byte) {s : State} (hF : Frame wF zF s) (hW : Sub 0x20000000000100f8 wF) :
    Frame wF zF (opRingSetup r b s) := by
  unfold opRingSetup
  repeat' first
    | (with_reducible assumption)
    | (with_reducible exact hW)
    | (with_reducible exact Sub.trans (Sub.mk (by decide)) hW)
    | (with_reducible apply State_finish_fr)
    | (with_reducible apply State_takeover_fr)
    | (with_reducible apply State_installRing_fr)
    | split

theorem opOf_fr {wF : Nat} {zF : State} (op : Nat) (r : Ref) (b : List Byte) {s : State} (hF : Frame wF zF s) (hW : Sub 0x2ebfa7ffe7e13cff wF) :
    Frame wF zF (opOf op r b s) := by
  unfold opOf
  repeat' first
    | (with_reducible assumption)
    | (with_reducible exact hW)
    | (with_reducible exact Sub.trans (Sub.mk (by decide)) hW)
    | (with_reducible apply opDevInfo_fr)
    | (with_reducible apply opResetScope_fr)
    | (with_reducible apply opRingSetup_fr)
    | (with_reducible apply opObjCreate_fr)
    | (with_reducible apply opObjLoadHost_fr)
    | (with_reducible apply opObjStageFlash_fr)
    | (with_reducible apply opObjPromote_fr)
    | (with_reducible apply opObjEvict_fr)
    | (with_reducible apply opObjPin_fr)
    | (with_reducible apply opObjUnpin_fr)
    | (with_reducible apply opObjQuery_fr)
    | (with_reducible apply opModelBind_fr)
    | (with_reducible apply opViewSwitch_fr)
    | (with_reducible apply opLayerSwap_fr)
    | (with_reducible apply opModelRelease_fr)
    | (with_reducible apply opSliceJoin_fr)
    | (with_reducible apply opSliceLeave_fr)
    | (with_reducible apply opRouteLoad_fr)
    | (with_reducible apply opBundleSet_fr)
    | (with_reducible apply opStepSubmit_fr)
    | (with_reducible apply opStepKill_fr)
    | (with_reducible apply opSeqOpen_fr)
    | (with_reducible apply opSeqClose_fr)
    | (with_reducible apply opPageShare_fr)
    | (with_reducible apply opPrefetchSched_fr)
    | (with_reducible apply opSpillPolicy_fr)
    | (with_reducible apply opPaletteLoad_fr)
    | (with_reducible apply opStateDump_fr)
    | (with_reducible apply opSnapRead_fr)
    | (with_reducible apply opFwUpdate_fr)
    | (with_reducible apply opAttest_fr)
    | (with_reducible apply opPowerPolicy_fr)
    | (with_reducible apply State_finish_fr)
    | (with_reducible (apply Frame.of_pair; assumption))
    | (with_reducible (apply Frame.of_pair'; assumption))
    | split

theorem runOp_fr {wF : Nat} {zF : State} (r : Ref) (b : List Byte) {s : State} (hF : Frame wF zF s) (hW : Sub 0x2ebfa7ffe7e13cff wF) :
    Frame wF zF (runOp r b s) := by
  unfold runOp
  repeat' first
    | (with_reducible assumption)
    | (with_reducible exact hW)
    | (with_reducible exact Sub.trans (Sub.mk (by decide)) hW)
    | (with_reducible apply State_finish_fr)
    | (with_reducible apply opOf_fr)
    | split

theorem State_runSlot_fr {wF : Nat} {zF : State} {s : State} (c : CmdSlot) (hF : Frame wF zF s) (hW : Sub 0x2ebfa7ffe7e13cff wF) :
    Frame wF zF (State.runSlot s c) := by
  unfold State.runSlot
  repeat' first
    | (with_reducible assumption)
    | (with_reducible exact hW)
    | (with_reducible exact Sub.trans (Sub.mk (by decide)) hW)
    | (with_reducible apply runOp_fr)
    | (intro x; refine Frame.cut (w := wF) (z := zF) (x := x) ?_ ?_ <;> [subst x; (intro _; clear_value x)])
    | (intro x; clear_value x)
    | (intro _)
    | lift_lets
    | ((fail_if_success split); with_reducible apply Frame.upd_cmds)
    | split

theorem State_accept_fr {wF : Nat} {zF : State} {s : State} (src : Src) (op : Nat) (b : List Byte) (hF : Frame wF zF s) (hW : Sub 0x2ebfa7ffe7e13dff wF) :
    Frame wF zF (State.accept s src op b) := by
  unfold State.accept
  repeat' first
    | (with_reducible assumption)
    | (with_reducible exact hW)
    | (with_reducible exact Sub.trans (Sub.mk (by decide)) hW)
    | (with_reducible apply State_runSlot_fr)
    | (with_reducible (apply Frame.of_pair; assumption))
    | (with_reducible (apply Frame.of_pair'; assumption))
    | (intro x; refine Frame.cut (w := wF) (z := zF) (x := x) ?_ ?_ <;> [subst x; (intro _; clear_value x)])
    | (intro x; clear_value x)
    | (intro _)
    | lift_lets
    | ((fail_if_success split); with_reducible apply Frame.upd_cmds_cmdNo)
    | split

theorem State_mailbox_fr {wF : Nat} {zF : State} {s : State} (src : Src) (op : Nat) (b : List Byte) (hF : Frame wF zF s) (hW : Sub 0x2ebfa7ffe7e13cff wF) :
    Frame wF zF (State.mailbox s src op b) := by
  unfold State.mailbox
  repeat' first
    | (with_reducible assumption)
    | (with_reducible exact hW)
    | (with_reducible exact Sub.trans (Sub.mk (by decide)) hW)
    | (with_reducible apply State_modPort_fr)
    | (with_reducible apply runOp_fr)
    | (intro x; refine Frame.cut (w := wF) (z := zF) (x := x) ?_ ?_ <;> [subst x; (intro _; clear_value x)])
    | (intro x; clear_value x)
    | (intro _)
    | lift_lets
    | split

theorem State_command_fr {wF : Nat} {zF : State} {s : State} (src : Src) (op : Nat) (b : List Byte) (hF : Frame wF zF s) (hW : Sub 0x2ebfa7ffe7e13dff wF) :
    Frame wF zF (State.command s src op b) := by
  unfold State.command
  repeat' first
    | (with_reducible assumption)
    | (with_reducible exact hW)
    | (with_reducible exact Sub.trans (Sub.mk (by decide)) hW)
    | (with_reducible apply State_mailbox_fr)
    | (with_reducible apply State_accept_fr)
    | split

theorem execDevInfo_fr {wF : Nat} {zF : State} (src : Src) (body : List Byte) {s : State} (hF : Frame wF zF s) (hW : Sub 0x2ebfa7ffe7e13dff wF) :
    FrameO wF zF (execDevInfo src body s) := by
  unfold execDevInfo
  repeat' first
    | (with_reducible assumption)
    | (with_reducible exact hW)
    | (with_reducible exact Sub.trans (Sub.mk (by decide)) hW)
    | (with_reducible apply State_command_fr)
    | (with_reducible refine FrameO.next ?_)

theorem execResetScope_fr {wF : Nat} {zF : State} (src : Src) (body : List Byte) {s : State} (hF : Frame wF zF s) (hW : Sub 0x2ebfa7ffe7e13dff wF) :
    FrameO wF zF (execResetScope src body s) := by
  unfold execResetScope
  repeat' first
    | (with_reducible assumption)
    | (with_reducible exact hW)
    | (with_reducible exact Sub.trans (Sub.mk (by decide)) hW)
    | (with_reducible apply State_command_fr)
    | (with_reducible refine FrameO.next ?_)

theorem execRingSetup_fr {wF : Nat} {zF : State} (src : Src) (body : List Byte) {s : State} (hF : Frame wF zF s) (hW : Sub 0x2ebfa7ffe7e13dff wF) :
    FrameO wF zF (execRingSetup src body s) := by
  unfold execRingSetup
  repeat' first
    | (with_reducible assumption)
    | (with_reducible exact hW)
    | (with_reducible exact Sub.trans (Sub.mk (by decide)) hW)
    | (with_reducible apply State_command_fr)
    | (with_reducible refine FrameO.next ?_)

theorem execRingSetupTakeover_fr {wF : Nat} {zF : State} (src : Src) (body : List Byte) {s : State} (hF : Frame wF zF s) (hW : Sub 0x2ebfa7ffe7e13dff wF) :
    FrameO wF zF (execRingSetupTakeover src body s) := by
  unfold execRingSetupTakeover
  repeat' first
    | (with_reducible assumption)
    | (with_reducible exact hW)
    | (with_reducible exact Sub.trans (Sub.mk (by decide)) hW)
    | (with_reducible apply State_command_fr)
    | (with_reducible refine FrameO.next ?_)

theorem execObjCreate_fr {wF : Nat} {zF : State} (src : Src) (body : List Byte) {s : State} (hF : Frame wF zF s) (hW : Sub 0x2ebfa7ffe7e13dff wF) :
    FrameO wF zF (execObjCreate src body s) := by
  unfold execObjCreate
  repeat' first
    | (with_reducible assumption)
    | (with_reducible exact hW)
    | (with_reducible exact Sub.trans (Sub.mk (by decide)) hW)
    | (with_reducible apply State_command_fr)
    | (with_reducible refine FrameO.next ?_)

theorem execObjLoadHost_fr {wF : Nat} {zF : State} (src : Src) (body : List Byte) {s : State} (hF : Frame wF zF s) (hW : Sub 0x2ebfa7ffe7e13dff wF) :
    FrameO wF zF (execObjLoadHost src body s) := by
  unfold execObjLoadHost
  repeat' first
    | (with_reducible assumption)
    | (with_reducible exact hW)
    | (with_reducible exact Sub.trans (Sub.mk (by decide)) hW)
    | (with_reducible apply State_command_fr)
    | (with_reducible refine FrameO.next ?_)

theorem execObjStageFlash_fr {wF : Nat} {zF : State} (src : Src) (body : List Byte) {s : State} (hF : Frame wF zF s) (hW : Sub 0x2ebfa7ffe7e13dff wF) :
    FrameO wF zF (execObjStageFlash src body s) := by
  unfold execObjStageFlash
  repeat' first
    | (with_reducible assumption)
    | (with_reducible exact hW)
    | (with_reducible exact Sub.trans (Sub.mk (by decide)) hW)
    | (with_reducible apply State_command_fr)
    | (with_reducible refine FrameO.next ?_)

theorem execObjPromote_fr {wF : Nat} {zF : State} (src : Src) (body : List Byte) {s : State} (hF : Frame wF zF s) (hW : Sub 0x2ebfa7ffe7e13dff wF) :
    FrameO wF zF (execObjPromote src body s) := by
  unfold execObjPromote
  repeat' first
    | (with_reducible assumption)
    | (with_reducible exact hW)
    | (with_reducible exact Sub.trans (Sub.mk (by decide)) hW)
    | (with_reducible apply State_command_fr)
    | (with_reducible refine FrameO.next ?_)

theorem execObjEvict_fr {wF : Nat} {zF : State} (src : Src) (body : List Byte) {s : State} (hF : Frame wF zF s) (hW : Sub 0x2ebfa7ffe7e13dff wF) :
    FrameO wF zF (execObjEvict src body s) := by
  unfold execObjEvict
  repeat' first
    | (with_reducible assumption)
    | (with_reducible exact hW)
    | (with_reducible exact Sub.trans (Sub.mk (by decide)) hW)
    | (with_reducible apply State_command_fr)
    | (with_reducible refine FrameO.next ?_)

theorem execObjPin_fr {wF : Nat} {zF : State} (src : Src) (body : List Byte) {s : State} (hF : Frame wF zF s) (hW : Sub 0x2ebfa7ffe7e13dff wF) :
    FrameO wF zF (execObjPin src body s) := by
  unfold execObjPin
  repeat' first
    | (with_reducible assumption)
    | (with_reducible exact hW)
    | (with_reducible exact Sub.trans (Sub.mk (by decide)) hW)
    | (with_reducible apply State_command_fr)
    | (with_reducible refine FrameO.next ?_)

theorem execObjUnpin_fr {wF : Nat} {zF : State} (src : Src) (body : List Byte) {s : State} (hF : Frame wF zF s) (hW : Sub 0x2ebfa7ffe7e13dff wF) :
    FrameO wF zF (execObjUnpin src body s) := by
  unfold execObjUnpin
  repeat' first
    | (with_reducible assumption)
    | (with_reducible exact hW)
    | (with_reducible exact Sub.trans (Sub.mk (by decide)) hW)
    | (with_reducible apply State_command_fr)
    | (with_reducible refine FrameO.next ?_)

theorem execObjQuery_fr {wF : Nat} {zF : State} (src : Src) (body : List Byte) {s : State} (hF : Frame wF zF s) (hW : Sub 0x2ebfa7ffe7e13dff wF) :
    FrameO wF zF (execObjQuery src body s) := by
  unfold execObjQuery
  repeat' first
    | (with_reducible assumption)
    | (with_reducible exact hW)
    | (with_reducible exact Sub.trans (Sub.mk (by decide)) hW)
    | (with_reducible apply State_command_fr)
    | (with_reducible refine FrameO.next ?_)

theorem execModelBind_fr {wF : Nat} {zF : State} (src : Src) (body : List Byte) {s : State} (hF : Frame wF zF s) (hW : Sub 0x2ebfa7ffe7e13dff wF) :
    FrameO wF zF (execModelBind src body s) := by
  unfold execModelBind
  repeat' first
    | (with_reducible assumption)
    | (with_reducible exact hW)
    | (with_reducible exact Sub.trans (Sub.mk (by decide)) hW)
    | (with_reducible apply State_command_fr)
    | (with_reducible refine FrameO.next ?_)

theorem execViewSwitch_fr {wF : Nat} {zF : State} (src : Src) (body : List Byte) {s : State} (hF : Frame wF zF s) (hW : Sub 0x2ebfa7ffe7e13dff wF) :
    FrameO wF zF (execViewSwitch src body s) := by
  unfold execViewSwitch
  repeat' first
    | (with_reducible assumption)
    | (with_reducible exact hW)
    | (with_reducible exact Sub.trans (Sub.mk (by decide)) hW)
    | (with_reducible apply State_command_fr)
    | (with_reducible refine FrameO.next ?_)

theorem execLayerSwap_fr {wF : Nat} {zF : State} (src : Src) (body : List Byte) {s : State} (hF : Frame wF zF s) (hW : Sub 0x2ebfa7ffe7e13dff wF) :
    FrameO wF zF (execLayerSwap src body s) := by
  unfold execLayerSwap
  repeat' first
    | (with_reducible assumption)
    | (with_reducible exact hW)
    | (with_reducible exact Sub.trans (Sub.mk (by decide)) hW)
    | (with_reducible apply State_command_fr)
    | (with_reducible refine FrameO.next ?_)

theorem execModelRelease_fr {wF : Nat} {zF : State} (src : Src) (body : List Byte) {s : State} (hF : Frame wF zF s) (hW : Sub 0x2ebfa7ffe7e13dff wF) :
    FrameO wF zF (execModelRelease src body s) := by
  unfold execModelRelease
  repeat' first
    | (with_reducible assumption)
    | (with_reducible exact hW)
    | (with_reducible exact Sub.trans (Sub.mk (by decide)) hW)
    | (with_reducible apply State_command_fr)
    | (with_reducible refine FrameO.next ?_)

theorem execSliceJoin_fr {wF : Nat} {zF : State} (src : Src) (body : List Byte) {s : State} (hF : Frame wF zF s) (hW : Sub 0x2ebfa7ffe7e13dff wF) :
    FrameO wF zF (execSliceJoin src body s) := by
  unfold execSliceJoin
  repeat' first
    | (with_reducible assumption)
    | (with_reducible exact hW)
    | (with_reducible exact Sub.trans (Sub.mk (by decide)) hW)
    | (with_reducible apply State_command_fr)
    | (with_reducible refine FrameO.next ?_)

theorem execSliceLeave_fr {wF : Nat} {zF : State} (src : Src) (body : List Byte) {s : State} (hF : Frame wF zF s) (hW : Sub 0x2ebfa7ffe7e13dff wF) :
    FrameO wF zF (execSliceLeave src body s) := by
  unfold execSliceLeave
  repeat' first
    | (with_reducible assumption)
    | (with_reducible exact hW)
    | (with_reducible exact Sub.trans (Sub.mk (by decide)) hW)
    | (with_reducible apply State_command_fr)
    | (with_reducible refine FrameO.next ?_)

theorem execRouteLoad_fr {wF : Nat} {zF : State} (src : Src) (body : List Byte) {s : State} (hF : Frame wF zF s) (hW : Sub 0x2ebfa7ffe7e13dff wF) :
    FrameO wF zF (execRouteLoad src body s) := by
  unfold execRouteLoad
  repeat' first
    | (with_reducible assumption)
    | (with_reducible exact hW)
    | (with_reducible exact Sub.trans (Sub.mk (by decide)) hW)
    | (with_reducible apply State_command_fr)
    | (with_reducible refine FrameO.next ?_)

theorem execBundleSet_fr {wF : Nat} {zF : State} (src : Src) (body : List Byte) {s : State} (hF : Frame wF zF s) (hW : Sub 0x2ebfa7ffe7e13dff wF) :
    FrameO wF zF (execBundleSet src body s) := by
  unfold execBundleSet
  repeat' first
    | (with_reducible assumption)
    | (with_reducible exact hW)
    | (with_reducible exact Sub.trans (Sub.mk (by decide)) hW)
    | (with_reducible apply State_command_fr)
    | (with_reducible refine FrameO.next ?_)

theorem execStepSubmit_fr {wF : Nat} {zF : State} (src : Src) (body : List Byte) {s : State} (hF : Frame wF zF s) (hW : Sub 0x2ebfa7ffe7e13dff wF) :
    FrameO wF zF (execStepSubmit src body s) := by
  unfold execStepSubmit
  repeat' first
    | (with_reducible assumption)
    | (with_reducible exact hW)
    | (with_reducible exact Sub.trans (Sub.mk (by decide)) hW)
    | (with_reducible apply State_command_fr)
    | (with_reducible refine FrameO.next ?_)

theorem execStepKill_fr {wF : Nat} {zF : State} (src : Src) (body : List Byte) {s : State} (hF : Frame wF zF s) (hW : Sub 0x2ebfa7ffe7e13dff wF) :
    FrameO wF zF (execStepKill src body s) := by
  unfold execStepKill
  repeat' first
    | (with_reducible assumption)
    | (with_reducible exact hW)
    | (with_reducible exact Sub.trans (Sub.mk (by decide)) hW)
    | (with_reducible apply State_command_fr)
    | (with_reducible refine FrameO.next ?_)

theorem execSeqOpen_fr {wF : Nat} {zF : State} (src : Src) (body : List Byte) {s : State} (hF : Frame wF zF s) (hW : Sub 0x2ebfa7ffe7e13dff wF) :
    FrameO wF zF (execSeqOpen src body s) := by
  unfold execSeqOpen
  repeat' first
    | (with_reducible assumption)
    | (with_reducible exact hW)
    | (with_reducible exact Sub.trans (Sub.mk (by decide)) hW)
    | (with_reducible apply State_command_fr)
    | (with_reducible refine FrameO.next ?_)

theorem execSeqClose_fr {wF : Nat} {zF : State} (src : Src) (body : List Byte) {s : State} (hF : Frame wF zF s) (hW : Sub 0x2ebfa7ffe7e13dff wF) :
    FrameO wF zF (execSeqClose src body s) := by
  unfold execSeqClose
  repeat' first
    | (with_reducible assumption)
    | (with_reducible exact hW)
    | (with_reducible exact Sub.trans (Sub.mk (by decide)) hW)
    | (with_reducible apply State_command_fr)
    | (with_reducible refine FrameO.next ?_)

theorem execPageShare_fr {wF : Nat} {zF : State} (src : Src) (body : List Byte) {s : State} (hF : Frame wF zF s) (hW : Sub 0x2ebfa7ffe7e13dff wF) :
    FrameO wF zF (execPageShare src body s) := by
  unfold execPageShare
  repeat' first
    | (with_reducible assumption)
    | (with_reducible exact hW)
    | (with_reducible exact Sub.trans (Sub.mk (by decide)) hW)
    | (with_reducible apply State_command_fr)
    | (with_reducible refine FrameO.next ?_)

theorem execPageShareAct_fr {wF : Nat} {zF : State} (slot : Nat) {s : State} (hF : Frame wF zF s) (hW : Sub 0x20000000022100f8 wF) :
    FrameO wF zF (execPageShareAct slot s) := by
  unfold execPageShareAct
  repeat' first
    | (with_reducible assumption)
    | (with_reducible exact hW)
    | (with_reducible exact Sub.trans (Sub.mk (by decide)) hW)
    | (with_reducible apply actShare_fr)
    | (with_reducible refine FrameO.next ?_)
    | (with_reducible refine Frame.getD (fun _ _ => ?_) ?_)
    | (with_reducible (apply Frame.of_pair; assumption))
    | (with_reducible (apply Frame.of_pair'; assumption))
    | (intro x; refine Frame.cut (w := wF) (z := zF) (x := x) ?_ ?_ <;> [subst x; (intro _; clear_value x)])
    | (intro x; clear_value x)
    | (intro _)
    | lift_lets
    | ((fail_if_success split); with_reducible apply Frame.upd_cmds)
    | split

theorem execPrefetchSched_fr {wF : Nat} {zF : State} (src : Src) (body : List Byte) {s : State} (hF : Frame wF zF s) (hW : Sub 0x2ebfa7ffe7e13dff wF) :
    FrameO wF zF (execPrefetchSched src body s) := by
  unfold execPrefetchSched
  repeat' first
    | (with_reducible assumption)
    | (with_reducible exact hW)
    | (with_reducible exact Sub.trans (Sub.mk (by decide)) hW)
    | (with_reducible apply State_command_fr)
    | (with_reducible refine FrameO.next ?_)

theorem execSpillPolicy_fr {wF : Nat} {zF : State} (src : Src) (body : List Byte) {s : State} (hF : Frame wF zF s) (hW : Sub 0x2ebfa7ffe7e13dff wF) :
    FrameO wF zF (execSpillPolicy src body s) := by
  unfold execSpillPolicy
  repeat' first
    | (with_reducible assumption)
    | (with_reducible exact hW)
    | (with_reducible exact Sub.trans (Sub.mk (by decide)) hW)
    | (with_reducible apply State_command_fr)
    | (with_reducible refine FrameO.next ?_)

theorem execPaletteLoad_fr {wF : Nat} {zF : State} (src : Src) (body : List Byte) {s : State} (hF : Frame wF zF s) (hW : Sub 0x2ebfa7ffe7e13dff wF) :
    FrameO wF zF (execPaletteLoad src body s) := by
  unfold execPaletteLoad
  repeat' first
    | (with_reducible assumption)
    | (with_reducible exact hW)
    | (with_reducible exact Sub.trans (Sub.mk (by decide)) hW)
    | (with_reducible apply State_command_fr)
    | (with_reducible refine FrameO.next ?_)

theorem execPaletteRemove_fr {wF : Nat} {zF : State} (src : Src) (body : List Byte) {s : State} (hF : Frame wF zF s) (hW : Sub 0x2ebfa7ffe7e13dff wF) :
    FrameO wF zF (execPaletteRemove src body s) := by
  unfold execPaletteRemove
  repeat' first
    | (with_reducible assumption)
    | (with_reducible exact hW)
    | (with_reducible exact Sub.trans (Sub.mk (by decide)) hW)
    | (with_reducible apply State_command_fr)
    | (with_reducible refine FrameO.next ?_)

theorem execStateDump_fr {wF : Nat} {zF : State} (src : Src) (body : List Byte) {s : State} (hF : Frame wF zF s) (hW : Sub 0x2ebfa7ffe7e13dff wF) :
    FrameO wF zF (execStateDump src body s) := by
  unfold execStateDump
  repeat' first
    | (with_reducible assumption)
    | (with_reducible exact hW)
    | (with_reducible exact Sub.trans (Sub.mk (by decide)) hW)
    | (with_reducible apply State_command_fr)
    | (with_reducible refine FrameO.next ?_)

theorem execSnapRead_fr {wF : Nat} {zF : State} (src : Src) (body : List Byte) {s : State} (hF : Frame wF zF s) (hW : Sub 0x2ebfa7ffe7e13dff wF) :
    FrameO wF zF (execSnapRead src body s) := by
  unfold execSnapRead
  repeat' first
    | (with_reducible assumption)
    | (with_reducible exact hW)
    | (with_reducible exact Sub.trans (Sub.mk (by decide)) hW)
    | (with_reducible apply State_command_fr)
    | (with_reducible refine FrameO.next ?_)

theorem execFwUpdate_fr {wF : Nat} {zF : State} (src : Src) (body : List Byte) {s : State} (hF : Frame wF zF s) (hW : Sub 0x2ebfa7ffe7e13dff wF) :
    FrameO wF zF (execFwUpdate src body s) := by
  unfold execFwUpdate
  repeat' first
    | (with_reducible assumption)
    | (with_reducible exact hW)
    | (with_reducible exact Sub.trans (Sub.mk (by decide)) hW)
    | (with_reducible apply State_command_fr)
    | (with_reducible refine FrameO.next ?_)

theorem execAttest_fr {wF : Nat} {zF : State} (src : Src) (body : List Byte) {s : State} (hF : Frame wF zF s) (hW : Sub 0x2ebfa7ffe7e13dff wF) :
    FrameO wF zF (execAttest src body s) := by
  unfold execAttest
  repeat' first
    | (with_reducible assumption)
    | (with_reducible exact hW)
    | (with_reducible exact Sub.trans (Sub.mk (by decide)) hW)
    | (with_reducible apply State_command_fr)
    | (with_reducible refine FrameO.next ?_)

theorem execPowerPolicy_fr {wF : Nat} {zF : State} (src : Src) (body : List Byte) {s : State} (hF : Frame wF zF s) (hW : Sub 0x2ebfa7ffe7e13dff wF) :
    FrameO wF zF (execPowerPolicy src body s) := by
  unfold execPowerPolicy
  repeat' first
    | (with_reducible assumption)
    | (with_reducible exact hW)
    | (with_reducible exact Sub.trans (Sub.mk (by decide)) hW)
    | (with_reducible apply State_command_fr)
    | (with_reducible refine FrameO.next ?_)

theorem State_mbGo_fr {wF : Nat} {zF : State} {s : State} (p : Port) (hF : Frame wF zF s) (hW : Sub 0x2ebfa7ffe7e13cff wF) :
    Frame wF zF (State.mbGo s p) := by
  unfold State.mbGo
  repeat' first
    | (with_reducible assumption)
    | (with_reducible exact hW)
    | (with_reducible exact Sub.trans (Sub.mk (by decide)) hW)
    | (with_reducible apply State_mailbox_fr)
    | (intro x; refine Frame.cut (w := wF) (z := zF) (x := x) ?_ ?_ <;> [subst x; (intro _; clear_value x)])
    | (intro x; clear_value x)
    | (intro _)
    | lift_lets

theorem execMbGo_fr {wF : Nat} {zF : State} (p : Port) {s : State} (hF : Frame wF zF s) (hW : Sub 0x2ebfa7ffe7e13cff wF) :
    FrameO wF zF (execMbGo p s) := by
  unfold execMbGo
  repeat' first
    | (with_reducible assumption)
    | (with_reducible exact hW)
    | (with_reducible exact Sub.trans (Sub.mk (by decide)) hW)
    | (with_reducible apply State_mbGo_fr)
    | (with_reducible refine FrameO.next ?_)
    | split

theorem State_sqTail_fr {wF : Nat} {zF : State} {s : State} (p : Port) (v : Nat) (hF : Frame wF zF s) (hW : Sub 0x60 wF) :
    Frame wF zF (State.sqTail s p v) := by
  unfold State.sqTail
  repeat' first
    | (with_reducible assumption)
    | (with_reducible exact hW)
    | (with_reducible exact Sub.trans (Sub.mk (by decide)) hW)
    | (with_reducible apply State_modPort_fr)
    | (with_reducible (apply Frame.of_pair; assumption))
    | (with_reducible (apply Frame.of_pair'; assumption))
    | (intro _)
    | split

theorem State_cqHead_fr {wF : Nat} {zF : State} {s : State} (p : Port) (v : Nat) (hF : Frame wF zF s) (hW : Sub 0x20000000000000f8 wF) :
    Frame wF zF (State.cqHead s p v) := by
  unfold State.cqHead
  repeat' first
    | (with_reducible assumption)
    | (with_reducible exact hW)
    | (with_reducible exact Sub.trans (Sub.mk (by decide)) hW)
    | (with_reducible apply State_modPort_fr)
    | (with_reducible apply State_flushHeld_fr)
    | (with_reducible (apply Frame.of_pair; assumption))
    | (with_reducible (apply Frame.of_pair'; assumption))
    | (intro _)
    | split

theorem execSqTailWrite_fr {wF : Nat} {zF : State} (p : Port) (v : W32) {s : State} (hF : Frame wF zF s) (hW : Sub 0x60 wF) :
    FrameO wF zF (execSqTailWrite p v s) := by
  unfold execSqTailWrite
  repeat' first
    | (with_reducible assumption)
    | (with_reducible exact hW)
    | (with_reducible exact Sub.trans (Sub.mk (by decide)) hW)
    | (with_reducible apply State_sqTail_fr)
    | (with_reducible refine FrameO.next ?_)
    | split

theorem execCqHeadWrite_fr {wF : Nat} {zF : State} (p : Port) (v : W32) {s : State} (hF : Frame wF zF s) (hW : Sub 0x20000000000000f8 wF) :
    FrameO wF zF (execCqHeadWrite p v s) := by
  unfold execCqHeadWrite
  repeat' first
    | (with_reducible assumption)
    | (with_reducible exact hW)
    | (with_reducible exact Sub.trans (Sub.mk (by decide)) hW)
    | (with_reducible apply State_cqHead_fr)
    | (with_reducible refine FrameO.next ?_)
    | split

theorem State_fetchFrom_fr {wF : Nat} {zF : State} {s : State} (p : Port) (hF : Frame wF zF s) (hW : Sub 0x2ebfa7ffe7e13fff wF) :
    Frame wF zF (State.fetchFrom s p) := by
  unfold State.fetchFrom
  repeat' first
    | (with_reducible assumption)
    | (with_reducible exact hW)
    | (with_reducible exact Sub.trans (Sub.mk (by decide)) hW)
    | (with_reducible apply State_mailbox_fr)
    | (with_reducible apply State_modPort_fr)
    | (with_reducible apply State_accept_fr)
    | (with_reducible (apply Frame.of_pair; assumption))
    | (with_reducible (apply Frame.of_pair'; assumption))
    | (intro x; refine Frame.cut (w := wF) (z := zF) (x := x) ?_ ?_ <;> [subst x; (intro _; clear_value x)])
    | (intro x; clear_value x)
    | (intro _)
    | lift_lets
    | ((fail_if_success split); with_reducible apply Frame.upd_lastFetch)
    | split

theorem execCommandFetch_fr {wF : Nat} {zF : State} {s : State} (hF : Frame wF zF s) (hW : Sub 0x2ebfa7ffe7e13fff wF) :
    FrameO wF zF (execCommandFetch s) := by
  unfold execCommandFetch
  repeat' first
    | (with_reducible assumption)
    | (with_reducible exact hW)
    | (with_reducible exact Sub.trans (Sub.mk (by decide)) hW)
    | (with_reducible apply State_fetchFrom_fr)
    | (with_reducible refine FrameO.next ?_)
    | (intro x; refine Frame.cut (w := wF) (z := zF) (x := x) ?_ ?_ <;> [subst x; (intro _; clear_value x)])
    | (intro x; clear_value x)
    | (intro _)
    | lift_lets
    | split

theorem execFencedCommandExecute_fr {wF : Nat} {zF : State} (slot : Nat) {s : State} (hF : Frame wF zF s) (hW : Sub 0x2ebfa7ffe7e13cff wF) :
    FrameO wF zF (execFencedCommandExecute slot s) := by
  unfold execFencedCommandExecute
  repeat' first
    | (with_reducible assumption)
    | (with_reducible exact hW)
    | (with_reducible exact Sub.trans (Sub.mk (by decide)) hW)
    | (with_reducible apply State_runSlot_fr)
    | (with_reducible refine FrameO.next ?_)
    | (with_reducible (apply Frame.of_pair; assumption))
    | (with_reducible (apply Frame.of_pair'; assumption))
    | (intro _)
    | split

theorem execCoalTimerExpire_fr {wF : Nat} {zF : State} (p : Port) {s : State} (hF : Frame wF zF s) (hW : Sub 0x2000000000000060 wF) :
    FrameO wF zF (execCoalTimerExpire p s) := by
  unfold execCoalTimerExpire
  repeat' first
    | (with_reducible assumption)
    | (with_reducible exact hW)
    | (with_reducible exact Sub.trans (Sub.mk (by decide)) hW)
    | (with_reducible apply State_modPort_fr)
    | (with_reducible apply State_emit_fr)
    | (with_reducible refine FrameO.next ?_)
    | (with_reducible (apply Frame.of_pair; assumption))
    | (with_reducible (apply Frame.of_pair'; assumption))
    | (intro x; refine Frame.cut (w := wF) (z := zF) (x := x) ?_ ?_ <;> [subst x; (intro _; clear_value x)])
    | (intro x; clear_value x)
    | (intro _)
    | lift_lets
    | split

theorem State_bar2Write_fr {wF : Nat} {zF : State} {s : State} (p : Port) (off : Nat) (size : Nat) (v : W32) (hF : Frame wF zF s) (hW : Sub 0x2ebfa7ffe7e13cff wF) :
    Frame wF zF (State.bar2Write s p off size v) := by
  unfold State.bar2Write
  repeat' first
    | (with_reducible assumption)
    | (with_reducible exact hW)
    | (with_reducible exact Sub.trans (Sub.mk (by decide)) hW)
    | (with_reducible apply State_modPort_fr)
    | (with_reducible apply State_mbGo_fr)
    | (with_reducible apply State_sqTail_fr)
    | (with_reducible apply State_cqHead_fr)
    | (intro _)
    | split

theorem State_bar0Write_fr {wF : Nat} {zF : State} {s : State} (m : Master) (off : Nat) (size : Nat) (v : W32) (hF : Frame wF zF s) (hW : Sub 0x2cff87fbe2e7fcff wF) :
    Frame wF zF (State.bar0Write s m off size v) := by
  unfold State.bar0Write
  repeat' first
    | (with_reducible assumption)
    | (with_reducible exact hW)
    | (with_reducible exact Sub.trans (Sub.mk (by decide)) hW)
    | (with_reducible apply State_pwWrite_fr)
    | (with_reducible apply State_landWrite_fr)
    | (with_reducible (apply Frame.of_pair; assumption))
    | (with_reducible (apply Frame.of_pair'; assumption))
    | split

theorem execRegisterWrite_fr {wF : Nat} {zF : State} (m : Master) (bar : Bar) (off : Nat) (size : Nat) (v : W32) {s : State} (hF : Frame wF zF s) (hW : Sub 0x2effa7ffe7e7fcff wF) :
    FrameO wF zF (execRegisterWrite m bar off size v s) := by
  unfold execRegisterWrite
  repeat' first
    | (with_reducible assumption)
    | (with_reducible exact hW)
    | (with_reducible exact Sub.trans (Sub.mk (by decide)) hW)
    | (with_reducible apply State_bar0Write_fr)
    | (with_reducible apply State_bar2Write_fr)
    | (with_reducible refine FrameO.next ?_)
    | (with_reducible (apply Frame.of_pair; assumption))
    | (with_reducible (apply Frame.of_pair'; assumption))
    | split

end Sys2Proof.Machine
end

