-- ==== Sys2Proof/Laws/FrameExec.lean ====
section
/-! SUPPORT. What any command may change: `exec_fr` says that a command keeps what every operation keeps (`Frame`), and `exec_next_frame`
says it of the state that a command answers. -/

set_option linter.all false

namespace Sys2Proof.Machine

open Sys2Proof

theorem exec_fr {w : Nat} {z s : State} (i : Instr) (hF : Frame w z s) (hW : Sub 0x3fffffffffffffff w) : FrameO w z (exec i s) := by
  cases i with
  | devInfo src body => exact execDevInfo_fr src body hF (Sub.trans (Sub.mk (by decide)) hW)
  | resetScope src body => exact execResetScope_fr src body hF (Sub.trans (Sub.mk (by decide)) hW)
  | resetScopeDelayExpire => exact execResetScopeDelayExpire_fr hF (Sub.trans (Sub.mk (by decide)) hW)
  | ringSetup src body => exact execRingSetup_fr src body hF (Sub.trans (Sub.mk (by decide)) hW)
  | ringSetupTakeover src body => exact execRingSetupTakeover_fr src body hF (Sub.trans (Sub.mk (by decide)) hW)
  | objCreate src body => exact execObjCreate_fr src body hF (Sub.trans (Sub.mk (by decide)) hW)
  | objLoadHost src body => exact execObjLoadHost_fr src body hF (Sub.trans (Sub.mk (by decide)) hW)
  | objStageFlash src body => exact execObjStageFlash_fr src body hF (Sub.trans (Sub.mk (by decide)) hW)
  | objPromote src body => exact execObjPromote_fr src body hF (Sub.trans (Sub.mk (by decide)) hW)
  | objEvict src body => exact execObjEvict_fr src body hF (Sub.trans (Sub.mk (by decide)) hW)
  | objPin src body => exact execObjPin_fr src body hF (Sub.trans (Sub.mk (by decide)) hW)
  | objUnpin src body => exact execObjUnpin_fr src body hF (Sub.trans (Sub.mk (by decide)) hW)
  | objQuery src body => exact execObjQuery_fr src body hF (Sub.trans (Sub.mk (by decide)) hW)
  | modelBind src body => exact execModelBind_fr src body hF (Sub.trans (Sub.mk (by decide)) hW)
  | viewSwitch src body => exact execViewSwitch_fr src body hF (Sub.trans (Sub.mk (by decide)) hW)
  | layerSwap src body => exact execLayerSwap_fr src body hF (Sub.trans (Sub.mk (by decide)) hW)
  | modelRelease src body => exact execModelRelease_fr src body hF (Sub.trans (Sub.mk (by decide)) hW)
  | sliceJoin src body => exact execSliceJoin_fr src body hF (Sub.trans (Sub.mk (by decide)) hW)
  | sliceLeave src body => exact execSliceLeave_fr src body hF (Sub.trans (Sub.mk (by decide)) hW)
  | routeLoad src body => exact execRouteLoad_fr src body hF (Sub.trans (Sub.mk (by decide)) hW)
  | bundleSet src body => exact execBundleSet_fr src body hF (Sub.trans (Sub.mk (by decide)) hW)
  | stepSubmit src body => exact execStepSubmit_fr src body hF (Sub.trans (Sub.mk (by decide)) hW)
  | stepKill src body => exact execStepKill_fr src body hF (Sub.trans (Sub.mk (by decide)) hW)
  | seqOpen src body => exact execSeqOpen_fr src body hF (Sub.trans (Sub.mk (by decide)) hW)
  | seqClose src body => exact execSeqClose_fr src body hF (Sub.trans (Sub.mk (by decide)) hW)
  | pageShare src body => exact execPageShare_fr src body hF (Sub.trans (Sub.mk (by decide)) hW)
  | pageShareAct slot => exact execPageShareAct_fr slot hF (Sub.trans (Sub.mk (by decide)) hW)
  | prefetchSched src body => exact execPrefetchSched_fr src body hF (Sub.trans (Sub.mk (by decide)) hW)
  | spillPolicy src body => exact execSpillPolicy_fr src body hF (Sub.trans (Sub.mk (by decide)) hW)
  | paletteLoad src body => exact execPaletteLoad_fr src body hF (Sub.trans (Sub.mk (by decide)) hW)
  | paletteRemove src body => exact execPaletteRemove_fr src body hF (Sub.trans (Sub.mk (by decide)) hW)
  | stateDump src body => exact execStateDump_fr src body hF (Sub.trans (Sub.mk (by decide)) hW)
  | snapRead src body => exact execSnapRead_fr src body hF (Sub.trans (Sub.mk (by decide)) hW)
  | fwUpdate src body => exact execFwUpdate_fr src body hF (Sub.trans (Sub.mk (by decide)) hW)
  | attest src body => exact execAttest_fr src body hF (Sub.trans (Sub.mk (by decide)) hW)
  | powerPolicy src body => exact execPowerPolicy_fr src body hF (Sub.trans (Sub.mk (by decide)) hW)
  | mbGo p => exact execMbGo_fr p hF (Sub.trans (Sub.mk (by decide)) hW)
  | sqTailWrite p v => exact execSqTailWrite_fr p v hF (Sub.trans (Sub.mk (by decide)) hW)
  | cqHeadWrite p v => exact execCqHeadWrite_fr p v hF (Sub.trans (Sub.mk (by decide)) hW)
  | commandFetch => exact execCommandFetch_fr hF (Sub.trans (Sub.mk (by decide)) hW)
  | fencedCommandExecute slot => exact execFencedCommandExecute_fr slot hF (Sub.trans (Sub.mk (by decide)) hW)
  | coalTimerExpire p => exact execCoalTimerExpire_fr p hF (Sub.trans (Sub.mk (by decide)) hW)
  | cfgCommitGo m => exact execCfgCommitGo_fr m hF (Sub.trans (Sub.mk (by decide)) hW)
  | cfgCommitDiscard m => exact execCfgCommitDiscard_fr m hF (Sub.trans (Sub.mk (by decide)) hW)
  | generationApply m => exact execGenerationApply_fr m hF (Sub.trans (Sub.mk (by decide)) hW)
  | bfWrite m off v => exact execBfWrite_fr m off v hF (Sub.trans (Sub.mk (by decide)) hW)
  | pwWrite m off v => exact execPwWrite_fr m off v hF (Sub.trans (Sub.mk (by decide)) hW)
  | pwWriteLand m blk => exact execPwWriteLand_fr m blk hF (Sub.trans (Sub.mk (by decide)) hW)
  | accDropClear m blk => exact execAccDropClear_fr m blk hF (Sub.trans (Sub.mk (by decide)) hW)
  | sqEventRead m r => exact execSqEventRead_fr m r hF (Sub.trans (Sub.mk (by decide)) hW)
  | sqEventClear m r v => exact execSqEventClear_fr m r v hF (Sub.trans (Sub.mk (by decide)) hW)
  | lockSet m off => exact execLockSet_fr m off hF (Sub.trans (Sub.mk (by decide)) hW)
  | timeLoRead m => exact execTimeLoRead_fr m hF (Sub.trans (Sub.mk (by decide)) hW)
  | rackCapWrite m v => exact execRackCapWrite_fr m v hF (Sub.trans (Sub.mk (by decide)) hW)
  | hostCapWrite m v => exact execHostCapWrite_fr m v hF (Sub.trans (Sub.mk (by decide)) hW)
  | rteCoordWrite m v => exact execRteCoordWrite_fr m v hF (Sub.trans (Sub.mk (by decide)) hW)
  | lnkRetrain m link => exact execLnkRetrain_fr m link hF (Sub.trans (Sub.mk (by decide)) hW)
  | lnkEnableWrite m link en => exact execLnkEnableWrite_fr m link en hF (Sub.trans (Sub.mk (by decide)) hW)
  | snapTrig m => exact execSnapTrig_fr m hF (Sub.trans (Sub.mk (by decide)) hW)
  | snapRearm m => exact execSnapRearm_fr m hF (Sub.trans (Sub.mk (by decide)) hW)
  | svnCommit m => exact execSvnCommit_fr m hF (Sub.trans (Sub.mk (by decide)) hW)
  | keyRevoke m slot => exact execKeyRevoke_fr m slot hF (Sub.trans (Sub.mk (by decide)) hW)
  | allowlistAdd m manifest => exact execAllowlistAdd_fr m manifest hF (Sub.trans (Sub.mk (by decide)) hW)
  | allowlistRemove m manifest => exact execAllowlistRemove_fr m manifest hF (Sub.trans (Sub.mk (by decide)) hW)
  | allowlistClear m manifest => exact execAllowlistClear_fr m manifest hF (Sub.trans (Sub.mk (by decide)) hW)
  | registerWrite m bar off size v => exact execRegisterWrite_fr m bar off size v hF (Sub.trans (Sub.mk (by decide)) hW)
  | bar4Read p off n => exact execBar4Read_fr p off n hF (Sub.trans (Sub.mk (by decide)) hW)
  | bar4Write p off bytes => exact execBar4Write_fr p off bytes hF (Sub.trans (Sub.mk (by decide)) hW)
  | perstAssert p => exact execPerstAssert_fr p hF (Sub.trans (Sub.mk (by decide)) hW)
  | perstDeassert p => exact execPerstDeassert_fr p hF (Sub.trans (Sub.mk (by decide)) hW)
  | pcieHotReset p how => exact execPcieHotReset_fr p how hF (Sub.trans (Sub.mk (by decide)) hW)
  | pcieFlr p => exact execPcieFlr_fr p hF (Sub.trans (Sub.mk (by decide)) hW)
  | pcieLinkUp p rate width flit reversed bestRate => exact execPcieLinkUp_fr p rate width flit reversed bestRate hF (Sub.trans (Sub.mk (by decide)) hW)
  | pcieLinkDown p => exact execPcieLinkDown_fr p hF (Sub.trans (Sub.mk (by decide)) hW)
  | d3hotEntry p => exact execD3hotEntry_fr p hF (Sub.trans (Sub.mk (by decide)) hW)
  | d3hotExit p => exact execD3hotExit_fr p hF (Sub.trans (Sub.mk (by decide)) hW)
  | ideFail p stream => exact execIdeFail_fr p stream hF (Sub.trans (Sub.mk (by decide)) hW)
  | ideKeyProgram p stream => exact execIdeKeyProgram_fr p stream hF (Sub.trans (Sub.mk (by decide)) hW)
  | spdmRequest p nonce => exact execSpdmRequest_fr p nonce hF (Sub.trans (Sub.mk (by decide)) hW)
  | arrive t => exact execArrive_fr t hF (Sub.trans (Sub.mk (by decide)) hW)
  | release t => exact execRelease_fr t hF (Sub.trans (Sub.mk (by decide)) hW)
  | preparedSend slice stepId => exact execPreparedSend_fr slice stepId hF (Sub.trans (Sub.mk (by decide)) hW)
  | prepared t flags ovfPairs ovfRounds => exact execPrepared_fr t flags ovfPairs ovfRounds hF (Sub.trans (Sub.mk (by decide)) hW)
  | commitPoint slice stepId => exact execCommitPoint_fr slice stepId hF (Sub.trans (Sub.mk (by decide)) hW)
  | commit t body => exact execCommit_fr t body hF (Sub.trans (Sub.mk (by decide)) hW)
  | committed t => exact execCommitted_fr t hF (Sub.trans (Sub.mk (by decide)) hW)
  | killReq t => exact execKillReq_fr t hF (Sub.trans (Sub.mk (by decide)) hW)
  | kill t => exact execKill_fr t hF (Sub.trans (Sub.mk (by decide)) hW)
  | killed t => exact execKilled_fr t hF (Sub.trans (Sub.mk (by decide)) hW)
  | startWaitExpire slice stepId => exact execStartWaitExpire_fr slice stepId hF (Sub.trans (Sub.mk (by decide)) hW)
  | barrierWaitExpire slice stepId barrier => exact execBarrierWaitExpire_fr slice stepId barrier hF (Sub.trans (Sub.mk (by decide)) hW)
  | quantumExpire => exact execQuantumExpire_fr hF (Sub.trans (Sub.mk (by decide)) hW)
  | candidateList tag c => exact execCandidateList_fr tag c hF (Sub.trans (Sub.mk (by decide)) hW)
  | progTile die slot => exact execProgTile_fr die slot hF (Sub.trans (Sub.mk (by decide)) hW)
  | appendStallResume die slot => exact execAppendStallResume_fr die slot hF (Sub.trans (Sub.mk (by decide)) hW)
  | progCounter die slot => exact execProgCounter_fr die slot hF (Sub.trans (Sub.mk (by decide)) hW)
  | progMoeCtx die slot => exact execProgMoeCtx_fr die slot hF (Sub.trans (Sub.mk (by decide)) hW)
  | moeCtxDeferredOpen die slot => exact execMoeCtxDeferredOpen_fr die slot hF (Sub.trans (Sub.mk (by decide)) hW)
  | progMerge die slot => exact execProgMerge_fr die slot hF (Sub.trans (Sub.mk (by decide)) hW)
  | progBarrier die slot => exact execProgBarrier_fr die slot hF (Sub.trans (Sub.mk (by decide)) hW)
  | progPoolmask die slot => exact execProgPoolmask_fr die slot hF (Sub.trans (Sub.mk (by decide)) hW)
  | progReduce die slot => exact execProgReduce_fr die slot hF (Sub.trans (Sub.mk (by decide)) hW)
  | progSend die slot => exact execProgSend_fr die slot hF (Sub.trans (Sub.mk (by decide)) hW)
  | sendMessage die slot idx => exact execSendMessage_fr die slot idx hF (Sub.trans (Sub.mk (by decide)) hW)
  | tileClaim die core => exact execTileClaim_fr die core hF (Sub.trans (Sub.mk (by decide)) hW)
  | claimGrant die => exact execClaimGrant_fr die hF (Sub.trans (Sub.mk (by decide)) hW)
  | tileComplete die core entry tileSeq attempt flags => exact execTileComplete_fr die core entry tileSeq attempt flags hF (Sub.trans (Sub.mk (by decide)) hW)
  | tileFail die core entry tileSeq status wrote => exact execTileFail_fr die core entry tileSeq status wrote hF (Sub.trans (Sub.mk (by decide)) hW)
  | failedTileDecide die entry => exact execFailedTileDecide_fr die entry hF (Sub.trans (Sub.mk (by decide)) hW)
  | nopTileComplete die entry => exact execNopTileComplete_fr die entry hF (Sub.trans (Sub.mk (by decide)) hW)
  | reduceGroupReset die group => exact execReduceGroupReset_fr die group hF (Sub.trans (Sub.mk (by decide)) hW)
  | abandonConfirm die core entry => exact execAbandonConfirm_fr die core entry hF (Sub.trans (Sub.mk (by decide)) hW)
  | heartbeat die core => exact execHeartbeat_fr die core hF (Sub.trans (Sub.mk (by decide)) hW)
  | coreLost die core => exact execCoreLost_fr die core hF (Sub.trans (Sub.mk (by decide)) hW)
  | seqWatchdog die core => exact execSeqWatchdog_fr die core hF (Sub.trans (Sub.mk (by decide)) hW)
  | cellJobStart die core engine x => exact execCellJobStart_fr die core engine x hF (Sub.trans (Sub.mk (by decide)) hW)
  | cellJobDone die core engine cell => exact execCellJobDone_fr die core engine cell hF (Sub.trans (Sub.mk (by decide)) hW)
  | vectorInstruction die core op => exact execVectorInstruction_fr die core op hF (Sub.trans (Sub.mk (by decide)) hW)
  | dmaTransfer die core x => exact execDmaTransfer_fr die core x hF (Sub.trans (Sub.mk (by decide)) hW)
  | dmaComplete die core ctx srcError => exact execDmaComplete_fr die core ctx srcError hF (Sub.trans (Sub.mk (by decide)) hW)
  | fence die core => exact execFence_fr die core hF (Sub.trans (Sub.mk (by decide)) hW)
  | paletteSlotLoadDone die core => exact execPaletteSlotLoadDone_fr die core hF (Sub.trans (Sub.mk (by decide)) hW)
  | gtTileDone die core engine cell x => exact execGtTileDone_fr die core engine cell x hF (Sub.trans (Sub.mk (by decide)) hW)
  | gtForceTimer die core engine cell => exact execGtForceTimer_fr die core engine cell hF (Sub.trans (Sub.mk (by decide)) hW)
  | cellParityError die core engine cell => exact execCellParityError_fr die core engine cell hF (Sub.trans (Sub.mk (by decide)) hW)
  | bufferEccError die core engine double => exact execBufferEccError_fr die core engine double hF (Sub.trans (Sub.mk (by decide)) hW)
  | coreStoreEccError die core double => exact execCoreStoreEccError_fr die core double hF (Sub.trans (Sub.mk (by decide)) hW)
  | unpackError die core entry => exact execUnpackError_fr die core entry hF (Sub.trans (Sub.mk (by decide)) hW)
  | unpackRereadDone die entry => exact execUnpackRereadDone_fr die entry hF (Sub.trans (Sub.mk (by decide)) hW)
  | count die e counts => exact execCount_fr die e counts hF (Sub.trans (Sub.mk (by decide)) hW)
  | grant die e round grants => exact execGrant_fr die e round grants hF (Sub.trans (Sub.mk (by decide)) hW)
  | row die e slotNo bytes => exact execRow_fr die e slotNo bytes hF (Sub.trans (Sub.mk (by decide)) hW)
  | returnMsg die e addr ctr bytes => exact execReturnMsg_fr die e addr ctr bytes hF (Sub.trans (Sub.mk (by decide)) hW)
  | record die e mergeEntry part bytes => exact execRecord_fr die e mergeEntry part bytes hF (Sub.trans (Sub.mk (by decide)) hW)
  | qrow die e addr ctr bytes => exact execQrow_fr die e addr ctr bytes hF (Sub.trans (Sub.mk (by decide)) hW)
  | kvrow die e addr ctr bytes => exact execKvrow_fr die e addr ctr bytes hF (Sub.trans (Sub.mk (by decide)) hW)
  | nextRound die slot layer => exact execNextRound_fr die slot layer hF (Sub.trans (Sub.mk (by decide)) hW)
  | tailCopyDone slot seq => exact execTailCopyDone_fr slot seq hF (Sub.trans (Sub.mk (by decide)) hW)
  | spillStart pool => exact execSpillStart_fr pool hF (Sub.trans (Sub.mk (by decide)) hW)
  | spillWriteDone pool page => exact execSpillWriteDone_fr pool page hF (Sub.trans (Sub.mk (by decide)) hW)
  | pageReturnStart pool page => exact execPageReturnStart_fr pool page hF (Sub.trans (Sub.mk (by decide)) hW)
  | pageReturnDone pool page readOk => exact execPageReturnDone_fr pool page readOk hF (Sub.trans (Sub.mk (by decide)) hW)
  | tileLand obj tile bytes => exact execTileLand_fr obj tile bytes hF (Sub.trans (Sub.mk (by decide)) hW)
  | departWriteoutDone obj => exact execDepartWriteoutDone_fr obj hF (Sub.trans (Sub.mk (by decide)) hW)
  | departRelease obj => exact execDepartRelease_fr obj hF (Sub.trans (Sub.mk (by decide)) hW)
  | flashCopyDurable obj => exact execFlashCopyDurable_fr obj hF (Sub.trans (Sub.mk (by decide)) hW)
  | stageCopyWrite die obj tile => exact execStageCopyWrite_fr die obj tile hF (Sub.trans (Sub.mk (by decide)) hW)
  | coldTileLand die obj tile => exact execColdTileLand_fr die obj tile hF (Sub.trans (Sub.mk (by decide)) hW)
  | swapWriteStart model => exact execSwapWriteStart_fr model hF (Sub.trans (Sub.mk (by decide)) hW)
  | tileRepair obj tile => exact execTileRepair_fr obj tile hF (Sub.trans (Sub.mk (by decide)) hW)
  | memReadUncorrectable addr => exact execMemReadUncorrectable_fr addr hF (Sub.trans (Sub.mk (by decide)) hW)
  | channelFail ch => exact execChannelFail_fr ch hF (Sub.trans (Sub.mk (by decide)) hW)
  | patrolScrubMismatch group stripe persists unit => exact execPatrolScrubMismatch_fr group stripe persists unit hF (Sub.trans (Sub.mk (by decide)) hW)
  | nandOpDone die => exact execNandOpDone_fr die hF (Sub.trans (Sub.mk (by decide)) hW)
  | nandProgramFail die block => exact execNandProgramFail_fr die block hF (Sub.trans (Sub.mk (by decide)) hW)
  | nandDieFail die => exact execNandDieFail_fr die hF (Sub.trans (Sub.mk (by decide)) hW)
  | nandRebuildDone die complete => exact execNandRebuildDone_fr die complete hF (Sub.trans (Sub.mk (by decide)) hW)
  | readDisturbDue die block reads => exact execReadDisturbDue_fr die block reads hF (Sub.trans (Sub.mk (by decide)) hW)
  | thermalAgeTick minutes => exact execThermalAgeTick_fr minutes hF (Sub.trans (Sub.mk (by decide)) hW)
  | relocationDone die block => exact execRelocationDone_fr die block hF (Sub.trans (Sub.mk (by decide)) hW)
  | nandOvertemp pkg => exact execNandOvertemp_fr pkg hF (Sub.trans (Sub.mk (by decide)) hW)
  | nandTempOk pkg => exact execNandTempOk_fr pkg hF (Sub.trans (Sub.mk (by decide)) hW)
  | flashScrubPass die block corrected => exact execFlashScrubPass_fr die block corrected hF (Sub.trans (Sub.mk (by decide)) hW)
  | linkTrainDone link good pol reversed => exact execLinkTrainDone_fr link good pol reversed hF (Sub.trans (Sub.mk (by decide)) hW)
  | linkTrainTimeout link => exact execLinkTrainTimeout_fr link hF (Sub.trans (Sub.mk (by decide)) hW)
  | identReceived rx i => exact execIdentReceived_fr rx i hF (Sub.trans (Sub.mk (by decide)) hW)
  | miswireRecheck link => exact execMiswireRecheck_fr link hF (Sub.trans (Sub.mk (by decide)) hW)
  | dataFlitReceived link f intact => exact execDataFlitReceived_fr link f intact hF (Sub.trans (Sub.mk (by decide)) hW)
  | nakReceived rx nakSeq => exact execNakReceived_fr rx nakSeq hF (Sub.trans (Sub.mk (by decide)) hW)
  | creditReceived rx c0 c1 c2 => exact execCreditReceived_fr rx c0 c1 c2 hF (Sub.trans (Sub.mk (by decide)) hW)
  | ackTimeout link => exact execAckTimeout_fr link hF (Sub.trans (Sub.mk (by decide)) hW)
  | creditTimer link => exact execCreditTimer_fr link hF (Sub.trans (Sub.mk (by decide)) hW)
  | laneFault link lane => exact execLaneFault_fr link lane hF (Sub.trans (Sub.mk (by decide)) hW)
  | linkFail link => exact execLinkFail_fr link hF (Sub.trans (Sub.mk (by decide)) hW)
  | linkRetryTimer link => exact execLinkRetryTimer_fr link hF (Sub.trans (Sub.mk (by decide)) hW)
  | linkRestore link => exact execLinkRestore_fr link hF (Sub.trans (Sub.mk (by decide)) hW)
  | packetRoute p => exact execPacketRoute_fr p hF (Sub.trans (Sub.mk (by decide)) hW)
  | transitWindow => exact execTransitWindow_fr hF (Sub.trans (Sub.mk (by decide)) hW)
  | twinTileRequest obj tile => exact execTwinTileRequest_fr obj tile hF (Sub.trans (Sub.mk (by decide)) hW)
  | join m => exact execJoin_fr m hF (Sub.trans (Sub.mk (by decide)) hW)
  | joinAck m => exact execJoinAck_fr m hF (Sub.trans (Sub.mk (by decide)) hW)
  | joinFail m => exact execJoinFail_fr m hF (Sub.trans (Sub.mk (by decide)) hW)
  | joinWaitExpire slice => exact execJoinWaitExpire_fr slice hF (Sub.trans (Sub.mk (by decide)) hW)
  | stop m => exact execStop_fr m hF (Sub.trans (Sub.mk (by decide)) hW)
  | stillToken tag origin capNo => exact execStillToken_fr tag origin capNo hF (Sub.trans (Sub.mk (by decide)) hW)
  | stillInFall highNs => exact execStillInFall_fr highNs hF (Sub.trans (Sub.mk (by decide)) hW)
  | stillOutPulseEnd => exact execStillOutPulseEnd_fr hF (Sub.trans (Sub.mk (by decide)) hW)
  | d2dCrcError port => exact execD2dCrcError_fr port hF (Sub.trans (Sub.mk (by decide)) hW)
  | nodCrcError die => exact execNodCrcError_fr die hF (Sub.trans (Sub.mk (by decide)) hW)
  | dieAgentWatchdog die => exact execDieAgentWatchdog_fr die hF (Sub.trans (Sub.mk (by decide)) hW)
  | diePoolUncorrectable die off => exact execDiePoolUncorrectable_fr die off hF (Sub.trans (Sub.mk (by decide)) hW)
  | dieLost die => exact execDieLost_fr die hF (Sub.trans (Sub.mk (by decide)) hW)
  | lockstepMismatch => exact execLockstepMismatch_fr hF (Sub.trans (Sub.mk (by decide)) hW)
  | easelSramError => exact execEaselSramError_fr hF (Sub.trans (Sub.mk (by decide)) hW)
  | ceSample => exact execCeSample_fr hF (Sub.trans (Sub.mk (by decide)) hW)
  | registerScrub => exact execRegisterScrub_fr hF (Sub.trans (Sub.mk (by decide)) hW)
  | healthMessage => exact execHealthMessage_fr hF (Sub.trans (Sub.mk (by decide)) hW)
  | healthRepeatTimer => exact execHealthRepeatTimer_fr hF (Sub.trans (Sub.mk (by decide)) hW)
  | healthAck aseq => exact execHealthAck_fr aseq hF (Sub.trans (Sub.mk (by decide)) hW)
  | faultPulseEnd => exact execFaultPulseEnd_fr hF (Sub.trans (Sub.mk (by decide)) hW)
  | sidebandHeartbeat => exact execSidebandHeartbeat_fr hF (Sub.trans (Sub.mk (by decide)) hW)
  | orphanTimeout => exact execOrphanTimeout_fr hF (Sub.trans (Sub.mk (by decide)) hW)
  | sidebandBusStuck => exact execSidebandBusStuck_fr hF (Sub.trans (Sub.mk (by decide)) hW)
  | recoveryImageMessage last bytes => exact execRecoveryImageMessage_fr last bytes hF (Sub.trans (Sub.mk (by decide)) hW)
  | sidebandAttestRequest nonce => exact execSidebandAttestRequest_fr nonce hF (Sub.trans (Sub.mk (by decide)) hW)
  | weirNAssert => exact execWeirNAssert_fr hF (Sub.trans (Sub.mk (by decide)) hW)
  | weirNRelease => exact execWeirNRelease_fr hF (Sub.trans (Sub.mk (by decide)) hW)
  | voltageStageSettle => exact execVoltageStageSettle_fr hF (Sub.trans (Sub.mk (by decide)) hW)
  | heldExit => exact execHeldExit_fr hF (Sub.trans (Sub.mk (by decide)) hW)
  | millpondTick p1ms p10ms v1ms coresFull => exact execMillpondTick_fr p1ms p10ms v1ms coresFull hF (Sub.trans (Sub.mk (by decide)) hW)
  | inputSag => exact execInputSag_fr hF (Sub.trans (Sub.mk (by decide)) hW)
  | sagCapTimer => exact execSagCapTimer_fr hF (Sub.trans (Sub.mk (by decide)) hW)
  | sagHoldTimer => exact execSagHoldTimer_fr hF (Sub.trans (Sub.mk (by decide)) hW)
  | inputRecover => exact execInputRecover_fr hF (Sub.trans (Sub.mk (by decide)) hW)
  | inputOvervoltage => exact execInputOvervoltage_fr hF (Sub.trans (Sub.mk (by decide)) hW)
  | powerOff => exact execPowerOff_fr hF (Sub.trans (Sub.mk (by decide)) hW)
  | phaseFail r => exact execPhaseFail_fr r hF (Sub.trans (Sub.mk (by decide)) hW)
  | railShort r => exact execRailShort_fr r hF (Sub.trans (Sub.mk (by decide)) hW)
  | thermalSample readings => exact execThermalSample_fr readings hF (Sub.trans (Sub.mk (by decide)) hW)
  | thermtrip sensor => exact execThermtrip_fr sensor hF (Sub.trans (Sub.mk (by decide)) hW)
  | coolantEstimate inA inB outA outB p1s => exact execCoolantEstimate_fr inA inB outA outB p1s hF (Sub.trans (Sub.mk (by decide)) hW)
  | droopTrip die => exact execDroopTrip_fr die hF (Sub.trans (Sub.mk (by decide)) hW)
  | refClockLoss => exact execRefClockLoss_fr hF (Sub.trans (Sub.mk (by decide)) hW)
  | refHoldoverExpire => exact execRefHoldoverExpire_fr hF (Sub.trans (Sub.mk (by decide)) hW)
  | pllUnlock die => exact execPllUnlock_fr die hF (Sub.trans (Sub.mk (by decide)) hW)
  | powerOn => exact execPowerOn_fr hF (Sub.trans (Sub.mk (by decide)) hW)
  | modRstNAssert => exact execModRstNAssert_fr hF (Sub.trans (Sub.mk (by decide)) hW)
  | moduleResetEnd => exact execModuleResetEnd_fr hF (Sub.trans (Sub.mk (by decide)) hW)
  | bootStageDone => exact execBootStageDone_fr hF (Sub.trans (Sub.mk (by decide)) hW)
  | memoryTrainingDone failed => exact execMemoryTrainingDone_fr failed hF (Sub.trans (Sub.mk (by decide)) hW)
  | ftlReady => exact execFtlReady_fr hF (Sub.trans (Sub.mk (by decide)) hW)
  | dieResetDone die => exact execDieResetDone_fr die hF (Sub.trans (Sub.mk (by decide)) hW)
  | flashResetDone => exact execFlashResetDone_fr hF (Sub.trans (Sub.mk (by decide)) hW)
  | configurationRequest p r => exact execConfigurationRequest_fr p r hF (Sub.trans (Sub.mk (by decide)) hW)
  | refClockReturn => exact execRefClockReturn_fr hF (Sub.trans (Sub.mk (by decide)) hW)
  | quotaReturn pool => exact execQuotaReturn_fr pool hF (Sub.trans (Sub.mk (by decide)) hW)
  | vectorParityError die core => exact execVectorParityError_fr die core hF (Sub.trans (Sub.mk (by decide)) hW)
  | sequencerEccError die core => exact execSequencerEccError_fr die core hF (Sub.trans (Sub.mk (by decide)) hW)
  | sidebandLinesHigh => exact execSidebandLinesHigh_fr hF (Sub.trans (Sub.mk (by decide)) hW)
  | dynamicAddressAssign addr => exact execDynamicAddressAssign_fr addr hF (Sub.trans (Sub.mk (by decide)) hW)
  | dynamicAddressReset => exact execDynamicAddressReset_fr hF (Sub.trans (Sub.mk (by decide)) hW)
  | tapInstruction ir => exact execTapInstruction_fr ir hF (Sub.trans (Sub.mk (by decide)) hW)
  | noSourceAnswer obj => exact execNoSourceAnswer_fr obj hF (Sub.trans (Sub.mk (by decide)) hW)
  | reportSigned => exact execReportSigned_fr hF (Sub.trans (Sub.mk (by decide)) hW)
  | updateDone => exact execUpdateDone_fr hF (Sub.trans (Sub.mk (by decide)) hW)

/-- The state that a command answers, beside the state that it ran in. -/
theorem exec_next_frame (i : Instr) (s t : State) (h : exec i s = .next t) : Frame 0x3fffffffffffffff s t :=
  (exec_fr i Frame.rfl Sub.rfl).of_next t h

/-- An idle step. -/
theorem idle_next_frame (s t : State) (h : idleTick s = .next t) : Frame 0x2 s t :=
  (idleTick_fr Frame.rfl Sub.rfl).of_next t h

end Sys2Proof.Machine
end

