-- ==== Sys2Proof/Laws/State.lean ====
section
/-! SUPPORT. One lemma for each field and each named update of the state, so that no proof unfolds a record update. -/

namespace Sys2Proof.Machine

open Sys2Proof

/-! ### State.modDie -/

@[simp] theorem State.modDie_pending (s : State) (k : Nat) (f : Die → Die) : (s.modDie k f).pending = s.pending := rfl
@[simp] theorem State.modDie_fresh (s : State) (k : Nat) (f : Die → Die) : (s.modDie k f).fresh = s.fresh := rfl
@[simp] theorem State.modDie_now (s : State) (k : Nat) (f : Die → Die) : (s.modDie k f).now = s.now := rfl
@[simp] theorem State.modDie_mem (s : State) (k : Nat) (f : Die → Die) : (s.modDie k f).mem = s.mem := rfl
@[simp] theorem State.modDie_hostA (s : State) (k : Nat) (f : Die → Die) : (s.modDie k f).hostA = s.hostA := rfl
@[simp] theorem State.modDie_hostB (s : State) (k : Nat) (f : Die → Die) : (s.modDie k f).hostB = s.hostB := rfl
@[simp] theorem State.modDie_pa (s : State) (k : Nat) (f : Die → Die) : (s.modDie k f).pa = s.pa := rfl
@[simp] theorem State.modDie_pb (s : State) (k : Nat) (f : Die → Die) : (s.modDie k f).pb = s.pb := rfl
@[simp] theorem State.modDie_cmds (s : State) (k : Nat) (f : Die → Die) : (s.modDie k f).cmds = s.cmds := rfl
@[simp] theorem State.modDie_cmdNo (s : State) (k : Nat) (f : Die → Die) : (s.modDie k f).cmdNo = s.cmdNo := rfl
@[simp] theorem State.modDie_lastFetch (s : State) (k : Nat) (f : Die → Die) : (s.modDie k f).lastFetch = s.lastFetch := rfl
@[simp] theorem State.modDie_msPortA (s : State) (k : Nat) (f : Die → Die) : (s.modDie k f).msPortA = s.msPortA := rfl
@[simp] theorem State.modDie_msPortB (s : State) (k : Nat) (f : Die → Die) : (s.modDie k f).msPortB = s.msPortB := rfl
@[simp] theorem State.modDie_msSide (s : State) (k : Nat) (f : Die → Die) : (s.modDie k f).msSide = s.msSide := rfl
@[simp] theorem State.modDie_msEasel (s : State) (k : Nat) (f : Die → Die) : (s.modDie k f).msEasel = s.msEasel := rfl
@[simp] theorem State.modDie_accs (s : State) (k : Nat) (f : Die → Die) : (s.modDie k f).accs = s.accs := rfl
@[simp] theorem State.modDie_accNo (s : State) (k : Nat) (f : Die → Die) : (s.modDie k f).accNo = s.accNo := rfl
@[simp] theorem State.modDie_sq (s : State) (k : Nat) (f : Die → Die) : (s.modDie k f).sq = s.sq := rfl
@[simp] theorem State.modDie_seqMiss (s : State) (k : Nat) (f : Die → Die) : (s.modDie k f).seqMiss = s.seqMiss := rfl
@[simp] theorem State.modDie_lkIgnore (s : State) (k : Nat) (f : Die → Die) : (s.modDie k f).lkIgnore = s.lkIgnore := rfl
@[simp] theorem State.modDie_regFix (s : State) (k : Nat) (f : Die → Die) : (s.modDie k f).regFix = s.regFix := rfl
@[simp] theorem State.modDie_upsets (s : State) (k : Nat) (f : Die → Die) : (s.modDie k f).upsets = s.upsets := rfl
@[simp] theorem State.modDie_objs (s : State) (k : Nat) (f : Die → Die) : (s.modDie k f).objs = s.objs := rfl
@[simp] theorem State.modDie_sysExts (s : State) (k : Nat) (f : Die → Die) : (s.modDie k f).sysExts = s.sysExts := rfl
@[simp] theorem State.modDie_pfEnts (s : State) (k : Nat) (f : Die → Die) : (s.modDie k f).pfEnts = s.pfEnts := rfl
@[simp] theorem State.modDie_pfNo (s : State) (k : Nat) (f : Die → Die) : (s.modDie k f).pfNo = s.pfNo := rfl
@[simp] theorem State.modDie_seqs (s : State) (k : Nat) (f : Die → Die) : (s.modDie k f).seqs = s.seqs := rfl
@[simp] theorem State.modDie_commitNo (s : State) (k : Nat) (f : Die → Die) : (s.modDie k f).commitNo = s.commitNo := rfl
@[simp] theorem State.modDie_commitC (s : State) (k : Nat) (f : Die → Die) : (s.modDie k f).commitC = s.commitC := rfl
@[simp] theorem State.modDie_applying (s : State) (k : Nat) (f : Die → Die) : (s.modDie k f).applying = s.applying := rfl
@[simp] theorem State.modDie_spillPool (s : State) (k : Nat) (f : Die → Die) : (s.modDie k f).spillPool = s.spillPool := rfl
@[simp] theorem State.modDie_models (s : State) (k : Nat) (f : Die → Die) : (s.modDie k f).models = s.models := rfl
@[simp] theorem State.modDie_slices (s : State) (k : Nat) (f : Die → Die) : (s.modDie k f).slices = s.slices := rfl
@[simp] theorem State.modDie_steps (s : State) (k : Nat) (f : Die → Die) : (s.modDie k f).steps = s.steps := rfl
@[simp] theorem State.modDie_mst (s : State) (k : Nat) (f : Die → Die) : (s.modDie k f).mst = s.mst := rfl
@[simp] theorem State.modDie_joinQ (s : State) (k : Nat) (f : Die → Die) : (s.modDie k f).joinQ = s.joinQ := rfl
@[simp] theorem State.modDie_tenQ (s : State) (k : Nat) (f : Die → Die) : (s.modDie k f).tenQ = s.tenQ := rfl
@[simp] theorem State.modDie_tenC (s : State) (k : Nat) (f : Die → Die) : (s.modDie k f).tenC = s.tenC := rfl
@[simp] theorem State.modDie_curTenant (s : State) (k : Nat) (f : Die → Die) : (s.modDie k f).curTenant = s.curTenant := rfl
@[simp] theorem State.modDie_lastTenant (s : State) (k : Nat) (f : Die → Die) : (s.modDie k f).lastTenant = s.lastTenant := rfl
@[simp] theorem State.modDie_turnStart (s : State) (k : Nat) (f : Die → Die) : (s.modDie k f).turnStart = s.turnStart := rfl
@[simp] theorem State.modDie_turnEnd (s : State) (k : Nat) (f : Die → Die) : (s.modDie k f).turnEnd = s.turnEnd := rfl
@[simp] theorem State.modDie_turnSteps (s : State) (k : Nat) (f : Die → Die) : (s.modDie k f).turnSteps = s.turnSteps := rfl
@[simp] theorem State.modDie_dies (s : State) (k : Nat) (f : Die → Die) : (s.modDie k f).dies = s.dies.modify k f := rfl
@[simp] theorem State.modDie_d2d (s : State) (k : Nat) (f : Die → Die) : (s.modDie k f).d2d = s.d2d := rfl
@[simp] theorem State.modDie_noc (s : State) (k : Nat) (f : Die → Die) : (s.modDie k f).noc = s.noc := rfl
@[simp] theorem State.modDie_pals (s : State) (k : Nat) (f : Die → Die) : (s.modDie k f).pals = s.pals := rfl
@[simp] theorem State.modDie_chans (s : State) (k : Nat) (f : Die → Die) : (s.modDie k f).chans = s.chans := rfl
@[simp] theorem State.modDie_grps (s : State) (k : Nat) (f : Die → Die) : (s.modDie k f).grps = s.grps := rfl
@[simp] theorem State.modDie_flash (s : State) (k : Nat) (f : Die → Die) : (s.modDie k f).flash = s.flash := rfl
@[simp] theorem State.modDie_links (s : State) (k : Nat) (f : Die → Die) : (s.modDie k f).links = s.links := rfl
@[simp] theorem State.modDie_bundleW (s : State) (k : Nat) (f : Die → Die) : (s.modDie k f).bundleW = s.bundleW := rfl
@[simp] theorem State.modDie_router (s : State) (k : Nat) (f : Die → Die) : (s.modDie k f).router = s.router := rfl
@[simp] theorem State.modDie_coord (s : State) (k : Nat) (f : Die → Die) : (s.modDie k f).coord = s.coord := rfl
@[simp] theorem State.modDie_power (s : State) (k : Nat) (f : Die → Die) : (s.modDie k f).power = s.power := rfl
@[simp] theorem State.modDie_mon (s : State) (k : Nat) (f : Die → Die) : (s.modDie k f).mon = s.mon := rfl
@[simp] theorem State.modDie_health (s : State) (k : Nat) (f : Die → Die) : (s.modDie k f).health = s.health := rfl
@[simp] theorem State.modDie_nor (s : State) (k : Nat) (f : Die → Die) : (s.modDie k f).nor = s.nor := rfl
@[simp] theorem State.modDie_clk (s : State) (k : Nat) (f : Die → Die) : (s.modDie k f).clk = s.clk := rfl
@[simp] theorem State.modDie_sec (s : State) (k : Nat) (f : Die → Die) : (s.modDie k f).sec = s.sec := rfl
@[simp] theorem State.modDie_snap (s : State) (k : Nat) (f : Die → Die) : (s.modDie k f).snap = s.snap := rfl
@[simp] theorem State.modDie_side (s : State) (k : Nat) (f : Die → Die) : (s.modDie k f).side = s.side := rfl
@[simp] theorem State.modDie_tx (s : State) (k : Nat) (f : Die → Die) : (s.modDie k f).tx = s.tx := rfl

/-! ### State.modDies -/

@[simp] theorem State.modDies_pending (s : State) (f : Die → Die) : (s.modDies f).pending = s.pending := rfl
@[simp] theorem State.modDies_fresh (s : State) (f : Die → Die) : (s.modDies f).fresh = s.fresh := rfl
@[simp] theorem State.modDies_now (s : State) (f : Die → Die) : (s.modDies f).now = s.now := rfl
@[simp] theorem State.modDies_mem (s : State) (f : Die → Die) : (s.modDies f).mem = s.mem := rfl
@[simp] theorem State.modDies_hostA (s : State) (f : Die → Die) : (s.modDies f).hostA = s.hostA := rfl
@[simp] theorem State.modDies_hostB (s : State) (f : Die → Die) : (s.modDies f).hostB = s.hostB := rfl
@[simp] theorem State.modDies_pa (s : State) (f : Die → Die) : (s.modDies f).pa = s.pa := rfl
@[simp] theorem State.modDies_pb (s : State) (f : Die → Die) : (s.modDies f).pb = s.pb := rfl
@[simp] theorem State.modDies_cmds (s : State) (f : Die → Die) : (s.modDies f).cmds = s.cmds := rfl
@[simp] theorem State.modDies_cmdNo (s : State) (f : Die → Die) : (s.modDies f).cmdNo = s.cmdNo := rfl
@[simp] theorem State.modDies_lastFetch (s : State) (f : Die → Die) : (s.modDies f).lastFetch = s.lastFetch := rfl
@[simp] theorem State.modDies_msPortA (s : State) (f : Die → Die) : (s.modDies f).msPortA = s.msPortA := rfl
@[simp] theorem State.modDies_msPortB (s : State) (f : Die → Die) : (s.modDies f).msPortB = s.msPortB := rfl
@[simp] theorem State.modDies_msSide (s : State) (f : Die → Die) : (s.modDies f).msSide = s.msSide := rfl
@[simp] theorem State.modDies_msEasel (s : State) (f : Die → Die) : (s.modDies f).msEasel = s.msEasel := rfl
@[simp] theorem State.modDies_accs (s : State) (f : Die → Die) : (s.modDies f).accs = s.accs := rfl
@[simp] theorem State.modDies_accNo (s : State) (f : Die → Die) : (s.modDies f).accNo = s.accNo := rfl
@[simp] theorem State.modDies_sq (s : State) (f : Die → Die) : (s.modDies f).sq = s.sq := rfl
@[simp] theorem State.modDies_seqMiss (s : State) (f : Die → Die) : (s.modDies f).seqMiss = s.seqMiss := rfl
@[simp] theorem State.modDies_lkIgnore (s : State) (f : Die → Die) : (s.modDies f).lkIgnore = s.lkIgnore := rfl
@[simp] theorem State.modDies_regFix (s : State) (f : Die → Die) : (s.modDies f).regFix = s.regFix := rfl
@[simp] theorem State.modDies_upsets (s : State) (f : Die → Die) : (s.modDies f).upsets = s.upsets := rfl
@[simp] theorem State.modDies_objs (s : State) (f : Die → Die) : (s.modDies f).objs = s.objs := rfl
@[simp] theorem State.modDies_sysExts (s : State) (f : Die → Die) : (s.modDies f).sysExts = s.sysExts := rfl
@[simp] theorem State.modDies_pfEnts (s : State) (f : Die → Die) : (s.modDies f).pfEnts = s.pfEnts := rfl
@[simp] theorem State.modDies_pfNo (s : State) (f : Die → Die) : (s.modDies f).pfNo = s.pfNo := rfl
@[simp] theorem State.modDies_seqs (s : State) (f : Die → Die) : (s.modDies f).seqs = s.seqs := rfl
@[simp] theorem State.modDies_commitNo (s : State) (f : Die → Die) : (s.modDies f).commitNo = s.commitNo := rfl
@[simp] theorem State.modDies_commitC (s : State) (f : Die → Die) : (s.modDies f).commitC = s.commitC := rfl
@[simp] theorem State.modDies_applying (s : State) (f : Die → Die) : (s.modDies f).applying = s.applying := rfl
@[simp] theorem State.modDies_spillPool (s : State) (f : Die → Die) : (s.modDies f).spillPool = s.spillPool := rfl
@[simp] theorem State.modDies_models (s : State) (f : Die → Die) : (s.modDies f).models = s.models := rfl
@[simp] theorem State.modDies_slices (s : State) (f : Die → Die) : (s.modDies f).slices = s.slices := rfl
@[simp] theorem State.modDies_steps (s : State) (f : Die → Die) : (s.modDies f).steps = s.steps := rfl
@[simp] theorem State.modDies_mst (s : State) (f : Die → Die) : (s.modDies f).mst = s.mst := rfl
@[simp] theorem State.modDies_joinQ (s : State) (f : Die → Die) : (s.modDies f).joinQ = s.joinQ := rfl
@[simp] theorem State.modDies_tenQ (s : State) (f : Die → Die) : (s.modDies f).tenQ = s.tenQ := rfl
@[simp] theorem State.modDies_tenC (s : State) (f : Die → Die) : (s.modDies f).tenC = s.tenC := rfl
@[simp] theorem State.modDies_curTenant (s : State) (f : Die → Die) : (s.modDies f).curTenant = s.curTenant := rfl
@[simp] theorem State.modDies_lastTenant (s : State) (f : Die → Die) : (s.modDies f).lastTenant = s.lastTenant := rfl
@[simp] theorem State.modDies_turnStart (s : State) (f : Die → Die) : (s.modDies f).turnStart = s.turnStart := rfl
@[simp] theorem State.modDies_turnEnd (s : State) (f : Die → Die) : (s.modDies f).turnEnd = s.turnEnd := rfl
@[simp] theorem State.modDies_turnSteps (s : State) (f : Die → Die) : (s.modDies f).turnSteps = s.turnSteps := rfl
@[simp] theorem State.modDies_dies (s : State) (f : Die → Die) : (s.modDies f).dies = s.dies.map f := rfl
@[simp] theorem State.modDies_d2d (s : State) (f : Die → Die) : (s.modDies f).d2d = s.d2d := rfl
@[simp] theorem State.modDies_noc (s : State) (f : Die → Die) : (s.modDies f).noc = s.noc := rfl
@[simp] theorem State.modDies_pals (s : State) (f : Die → Die) : (s.modDies f).pals = s.pals := rfl
@[simp] theorem State.modDies_chans (s : State) (f : Die → Die) : (s.modDies f).chans = s.chans := rfl
@[simp] theorem State.modDies_grps (s : State) (f : Die → Die) : (s.modDies f).grps = s.grps := rfl
@[simp] theorem State.modDies_flash (s : State) (f : Die → Die) : (s.modDies f).flash = s.flash := rfl
@[simp] theorem State.modDies_links (s : State) (f : Die → Die) : (s.modDies f).links = s.links := rfl
@[simp] theorem State.modDies_bundleW (s : State) (f : Die → Die) : (s.modDies f).bundleW = s.bundleW := rfl
@[simp] theorem State.modDies_router (s : State) (f : Die → Die) : (s.modDies f).router = s.router := rfl
@[simp] theorem State.modDies_coord (s : State) (f : Die → Die) : (s.modDies f).coord = s.coord := rfl
@[simp] theorem State.modDies_power (s : State) (f : Die → Die) : (s.modDies f).power = s.power := rfl
@[simp] theorem State.modDies_mon (s : State) (f : Die → Die) : (s.modDies f).mon = s.mon := rfl
@[simp] theorem State.modDies_health (s : State) (f : Die → Die) : (s.modDies f).health = s.health := rfl
@[simp] theorem State.modDies_nor (s : State) (f : Die → Die) : (s.modDies f).nor = s.nor := rfl
@[simp] theorem State.modDies_clk (s : State) (f : Die → Die) : (s.modDies f).clk = s.clk := rfl
@[simp] theorem State.modDies_sec (s : State) (f : Die → Die) : (s.modDies f).sec = s.sec := rfl
@[simp] theorem State.modDies_snap (s : State) (f : Die → Die) : (s.modDies f).snap = s.snap := rfl
@[simp] theorem State.modDies_side (s : State) (f : Die → Die) : (s.modDies f).side = s.side := rfl
@[simp] theorem State.modDies_tx (s : State) (f : Die → Die) : (s.modDies f).tx = s.tx := rfl

/-! ### State.modSlc -/

@[simp] theorem State.modSlc_pending (s : State) (h : Nat) (f : Slice → Slice) : (s.modSlc h f).pending = s.pending := rfl
@[simp] theorem State.modSlc_fresh (s : State) (h : Nat) (f : Slice → Slice) : (s.modSlc h f).fresh = s.fresh := rfl
@[simp] theorem State.modSlc_now (s : State) (h : Nat) (f : Slice → Slice) : (s.modSlc h f).now = s.now := rfl
@[simp] theorem State.modSlc_mem (s : State) (h : Nat) (f : Slice → Slice) : (s.modSlc h f).mem = s.mem := rfl
@[simp] theorem State.modSlc_hostA (s : State) (h : Nat) (f : Slice → Slice) : (s.modSlc h f).hostA = s.hostA := rfl
@[simp] theorem State.modSlc_hostB (s : State) (h : Nat) (f : Slice → Slice) : (s.modSlc h f).hostB = s.hostB := rfl
@[simp] theorem State.modSlc_pa (s : State) (h : Nat) (f : Slice → Slice) : (s.modSlc h f).pa = s.pa := rfl
@[simp] theorem State.modSlc_pb (s : State) (h : Nat) (f : Slice → Slice) : (s.modSlc h f).pb = s.pb := rfl
@[simp] theorem State.modSlc_cmds (s : State) (h : Nat) (f : Slice → Slice) : (s.modSlc h f).cmds = s.cmds := rfl
@[simp] theorem State.modSlc_cmdNo (s : State) (h : Nat) (f : Slice → Slice) : (s.modSlc h f).cmdNo = s.cmdNo := rfl
@[simp] theorem State.modSlc_lastFetch (s : State) (h : Nat) (f : Slice → Slice) : (s.modSlc h f).lastFetch = s.lastFetch := rfl
@[simp] theorem State.modSlc_msPortA (s : State) (h : Nat) (f : Slice → Slice) : (s.modSlc h f).msPortA = s.msPortA := rfl
@[simp] theorem State.modSlc_msPortB (s : State) (h : Nat) (f : Slice → Slice) : (s.modSlc h f).msPortB = s.msPortB := rfl
@[simp] theorem State.modSlc_msSide (s : State) (h : Nat) (f : Slice → Slice) : (s.modSlc h f).msSide = s.msSide := rfl
@[simp] theorem State.modSlc_msEasel (s : State) (h : Nat) (f : Slice → Slice) : (s.modSlc h f).msEasel = s.msEasel := rfl
@[simp] theorem State.modSlc_accs (s : State) (h : Nat) (f : Slice → Slice) : (s.modSlc h f).accs = s.accs := rfl
@[simp] theorem State.modSlc_accNo (s : State) (h : Nat) (f : Slice → Slice) : (s.modSlc h f).accNo = s.accNo := rfl
@[simp] theorem State.modSlc_sq (s : State) (h : Nat) (f : Slice → Slice) : (s.modSlc h f).sq = s.sq := rfl
@[simp] theorem State.modSlc_seqMiss (s : State) (h : Nat) (f : Slice → Slice) : (s.modSlc h f).seqMiss = s.seqMiss := rfl
@[simp] theorem State.modSlc_lkIgnore (s : State) (h : Nat) (f : Slice → Slice) : (s.modSlc h f).lkIgnore = s.lkIgnore := rfl
@[simp] theorem State.modSlc_regFix (s : State) (h : Nat) (f : Slice → Slice) : (s.modSlc h f).regFix = s.regFix := rfl
@[simp] theorem State.modSlc_upsets (s : State) (h : Nat) (f : Slice → Slice) : (s.modSlc h f).upsets = s.upsets := rfl
@[simp] theorem State.modSlc_objs (s : State) (h : Nat) (f : Slice → Slice) : (s.modSlc h f).objs = s.objs := rfl
@[simp] theorem State.modSlc_sysExts (s : State) (h : Nat) (f : Slice → Slice) : (s.modSlc h f).sysExts = s.sysExts := rfl
@[simp] theorem State.modSlc_pfEnts (s : State) (h : Nat) (f : Slice → Slice) : (s.modSlc h f).pfEnts = s.pfEnts := rfl
@[simp] theorem State.modSlc_pfNo (s : State) (h : Nat) (f : Slice → Slice) : (s.modSlc h f).pfNo = s.pfNo := rfl
@[simp] theorem State.modSlc_seqs (s : State) (h : Nat) (f : Slice → Slice) : (s.modSlc h f).seqs = s.seqs := rfl
@[simp] theorem State.modSlc_commitNo (s : State) (h : Nat) (f : Slice → Slice) : (s.modSlc h f).commitNo = s.commitNo := rfl
@[simp] theorem State.modSlc_commitC (s : State) (h : Nat) (f : Slice → Slice) : (s.modSlc h f).commitC = s.commitC := rfl
@[simp] theorem State.modSlc_applying (s : State) (h : Nat) (f : Slice → Slice) : (s.modSlc h f).applying = s.applying := rfl
@[simp] theorem State.modSlc_spillPool (s : State) (h : Nat) (f : Slice → Slice) : (s.modSlc h f).spillPool = s.spillPool := rfl
@[simp] theorem State.modSlc_models (s : State) (h : Nat) (f : Slice → Slice) : (s.modSlc h f).models = s.models := rfl
@[simp] theorem State.modSlc_slices (s : State) (h : Nat) (f : Slice → Slice) : (s.modSlc h f).slices = s.slices.modify h f := rfl
@[simp] theorem State.modSlc_steps (s : State) (h : Nat) (f : Slice → Slice) : (s.modSlc h f).steps = s.steps := rfl
@[simp] theorem State.modSlc_mst (s : State) (h : Nat) (f : Slice → Slice) : (s.modSlc h f).mst = s.mst := rfl
@[simp] theorem State.modSlc_joinQ (s : State) (h : Nat) (f : Slice → Slice) : (s.modSlc h f).joinQ = s.joinQ := rfl
@[simp] theorem State.modSlc_tenQ (s : State) (h : Nat) (f : Slice → Slice) : (s.modSlc h f).tenQ = s.tenQ := rfl
@[simp] theorem State.modSlc_tenC (s : State) (h : Nat) (f : Slice → Slice) : (s.modSlc h f).tenC = s.tenC := rfl
@[simp] theorem State.modSlc_curTenant (s : State) (h : Nat) (f : Slice → Slice) : (s.modSlc h f).curTenant = s.curTenant := rfl
@[simp] theorem State.modSlc_lastTenant (s : State) (h : Nat) (f : Slice → Slice) : (s.modSlc h f).lastTenant = s.lastTenant := rfl
@[simp] theorem State.modSlc_turnStart (s : State) (h : Nat) (f : Slice → Slice) : (s.modSlc h f).turnStart = s.turnStart := rfl
@[simp] theorem State.modSlc_turnEnd (s : State) (h : Nat) (f : Slice → Slice) : (s.modSlc h f).turnEnd = s.turnEnd := rfl
@[simp] theorem State.modSlc_turnSteps (s : State) (h : Nat) (f : Slice → Slice) : (s.modSlc h f).turnSteps = s.turnSteps := rfl
@[simp] theorem State.modSlc_dies (s : State) (h : Nat) (f : Slice → Slice) : (s.modSlc h f).dies = s.dies := rfl
@[simp] theorem State.modSlc_d2d (s : State) (h : Nat) (f : Slice → Slice) : (s.modSlc h f).d2d = s.d2d := rfl
@[simp] theorem State.modSlc_noc (s : State) (h : Nat) (f : Slice → Slice) : (s.modSlc h f).noc = s.noc := rfl
@[simp] theorem State.modSlc_pals (s : State) (h : Nat) (f : Slice → Slice) : (s.modSlc h f).pals = s.pals := rfl
@[simp] theorem State.modSlc_chans (s : State) (h : Nat) (f : Slice → Slice) : (s.modSlc h f).chans = s.chans := rfl
@[simp] theorem State.modSlc_grps (s : State) (h : Nat) (f : Slice → Slice) : (s.modSlc h f).grps = s.grps := rfl
@[simp] theorem State.modSlc_flash (s : State) (h : Nat) (f : Slice → Slice) : (s.modSlc h f).flash = s.flash := rfl
@[simp] theorem State.modSlc_links (s : State) (h : Nat) (f : Slice → Slice) : (s.modSlc h f).links = s.links := rfl
@[simp] theorem State.modSlc_bundleW (s : State) (h : Nat) (f : Slice → Slice) : (s.modSlc h f).bundleW = s.bundleW := rfl
@[simp] theorem State.modSlc_router (s : State) (h : Nat) (f : Slice → Slice) : (s.modSlc h f).router = s.router := rfl
@[simp] theorem State.modSlc_coord (s : State) (h : Nat) (f : Slice → Slice) : (s.modSlc h f).coord = s.coord := rfl
@[simp] theorem State.modSlc_power (s : State) (h : Nat) (f : Slice → Slice) : (s.modSlc h f).power = s.power := rfl
@[simp] theorem State.modSlc_mon (s : State) (h : Nat) (f : Slice → Slice) : (s.modSlc h f).mon = s.mon := rfl
@[simp] theorem State.modSlc_health (s : State) (h : Nat) (f : Slice → Slice) : (s.modSlc h f).health = s.health := rfl
@[simp] theorem State.modSlc_nor (s : State) (h : Nat) (f : Slice → Slice) : (s.modSlc h f).nor = s.nor := rfl
@[simp] theorem State.modSlc_clk (s : State) (h : Nat) (f : Slice → Slice) : (s.modSlc h f).clk = s.clk := rfl
@[simp] theorem State.modSlc_sec (s : State) (h : Nat) (f : Slice → Slice) : (s.modSlc h f).sec = s.sec := rfl
@[simp] theorem State.modSlc_snap (s : State) (h : Nat) (f : Slice → Slice) : (s.modSlc h f).snap = s.snap := rfl
@[simp] theorem State.modSlc_side (s : State) (h : Nat) (f : Slice → Slice) : (s.modSlc h f).side = s.side := rfl
@[simp] theorem State.modSlc_tx (s : State) (h : Nat) (f : Slice → Slice) : (s.modSlc h f).tx = s.tx := rfl

/-! ### State.modLink -/

@[simp] theorem State.modLink_pending (s : State) (i : Nat) (f : Link → Link) : (s.modLink i f).pending = s.pending := rfl
@[simp] theorem State.modLink_fresh (s : State) (i : Nat) (f : Link → Link) : (s.modLink i f).fresh = s.fresh := rfl
@[simp] theorem State.modLink_now (s : State) (i : Nat) (f : Link → Link) : (s.modLink i f).now = s.now := rfl
@[simp] theorem State.modLink_mem (s : State) (i : Nat) (f : Link → Link) : (s.modLink i f).mem = s.mem := rfl
@[simp] theorem State.modLink_hostA (s : State) (i : Nat) (f : Link → Link) : (s.modLink i f).hostA = s.hostA := rfl
@[simp] theorem State.modLink_hostB (s : State) (i : Nat) (f : Link → Link) : (s.modLink i f).hostB = s.hostB := rfl
@[simp] theorem State.modLink_pa (s : State) (i : Nat) (f : Link → Link) : (s.modLink i f).pa = s.pa := rfl
@[simp] theorem State.modLink_pb (s : State) (i : Nat) (f : Link → Link) : (s.modLink i f).pb = s.pb := rfl
@[simp] theorem State.modLink_cmds (s : State) (i : Nat) (f : Link → Link) : (s.modLink i f).cmds = s.cmds := rfl
@[simp] theorem State.modLink_cmdNo (s : State) (i : Nat) (f : Link → Link) : (s.modLink i f).cmdNo = s.cmdNo := rfl
@[simp] theorem State.modLink_lastFetch (s : State) (i : Nat) (f : Link → Link) : (s.modLink i f).lastFetch = s.lastFetch := rfl
@[simp] theorem State.modLink_msPortA (s : State) (i : Nat) (f : Link → Link) : (s.modLink i f).msPortA = s.msPortA := rfl
@[simp] theorem State.modLink_msPortB (s : State) (i : Nat) (f : Link → Link) : (s.modLink i f).msPortB = s.msPortB := rfl
@[simp] theorem State.modLink_msSide (s : State) (i : Nat) (f : Link → Link) : (s.modLink i f).msSide = s.msSide := rfl
@[simp] theorem State.modLink_msEasel (s : State) (i : Nat) (f : Link → Link) : (s.modLink i f).msEasel = s.msEasel := rfl
@[simp] theorem State.modLink_accs (s : State) (i : Nat) (f : Link → Link) : (s.modLink i f).accs = s.accs := rfl
@[simp] theorem State.modLink_accNo (s : State) (i : Nat) (f : Link → Link) : (s.modLink i f).accNo = s.accNo := rfl
@[simp] theorem State.modLink_sq (s : State) (i : Nat) (f : Link → Link) : (s.modLink i f).sq = s.sq := rfl
@[simp] theorem State.modLink_seqMiss (s : State) (i : Nat) (f : Link → Link) : (s.modLink i f).seqMiss = s.seqMiss := rfl
@[simp] theorem State.modLink_lkIgnore (s : State) (i : Nat) (f : Link → Link) : (s.modLink i f).lkIgnore = s.lkIgnore := rfl
@[simp] theorem State.modLink_regFix (s : State) (i : Nat) (f : Link → Link) : (s.modLink i f).regFix = s.regFix := rfl
@[simp] theorem State.modLink_upsets (s : State) (i : Nat) (f : Link → Link) : (s.modLink i f).upsets = s.upsets := rfl
@[simp] theorem State.modLink_objs (s : State) (i : Nat) (f : Link → Link) : (s.modLink i f).objs = s.objs := rfl
@[simp] theorem State.modLink_sysExts (s : State) (i : Nat) (f : Link → Link) : (s.modLink i f).sysExts = s.sysExts := rfl
@[simp] theorem State.modLink_pfEnts (s : State) (i : Nat) (f : Link → Link) : (s.modLink i f).pfEnts = s.pfEnts := rfl
@[simp] theorem State.modLink_pfNo (s : State) (i : Nat) (f : Link → Link) : (s.modLink i f).pfNo = s.pfNo := rfl
@[simp] theorem State.modLink_seqs (s : State) (i : Nat) (f : Link → Link) : (s.modLink i f).seqs = s.seqs := rfl
@[simp] theorem State.modLink_commitNo (s : State) (i : Nat) (f : Link → Link) : (s.modLink i f).commitNo = s.commitNo := rfl
@[simp] theorem State.modLink_commitC (s : State) (i : Nat) (f : Link → Link) : (s.modLink i f).commitC = s.commitC := rfl
@[simp] theorem State.modLink_applying (s : State) (i : Nat) (f : Link → Link) : (s.modLink i f).applying = s.applying := rfl
@[simp] theorem State.modLink_spillPool (s : State) (i : Nat) (f : Link → Link) : (s.modLink i f).spillPool = s.spillPool := rfl
@[simp] theorem State.modLink_models (s : State) (i : Nat) (f : Link → Link) : (s.modLink i f).models = s.models := rfl
@[simp] theorem State.modLink_slices (s : State) (i : Nat) (f : Link → Link) : (s.modLink i f).slices = s.slices := rfl
@[simp] theorem State.modLink_steps (s : State) (i : Nat) (f : Link → Link) : (s.modLink i f).steps = s.steps := rfl
@[simp] theorem State.modLink_mst (s : State) (i : Nat) (f : Link → Link) : (s.modLink i f).mst = s.mst := rfl
@[simp] theorem State.modLink_joinQ (s : State) (i : Nat) (f : Link → Link) : (s.modLink i f).joinQ = s.joinQ := rfl
@[simp] theorem State.modLink_tenQ (s : State) (i : Nat) (f : Link → Link) : (s.modLink i f).tenQ = s.tenQ := rfl
@[simp] theorem State.modLink_tenC (s : State) (i : Nat) (f : Link → Link) : (s.modLink i f).tenC = s.tenC := rfl
@[simp] theorem State.modLink_curTenant (s : State) (i : Nat) (f : Link → Link) : (s.modLink i f).curTenant = s.curTenant := rfl
@[simp] theorem State.modLink_lastTenant (s : State) (i : Nat) (f : Link → Link) : (s.modLink i f).lastTenant = s.lastTenant := rfl
@[simp] theorem State.modLink_turnStart (s : State) (i : Nat) (f : Link → Link) : (s.modLink i f).turnStart = s.turnStart := rfl
@[simp] theorem State.modLink_turnEnd (s : State) (i : Nat) (f : Link → Link) : (s.modLink i f).turnEnd = s.turnEnd := rfl
@[simp] theorem State.modLink_turnSteps (s : State) (i : Nat) (f : Link → Link) : (s.modLink i f).turnSteps = s.turnSteps := rfl
@[simp] theorem State.modLink_dies (s : State) (i : Nat) (f : Link → Link) : (s.modLink i f).dies = s.dies := rfl
@[simp] theorem State.modLink_d2d (s : State) (i : Nat) (f : Link → Link) : (s.modLink i f).d2d = s.d2d := rfl
@[simp] theorem State.modLink_noc (s : State) (i : Nat) (f : Link → Link) : (s.modLink i f).noc = s.noc := rfl
@[simp] theorem State.modLink_pals (s : State) (i : Nat) (f : Link → Link) : (s.modLink i f).pals = s.pals := rfl
@[simp] theorem State.modLink_chans (s : State) (i : Nat) (f : Link → Link) : (s.modLink i f).chans = s.chans := rfl
@[simp] theorem State.modLink_grps (s : State) (i : Nat) (f : Link → Link) : (s.modLink i f).grps = s.grps := rfl
@[simp] theorem State.modLink_flash (s : State) (i : Nat) (f : Link → Link) : (s.modLink i f).flash = s.flash := rfl
@[simp] theorem State.modLink_links (s : State) (i : Nat) (f : Link → Link) : (s.modLink i f).links = s.links.modify i f := rfl
@[simp] theorem State.modLink_bundleW (s : State) (i : Nat) (f : Link → Link) : (s.modLink i f).bundleW = s.bundleW := rfl
@[simp] theorem State.modLink_router (s : State) (i : Nat) (f : Link → Link) : (s.modLink i f).router = s.router := rfl
@[simp] theorem State.modLink_coord (s : State) (i : Nat) (f : Link → Link) : (s.modLink i f).coord = s.coord := rfl
@[simp] theorem State.modLink_power (s : State) (i : Nat) (f : Link → Link) : (s.modLink i f).power = s.power := rfl
@[simp] theorem State.modLink_mon (s : State) (i : Nat) (f : Link → Link) : (s.modLink i f).mon = s.mon := rfl
@[simp] theorem State.modLink_health (s : State) (i : Nat) (f : Link → Link) : (s.modLink i f).health = s.health := rfl
@[simp] theorem State.modLink_nor (s : State) (i : Nat) (f : Link → Link) : (s.modLink i f).nor = s.nor := rfl
@[simp] theorem State.modLink_clk (s : State) (i : Nat) (f : Link → Link) : (s.modLink i f).clk = s.clk := rfl
@[simp] theorem State.modLink_sec (s : State) (i : Nat) (f : Link → Link) : (s.modLink i f).sec = s.sec := rfl
@[simp] theorem State.modLink_snap (s : State) (i : Nat) (f : Link → Link) : (s.modLink i f).snap = s.snap := rfl
@[simp] theorem State.modLink_side (s : State) (i : Nat) (f : Link → Link) : (s.modLink i f).side = s.side := rfl
@[simp] theorem State.modLink_tx (s : State) (i : Nat) (f : Link → Link) : (s.modLink i f).tx = s.tx := rfl

/-! ### State.modPower -/

@[simp] theorem State.modPower_pending (s : State) (f : Power → Power) : (s.modPower f).pending = s.pending := rfl
@[simp] theorem State.modPower_fresh (s : State) (f : Power → Power) : (s.modPower f).fresh = s.fresh := rfl
@[simp] theorem State.modPower_now (s : State) (f : Power → Power) : (s.modPower f).now = s.now := rfl
@[simp] theorem State.modPower_mem (s : State) (f : Power → Power) : (s.modPower f).mem = s.mem := rfl
@[simp] theorem State.modPower_hostA (s : State) (f : Power → Power) : (s.modPower f).hostA = s.hostA := rfl
@[simp] theorem State.modPower_hostB (s : State) (f : Power → Power) : (s.modPower f).hostB = s.hostB := rfl
@[simp] theorem State.modPower_pa (s : State) (f : Power → Power) : (s.modPower f).pa = s.pa := rfl
@[simp] theorem State.modPower_pb (s : State) (f : Power → Power) : (s.modPower f).pb = s.pb := rfl
@[simp] theorem State.modPower_cmds (s : State) (f : Power → Power) : (s.modPower f).cmds = s.cmds := rfl
@[simp] theorem State.modPower_cmdNo (s : State) (f : Power → Power) : (s.modPower f).cmdNo = s.cmdNo := rfl
@[simp] theorem State.modPower_lastFetch (s : State) (f : Power → Power) : (s.modPower f).lastFetch = s.lastFetch := rfl
@[simp] theorem State.modPower_msPortA (s : State) (f : Power → Power) : (s.modPower f).msPortA = s.msPortA := rfl
@[simp] theorem State.modPower_msPortB (s : State) (f : Power → Power) : (s.modPower f).msPortB = s.msPortB := rfl
@[simp] theorem State.modPower_msSide (s : State) (f : Power → Power) : (s.modPower f).msSide = s.msSide := rfl
@[simp] theorem State.modPower_msEasel (s : State) (f : Power → Power) : (s.modPower f).msEasel = s.msEasel := rfl
@[simp] theorem State.modPower_accs (s : State) (f : Power → Power) : (s.modPower f).accs = s.accs := rfl
@[simp] theorem State.modPower_accNo (s : State) (f : Power → Power) : (s.modPower f).accNo = s.accNo := rfl
@[simp] theorem State.modPower_sq (s : State) (f : Power → Power) : (s.modPower f).sq = s.sq := rfl
@[simp] theorem State.modPower_seqMiss (s : State) (f : Power → Power) : (s.modPower f).seqMiss = s.seqMiss := rfl
@[simp] theorem State.modPower_lkIgnore (s : State) (f : Power → Power) : (s.modPower f).lkIgnore = s.lkIgnore := rfl
@[simp] theorem State.modPower_regFix (s : State) (f : Power → Power) : (s.modPower f).regFix = s.regFix := rfl
@[simp] theorem State.modPower_upsets (s : State) (f : Power → Power) : (s.modPower f).upsets = s.upsets := rfl
@[simp] theorem State.modPower_objs (s : State) (f : Power → Power) : (s.modPower f).objs = s.objs := rfl
@[simp] theorem State.modPower_sysExts (s : State) (f : Power → Power) : (s.modPower f).sysExts = s.sysExts := rfl
@[simp] theorem State.modPower_pfEnts (s : State) (f : Power → Power) : (s.modPower f).pfEnts = s.pfEnts := rfl
@[simp] theorem State.modPower_pfNo (s : State) (f : Power → Power) : (s.modPower f).pfNo = s.pfNo := rfl
@[simp] theorem State.modPower_seqs (s : State) (f : Power → Power) : (s.modPower f).seqs = s.seqs := rfl
@[simp] theorem State.modPower_commitNo (s : State) (f : Power → Power) : (s.modPower f).commitNo = s.commitNo := rfl
@[simp] theorem State.modPower_commitC (s : State) (f : Power → Power) : (s.modPower f).commitC = s.commitC := rfl
@[simp] theorem State.modPower_applying (s : State) (f : Power → Power) : (s.modPower f).applying = s.applying := rfl
@[simp] theorem State.modPower_spillPool (s : State) (f : Power → Power) : (s.modPower f).spillPool = s.spillPool := rfl
@[simp] theorem State.modPower_models (s : State) (f : Power → Power) : (s.modPower f).models = s.models := rfl
@[simp] theorem State.modPower_slices (s : State) (f : Power → Power) : (s.modPower f).slices = s.slices := rfl
@[simp] theorem State.modPower_steps (s : State) (f : Power → Power) : (s.modPower f).steps = s.steps := rfl
@[simp] theorem State.modPower_mst (s : State) (f : Power → Power) : (s.modPower f).mst = s.mst := rfl
@[simp] theorem State.modPower_joinQ (s : State) (f : Power → Power) : (s.modPower f).joinQ = s.joinQ := rfl
@[simp] theorem State.modPower_tenQ (s : State) (f : Power → Power) : (s.modPower f).tenQ = s.tenQ := rfl
@[simp] theorem State.modPower_tenC (s : State) (f : Power → Power) : (s.modPower f).tenC = s.tenC := rfl
@[simp] theorem State.modPower_curTenant (s : State) (f : Power → Power) : (s.modPower f).curTenant = s.curTenant := rfl
@[simp] theorem State.modPower_lastTenant (s : State) (f : Power → Power) : (s.modPower f).lastTenant = s.lastTenant := rfl
@[simp] theorem State.modPower_turnStart (s : State) (f : Power → Power) : (s.modPower f).turnStart = s.turnStart := rfl
@[simp] theorem State.modPower_turnEnd (s : State) (f : Power → Power) : (s.modPower f).turnEnd = s.turnEnd := rfl
@[simp] theorem State.modPower_turnSteps (s : State) (f : Power → Power) : (s.modPower f).turnSteps = s.turnSteps := rfl
@[simp] theorem State.modPower_dies (s : State) (f : Power → Power) : (s.modPower f).dies = s.dies := rfl
@[simp] theorem State.modPower_d2d (s : State) (f : Power → Power) : (s.modPower f).d2d = s.d2d := rfl
@[simp] theorem State.modPower_noc (s : State) (f : Power → Power) : (s.modPower f).noc = s.noc := rfl
@[simp] theorem State.modPower_pals (s : State) (f : Power → Power) : (s.modPower f).pals = s.pals := rfl
@[simp] theorem State.modPower_chans (s : State) (f : Power → Power) : (s.modPower f).chans = s.chans := rfl
@[simp] theorem State.modPower_grps (s : State) (f : Power → Power) : (s.modPower f).grps = s.grps := rfl
@[simp] theorem State.modPower_flash (s : State) (f : Power → Power) : (s.modPower f).flash = s.flash := rfl
@[simp] theorem State.modPower_links (s : State) (f : Power → Power) : (s.modPower f).links = s.links := rfl
@[simp] theorem State.modPower_bundleW (s : State) (f : Power → Power) : (s.modPower f).bundleW = s.bundleW := rfl
@[simp] theorem State.modPower_router (s : State) (f : Power → Power) : (s.modPower f).router = s.router := rfl
@[simp] theorem State.modPower_coord (s : State) (f : Power → Power) : (s.modPower f).coord = s.coord := rfl
@[simp] theorem State.modPower_power (s : State) (f : Power → Power) : (s.modPower f).power = f s.power := rfl
@[simp] theorem State.modPower_mon (s : State) (f : Power → Power) : (s.modPower f).mon = s.mon := rfl
@[simp] theorem State.modPower_health (s : State) (f : Power → Power) : (s.modPower f).health = s.health := rfl
@[simp] theorem State.modPower_nor (s : State) (f : Power → Power) : (s.modPower f).nor = s.nor := rfl
@[simp] theorem State.modPower_clk (s : State) (f : Power → Power) : (s.modPower f).clk = s.clk := rfl
@[simp] theorem State.modPower_sec (s : State) (f : Power → Power) : (s.modPower f).sec = s.sec := rfl
@[simp] theorem State.modPower_snap (s : State) (f : Power → Power) : (s.modPower f).snap = s.snap := rfl
@[simp] theorem State.modPower_side (s : State) (f : Power → Power) : (s.modPower f).side = s.side := rfl
@[simp] theorem State.modPower_tx (s : State) (f : Power → Power) : (s.modPower f).tx = s.tx := rfl

/-! ### State.modMon -/

@[simp] theorem State.modMon_pending (s : State) (f : Mon → Mon) : (s.modMon f).pending = s.pending := rfl
@[simp] theorem State.modMon_fresh (s : State) (f : Mon → Mon) : (s.modMon f).fresh = s.fresh := rfl
@[simp] theorem State.modMon_now (s : State) (f : Mon → Mon) : (s.modMon f).now = s.now := rfl
@[simp] theorem State.modMon_mem (s : State) (f : Mon → Mon) : (s.modMon f).mem = s.mem := rfl
@[simp] theorem State.modMon_hostA (s : State) (f : Mon → Mon) : (s.modMon f).hostA = s.hostA := rfl
@[simp] theorem State.modMon_hostB (s : State) (f : Mon → Mon) : (s.modMon f).hostB = s.hostB := rfl
@[simp] theorem State.modMon_pa (s : State) (f : Mon → Mon) : (s.modMon f).pa = s.pa := rfl
@[simp] theorem State.modMon_pb (s : State) (f : Mon → Mon) : (s.modMon f).pb = s.pb := rfl
@[simp] theorem State.modMon_cmds (s : State) (f : Mon → Mon) : (s.modMon f).cmds = s.cmds := rfl
@[simp] theorem State.modMon_cmdNo (s : State) (f : Mon → Mon) : (s.modMon f).cmdNo = s.cmdNo := rfl
@[simp] theorem State.modMon_lastFetch (s : State) (f : Mon → Mon) : (s.modMon f).lastFetch = s.lastFetch := rfl
@[simp] theorem State.modMon_msPortA (s : State) (f : Mon → Mon) : (s.modMon f).msPortA = s.msPortA := rfl
@[simp] theorem State.modMon_msPortB (s : State) (f : Mon → Mon) : (s.modMon f).msPortB = s.msPortB := rfl
@[simp] theorem State.modMon_msSide (s : State) (f : Mon → Mon) : (s.modMon f).msSide = s.msSide := rfl
@[simp] theorem State.modMon_msEasel (s : State) (f : Mon → Mon) : (s.modMon f).msEasel = s.msEasel := rfl
@[simp] theorem State.modMon_accs (s : State) (f : Mon → Mon) : (s.modMon f).accs = s.accs := rfl
@[simp] theorem State.modMon_accNo (s : State) (f : Mon → Mon) : (s.modMon f).accNo = s.accNo := rfl
@[simp] theorem State.modMon_sq (s : State) (f : Mon → Mon) : (s.modMon f).sq = s.sq := rfl
@[simp] theorem State.modMon_seqMiss (s : State) (f : Mon → Mon) : (s.modMon f).seqMiss = s.seqMiss := rfl
@[simp] theorem State.modMon_lkIgnore (s : State) (f : Mon → Mon) : (s.modMon f).lkIgnore = s.lkIgnore := rfl
@[simp] theorem State.modMon_regFix (s : State) (f : Mon → Mon) : (s.modMon f).regFix = s.regFix := rfl
@[simp] theorem State.modMon_upsets (s : State) (f : Mon → Mon) : (s.modMon f).upsets = s.upsets := rfl
@[simp] theorem State.modMon_objs (s : State) (f : Mon → Mon) : (s.modMon f).objs = s.objs := rfl
@[simp] theorem State.modMon_sysExts (s : State) (f : Mon → Mon) : (s.modMon f).sysExts = s.sysExts := rfl
@[simp] theorem State.modMon_pfEnts (s : State) (f : Mon → Mon) : (s.modMon f).pfEnts = s.pfEnts := rfl
@[simp] theorem State.modMon_pfNo (s : State) (f : Mon → Mon) : (s.modMon f).pfNo = s.pfNo := rfl
@[simp] theorem State.modMon_seqs (s : State) (f : Mon → Mon) : (s.modMon f).seqs = s.seqs := rfl
@[simp] theorem State.modMon_commitNo (s : State) (f : Mon → Mon) : (s.modMon f).commitNo = s.commitNo := rfl
@[simp] theorem State.modMon_commitC (s : State) (f : Mon → Mon) : (s.modMon f).commitC = s.commitC := rfl
@[simp] theorem State.modMon_applying (s : State) (f : Mon → Mon) : (s.modMon f).applying = s.applying := rfl
@[simp] theorem State.modMon_spillPool (s : State) (f : Mon → Mon) : (s.modMon f).spillPool = s.spillPool := rfl
@[simp] theorem State.modMon_models (s : State) (f : Mon → Mon) : (s.modMon f).models = s.models := rfl
@[simp] theorem State.modMon_slices (s : State) (f : Mon → Mon) : (s.modMon f).slices = s.slices := rfl
@[simp] theorem State.modMon_steps (s : State) (f : Mon → Mon) : (s.modMon f).steps = s.steps := rfl
@[simp] theorem State.modMon_mst (s : State) (f : Mon → Mon) : (s.modMon f).mst = s.mst := rfl
@[simp] theorem State.modMon_joinQ (s : State) (f : Mon → Mon) : (s.modMon f).joinQ = s.joinQ := rfl
@[simp] theorem State.modMon_tenQ (s : State) (f : Mon → Mon) : (s.modMon f).tenQ = s.tenQ := rfl
@[simp] theorem State.modMon_tenC (s : State) (f : Mon → Mon) : (s.modMon f).tenC = s.tenC := rfl
@[simp] theorem State.modMon_curTenant (s : State) (f : Mon → Mon) : (s.modMon f).curTenant = s.curTenant := rfl
@[simp] theorem State.modMon_lastTenant (s : State) (f : Mon → Mon) : (s.modMon f).lastTenant = s.lastTenant := rfl
@[simp] theorem State.modMon_turnStart (s : State) (f : Mon → Mon) : (s.modMon f).turnStart = s.turnStart := rfl
@[simp] theorem State.modMon_turnEnd (s : State) (f : Mon → Mon) : (s.modMon f).turnEnd = s.turnEnd := rfl
@[simp] theorem State.modMon_turnSteps (s : State) (f : Mon → Mon) : (s.modMon f).turnSteps = s.turnSteps := rfl
@[simp] theorem State.modMon_dies (s : State) (f : Mon → Mon) : (s.modMon f).dies = s.dies := rfl
@[simp] theorem State.modMon_d2d (s : State) (f : Mon → Mon) : (s.modMon f).d2d = s.d2d := rfl
@[simp] theorem State.modMon_noc (s : State) (f : Mon → Mon) : (s.modMon f).noc = s.noc := rfl
@[simp] theorem State.modMon_pals (s : State) (f : Mon → Mon) : (s.modMon f).pals = s.pals := rfl
@[simp] theorem State.modMon_chans (s : State) (f : Mon → Mon) : (s.modMon f).chans = s.chans := rfl
@[simp] theorem State.modMon_grps (s : State) (f : Mon → Mon) : (s.modMon f).grps = s.grps := rfl
@[simp] theorem State.modMon_flash (s : State) (f : Mon → Mon) : (s.modMon f).flash = s.flash := rfl
@[simp] theorem State.modMon_links (s : State) (f : Mon → Mon) : (s.modMon f).links = s.links := rfl
@[simp] theorem State.modMon_bundleW (s : State) (f : Mon → Mon) : (s.modMon f).bundleW = s.bundleW := rfl
@[simp] theorem State.modMon_router (s : State) (f : Mon → Mon) : (s.modMon f).router = s.router := rfl
@[simp] theorem State.modMon_coord (s : State) (f : Mon → Mon) : (s.modMon f).coord = s.coord := rfl
@[simp] theorem State.modMon_power (s : State) (f : Mon → Mon) : (s.modMon f).power = s.power := rfl
@[simp] theorem State.modMon_mon (s : State) (f : Mon → Mon) : (s.modMon f).mon = f s.mon := rfl
@[simp] theorem State.modMon_health (s : State) (f : Mon → Mon) : (s.modMon f).health = s.health := rfl
@[simp] theorem State.modMon_nor (s : State) (f : Mon → Mon) : (s.modMon f).nor = s.nor := rfl
@[simp] theorem State.modMon_clk (s : State) (f : Mon → Mon) : (s.modMon f).clk = s.clk := rfl
@[simp] theorem State.modMon_sec (s : State) (f : Mon → Mon) : (s.modMon f).sec = s.sec := rfl
@[simp] theorem State.modMon_snap (s : State) (f : Mon → Mon) : (s.modMon f).snap = s.snap := rfl
@[simp] theorem State.modMon_side (s : State) (f : Mon → Mon) : (s.modMon f).side = s.side := rfl
@[simp] theorem State.modMon_tx (s : State) (f : Mon → Mon) : (s.modMon f).tx = s.tx := rfl

/-! ### State.modHealth -/

@[simp] theorem State.modHealth_pending (s : State) (f : Health → Health) : (s.modHealth f).pending = s.pending := rfl
@[simp] theorem State.modHealth_fresh (s : State) (f : Health → Health) : (s.modHealth f).fresh = s.fresh := rfl
@[simp] theorem State.modHealth_now (s : State) (f : Health → Health) : (s.modHealth f).now = s.now := rfl
@[simp] theorem State.modHealth_mem (s : State) (f : Health → Health) : (s.modHealth f).mem = s.mem := rfl
@[simp] theorem State.modHealth_hostA (s : State) (f : Health → Health) : (s.modHealth f).hostA = s.hostA := rfl
@[simp] theorem State.modHealth_hostB (s : State) (f : Health → Health) : (s.modHealth f).hostB = s.hostB := rfl
@[simp] theorem State.modHealth_pa (s : State) (f : Health → Health) : (s.modHealth f).pa = s.pa := rfl
@[simp] theorem State.modHealth_pb (s : State) (f : Health → Health) : (s.modHealth f).pb = s.pb := rfl
@[simp] theorem State.modHealth_cmds (s : State) (f : Health → Health) : (s.modHealth f).cmds = s.cmds := rfl
@[simp] theorem State.modHealth_cmdNo (s : State) (f : Health → Health) : (s.modHealth f).cmdNo = s.cmdNo := rfl
@[simp] theorem State.modHealth_lastFetch (s : State) (f : Health → Health) : (s.modHealth f).lastFetch = s.lastFetch := rfl
@[simp] theorem State.modHealth_msPortA (s : State) (f : Health → Health) : (s.modHealth f).msPortA = s.msPortA := rfl
@[simp] theorem State.modHealth_msPortB (s : State) (f : Health → Health) : (s.modHealth f).msPortB = s.msPortB := rfl
@[simp] theorem State.modHealth_msSide (s : State) (f : Health → Health) : (s.modHealth f).msSide = s.msSide := rfl
@[simp] theorem State.modHealth_msEasel (s : State) (f : Health → Health) : (s.modHealth f).msEasel = s.msEasel := rfl
@[simp] theorem State.modHealth_accs (s : State) (f : Health → Health) : (s.modHealth f).accs = s.accs := rfl
@[simp] theorem State.modHealth_accNo (s : State) (f : Health → Health) : (s.modHealth f).accNo = s.accNo := rfl
@[simp] theorem State.modHealth_sq (s : State) (f : Health → Health) : (s.modHealth f).sq = s.sq := rfl
@[simp] theorem State.modHealth_seqMiss (s : State) (f : Health → Health) : (s.modHealth f).seqMiss = s.seqMiss := rfl
@[simp] theorem State.modHealth_lkIgnore (s : State) (f : Health → Health) : (s.modHealth f).lkIgnore = s.lkIgnore := rfl
@[simp] theorem State.modHealth_regFix (s : State) (f : Health → Health) : (s.modHealth f).regFix = s.regFix := rfl
@[simp] theorem State.modHealth_upsets (s : State) (f : Health → Health) : (s.modHealth f).upsets = s.upsets := rfl
@[simp] theorem State.modHealth_objs (s : State) (f : Health → Health) : (s.modHealth f).objs = s.objs := rfl
@[simp] theorem State.modHealth_sysExts (s : State) (f : Health → Health) : (s.modHealth f).sysExts = s.sysExts := rfl
@[simp] theorem State.modHealth_pfEnts (s : State) (f : Health → Health) : (s.modHealth f).pfEnts = s.pfEnts := rfl
@[simp] theorem State.modHealth_pfNo (s : State) (f : Health → Health) : (s.modHealth f).pfNo = s.pfNo := rfl
@[simp] theorem State.modHealth_seqs (s : State) (f : Health → Health) : (s.modHealth f).seqs = s.seqs := rfl
@[simp] theorem State.modHealth_commitNo (s : State) (f : Health → Health) : (s.modHealth f).commitNo = s.commitNo := rfl
@[simp] theorem State.modHealth_commitC (s : State) (f : Health → Health) : (s.modHealth f).commitC = s.commitC := rfl
@[simp] theorem State.modHealth_applying (s : State) (f : Health → Health) : (s.modHealth f).applying = s.applying := rfl
@[simp] theorem State.modHealth_spillPool (s : State) (f : Health → Health) : (s.modHealth f).spillPool = s.spillPool := rfl
@[simp] theorem State.modHealth_models (s : State) (f : Health → Health) : (s.modHealth f).models = s.models := rfl
@[simp] theorem State.modHealth_slices (s : State) (f : Health → Health) : (s.modHealth f).slices = s.slices := rfl
@[simp] theorem State.modHealth_steps (s : State) (f : Health → Health) : (s.modHealth f).steps = s.steps := rfl
@[simp] theorem State.modHealth_mst (s : State) (f : Health → Health) : (s.modHealth f).mst = s.mst := rfl
@[simp] theorem State.modHealth_joinQ (s : State) (f : Health → Health) : (s.modHealth f).joinQ = s.joinQ := rfl
@[simp] theorem State.modHealth_tenQ (s : State) (f : Health → Health) : (s.modHealth f).tenQ = s.tenQ := rfl
@[simp] theorem State.modHealth_tenC (s : State) (f : Health → Health) : (s.modHealth f).tenC = s.tenC := rfl
@[simp] theorem State.modHealth_curTenant (s : State) (f : Health → Health) : (s.modHealth f).curTenant = s.curTenant := rfl
@[simp] theorem State.modHealth_lastTenant (s : State) (f : Health → Health) : (s.modHealth f).lastTenant = s.lastTenant := rfl
@[simp] theorem State.modHealth_turnStart (s : State) (f : Health → Health) : (s.modHealth f).turnStart = s.turnStart := rfl
@[simp] theorem State.modHealth_turnEnd (s : State) (f : Health → Health) : (s.modHealth f).turnEnd = s.turnEnd := rfl
@[simp] theorem State.modHealth_turnSteps (s : State) (f : Health → Health) : (s.modHealth f).turnSteps = s.turnSteps := rfl
@[simp] theorem State.modHealth_dies (s : State) (f : Health → Health) : (s.modHealth f).dies = s.dies := rfl
@[simp] theorem State.modHealth_d2d (s : State) (f : Health → Health) : (s.modHealth f).d2d = s.d2d := rfl
@[simp] theorem State.modHealth_noc (s : State) (f : Health → Health) : (s.modHealth f).noc = s.noc := rfl
@[simp] theorem State.modHealth_pals (s : State) (f : Health → Health) : (s.modHealth f).pals = s.pals := rfl
@[simp] theorem State.modHealth_chans (s : State) (f : Health → Health) : (s.modHealth f).chans = s.chans := rfl
@[simp] theorem State.modHealth_grps (s : State) (f : Health → Health) : (s.modHealth f).grps = s.grps := rfl
@[simp] theorem State.modHealth_flash (s : State) (f : Health → Health) : (s.modHealth f).flash = s.flash := rfl
@[simp] theorem State.modHealth_links (s : State) (f : Health → Health) : (s.modHealth f).links = s.links := rfl
@[simp] theorem State.modHealth_bundleW (s : State) (f : Health → Health) : (s.modHealth f).bundleW = s.bundleW := rfl
@[simp] theorem State.modHealth_router (s : State) (f : Health → Health) : (s.modHealth f).router = s.router := rfl
@[simp] theorem State.modHealth_coord (s : State) (f : Health → Health) : (s.modHealth f).coord = s.coord := rfl
@[simp] theorem State.modHealth_power (s : State) (f : Health → Health) : (s.modHealth f).power = s.power := rfl
@[simp] theorem State.modHealth_mon (s : State) (f : Health → Health) : (s.modHealth f).mon = s.mon := rfl
@[simp] theorem State.modHealth_health (s : State) (f : Health → Health) : (s.modHealth f).health = f s.health := rfl
@[simp] theorem State.modHealth_nor (s : State) (f : Health → Health) : (s.modHealth f).nor = s.nor := rfl
@[simp] theorem State.modHealth_clk (s : State) (f : Health → Health) : (s.modHealth f).clk = s.clk := rfl
@[simp] theorem State.modHealth_sec (s : State) (f : Health → Health) : (s.modHealth f).sec = s.sec := rfl
@[simp] theorem State.modHealth_snap (s : State) (f : Health → Health) : (s.modHealth f).snap = s.snap := rfl
@[simp] theorem State.modHealth_side (s : State) (f : Health → Health) : (s.modHealth f).side = s.side := rfl
@[simp] theorem State.modHealth_tx (s : State) (f : Health → Health) : (s.modHealth f).tx = s.tx := rfl

/-! ### State.modSec -/

@[simp] theorem State.modSec_pending (s : State) (f : Sec → Sec) : (s.modSec f).pending = s.pending := rfl
@[simp] theorem State.modSec_fresh (s : State) (f : Sec → Sec) : (s.modSec f).fresh = s.fresh := rfl
@[simp] theorem State.modSec_now (s : State) (f : Sec → Sec) : (s.modSec f).now = s.now := rfl
@[simp] theorem State.modSec_mem (s : State) (f : Sec → Sec) : (s.modSec f).mem = s.mem := rfl
@[simp] theorem State.modSec_hostA (s : State) (f : Sec → Sec) : (s.modSec f).hostA = s.hostA := rfl
@[simp] theorem State.modSec_hostB (s : State) (f : Sec → Sec) : (s.modSec f).hostB = s.hostB := rfl
@[simp] theorem State.modSec_pa (s : State) (f : Sec → Sec) : (s.modSec f).pa = s.pa := rfl
@[simp] theorem State.modSec_pb (s : State) (f : Sec → Sec) : (s.modSec f).pb = s.pb := rfl
@[simp] theorem State.modSec_cmds (s : State) (f : Sec → Sec) : (s.modSec f).cmds = s.cmds := rfl
@[simp] theorem State.modSec_cmdNo (s : State) (f : Sec → Sec) : (s.modSec f).cmdNo = s.cmdNo := rfl
@[simp] theorem State.modSec_lastFetch (s : State) (f : Sec → Sec) : (s.modSec f).lastFetch = s.lastFetch := rfl
@[simp] theorem State.modSec_msPortA (s : State) (f : Sec → Sec) : (s.modSec f).msPortA = s.msPortA := rfl
@[simp] theorem State.modSec_msPortB (s : State) (f : Sec → Sec) : (s.modSec f).msPortB = s.msPortB := rfl
@[simp] theorem State.modSec_msSide (s : State) (f : Sec → Sec) : (s.modSec f).msSide = s.msSide := rfl
@[simp] theorem State.modSec_msEasel (s : State) (f : Sec → Sec) : (s.modSec f).msEasel = s.msEasel := rfl
@[simp] theorem State.modSec_accs (s : State) (f : Sec → Sec) : (s.modSec f).accs = s.accs := rfl
@[simp] theorem State.modSec_accNo (s : State) (f : Sec → Sec) : (s.modSec f).accNo = s.accNo := rfl
@[simp] theorem State.modSec_sq (s : State) (f : Sec → Sec) : (s.modSec f).sq = s.sq := rfl
@[simp] theorem State.modSec_seqMiss (s : State) (f : Sec → Sec) : (s.modSec f).seqMiss = s.seqMiss := rfl
@[simp] theorem State.modSec_lkIgnore (s : State) (f : Sec → Sec) : (s.modSec f).lkIgnore = s.lkIgnore := rfl
@[simp] theorem State.modSec_regFix (s : State) (f : Sec → Sec) : (s.modSec f).regFix = s.regFix := rfl
@[simp] theorem State.modSec_upsets (s : State) (f : Sec → Sec) : (s.modSec f).upsets = s.upsets := rfl
@[simp] theorem State.modSec_objs (s : State) (f : Sec → Sec) : (s.modSec f).objs = s.objs := rfl
@[simp] theorem State.modSec_sysExts (s : State) (f : Sec → Sec) : (s.modSec f).sysExts = s.sysExts := rfl
@[simp] theorem State.modSec_pfEnts (s : State) (f : Sec → Sec) : (s.modSec f).pfEnts = s.pfEnts := rfl
@[simp] theorem State.modSec_pfNo (s : State) (f : Sec → Sec) : (s.modSec f).pfNo = s.pfNo := rfl
@[simp] theorem State.modSec_seqs (s : State) (f : Sec → Sec) : (s.modSec f).seqs = s.seqs := rfl
@[simp] theorem State.modSec_commitNo (s : State) (f : Sec → Sec) : (s.modSec f).commitNo = s.commitNo := rfl
@[simp] theorem State.modSec_commitC (s : State) (f : Sec → Sec) : (s.modSec f).commitC = s.commitC := rfl
@[simp] theorem State.modSec_applying (s : State) (f : Sec → Sec) : (s.modSec f).applying = s.applying := rfl
@[simp] theorem State.modSec_spillPool (s : State) (f : Sec → Sec) : (s.modSec f).spillPool = s.spillPool := rfl
@[simp] theorem State.modSec_models (s : State) (f : Sec → Sec) : (s.modSec f).models = s.models := rfl
@[simp] theorem State.modSec_slices (s : State) (f : Sec → Sec) : (s.modSec f).slices = s.slices := rfl
@[simp] theorem State.modSec_steps (s : State) (f : Sec → Sec) : (s.modSec f).steps = s.steps := rfl
@[simp] theorem State.modSec_mst (s : State) (f : Sec → Sec) : (s.modSec f).mst = s.mst := rfl
@[simp] theorem State.modSec_joinQ (s : State) (f : Sec → Sec) : (s.modSec f).joinQ = s.joinQ := rfl
@[simp] theorem State.modSec_tenQ (s : State) (f : Sec → Sec) : (s.modSec f).tenQ = s.tenQ := rfl
@[simp] theorem State.modSec_tenC (s : State) (f : Sec → Sec) : (s.modSec f).tenC = s.tenC := rfl
@[simp] theorem State.modSec_curTenant (s : State) (f : Sec → Sec) : (s.modSec f).curTenant = s.curTenant := rfl
@[simp] theorem State.modSec_lastTenant (s : State) (f : Sec → Sec) : (s.modSec f).lastTenant = s.lastTenant := rfl
@[simp] theorem State.modSec_turnStart (s : State) (f : Sec → Sec) : (s.modSec f).turnStart = s.turnStart := rfl
@[simp] theorem State.modSec_turnEnd (s : State) (f : Sec → Sec) : (s.modSec f).turnEnd = s.turnEnd := rfl
@[simp] theorem State.modSec_turnSteps (s : State) (f : Sec → Sec) : (s.modSec f).turnSteps = s.turnSteps := rfl
@[simp] theorem State.modSec_dies (s : State) (f : Sec → Sec) : (s.modSec f).dies = s.dies := rfl
@[simp] theorem State.modSec_d2d (s : State) (f : Sec → Sec) : (s.modSec f).d2d = s.d2d := rfl
@[simp] theorem State.modSec_noc (s : State) (f : Sec → Sec) : (s.modSec f).noc = s.noc := rfl
@[simp] theorem State.modSec_pals (s : State) (f : Sec → Sec) : (s.modSec f).pals = s.pals := rfl
@[simp] theorem State.modSec_chans (s : State) (f : Sec → Sec) : (s.modSec f).chans = s.chans := rfl
@[simp] theorem State.modSec_grps (s : State) (f : Sec → Sec) : (s.modSec f).grps = s.grps := rfl
@[simp] theorem State.modSec_flash (s : State) (f : Sec → Sec) : (s.modSec f).flash = s.flash := rfl
@[simp] theorem State.modSec_links (s : State) (f : Sec → Sec) : (s.modSec f).links = s.links := rfl
@[simp] theorem State.modSec_bundleW (s : State) (f : Sec → Sec) : (s.modSec f).bundleW = s.bundleW := rfl
@[simp] theorem State.modSec_router (s : State) (f : Sec → Sec) : (s.modSec f).router = s.router := rfl
@[simp] theorem State.modSec_coord (s : State) (f : Sec → Sec) : (s.modSec f).coord = s.coord := rfl
@[simp] theorem State.modSec_power (s : State) (f : Sec → Sec) : (s.modSec f).power = s.power := rfl
@[simp] theorem State.modSec_mon (s : State) (f : Sec → Sec) : (s.modSec f).mon = s.mon := rfl
@[simp] theorem State.modSec_health (s : State) (f : Sec → Sec) : (s.modSec f).health = s.health := rfl
@[simp] theorem State.modSec_nor (s : State) (f : Sec → Sec) : (s.modSec f).nor = s.nor := rfl
@[simp] theorem State.modSec_clk (s : State) (f : Sec → Sec) : (s.modSec f).clk = s.clk := rfl
@[simp] theorem State.modSec_sec (s : State) (f : Sec → Sec) : (s.modSec f).sec = f s.sec := rfl
@[simp] theorem State.modSec_snap (s : State) (f : Sec → Sec) : (s.modSec f).snap = s.snap := rfl
@[simp] theorem State.modSec_side (s : State) (f : Sec → Sec) : (s.modSec f).side = s.side := rfl
@[simp] theorem State.modSec_tx (s : State) (f : Sec → Sec) : (s.modSec f).tx = s.tx := rfl

/-! ### State.modSnap -/

@[simp] theorem State.modSnap_pending (s : State) (f : Snap → Snap) : (s.modSnap f).pending = s.pending := rfl
@[simp] theorem State.modSnap_fresh (s : State) (f : Snap → Snap) : (s.modSnap f).fresh = s.fresh := rfl
@[simp] theorem State.modSnap_now (s : State) (f : Snap → Snap) : (s.modSnap f).now = s.now := rfl
@[simp] theorem State.modSnap_mem (s : State) (f : Snap → Snap) : (s.modSnap f).mem = s.mem := rfl
@[simp] theorem State.modSnap_hostA (s : State) (f : Snap → Snap) : (s.modSnap f).hostA = s.hostA := rfl
@[simp] theorem State.modSnap_hostB (s : State) (f : Snap → Snap) : (s.modSnap f).hostB = s.hostB := rfl
@[simp] theorem State.modSnap_pa (s : State) (f : Snap → Snap) : (s.modSnap f).pa = s.pa := rfl
@[simp] theorem State.modSnap_pb (s : State) (f : Snap → Snap) : (s.modSnap f).pb = s.pb := rfl
@[simp] theorem State.modSnap_cmds (s : State) (f : Snap → Snap) : (s.modSnap f).cmds = s.cmds := rfl
@[simp] theorem State.modSnap_cmdNo (s : State) (f : Snap → Snap) : (s.modSnap f).cmdNo = s.cmdNo := rfl
@[simp] theorem State.modSnap_lastFetch (s : State) (f : Snap → Snap) : (s.modSnap f).lastFetch = s.lastFetch := rfl
@[simp] theorem State.modSnap_msPortA (s : State) (f : Snap → Snap) : (s.modSnap f).msPortA = s.msPortA := rfl
@[simp] theorem State.modSnap_msPortB (s : State) (f : Snap → Snap) : (s.modSnap f).msPortB = s.msPortB := rfl
@[simp] theorem State.modSnap_msSide (s : State) (f : Snap → Snap) : (s.modSnap f).msSide = s.msSide := rfl
@[simp] theorem State.modSnap_msEasel (s : State) (f : Snap → Snap) : (s.modSnap f).msEasel = s.msEasel := rfl
@[simp] theorem State.modSnap_accs (s : State) (f : Snap → Snap) : (s.modSnap f).accs = s.accs := rfl
@[simp] theorem State.modSnap_accNo (s : State) (f : Snap → Snap) : (s.modSnap f).accNo = s.accNo := rfl
@[simp] theorem State.modSnap_sq (s : State) (f : Snap → Snap) : (s.modSnap f).sq = s.sq := rfl
@[simp] theorem State.modSnap_seqMiss (s : State) (f : Snap → Snap) : (s.modSnap f).seqMiss = s.seqMiss := rfl
@[simp] theorem State.modSnap_lkIgnore (s : State) (f : Snap → Snap) : (s.modSnap f).lkIgnore = s.lkIgnore := rfl
@[simp] theorem State.modSnap_regFix (s : State) (f : Snap → Snap) : (s.modSnap f).regFix = s.regFix := rfl
@[simp] theorem State.modSnap_upsets (s : State) (f : Snap → Snap) : (s.modSnap f).upsets = s.upsets := rfl
@[simp] theorem State.modSnap_objs (s : State) (f : Snap → Snap) : (s.modSnap f).objs = s.objs := rfl
@[simp] theorem State.modSnap_sysExts (s : State) (f : Snap → Snap) : (s.modSnap f).sysExts = s.sysExts := rfl
@[simp] theorem State.modSnap_pfEnts (s : State) (f : Snap → Snap) : (s.modSnap f).pfEnts = s.pfEnts := rfl
@[simp] theorem State.modSnap_pfNo (s : State) (f : Snap → Snap) : (s.modSnap f).pfNo = s.pfNo := rfl
@[simp] theorem State.modSnap_seqs (s : State) (f : Snap → Snap) : (s.modSnap f).seqs = s.seqs := rfl
@[simp] theorem State.modSnap_commitNo (s : State) (f : Snap → Snap) : (s.modSnap f).commitNo = s.commitNo := rfl
@[simp] theorem State.modSnap_commitC (s : State) (f : Snap → Snap) : (s.modSnap f).commitC = s.commitC := rfl
@[simp] theorem State.modSnap_applying (s : State) (f : Snap → Snap) : (s.modSnap f).applying = s.applying := rfl
@[simp] theorem State.modSnap_spillPool (s : State) (f : Snap → Snap) : (s.modSnap f).spillPool = s.spillPool := rfl
@[simp] theorem State.modSnap_models (s : State) (f : Snap → Snap) : (s.modSnap f).models = s.models := rfl
@[simp] theorem State.modSnap_slices (s : State) (f : Snap → Snap) : (s.modSnap f).slices = s.slices := rfl
@[simp] theorem State.modSnap_steps (s : State) (f : Snap → Snap) : (s.modSnap f).steps = s.steps := rfl
@[simp] theorem State.modSnap_mst (s : State) (f : Snap → Snap) : (s.modSnap f).mst = s.mst := rfl
@[simp] theorem State.modSnap_joinQ (s : State) (f : Snap → Snap) : (s.modSnap f).joinQ = s.joinQ := rfl
@[simp] theorem State.modSnap_tenQ (s : State) (f : Snap → Snap) : (s.modSnap f).tenQ = s.tenQ := rfl
@[simp] theorem State.modSnap_tenC (s : State) (f : Snap → Snap) : (s.modSnap f).tenC = s.tenC := rfl
@[simp] theorem State.modSnap_curTenant (s : State) (f : Snap → Snap) : (s.modSnap f).curTenant = s.curTenant := rfl
@[simp] theorem State.modSnap_lastTenant (s : State) (f : Snap → Snap) : (s.modSnap f).lastTenant = s.lastTenant := rfl
@[simp] theorem State.modSnap_turnStart (s : State) (f : Snap → Snap) : (s.modSnap f).turnStart = s.turnStart := rfl
@[simp] theorem State.modSnap_turnEnd (s : State) (f : Snap → Snap) : (s.modSnap f).turnEnd = s.turnEnd := rfl
@[simp] theorem State.modSnap_turnSteps (s : State) (f : Snap → Snap) : (s.modSnap f).turnSteps = s.turnSteps := rfl
@[simp] theorem State.modSnap_dies (s : State) (f : Snap → Snap) : (s.modSnap f).dies = s.dies := rfl
@[simp] theorem State.modSnap_d2d (s : State) (f : Snap → Snap) : (s.modSnap f).d2d = s.d2d := rfl
@[simp] theorem State.modSnap_noc (s : State) (f : Snap → Snap) : (s.modSnap f).noc = s.noc := rfl
@[simp] theorem State.modSnap_pals (s : State) (f : Snap → Snap) : (s.modSnap f).pals = s.pals := rfl
@[simp] theorem State.modSnap_chans (s : State) (f : Snap → Snap) : (s.modSnap f).chans = s.chans := rfl
@[simp] theorem State.modSnap_grps (s : State) (f : Snap → Snap) : (s.modSnap f).grps = s.grps := rfl
@[simp] theorem State.modSnap_flash (s : State) (f : Snap → Snap) : (s.modSnap f).flash = s.flash := rfl
@[simp] theorem State.modSnap_links (s : State) (f : Snap → Snap) : (s.modSnap f).links = s.links := rfl
@[simp] theorem State.modSnap_bundleW (s : State) (f : Snap → Snap) : (s.modSnap f).bundleW = s.bundleW := rfl
@[simp] theorem State.modSnap_router (s : State) (f : Snap → Snap) : (s.modSnap f).router = s.router := rfl
@[simp] theorem State.modSnap_coord (s : State) (f : Snap → Snap) : (s.modSnap f).coord = s.coord := rfl
@[simp] theorem State.modSnap_power (s : State) (f : Snap → Snap) : (s.modSnap f).power = s.power := rfl
@[simp] theorem State.modSnap_mon (s : State) (f : Snap → Snap) : (s.modSnap f).mon = s.mon := rfl
@[simp] theorem State.modSnap_health (s : State) (f : Snap → Snap) : (s.modSnap f).health = s.health := rfl
@[simp] theorem State.modSnap_nor (s : State) (f : Snap → Snap) : (s.modSnap f).nor = s.nor := rfl
@[simp] theorem State.modSnap_clk (s : State) (f : Snap → Snap) : (s.modSnap f).clk = s.clk := rfl
@[simp] theorem State.modSnap_sec (s : State) (f : Snap → Snap) : (s.modSnap f).sec = s.sec := rfl
@[simp] theorem State.modSnap_snap (s : State) (f : Snap → Snap) : (s.modSnap f).snap = f s.snap := rfl
@[simp] theorem State.modSnap_side (s : State) (f : Snap → Snap) : (s.modSnap f).side = s.side := rfl
@[simp] theorem State.modSnap_tx (s : State) (f : Snap → Snap) : (s.modSnap f).tx = s.tx := rfl

/-! ### State.modFlash -/

@[simp] theorem State.modFlash_pending (s : State) (f : Flash → Flash) : (s.modFlash f).pending = s.pending := rfl
@[simp] theorem State.modFlash_fresh (s : State) (f : Flash → Flash) : (s.modFlash f).fresh = s.fresh := rfl
@[simp] theorem State.modFlash_now (s : State) (f : Flash → Flash) : (s.modFlash f).now = s.now := rfl
@[simp] theorem State.modFlash_mem (s : State) (f : Flash → Flash) : (s.modFlash f).mem = s.mem := rfl
@[simp] theorem State.modFlash_hostA (s : State) (f : Flash → Flash) : (s.modFlash f).hostA = s.hostA := rfl
@[simp] theorem State.modFlash_hostB (s : State) (f : Flash → Flash) : (s.modFlash f).hostB = s.hostB := rfl
@[simp] theorem State.modFlash_pa (s : State) (f : Flash → Flash) : (s.modFlash f).pa = s.pa := rfl
@[simp] theorem State.modFlash_pb (s : State) (f : Flash → Flash) : (s.modFlash f).pb = s.pb := rfl
@[simp] theorem State.modFlash_cmds (s : State) (f : Flash → Flash) : (s.modFlash f).cmds = s.cmds := rfl
@[simp] theorem State.modFlash_cmdNo (s : State) (f : Flash → Flash) : (s.modFlash f).cmdNo = s.cmdNo := rfl
@[simp] theorem State.modFlash_lastFetch (s : State) (f : Flash → Flash) : (s.modFlash f).lastFetch = s.lastFetch := rfl
@[simp] theorem State.modFlash_msPortA (s : State) (f : Flash → Flash) : (s.modFlash f).msPortA = s.msPortA := rfl
@[simp] theorem State.modFlash_msPortB (s : State) (f : Flash → Flash) : (s.modFlash f).msPortB = s.msPortB := rfl
@[simp] theorem State.modFlash_msSide (s : State) (f : Flash → Flash) : (s.modFlash f).msSide = s.msSide := rfl
@[simp] theorem State.modFlash_msEasel (s : State) (f : Flash → Flash) : (s.modFlash f).msEasel = s.msEasel := rfl
@[simp] theorem State.modFlash_accs (s : State) (f : Flash → Flash) : (s.modFlash f).accs = s.accs := rfl
@[simp] theorem State.modFlash_accNo (s : State) (f : Flash → Flash) : (s.modFlash f).accNo = s.accNo := rfl
@[simp] theorem State.modFlash_sq (s : State) (f : Flash → Flash) : (s.modFlash f).sq = s.sq := rfl
@[simp] theorem State.modFlash_seqMiss (s : State) (f : Flash → Flash) : (s.modFlash f).seqMiss = s.seqMiss := rfl
@[simp] theorem State.modFlash_lkIgnore (s : State) (f : Flash → Flash) : (s.modFlash f).lkIgnore = s.lkIgnore := rfl
@[simp] theorem State.modFlash_regFix (s : State) (f : Flash → Flash) : (s.modFlash f).regFix = s.regFix := rfl
@[simp] theorem State.modFlash_upsets (s : State) (f : Flash → Flash) : (s.modFlash f).upsets = s.upsets := rfl
@[simp] theorem State.modFlash_objs (s : State) (f : Flash → Flash) : (s.modFlash f).objs = s.objs := rfl
@[simp] theorem State.modFlash_sysExts (s : State) (f : Flash → Flash) : (s.modFlash f).sysExts = s.sysExts := rfl
@[simp] theorem State.modFlash_pfEnts (s : State) (f : Flash → Flash) : (s.modFlash f).pfEnts = s.pfEnts := rfl
@[simp] theorem State.modFlash_pfNo (s : State) (f : Flash → Flash) : (s.modFlash f).pfNo = s.pfNo := rfl
@[simp] theorem State.modFlash_seqs (s : State) (f : Flash → Flash) : (s.modFlash f).seqs = s.seqs := rfl
@[simp] theorem State.modFlash_commitNo (s : State) (f : Flash → Flash) : (s.modFlash f).commitNo = s.commitNo := rfl
@[simp] theorem State.modFlash_commitC (s : State) (f : Flash → Flash) : (s.modFlash f).commitC = s.commitC := rfl
@[simp] theorem State.modFlash_applying (s : State) (f : Flash → Flash) : (s.modFlash f).applying = s.applying := rfl
@[simp] theorem State.modFlash_spillPool (s : State) (f : Flash → Flash) : (s.modFlash f).spillPool = s.spillPool := rfl
@[simp] theorem State.modFlash_models (s : State) (f : Flash → Flash) : (s.modFlash f).models = s.models := rfl
@[simp] theorem State.modFlash_slices (s : State) (f : Flash → Flash) : (s.modFlash f).slices = s.slices := rfl
@[simp] theorem State.modFlash_steps (s : State) (f : Flash → Flash) : (s.modFlash f).steps = s.steps := rfl
@[simp] theorem State.modFlash_mst (s : State) (f : Flash → Flash) : (s.modFlash f).mst = s.mst := rfl
@[simp] theorem State.modFlash_joinQ (s : State) (f : Flash → Flash) : (s.modFlash f).joinQ = s.joinQ := rfl
@[simp] theorem State.modFlash_tenQ (s : State) (f : Flash → Flash) : (s.modFlash f).tenQ = s.tenQ := rfl
@[simp] theorem State.modFlash_tenC (s : State) (f : Flash → Flash) : (s.modFlash f).tenC = s.tenC := rfl
@[simp] theorem State.modFlash_curTenant (s : State) (f : Flash → Flash) : (s.modFlash f).curTenant = s.curTenant := rfl
@[simp] theorem State.modFlash_lastTenant (s : State) (f : Flash → Flash) : (s.modFlash f).lastTenant = s.lastTenant := rfl
@[simp] theorem State.modFlash_turnStart (s : State) (f : Flash → Flash) : (s.modFlash f).turnStart = s.turnStart := rfl
@[simp] theorem State.modFlash_turnEnd (s : State) (f : Flash → Flash) : (s.modFlash f).turnEnd = s.turnEnd := rfl
@[simp] theorem State.modFlash_turnSteps (s : State) (f : Flash → Flash) : (s.modFlash f).turnSteps = s.turnSteps := rfl
@[simp] theorem State.modFlash_dies (s : State) (f : Flash → Flash) : (s.modFlash f).dies = s.dies := rfl
@[simp] theorem State.modFlash_d2d (s : State) (f : Flash → Flash) : (s.modFlash f).d2d = s.d2d := rfl
@[simp] theorem State.modFlash_noc (s : State) (f : Flash → Flash) : (s.modFlash f).noc = s.noc := rfl
@[simp] theorem State.modFlash_pals (s : State) (f : Flash → Flash) : (s.modFlash f).pals = s.pals := rfl
@[simp] theorem State.modFlash_chans (s : State) (f : Flash → Flash) : (s.modFlash f).chans = s.chans := rfl
@[simp] theorem State.modFlash_grps (s : State) (f : Flash → Flash) : (s.modFlash f).grps = s.grps := rfl
@[simp] theorem State.modFlash_flash (s : State) (f : Flash → Flash) : (s.modFlash f).flash = f s.flash := rfl
@[simp] theorem State.modFlash_links (s : State) (f : Flash → Flash) : (s.modFlash f).links = s.links := rfl
@[simp] theorem State.modFlash_bundleW (s : State) (f : Flash → Flash) : (s.modFlash f).bundleW = s.bundleW := rfl
@[simp] theorem State.modFlash_router (s : State) (f : Flash → Flash) : (s.modFlash f).router = s.router := rfl
@[simp] theorem State.modFlash_coord (s : State) (f : Flash → Flash) : (s.modFlash f).coord = s.coord := rfl
@[simp] theorem State.modFlash_power (s : State) (f : Flash → Flash) : (s.modFlash f).power = s.power := rfl
@[simp] theorem State.modFlash_mon (s : State) (f : Flash → Flash) : (s.modFlash f).mon = s.mon := rfl
@[simp] theorem State.modFlash_health (s : State) (f : Flash → Flash) : (s.modFlash f).health = s.health := rfl
@[simp] theorem State.modFlash_nor (s : State) (f : Flash → Flash) : (s.modFlash f).nor = s.nor := rfl
@[simp] theorem State.modFlash_clk (s : State) (f : Flash → Flash) : (s.modFlash f).clk = s.clk := rfl
@[simp] theorem State.modFlash_sec (s : State) (f : Flash → Flash) : (s.modFlash f).sec = s.sec := rfl
@[simp] theorem State.modFlash_snap (s : State) (f : Flash → Flash) : (s.modFlash f).snap = s.snap := rfl
@[simp] theorem State.modFlash_side (s : State) (f : Flash → Flash) : (s.modFlash f).side = s.side := rfl
@[simp] theorem State.modFlash_tx (s : State) (f : Flash → Flash) : (s.modFlash f).tx = s.tx := rfl

/-! ### State.modClk -/

@[simp] theorem State.modClk_pending (s : State) (f : Clk → Clk) : (s.modClk f).pending = s.pending := rfl
@[simp] theorem State.modClk_fresh (s : State) (f : Clk → Clk) : (s.modClk f).fresh = s.fresh := rfl
@[simp] theorem State.modClk_now (s : State) (f : Clk → Clk) : (s.modClk f).now = s.now := rfl
@[simp] theorem State.modClk_mem (s : State) (f : Clk → Clk) : (s.modClk f).mem = s.mem := rfl
@[simp] theorem State.modClk_hostA (s : State) (f : Clk → Clk) : (s.modClk f).hostA = s.hostA := rfl
@[simp] theorem State.modClk_hostB (s : State) (f : Clk → Clk) : (s.modClk f).hostB = s.hostB := rfl
@[simp] theorem State.modClk_pa (s : State) (f : Clk → Clk) : (s.modClk f).pa = s.pa := rfl
@[simp] theorem State.modClk_pb (s : State) (f : Clk → Clk) : (s.modClk f).pb = s.pb := rfl
@[simp] theorem State.modClk_cmds (s : State) (f : Clk → Clk) : (s.modClk f).cmds = s.cmds := rfl
@[simp] theorem State.modClk_cmdNo (s : State) (f : Clk → Clk) : (s.modClk f).cmdNo = s.cmdNo := rfl
@[simp] theorem State.modClk_lastFetch (s : State) (f : Clk → Clk) : (s.modClk f).lastFetch = s.lastFetch := rfl
@[simp] theorem State.modClk_msPortA (s : State) (f : Clk → Clk) : (s.modClk f).msPortA = s.msPortA := rfl
@[simp] theorem State.modClk_msPortB (s : State) (f : Clk → Clk) : (s.modClk f).msPortB = s.msPortB := rfl
@[simp] theorem State.modClk_msSide (s : State) (f : Clk → Clk) : (s.modClk f).msSide = s.msSide := rfl
@[simp] theorem State.modClk_msEasel (s : State) (f : Clk → Clk) : (s.modClk f).msEasel = s.msEasel := rfl
@[simp] theorem State.modClk_accs (s : State) (f : Clk → Clk) : (s.modClk f).accs = s.accs := rfl
@[simp] theorem State.modClk_accNo (s : State) (f : Clk → Clk) : (s.modClk f).accNo = s.accNo := rfl
@[simp] theorem State.modClk_sq (s : State) (f : Clk → Clk) : (s.modClk f).sq = s.sq := rfl
@[simp] theorem State.modClk_seqMiss (s : State) (f : Clk → Clk) : (s.modClk f).seqMiss = s.seqMiss := rfl
@[simp] theorem State.modClk_lkIgnore (s : State) (f : Clk → Clk) : (s.modClk f).lkIgnore = s.lkIgnore := rfl
@[simp] theorem State.modClk_regFix (s : State) (f : Clk → Clk) : (s.modClk f).regFix = s.regFix := rfl
@[simp] theorem State.modClk_upsets (s : State) (f : Clk → Clk) : (s.modClk f).upsets = s.upsets := rfl
@[simp] theorem State.modClk_objs (s : State) (f : Clk → Clk) : (s.modClk f).objs = s.objs := rfl
@[simp] theorem State.modClk_sysExts (s : State) (f : Clk → Clk) : (s.modClk f).sysExts = s.sysExts := rfl
@[simp] theorem State.modClk_pfEnts (s : State) (f : Clk → Clk) : (s.modClk f).pfEnts = s.pfEnts := rfl
@[simp] theorem State.modClk_pfNo (s : State) (f : Clk → Clk) : (s.modClk f).pfNo = s.pfNo := rfl
@[simp] theorem State.modClk_seqs (s : State) (f : Clk → Clk) : (s.modClk f).seqs = s.seqs := rfl
@[simp] theorem State.modClk_commitNo (s : State) (f : Clk → Clk) : (s.modClk f).commitNo = s.commitNo := rfl
@[simp] theorem State.modClk_commitC (s : State) (f : Clk → Clk) : (s.modClk f).commitC = s.commitC := rfl
@[simp] theorem State.modClk_applying (s : State) (f : Clk → Clk) : (s.modClk f).applying = s.applying := rfl
@[simp] theorem State.modClk_spillPool (s : State) (f : Clk → Clk) : (s.modClk f).spillPool = s.spillPool := rfl
@[simp] theorem State.modClk_models (s : State) (f : Clk → Clk) : (s.modClk f).models = s.models := rfl
@[simp] theorem State.modClk_slices (s : State) (f : Clk → Clk) : (s.modClk f).slices = s.slices := rfl
@[simp] theorem State.modClk_steps (s : State) (f : Clk → Clk) : (s.modClk f).steps = s.steps := rfl
@[simp] theorem State.modClk_mst (s : State) (f : Clk → Clk) : (s.modClk f).mst = s.mst := rfl
@[simp] theorem State.modClk_joinQ (s : State) (f : Clk → Clk) : (s.modClk f).joinQ = s.joinQ := rfl
@[simp] theorem State.modClk_tenQ (s : State) (f : Clk → Clk) : (s.modClk f).tenQ = s.tenQ := rfl
@[simp] theorem State.modClk_tenC (s : State) (f : Clk → Clk) : (s.modClk f).tenC = s.tenC := rfl
@[simp] theorem State.modClk_curTenant (s : State) (f : Clk → Clk) : (s.modClk f).curTenant = s.curTenant := rfl
@[simp] theorem State.modClk_lastTenant (s : State) (f : Clk → Clk) : (s.modClk f).lastTenant = s.lastTenant := rfl
@[simp] theorem State.modClk_turnStart (s : State) (f : Clk → Clk) : (s.modClk f).turnStart = s.turnStart := rfl
@[simp] theorem State.modClk_turnEnd (s : State) (f : Clk → Clk) : (s.modClk f).turnEnd = s.turnEnd := rfl
@[simp] theorem State.modClk_turnSteps (s : State) (f : Clk → Clk) : (s.modClk f).turnSteps = s.turnSteps := rfl
@[simp] theorem State.modClk_dies (s : State) (f : Clk → Clk) : (s.modClk f).dies = s.dies := rfl
@[simp] theorem State.modClk_d2d (s : State) (f : Clk → Clk) : (s.modClk f).d2d = s.d2d := rfl
@[simp] theorem State.modClk_noc (s : State) (f : Clk → Clk) : (s.modClk f).noc = s.noc := rfl
@[simp] theorem State.modClk_pals (s : State) (f : Clk → Clk) : (s.modClk f).pals = s.pals := rfl
@[simp] theorem State.modClk_chans (s : State) (f : Clk → Clk) : (s.modClk f).chans = s.chans := rfl
@[simp] theorem State.modClk_grps (s : State) (f : Clk → Clk) : (s.modClk f).grps = s.grps := rfl
@[simp] theorem State.modClk_flash (s : State) (f : Clk → Clk) : (s.modClk f).flash = s.flash := rfl
@[simp] theorem State.modClk_links (s : State) (f : Clk → Clk) : (s.modClk f).links = s.links := rfl
@[simp] theorem State.modClk_bundleW (s : State) (f : Clk → Clk) : (s.modClk f).bundleW = s.bundleW := rfl
@[simp] theorem State.modClk_router (s : State) (f : Clk → Clk) : (s.modClk f).router = s.router := rfl
@[simp] theorem State.modClk_coord (s : State) (f : Clk → Clk) : (s.modClk f).coord = s.coord := rfl
@[simp] theorem State.modClk_power (s : State) (f : Clk → Clk) : (s.modClk f).power = s.power := rfl
@[simp] theorem State.modClk_mon (s : State) (f : Clk → Clk) : (s.modClk f).mon = s.mon := rfl
@[simp] theorem State.modClk_health (s : State) (f : Clk → Clk) : (s.modClk f).health = s.health := rfl
@[simp] theorem State.modClk_nor (s : State) (f : Clk → Clk) : (s.modClk f).nor = s.nor := rfl
@[simp] theorem State.modClk_clk (s : State) (f : Clk → Clk) : (s.modClk f).clk = f s.clk := rfl
@[simp] theorem State.modClk_sec (s : State) (f : Clk → Clk) : (s.modClk f).sec = s.sec := rfl
@[simp] theorem State.modClk_snap (s : State) (f : Clk → Clk) : (s.modClk f).snap = s.snap := rfl
@[simp] theorem State.modClk_side (s : State) (f : Clk → Clk) : (s.modClk f).side = s.side := rfl
@[simp] theorem State.modClk_tx (s : State) (f : Clk → Clk) : (s.modClk f).tx = s.tx := rfl

/-! ### State.modNor -/

@[simp] theorem State.modNor_pending (s : State) (f : Nor → Nor) : (s.modNor f).pending = s.pending := rfl
@[simp] theorem State.modNor_fresh (s : State) (f : Nor → Nor) : (s.modNor f).fresh = s.fresh := rfl
@[simp] theorem State.modNor_now (s : State) (f : Nor → Nor) : (s.modNor f).now = s.now := rfl
@[simp] theorem State.modNor_mem (s : State) (f : Nor → Nor) : (s.modNor f).mem = s.mem := rfl
@[simp] theorem State.modNor_hostA (s : State) (f : Nor → Nor) : (s.modNor f).hostA = s.hostA := rfl
@[simp] theorem State.modNor_hostB (s : State) (f : Nor → Nor) : (s.modNor f).hostB = s.hostB := rfl
@[simp] theorem State.modNor_pa (s : State) (f : Nor → Nor) : (s.modNor f).pa = s.pa := rfl
@[simp] theorem State.modNor_pb (s : State) (f : Nor → Nor) : (s.modNor f).pb = s.pb := rfl
@[simp] theorem State.modNor_cmds (s : State) (f : Nor → Nor) : (s.modNor f).cmds = s.cmds := rfl
@[simp] theorem State.modNor_cmdNo (s : State) (f : Nor → Nor) : (s.modNor f).cmdNo = s.cmdNo := rfl
@[simp] theorem State.modNor_lastFetch (s : State) (f : Nor → Nor) : (s.modNor f).lastFetch = s.lastFetch := rfl
@[simp] theorem State.modNor_msPortA (s : State) (f : Nor → Nor) : (s.modNor f).msPortA = s.msPortA := rfl
@[simp] theorem State.modNor_msPortB (s : State) (f : Nor → Nor) : (s.modNor f).msPortB = s.msPortB := rfl
@[simp] theorem State.modNor_msSide (s : State) (f : Nor → Nor) : (s.modNor f).msSide = s.msSide := rfl
@[simp] theorem State.modNor_msEasel (s : State) (f : Nor → Nor) : (s.modNor f).msEasel = s.msEasel := rfl
@[simp] theorem State.modNor_accs (s : State) (f : Nor → Nor) : (s.modNor f).accs = s.accs := rfl
@[simp] theorem State.modNor_accNo (s : State) (f : Nor → Nor) : (s.modNor f).accNo = s.accNo := rfl
@[simp] theorem State.modNor_sq (s : State) (f : Nor → Nor) : (s.modNor f).sq = s.sq := rfl
@[simp] theorem State.modNor_seqMiss (s : State) (f : Nor → Nor) : (s.modNor f).seqMiss = s.seqMiss := rfl
@[simp] theorem State.modNor_lkIgnore (s : State) (f : Nor → Nor) : (s.modNor f).lkIgnore = s.lkIgnore := rfl
@[simp] theorem State.modNor_regFix (s : State) (f : Nor → Nor) : (s.modNor f).regFix = s.regFix := rfl
@[simp] theorem State.modNor_upsets (s : State) (f : Nor → Nor) : (s.modNor f).upsets = s.upsets := rfl
@[simp] theorem State.modNor_objs (s : State) (f : Nor → Nor) : (s.modNor f).objs = s.objs := rfl
@[simp] theorem State.modNor_sysExts (s : State) (f : Nor → Nor) : (s.modNor f).sysExts = s.sysExts := rfl
@[simp] theorem State.modNor_pfEnts (s : State) (f : Nor → Nor) : (s.modNor f).pfEnts = s.pfEnts := rfl
@[simp] theorem State.modNor_pfNo (s : State) (f : Nor → Nor) : (s.modNor f).pfNo = s.pfNo := rfl
@[simp] theorem State.modNor_seqs (s : State) (f : Nor → Nor) : (s.modNor f).seqs = s.seqs := rfl
@[simp] theorem State.modNor_commitNo (s : State) (f : Nor → Nor) : (s.modNor f).commitNo = s.commitNo := rfl
@[simp] theorem State.modNor_commitC (s : State) (f : Nor → Nor) : (s.modNor f).commitC = s.commitC := rfl
@[simp] theorem State.modNor_applying (s : State) (f : Nor → Nor) : (s.modNor f).applying = s.applying := rfl
@[simp] theorem State.modNor_spillPool (s : State) (f : Nor → Nor) : (s.modNor f).spillPool = s.spillPool := rfl
@[simp] theorem State.modNor_models (s : State) (f : Nor → Nor) : (s.modNor f).models = s.models := rfl
@[simp] theorem State.modNor_slices (s : State) (f : Nor → Nor) : (s.modNor f).slices = s.slices := rfl
@[simp] theorem State.modNor_steps (s : State) (f : Nor → Nor) : (s.modNor f).steps = s.steps := rfl
@[simp] theorem State.modNor_mst (s : State) (f : Nor → Nor) : (s.modNor f).mst = s.mst := rfl
@[simp] theorem State.modNor_joinQ (s : State) (f : Nor → Nor) : (s.modNor f).joinQ = s.joinQ := rfl
@[simp] theorem State.modNor_tenQ (s : State) (f : Nor → Nor) : (s.modNor f).tenQ = s.tenQ := rfl
@[simp] theorem State.modNor_tenC (s : State) (f : Nor → Nor) : (s.modNor f).tenC = s.tenC := rfl
@[simp] theorem State.modNor_curTenant (s : State) (f : Nor → Nor) : (s.modNor f).curTenant = s.curTenant := rfl
@[simp] theorem State.modNor_lastTenant (s : State) (f : Nor → Nor) : (s.modNor f).lastTenant = s.lastTenant := rfl
@[simp] theorem State.modNor_turnStart (s : State) (f : Nor → Nor) : (s.modNor f).turnStart = s.turnStart := rfl
@[simp] theorem State.modNor_turnEnd (s : State) (f : Nor → Nor) : (s.modNor f).turnEnd = s.turnEnd := rfl
@[simp] theorem State.modNor_turnSteps (s : State) (f : Nor → Nor) : (s.modNor f).turnSteps = s.turnSteps := rfl
@[simp] theorem State.modNor_dies (s : State) (f : Nor → Nor) : (s.modNor f).dies = s.dies := rfl
@[simp] theorem State.modNor_d2d (s : State) (f : Nor → Nor) : (s.modNor f).d2d = s.d2d := rfl
@[simp] theorem State.modNor_noc (s : State) (f : Nor → Nor) : (s.modNor f).noc = s.noc := rfl
@[simp] theorem State.modNor_pals (s : State) (f : Nor → Nor) : (s.modNor f).pals = s.pals := rfl
@[simp] theorem State.modNor_chans (s : State) (f : Nor → Nor) : (s.modNor f).chans = s.chans := rfl
@[simp] theorem State.modNor_grps (s : State) (f : Nor → Nor) : (s.modNor f).grps = s.grps := rfl
@[simp] theorem State.modNor_flash (s : State) (f : Nor → Nor) : (s.modNor f).flash = s.flash := rfl
@[simp] theorem State.modNor_links (s : State) (f : Nor → Nor) : (s.modNor f).links = s.links := rfl
@[simp] theorem State.modNor_bundleW (s : State) (f : Nor → Nor) : (s.modNor f).bundleW = s.bundleW := rfl
@[simp] theorem State.modNor_router (s : State) (f : Nor → Nor) : (s.modNor f).router = s.router := rfl
@[simp] theorem State.modNor_coord (s : State) (f : Nor → Nor) : (s.modNor f).coord = s.coord := rfl
@[simp] theorem State.modNor_power (s : State) (f : Nor → Nor) : (s.modNor f).power = s.power := rfl
@[simp] theorem State.modNor_mon (s : State) (f : Nor → Nor) : (s.modNor f).mon = s.mon := rfl
@[simp] theorem State.modNor_health (s : State) (f : Nor → Nor) : (s.modNor f).health = s.health := rfl
@[simp] theorem State.modNor_nor (s : State) (f : Nor → Nor) : (s.modNor f).nor = f s.nor := rfl
@[simp] theorem State.modNor_clk (s : State) (f : Nor → Nor) : (s.modNor f).clk = s.clk := rfl
@[simp] theorem State.modNor_sec (s : State) (f : Nor → Nor) : (s.modNor f).sec = s.sec := rfl
@[simp] theorem State.modNor_snap (s : State) (f : Nor → Nor) : (s.modNor f).snap = s.snap := rfl
@[simp] theorem State.modNor_side (s : State) (f : Nor → Nor) : (s.modNor f).side = s.side := rfl
@[simp] theorem State.modNor_tx (s : State) (f : Nor → Nor) : (s.modNor f).tx = s.tx := rfl

/-! ### State.modObj -/

@[simp] theorem State.modObj_pending (s : State) (id : Nat) (f : Obj → Obj) : (s.modObj id f).pending = s.pending := rfl
@[simp] theorem State.modObj_fresh (s : State) (id : Nat) (f : Obj → Obj) : (s.modObj id f).fresh = s.fresh := rfl
@[simp] theorem State.modObj_now (s : State) (id : Nat) (f : Obj → Obj) : (s.modObj id f).now = s.now := rfl
@[simp] theorem State.modObj_mem (s : State) (id : Nat) (f : Obj → Obj) : (s.modObj id f).mem = s.mem := rfl
@[simp] theorem State.modObj_hostA (s : State) (id : Nat) (f : Obj → Obj) : (s.modObj id f).hostA = s.hostA := rfl
@[simp] theorem State.modObj_hostB (s : State) (id : Nat) (f : Obj → Obj) : (s.modObj id f).hostB = s.hostB := rfl
@[simp] theorem State.modObj_pa (s : State) (id : Nat) (f : Obj → Obj) : (s.modObj id f).pa = s.pa := rfl
@[simp] theorem State.modObj_pb (s : State) (id : Nat) (f : Obj → Obj) : (s.modObj id f).pb = s.pb := rfl
@[simp] theorem State.modObj_cmds (s : State) (id : Nat) (f : Obj → Obj) : (s.modObj id f).cmds = s.cmds := rfl
@[simp] theorem State.modObj_cmdNo (s : State) (id : Nat) (f : Obj → Obj) : (s.modObj id f).cmdNo = s.cmdNo := rfl
@[simp] theorem State.modObj_lastFetch (s : State) (id : Nat) (f : Obj → Obj) : (s.modObj id f).lastFetch = s.lastFetch := rfl
@[simp] theorem State.modObj_msPortA (s : State) (id : Nat) (f : Obj → Obj) : (s.modObj id f).msPortA = s.msPortA := rfl
@[simp] theorem State.modObj_msPortB (s : State) (id : Nat) (f : Obj → Obj) : (s.modObj id f).msPortB = s.msPortB := rfl
@[simp] theorem State.modObj_msSide (s : State) (id : Nat) (f : Obj → Obj) : (s.modObj id f).msSide = s.msSide := rfl
@[simp] theorem State.modObj_msEasel (s : State) (id : Nat) (f : Obj → Obj) : (s.modObj id f).msEasel = s.msEasel := rfl
@[simp] theorem State.modObj_accs (s : State) (id : Nat) (f : Obj → Obj) : (s.modObj id f).accs = s.accs := rfl
@[simp] theorem State.modObj_accNo (s : State) (id : Nat) (f : Obj → Obj) : (s.modObj id f).accNo = s.accNo := rfl
@[simp] theorem State.modObj_sq (s : State) (id : Nat) (f : Obj → Obj) : (s.modObj id f).sq = s.sq := rfl
@[simp] theorem State.modObj_seqMiss (s : State) (id : Nat) (f : Obj → Obj) : (s.modObj id f).seqMiss = s.seqMiss := rfl
@[simp] theorem State.modObj_lkIgnore (s : State) (id : Nat) (f : Obj → Obj) : (s.modObj id f).lkIgnore = s.lkIgnore := rfl
@[simp] theorem State.modObj_regFix (s : State) (id : Nat) (f : Obj → Obj) : (s.modObj id f).regFix = s.regFix := rfl
@[simp] theorem State.modObj_upsets (s : State) (id : Nat) (f : Obj → Obj) : (s.modObj id f).upsets = s.upsets := rfl
@[simp] theorem State.modObj_sysExts (s : State) (id : Nat) (f : Obj → Obj) : (s.modObj id f).sysExts = s.sysExts := rfl
@[simp] theorem State.modObj_pfEnts (s : State) (id : Nat) (f : Obj → Obj) : (s.modObj id f).pfEnts = s.pfEnts := rfl
@[simp] theorem State.modObj_pfNo (s : State) (id : Nat) (f : Obj → Obj) : (s.modObj id f).pfNo = s.pfNo := rfl
@[simp] theorem State.modObj_seqs (s : State) (id : Nat) (f : Obj → Obj) : (s.modObj id f).seqs = s.seqs := rfl
@[simp] theorem State.modObj_commitNo (s : State) (id : Nat) (f : Obj → Obj) : (s.modObj id f).commitNo = s.commitNo := rfl
@[simp] theorem State.modObj_commitC (s : State) (id : Nat) (f : Obj → Obj) : (s.modObj id f).commitC = s.commitC := rfl
@[simp] theorem State.modObj_applying (s : State) (id : Nat) (f : Obj → Obj) : (s.modObj id f).applying = s.applying := rfl
@[simp] theorem State.modObj_spillPool (s : State) (id : Nat) (f : Obj → Obj) : (s.modObj id f).spillPool = s.spillPool := rfl
@[simp] theorem State.modObj_models (s : State) (id : Nat) (f : Obj → Obj) : (s.modObj id f).models = s.models := rfl
@[simp] theorem State.modObj_slices (s : State) (id : Nat) (f : Obj → Obj) : (s.modObj id f).slices = s.slices := rfl
@[simp] theorem State.modObj_steps (s : State) (id : Nat) (f : Obj → Obj) : (s.modObj id f).steps = s.steps := rfl
@[simp] theorem State.modObj_mst (s : State) (id : Nat) (f : Obj → Obj) : (s.modObj id f).mst = s.mst := rfl
@[simp] theorem State.modObj_joinQ (s : State) (id : Nat) (f : Obj → Obj) : (s.modObj id f).joinQ = s.joinQ := rfl
@[simp] theorem State.modObj_tenQ (s : State) (id : Nat) (f : Obj → Obj) : (s.modObj id f).tenQ = s.tenQ := rfl
@[simp] theorem State.modObj_tenC (s : State) (id : Nat) (f : Obj → Obj) : (s.modObj id f).tenC = s.tenC := rfl
@[simp] theorem State.modObj_curTenant (s : State) (id : Nat) (f : Obj → Obj) : (s.modObj id f).curTenant = s.curTenant := rfl
@[simp] theorem State.modObj_lastTenant (s : State) (id : Nat) (f : Obj → Obj) : (s.modObj id f).lastTenant = s.lastTenant := rfl
@[simp] theorem State.modObj_turnStart (s : State) (id : Nat) (f : Obj → Obj) : (s.modObj id f).turnStart = s.turnStart := rfl
@[simp] theorem State.modObj_turnEnd (s : State) (id : Nat) (f : Obj → Obj) : (s.modObj id f).turnEnd = s.turnEnd := rfl
@[simp] theorem State.modObj_turnSteps (s : State) (id : Nat) (f : Obj → Obj) : (s.modObj id f).turnSteps = s.turnSteps := rfl
@[simp] theorem State.modObj_dies (s : State) (id : Nat) (f : Obj → Obj) : (s.modObj id f).dies = s.dies := rfl
@[simp] theorem State.modObj_d2d (s : State) (id : Nat) (f : Obj → Obj) : (s.modObj id f).d2d = s.d2d := rfl
@[simp] theorem State.modObj_noc (s : State) (id : Nat) (f : Obj → Obj) : (s.modObj id f).noc = s.noc := rfl
@[simp] theorem State.modObj_pals (s : State) (id : Nat) (f : Obj → Obj) : (s.modObj id f).pals = s.pals := rfl
@[simp] theorem State.modObj_chans (s : State) (id : Nat) (f : Obj → Obj) : (s.modObj id f).chans = s.chans := rfl
@[simp] theorem State.modObj_grps (s : State) (id : Nat) (f : Obj → Obj) : (s.modObj id f).grps = s.grps := rfl
@[simp] theorem State.modObj_flash (s : State) (id : Nat) (f : Obj → Obj) : (s.modObj id f).flash = s.flash := rfl
@[simp] theorem State.modObj_links (s : State) (id : Nat) (f : Obj → Obj) : (s.modObj id f).links = s.links := rfl
@[simp] theorem State.modObj_bundleW (s : State) (id : Nat) (f : Obj → Obj) : (s.modObj id f).bundleW = s.bundleW := rfl
@[simp] theorem State.modObj_router (s : State) (id : Nat) (f : Obj → Obj) : (s.modObj id f).router = s.router := rfl
@[simp] theorem State.modObj_coord (s : State) (id : Nat) (f : Obj → Obj) : (s.modObj id f).coord = s.coord := rfl
@[simp] theorem State.modObj_power (s : State) (id : Nat) (f : Obj → Obj) : (s.modObj id f).power = s.power := rfl
@[simp] theorem State.modObj_mon (s : State) (id : Nat) (f : Obj → Obj) : (s.modObj id f).mon = s.mon := rfl
@[simp] theorem State.modObj_health (s : State) (id : Nat) (f : Obj → Obj) : (s.modObj id f).health = s.health := rfl
@[simp] theorem State.modObj_nor (s : State) (id : Nat) (f : Obj → Obj) : (s.modObj id f).nor = s.nor := rfl
@[simp] theorem State.modObj_clk (s : State) (id : Nat) (f : Obj → Obj) : (s.modObj id f).clk = s.clk := rfl
@[simp] theorem State.modObj_sec (s : State) (id : Nat) (f : Obj → Obj) : (s.modObj id f).sec = s.sec := rfl
@[simp] theorem State.modObj_snap (s : State) (id : Nat) (f : Obj → Obj) : (s.modObj id f).snap = s.snap := rfl
@[simp] theorem State.modObj_side (s : State) (id : Nat) (f : Obj → Obj) : (s.modObj id f).side = s.side := rfl
@[simp] theorem State.modObj_tx (s : State) (id : Nat) (f : Obj → Obj) : (s.modObj id f).tx = s.tx := rfl

/-! ### State.modPool -/

@[simp] theorem State.modPool_pending (s : State) (id : Nat) (f : Pool → Pool) : (s.modPool id f).pending = s.pending := rfl
@[simp] theorem State.modPool_fresh (s : State) (id : Nat) (f : Pool → Pool) : (s.modPool id f).fresh = s.fresh := rfl
@[simp] theorem State.modPool_now (s : State) (id : Nat) (f : Pool → Pool) : (s.modPool id f).now = s.now := rfl
@[simp] theorem State.modPool_mem (s : State) (id : Nat) (f : Pool → Pool) : (s.modPool id f).mem = s.mem := rfl
@[simp] theorem State.modPool_hostA (s : State) (id : Nat) (f : Pool → Pool) : (s.modPool id f).hostA = s.hostA := rfl
@[simp] theorem State.modPool_hostB (s : State) (id : Nat) (f : Pool → Pool) : (s.modPool id f).hostB = s.hostB := rfl
@[simp] theorem State.modPool_pa (s : State) (id : Nat) (f : Pool → Pool) : (s.modPool id f).pa = s.pa := rfl
@[simp] theorem State.modPool_pb (s : State) (id : Nat) (f : Pool → Pool) : (s.modPool id f).pb = s.pb := rfl
@[simp] theorem State.modPool_cmds (s : State) (id : Nat) (f : Pool → Pool) : (s.modPool id f).cmds = s.cmds := rfl
@[simp] theorem State.modPool_cmdNo (s : State) (id : Nat) (f : Pool → Pool) : (s.modPool id f).cmdNo = s.cmdNo := rfl
@[simp] theorem State.modPool_lastFetch (s : State) (id : Nat) (f : Pool → Pool) : (s.modPool id f).lastFetch = s.lastFetch := rfl
@[simp] theorem State.modPool_msPortA (s : State) (id : Nat) (f : Pool → Pool) : (s.modPool id f).msPortA = s.msPortA := rfl
@[simp] theorem State.modPool_msPortB (s : State) (id : Nat) (f : Pool → Pool) : (s.modPool id f).msPortB = s.msPortB := rfl
@[simp] theorem State.modPool_msSide (s : State) (id : Nat) (f : Pool → Pool) : (s.modPool id f).msSide = s.msSide := rfl
@[simp] theorem State.modPool_msEasel (s : State) (id : Nat) (f : Pool → Pool) : (s.modPool id f).msEasel = s.msEasel := rfl
@[simp] theorem State.modPool_accs (s : State) (id : Nat) (f : Pool → Pool) : (s.modPool id f).accs = s.accs := rfl
@[simp] theorem State.modPool_accNo (s : State) (id : Nat) (f : Pool → Pool) : (s.modPool id f).accNo = s.accNo := rfl
@[simp] theorem State.modPool_sq (s : State) (id : Nat) (f : Pool → Pool) : (s.modPool id f).sq = s.sq := rfl
@[simp] theorem State.modPool_seqMiss (s : State) (id : Nat) (f : Pool → Pool) : (s.modPool id f).seqMiss = s.seqMiss := rfl
@[simp] theorem State.modPool_lkIgnore (s : State) (id : Nat) (f : Pool → Pool) : (s.modPool id f).lkIgnore = s.lkIgnore := rfl
@[simp] theorem State.modPool_regFix (s : State) (id : Nat) (f : Pool → Pool) : (s.modPool id f).regFix = s.regFix := rfl
@[simp] theorem State.modPool_upsets (s : State) (id : Nat) (f : Pool → Pool) : (s.modPool id f).upsets = s.upsets := rfl
@[simp] theorem State.modPool_sysExts (s : State) (id : Nat) (f : Pool → Pool) : (s.modPool id f).sysExts = s.sysExts := rfl
@[simp] theorem State.modPool_pfEnts (s : State) (id : Nat) (f : Pool → Pool) : (s.modPool id f).pfEnts = s.pfEnts := rfl
@[simp] theorem State.modPool_pfNo (s : State) (id : Nat) (f : Pool → Pool) : (s.modPool id f).pfNo = s.pfNo := rfl
@[simp] theorem State.modPool_seqs (s : State) (id : Nat) (f : Pool → Pool) : (s.modPool id f).seqs = s.seqs := rfl
@[simp] theorem State.modPool_commitNo (s : State) (id : Nat) (f : Pool → Pool) : (s.modPool id f).commitNo = s.commitNo := rfl
@[simp] theorem State.modPool_commitC (s : State) (id : Nat) (f : Pool → Pool) : (s.modPool id f).commitC = s.commitC := rfl
@[simp] theorem State.modPool_applying (s : State) (id : Nat) (f : Pool → Pool) : (s.modPool id f).applying = s.applying := rfl
@[simp] theorem State.modPool_spillPool (s : State) (id : Nat) (f : Pool → Pool) : (s.modPool id f).spillPool = s.spillPool := rfl
@[simp] theorem State.modPool_models (s : State) (id : Nat) (f : Pool → Pool) : (s.modPool id f).models = s.models := rfl
@[simp] theorem State.modPool_slices (s : State) (id : Nat) (f : Pool → Pool) : (s.modPool id f).slices = s.slices := rfl
@[simp] theorem State.modPool_steps (s : State) (id : Nat) (f : Pool → Pool) : (s.modPool id f).steps = s.steps := rfl
@[simp] theorem State.modPool_mst (s : State) (id : Nat) (f : Pool → Pool) : (s.modPool id f).mst = s.mst := rfl
@[simp] theorem State.modPool_joinQ (s : State) (id : Nat) (f : Pool → Pool) : (s.modPool id f).joinQ = s.joinQ := rfl
@[simp] theorem State.modPool_tenQ (s : State) (id : Nat) (f : Pool → Pool) : (s.modPool id f).tenQ = s.tenQ := rfl
@[simp] theorem State.modPool_tenC (s : State) (id : Nat) (f : Pool → Pool) : (s.modPool id f).tenC = s.tenC := rfl
@[simp] theorem State.modPool_curTenant (s : State) (id : Nat) (f : Pool → Pool) : (s.modPool id f).curTenant = s.curTenant := rfl
@[simp] theorem State.modPool_lastTenant (s : State) (id : Nat) (f : Pool → Pool) : (s.modPool id f).lastTenant = s.lastTenant := rfl
@[simp] theorem State.modPool_turnStart (s : State) (id : Nat) (f : Pool → Pool) : (s.modPool id f).turnStart = s.turnStart := rfl
@[simp] theorem State.modPool_turnEnd (s : State) (id : Nat) (f : Pool → Pool) : (s.modPool id f).turnEnd = s.turnEnd := rfl
@[simp] theorem State.modPool_turnSteps (s : State) (id : Nat) (f : Pool → Pool) : (s.modPool id f).turnSteps = s.turnSteps := rfl
@[simp] theorem State.modPool_dies (s : State) (id : Nat) (f : Pool → Pool) : (s.modPool id f).dies = s.dies := rfl
@[simp] theorem State.modPool_d2d (s : State) (id : Nat) (f : Pool → Pool) : (s.modPool id f).d2d = s.d2d := rfl
@[simp] theorem State.modPool_noc (s : State) (id : Nat) (f : Pool → Pool) : (s.modPool id f).noc = s.noc := rfl
@[simp] theorem State.modPool_pals (s : State) (id : Nat) (f : Pool → Pool) : (s.modPool id f).pals = s.pals := rfl
@[simp] theorem State.modPool_chans (s : State) (id : Nat) (f : Pool → Pool) : (s.modPool id f).chans = s.chans := rfl
@[simp] theorem State.modPool_grps (s : State) (id : Nat) (f : Pool → Pool) : (s.modPool id f).grps = s.grps := rfl
@[simp] theorem State.modPool_flash (s : State) (id : Nat) (f : Pool → Pool) : (s.modPool id f).flash = s.flash := rfl
@[simp] theorem State.modPool_links (s : State) (id : Nat) (f : Pool → Pool) : (s.modPool id f).links = s.links := rfl
@[simp] theorem State.modPool_bundleW (s : State) (id : Nat) (f : Pool → Pool) : (s.modPool id f).bundleW = s.bundleW := rfl
@[simp] theorem State.modPool_router (s : State) (id : Nat) (f : Pool → Pool) : (s.modPool id f).router = s.router := rfl
@[simp] theorem State.modPool_coord (s : State) (id : Nat) (f : Pool → Pool) : (s.modPool id f).coord = s.coord := rfl
@[simp] theorem State.modPool_power (s : State) (id : Nat) (f : Pool → Pool) : (s.modPool id f).power = s.power := rfl
@[simp] theorem State.modPool_mon (s : State) (id : Nat) (f : Pool → Pool) : (s.modPool id f).mon = s.mon := rfl
@[simp] theorem State.modPool_health (s : State) (id : Nat) (f : Pool → Pool) : (s.modPool id f).health = s.health := rfl
@[simp] theorem State.modPool_nor (s : State) (id : Nat) (f : Pool → Pool) : (s.modPool id f).nor = s.nor := rfl
@[simp] theorem State.modPool_clk (s : State) (id : Nat) (f : Pool → Pool) : (s.modPool id f).clk = s.clk := rfl
@[simp] theorem State.modPool_sec (s : State) (id : Nat) (f : Pool → Pool) : (s.modPool id f).sec = s.sec := rfl
@[simp] theorem State.modPool_snap (s : State) (id : Nat) (f : Pool → Pool) : (s.modPool id f).snap = s.snap := rfl
@[simp] theorem State.modPool_side (s : State) (id : Nat) (f : Pool → Pool) : (s.modPool id f).side = s.side := rfl
@[simp] theorem State.modPool_tx (s : State) (id : Nat) (f : Pool → Pool) : (s.modPool id f).tx = s.tx := rfl

/-! ### State.modSeq -/

@[simp] theorem State.modSeq_pending (s : State) (h : Nat) (f : Seq → Seq) : (s.modSeq h f).pending = s.pending := rfl
@[simp] theorem State.modSeq_fresh (s : State) (h : Nat) (f : Seq → Seq) : (s.modSeq h f).fresh = s.fresh := rfl
@[simp] theorem State.modSeq_now (s : State) (h : Nat) (f : Seq → Seq) : (s.modSeq h f).now = s.now := rfl
@[simp] theorem State.modSeq_mem (s : State) (h : Nat) (f : Seq → Seq) : (s.modSeq h f).mem = s.mem := rfl
@[simp] theorem State.modSeq_hostA (s : State) (h : Nat) (f : Seq → Seq) : (s.modSeq h f).hostA = s.hostA := rfl
@[simp] theorem State.modSeq_hostB (s : State) (h : Nat) (f : Seq → Seq) : (s.modSeq h f).hostB = s.hostB := rfl
@[simp] theorem State.modSeq_pa (s : State) (h : Nat) (f : Seq → Seq) : (s.modSeq h f).pa = s.pa := rfl
@[simp] theorem State.modSeq_pb (s : State) (h : Nat) (f : Seq → Seq) : (s.modSeq h f).pb = s.pb := rfl
@[simp] theorem State.modSeq_cmds (s : State) (h : Nat) (f : Seq → Seq) : (s.modSeq h f).cmds = s.cmds := rfl
@[simp] theorem State.modSeq_cmdNo (s : State) (h : Nat) (f : Seq → Seq) : (s.modSeq h f).cmdNo = s.cmdNo := rfl
@[simp] theorem State.modSeq_lastFetch (s : State) (h : Nat) (f : Seq → Seq) : (s.modSeq h f).lastFetch = s.lastFetch := rfl
@[simp] theorem State.modSeq_msPortA (s : State) (h : Nat) (f : Seq → Seq) : (s.modSeq h f).msPortA = s.msPortA := rfl
@[simp] theorem State.modSeq_msPortB (s : State) (h : Nat) (f : Seq → Seq) : (s.modSeq h f).msPortB = s.msPortB := rfl
@[simp] theorem State.modSeq_msSide (s : State) (h : Nat) (f : Seq → Seq) : (s.modSeq h f).msSide = s.msSide := rfl
@[simp] theorem State.modSeq_msEasel (s : State) (h : Nat) (f : Seq → Seq) : (s.modSeq h f).msEasel = s.msEasel := rfl
@[simp] theorem State.modSeq_accs (s : State) (h : Nat) (f : Seq → Seq) : (s.modSeq h f).accs = s.accs := rfl
@[simp] theorem State.modSeq_accNo (s : State) (h : Nat) (f : Seq → Seq) : (s.modSeq h f).accNo = s.accNo := rfl
@[simp] theorem State.modSeq_sq (s : State) (h : Nat) (f : Seq → Seq) : (s.modSeq h f).sq = s.sq := rfl
@[simp] theorem State.modSeq_seqMiss (s : State) (h : Nat) (f : Seq → Seq) : (s.modSeq h f).seqMiss = s.seqMiss := rfl
@[simp] theorem State.modSeq_lkIgnore (s : State) (h : Nat) (f : Seq → Seq) : (s.modSeq h f).lkIgnore = s.lkIgnore := rfl
@[simp] theorem State.modSeq_regFix (s : State) (h : Nat) (f : Seq → Seq) : (s.modSeq h f).regFix = s.regFix := rfl
@[simp] theorem State.modSeq_upsets (s : State) (h : Nat) (f : Seq → Seq) : (s.modSeq h f).upsets = s.upsets := rfl
@[simp] theorem State.modSeq_objs (s : State) (h : Nat) (f : Seq → Seq) : (s.modSeq h f).objs = s.objs := rfl
@[simp] theorem State.modSeq_sysExts (s : State) (h : Nat) (f : Seq → Seq) : (s.modSeq h f).sysExts = s.sysExts := rfl
@[simp] theorem State.modSeq_pfEnts (s : State) (h : Nat) (f : Seq → Seq) : (s.modSeq h f).pfEnts = s.pfEnts := rfl
@[simp] theorem State.modSeq_pfNo (s : State) (h : Nat) (f : Seq → Seq) : (s.modSeq h f).pfNo = s.pfNo := rfl
@[simp] theorem State.modSeq_commitNo (s : State) (h : Nat) (f : Seq → Seq) : (s.modSeq h f).commitNo = s.commitNo := rfl
@[simp] theorem State.modSeq_commitC (s : State) (h : Nat) (f : Seq → Seq) : (s.modSeq h f).commitC = s.commitC := rfl
@[simp] theorem State.modSeq_applying (s : State) (h : Nat) (f : Seq → Seq) : (s.modSeq h f).applying = s.applying := rfl
@[simp] theorem State.modSeq_spillPool (s : State) (h : Nat) (f : Seq → Seq) : (s.modSeq h f).spillPool = s.spillPool := rfl
@[simp] theorem State.modSeq_models (s : State) (h : Nat) (f : Seq → Seq) : (s.modSeq h f).models = s.models := rfl
@[simp] theorem State.modSeq_slices (s : State) (h : Nat) (f : Seq → Seq) : (s.modSeq h f).slices = s.slices := rfl
@[simp] theorem State.modSeq_steps (s : State) (h : Nat) (f : Seq → Seq) : (s.modSeq h f).steps = s.steps := rfl
@[simp] theorem State.modSeq_mst (s : State) (h : Nat) (f : Seq → Seq) : (s.modSeq h f).mst = s.mst := rfl
@[simp] theorem State.modSeq_joinQ (s : State) (h : Nat) (f : Seq → Seq) : (s.modSeq h f).joinQ = s.joinQ := rfl
@[simp] theorem State.modSeq_tenQ (s : State) (h : Nat) (f : Seq → Seq) : (s.modSeq h f).tenQ = s.tenQ := rfl
@[simp] theorem State.modSeq_tenC (s : State) (h : Nat) (f : Seq → Seq) : (s.modSeq h f).tenC = s.tenC := rfl
@[simp] theorem State.modSeq_curTenant (s : State) (h : Nat) (f : Seq → Seq) : (s.modSeq h f).curTenant = s.curTenant := rfl
@[simp] theorem State.modSeq_lastTenant (s : State) (h : Nat) (f : Seq → Seq) : (s.modSeq h f).lastTenant = s.lastTenant := rfl
@[simp] theorem State.modSeq_turnStart (s : State) (h : Nat) (f : Seq → Seq) : (s.modSeq h f).turnStart = s.turnStart := rfl
@[simp] theorem State.modSeq_turnEnd (s : State) (h : Nat) (f : Seq → Seq) : (s.modSeq h f).turnEnd = s.turnEnd := rfl
@[simp] theorem State.modSeq_turnSteps (s : State) (h : Nat) (f : Seq → Seq) : (s.modSeq h f).turnSteps = s.turnSteps := rfl
@[simp] theorem State.modSeq_dies (s : State) (h : Nat) (f : Seq → Seq) : (s.modSeq h f).dies = s.dies := rfl
@[simp] theorem State.modSeq_d2d (s : State) (h : Nat) (f : Seq → Seq) : (s.modSeq h f).d2d = s.d2d := rfl
@[simp] theorem State.modSeq_noc (s : State) (h : Nat) (f : Seq → Seq) : (s.modSeq h f).noc = s.noc := rfl
@[simp] theorem State.modSeq_pals (s : State) (h : Nat) (f : Seq → Seq) : (s.modSeq h f).pals = s.pals := rfl
@[simp] theorem State.modSeq_chans (s : State) (h : Nat) (f : Seq → Seq) : (s.modSeq h f).chans = s.chans := rfl
@[simp] theorem State.modSeq_grps (s : State) (h : Nat) (f : Seq → Seq) : (s.modSeq h f).grps = s.grps := rfl
@[simp] theorem State.modSeq_flash (s : State) (h : Nat) (f : Seq → Seq) : (s.modSeq h f).flash = s.flash := rfl
@[simp] theorem State.modSeq_links (s : State) (h : Nat) (f : Seq → Seq) : (s.modSeq h f).links = s.links := rfl
@[simp] theorem State.modSeq_bundleW (s : State) (h : Nat) (f : Seq → Seq) : (s.modSeq h f).bundleW = s.bundleW := rfl
@[simp] theorem State.modSeq_router (s : State) (h : Nat) (f : Seq → Seq) : (s.modSeq h f).router = s.router := rfl
@[simp] theorem State.modSeq_coord (s : State) (h : Nat) (f : Seq → Seq) : (s.modSeq h f).coord = s.coord := rfl
@[simp] theorem State.modSeq_power (s : State) (h : Nat) (f : Seq → Seq) : (s.modSeq h f).power = s.power := rfl
@[simp] theorem State.modSeq_mon (s : State) (h : Nat) (f : Seq → Seq) : (s.modSeq h f).mon = s.mon := rfl
@[simp] theorem State.modSeq_health (s : State) (h : Nat) (f : Seq → Seq) : (s.modSeq h f).health = s.health := rfl
@[simp] theorem State.modSeq_nor (s : State) (h : Nat) (f : Seq → Seq) : (s.modSeq h f).nor = s.nor := rfl
@[simp] theorem State.modSeq_clk (s : State) (h : Nat) (f : Seq → Seq) : (s.modSeq h f).clk = s.clk := rfl
@[simp] theorem State.modSeq_sec (s : State) (h : Nat) (f : Seq → Seq) : (s.modSeq h f).sec = s.sec := rfl
@[simp] theorem State.modSeq_snap (s : State) (h : Nat) (f : Seq → Seq) : (s.modSeq h f).snap = s.snap := rfl
@[simp] theorem State.modSeq_side (s : State) (h : Nat) (f : Seq → Seq) : (s.modSeq h f).side = s.side := rfl
@[simp] theorem State.modSeq_tx (s : State) (h : Nat) (f : Seq → Seq) : (s.modSeq h f).tx = s.tx := rfl

/-! ### State.modModel -/

@[simp] theorem State.modModel_pending (s : State) (h : Nat) (f : Model → Model) : (s.modModel h f).pending = s.pending := rfl
@[simp] theorem State.modModel_fresh (s : State) (h : Nat) (f : Model → Model) : (s.modModel h f).fresh = s.fresh := rfl
@[simp] theorem State.modModel_now (s : State) (h : Nat) (f : Model → Model) : (s.modModel h f).now = s.now := rfl
@[simp] theorem State.modModel_mem (s : State) (h : Nat) (f : Model → Model) : (s.modModel h f).mem = s.mem := rfl
@[simp] theorem State.modModel_hostA (s : State) (h : Nat) (f : Model → Model) : (s.modModel h f).hostA = s.hostA := rfl
@[simp] theorem State.modModel_hostB (s : State) (h : Nat) (f : Model → Model) : (s.modModel h f).hostB = s.hostB := rfl
@[simp] theorem State.modModel_pa (s : State) (h : Nat) (f : Model → Model) : (s.modModel h f).pa = s.pa := rfl
@[simp] theorem State.modModel_pb (s : State) (h : Nat) (f : Model → Model) : (s.modModel h f).pb = s.pb := rfl
@[simp] theorem State.modModel_cmds (s : State) (h : Nat) (f : Model → Model) : (s.modModel h f).cmds = s.cmds := rfl
@[simp] theorem State.modModel_cmdNo (s : State) (h : Nat) (f : Model → Model) : (s.modModel h f).cmdNo = s.cmdNo := rfl
@[simp] theorem State.modModel_lastFetch (s : State) (h : Nat) (f : Model → Model) : (s.modModel h f).lastFetch = s.lastFetch := rfl
@[simp] theorem State.modModel_msPortA (s : State) (h : Nat) (f : Model → Model) : (s.modModel h f).msPortA = s.msPortA := rfl
@[simp] theorem State.modModel_msPortB (s : State) (h : Nat) (f : Model → Model) : (s.modModel h f).msPortB = s.msPortB := rfl
@[simp] theorem State.modModel_msSide (s : State) (h : Nat) (f : Model → Model) : (s.modModel h f).msSide = s.msSide := rfl
@[simp] theorem State.modModel_msEasel (s : State) (h : Nat) (f : Model → Model) : (s.modModel h f).msEasel = s.msEasel := rfl
@[simp] theorem State.modModel_accs (s : State) (h : Nat) (f : Model → Model) : (s.modModel h f).accs = s.accs := rfl
@[simp] theorem State.modModel_accNo (s : State) (h : Nat) (f : Model → Model) : (s.modModel h f).accNo = s.accNo := rfl
@[simp] theorem State.modModel_sq (s : State) (h : Nat) (f : Model → Model) : (s.modModel h f).sq = s.sq := rfl
@[simp] theorem State.modModel_seqMiss (s : State) (h : Nat) (f : Model → Model) : (s.modModel h f).seqMiss = s.seqMiss := rfl
@[simp] theorem State.modModel_lkIgnore (s : State) (h : Nat) (f : Model → Model) : (s.modModel h f).lkIgnore = s.lkIgnore := rfl
@[simp] theorem State.modModel_regFix (s : State) (h : Nat) (f : Model → Model) : (s.modModel h f).regFix = s.regFix := rfl
@[simp] theorem State.modModel_upsets (s : State) (h : Nat) (f : Model → Model) : (s.modModel h f).upsets = s.upsets := rfl
@[simp] theorem State.modModel_objs (s : State) (h : Nat) (f : Model → Model) : (s.modModel h f).objs = s.objs := rfl
@[simp] theorem State.modModel_sysExts (s : State) (h : Nat) (f : Model → Model) : (s.modModel h f).sysExts = s.sysExts := rfl
@[simp] theorem State.modModel_pfEnts (s : State) (h : Nat) (f : Model → Model) : (s.modModel h f).pfEnts = s.pfEnts := rfl
@[simp] theorem State.modModel_pfNo (s : State) (h : Nat) (f : Model → Model) : (s.modModel h f).pfNo = s.pfNo := rfl
@[simp] theorem State.modModel_seqs (s : State) (h : Nat) (f : Model → Model) : (s.modModel h f).seqs = s.seqs := rfl
@[simp] theorem State.modModel_commitNo (s : State) (h : Nat) (f : Model → Model) : (s.modModel h f).commitNo = s.commitNo := rfl
@[simp] theorem State.modModel_commitC (s : State) (h : Nat) (f : Model → Model) : (s.modModel h f).commitC = s.commitC := rfl
@[simp] theorem State.modModel_applying (s : State) (h : Nat) (f : Model → Model) : (s.modModel h f).applying = s.applying := rfl
@[simp] theorem State.modModel_spillPool (s : State) (h : Nat) (f : Model → Model) : (s.modModel h f).spillPool = s.spillPool := rfl
@[simp] theorem State.modModel_slices (s : State) (h : Nat) (f : Model → Model) : (s.modModel h f).slices = s.slices := rfl
@[simp] theorem State.modModel_steps (s : State) (h : Nat) (f : Model → Model) : (s.modModel h f).steps = s.steps := rfl
@[simp] theorem State.modModel_mst (s : State) (h : Nat) (f : Model → Model) : (s.modModel h f).mst = s.mst := rfl
@[simp] theorem State.modModel_joinQ (s : State) (h : Nat) (f : Model → Model) : (s.modModel h f).joinQ = s.joinQ := rfl
@[simp] theorem State.modModel_tenQ (s : State) (h : Nat) (f : Model → Model) : (s.modModel h f).tenQ = s.tenQ := rfl
@[simp] theorem State.modModel_tenC (s : State) (h : Nat) (f : Model → Model) : (s.modModel h f).tenC = s.tenC := rfl
@[simp] theorem State.modModel_curTenant (s : State) (h : Nat) (f : Model → Model) : (s.modModel h f).curTenant = s.curTenant := rfl
@[simp] theorem State.modModel_lastTenant (s : State) (h : Nat) (f : Model → Model) : (s.modModel h f).lastTenant = s.lastTenant := rfl
@[simp] theorem State.modModel_turnStart (s : State) (h : Nat) (f : Model → Model) : (s.modModel h f).turnStart = s.turnStart := rfl
@[simp] theorem State.modModel_turnEnd (s : State) (h : Nat) (f : Model → Model) : (s.modModel h f).turnEnd = s.turnEnd := rfl
@[simp] theorem State.modModel_turnSteps (s : State) (h : Nat) (f : Model → Model) : (s.modModel h f).turnSteps = s.turnSteps := rfl
@[simp] theorem State.modModel_dies (s : State) (h : Nat) (f : Model → Model) : (s.modModel h f).dies = s.dies := rfl
@[simp] theorem State.modModel_d2d (s : State) (h : Nat) (f : Model → Model) : (s.modModel h f).d2d = s.d2d := rfl
@[simp] theorem State.modModel_noc (s : State) (h : Nat) (f : Model → Model) : (s.modModel h f).noc = s.noc := rfl
@[simp] theorem State.modModel_pals (s : State) (h : Nat) (f : Model → Model) : (s.modModel h f).pals = s.pals := rfl
@[simp] theorem State.modModel_chans (s : State) (h : Nat) (f : Model → Model) : (s.modModel h f).chans = s.chans := rfl
@[simp] theorem State.modModel_grps (s : State) (h : Nat) (f : Model → Model) : (s.modModel h f).grps = s.grps := rfl
@[simp] theorem State.modModel_flash (s : State) (h : Nat) (f : Model → Model) : (s.modModel h f).flash = s.flash := rfl
@[simp] theorem State.modModel_links (s : State) (h : Nat) (f : Model → Model) : (s.modModel h f).links = s.links := rfl
@[simp] theorem State.modModel_bundleW (s : State) (h : Nat) (f : Model → Model) : (s.modModel h f).bundleW = s.bundleW := rfl
@[simp] theorem State.modModel_router (s : State) (h : Nat) (f : Model → Model) : (s.modModel h f).router = s.router := rfl
@[simp] theorem State.modModel_coord (s : State) (h : Nat) (f : Model → Model) : (s.modModel h f).coord = s.coord := rfl
@[simp] theorem State.modModel_power (s : State) (h : Nat) (f : Model → Model) : (s.modModel h f).power = s.power := rfl
@[simp] theorem State.modModel_mon (s : State) (h : Nat) (f : Model → Model) : (s.modModel h f).mon = s.mon := rfl
@[simp] theorem State.modModel_health (s : State) (h : Nat) (f : Model → Model) : (s.modModel h f).health = s.health := rfl
@[simp] theorem State.modModel_nor (s : State) (h : Nat) (f : Model → Model) : (s.modModel h f).nor = s.nor := rfl
@[simp] theorem State.modModel_clk (s : State) (h : Nat) (f : Model → Model) : (s.modModel h f).clk = s.clk := rfl
@[simp] theorem State.modModel_sec (s : State) (h : Nat) (f : Model → Model) : (s.modModel h f).sec = s.sec := rfl
@[simp] theorem State.modModel_snap (s : State) (h : Nat) (f : Model → Model) : (s.modModel h f).snap = s.snap := rfl
@[simp] theorem State.modModel_side (s : State) (h : Nat) (f : Model → Model) : (s.modModel h f).side = s.side := rfl
@[simp] theorem State.modModel_tx (s : State) (h : Nat) (f : Model → Model) : (s.modModel h f).tx = s.tx := rfl

/-! ### State.modStep -/

@[simp] theorem State.modStep_pending (s : State) (h id : Nat) (f : Step → Step) : (s.modStep h id f).pending = s.pending := rfl
@[simp] theorem State.modStep_fresh (s : State) (h id : Nat) (f : Step → Step) : (s.modStep h id f).fresh = s.fresh := rfl
@[simp] theorem State.modStep_now (s : State) (h id : Nat) (f : Step → Step) : (s.modStep h id f).now = s.now := rfl
@[simp] theorem State.modStep_mem (s : State) (h id : Nat) (f : Step → Step) : (s.modStep h id f).mem = s.mem := rfl
@[simp] theorem State.modStep_hostA (s : State) (h id : Nat) (f : Step → Step) : (s.modStep h id f).hostA = s.hostA := rfl
@[simp] theorem State.modStep_hostB (s : State) (h id : Nat) (f : Step → Step) : (s.modStep h id f).hostB = s.hostB := rfl
@[simp] theorem State.modStep_pa (s : State) (h id : Nat) (f : Step → Step) : (s.modStep h id f).pa = s.pa := rfl
@[simp] theorem State.modStep_pb (s : State) (h id : Nat) (f : Step → Step) : (s.modStep h id f).pb = s.pb := rfl
@[simp] theorem State.modStep_cmds (s : State) (h id : Nat) (f : Step → Step) : (s.modStep h id f).cmds = s.cmds := rfl
@[simp] theorem State.modStep_cmdNo (s : State) (h id : Nat) (f : Step → Step) : (s.modStep h id f).cmdNo = s.cmdNo := rfl
@[simp] theorem State.modStep_lastFetch (s : State) (h id : Nat) (f : Step → Step) : (s.modStep h id f).lastFetch = s.lastFetch := rfl
@[simp] theorem State.modStep_msPortA (s : State) (h id : Nat) (f : Step → Step) : (s.modStep h id f).msPortA = s.msPortA := rfl
@[simp] theorem State.modStep_msPortB (s : State) (h id : Nat) (f : Step → Step) : (s.modStep h id f).msPortB = s.msPortB := rfl
@[simp] theorem State.modStep_msSide (s : State) (h id : Nat) (f : Step → Step) : (s.modStep h id f).msSide = s.msSide := rfl
@[simp] theorem State.modStep_msEasel (s : State) (h id : Nat) (f : Step → Step) : (s.modStep h id f).msEasel = s.msEasel := rfl
@[simp] theorem State.modStep_accs (s : State) (h id : Nat) (f : Step → Step) : (s.modStep h id f).accs = s.accs := rfl
@[simp] theorem State.modStep_accNo (s : State) (h id : Nat) (f : Step → Step) : (s.modStep h id f).accNo = s.accNo := rfl
@[simp] theorem State.modStep_sq (s : State) (h id : Nat) (f : Step → Step) : (s.modStep h id f).sq = s.sq := rfl
@[simp] theorem State.modStep_seqMiss (s : State) (h id : Nat) (f : Step → Step) : (s.modStep h id f).seqMiss = s.seqMiss := rfl
@[simp] theorem State.modStep_lkIgnore (s : State) (h id : Nat) (f : Step → Step) : (s.modStep h id f).lkIgnore = s.lkIgnore := rfl
@[simp] theorem State.modStep_regFix (s : State) (h id : Nat) (f : Step → Step) : (s.modStep h id f).regFix = s.regFix := rfl
@[simp] theorem State.modStep_upsets (s : State) (h id : Nat) (f : Step → Step) : (s.modStep h id f).upsets = s.upsets := rfl
@[simp] theorem State.modStep_objs (s : State) (h id : Nat) (f : Step → Step) : (s.modStep h id f).objs = s.objs := rfl
@[simp] theorem State.modStep_sysExts (s : State) (h id : Nat) (f : Step → Step) : (s.modStep h id f).sysExts = s.sysExts := rfl
@[simp] theorem State.modStep_pfEnts (s : State) (h id : Nat) (f : Step → Step) : (s.modStep h id f).pfEnts = s.pfEnts := rfl
@[simp] theorem State.modStep_pfNo (s : State) (h id : Nat) (f : Step → Step) : (s.modStep h id f).pfNo = s.pfNo := rfl
@[simp] theorem State.modStep_seqs (s : State) (h id : Nat) (f : Step → Step) : (s.modStep h id f).seqs = s.seqs := rfl
@[simp] theorem State.modStep_commitNo (s : State) (h id : Nat) (f : Step → Step) : (s.modStep h id f).commitNo = s.commitNo := rfl
@[simp] theorem State.modStep_commitC (s : State) (h id : Nat) (f : Step → Step) : (s.modStep h id f).commitC = s.commitC := rfl
@[simp] theorem State.modStep_applying (s : State) (h id : Nat) (f : Step → Step) : (s.modStep h id f).applying = s.applying := rfl
@[simp] theorem State.modStep_spillPool (s : State) (h id : Nat) (f : Step → Step) : (s.modStep h id f).spillPool = s.spillPool := rfl
@[simp] theorem State.modStep_models (s : State) (h id : Nat) (f : Step → Step) : (s.modStep h id f).models = s.models := rfl
@[simp] theorem State.modStep_slices (s : State) (h id : Nat) (f : Step → Step) : (s.modStep h id f).slices = s.slices := rfl
@[simp] theorem State.modStep_mst (s : State) (h id : Nat) (f : Step → Step) : (s.modStep h id f).mst = s.mst := rfl
@[simp] theorem State.modStep_joinQ (s : State) (h id : Nat) (f : Step → Step) : (s.modStep h id f).joinQ = s.joinQ := rfl
@[simp] theorem State.modStep_tenQ (s : State) (h id : Nat) (f : Step → Step) : (s.modStep h id f).tenQ = s.tenQ := rfl
@[simp] theorem State.modStep_tenC (s : State) (h id : Nat) (f : Step → Step) : (s.modStep h id f).tenC = s.tenC := rfl
@[simp] theorem State.modStep_curTenant (s : State) (h id : Nat) (f : Step → Step) : (s.modStep h id f).curTenant = s.curTenant := rfl
@[simp] theorem State.modStep_lastTenant (s : State) (h id : Nat) (f : Step → Step) : (s.modStep h id f).lastTenant = s.lastTenant := rfl
@[simp] theorem State.modStep_turnStart (s : State) (h id : Nat) (f : Step → Step) : (s.modStep h id f).turnStart = s.turnStart := rfl
@[simp] theorem State.modStep_turnEnd (s : State) (h id : Nat) (f : Step → Step) : (s.modStep h id f).turnEnd = s.turnEnd := rfl
@[simp] theorem State.modStep_turnSteps (s : State) (h id : Nat) (f : Step → Step) : (s.modStep h id f).turnSteps = s.turnSteps := rfl
@[simp] theorem State.modStep_dies (s : State) (h id : Nat) (f : Step → Step) : (s.modStep h id f).dies = s.dies := rfl
@[simp] theorem State.modStep_d2d (s : State) (h id : Nat) (f : Step → Step) : (s.modStep h id f).d2d = s.d2d := rfl
@[simp] theorem State.modStep_noc (s : State) (h id : Nat) (f : Step → Step) : (s.modStep h id f).noc = s.noc := rfl
@[simp] theorem State.modStep_pals (s : State) (h id : Nat) (f : Step → Step) : (s.modStep h id f).pals = s.pals := rfl
@[simp] theorem State.modStep_chans (s : State) (h id : Nat) (f : Step → Step) : (s.modStep h id f).chans = s.chans := rfl
@[simp] theorem State.modStep_grps (s : State) (h id : Nat) (f : Step → Step) : (s.modStep h id f).grps = s.grps := rfl
@[simp] theorem State.modStep_flash (s : State) (h id : Nat) (f : Step → Step) : (s.modStep h id f).flash = s.flash := rfl
@[simp] theorem State.modStep_links (s : State) (h id : Nat) (f : Step → Step) : (s.modStep h id f).links = s.links := rfl
@[simp] theorem State.modStep_bundleW (s : State) (h id : Nat) (f : Step → Step) : (s.modStep h id f).bundleW = s.bundleW := rfl
@[simp] theorem State.modStep_router (s : State) (h id : Nat) (f : Step → Step) : (s.modStep h id f).router = s.router := rfl
@[simp] theorem State.modStep_coord (s : State) (h id : Nat) (f : Step → Step) : (s.modStep h id f).coord = s.coord := rfl
@[simp] theorem State.modStep_power (s : State) (h id : Nat) (f : Step → Step) : (s.modStep h id f).power = s.power := rfl
@[simp] theorem State.modStep_mon (s : State) (h id : Nat) (f : Step → Step) : (s.modStep h id f).mon = s.mon := rfl
@[simp] theorem State.modStep_health (s : State) (h id : Nat) (f : Step → Step) : (s.modStep h id f).health = s.health := rfl
@[simp] theorem State.modStep_nor (s : State) (h id : Nat) (f : Step → Step) : (s.modStep h id f).nor = s.nor := rfl
@[simp] theorem State.modStep_clk (s : State) (h id : Nat) (f : Step → Step) : (s.modStep h id f).clk = s.clk := rfl
@[simp] theorem State.modStep_sec (s : State) (h id : Nat) (f : Step → Step) : (s.modStep h id f).sec = s.sec := rfl
@[simp] theorem State.modStep_snap (s : State) (h id : Nat) (f : Step → Step) : (s.modStep h id f).snap = s.snap := rfl
@[simp] theorem State.modStep_side (s : State) (h id : Nat) (f : Step → Step) : (s.modStep h id f).side = s.side := rfl
@[simp] theorem State.modStep_tx (s : State) (h id : Nat) (f : Step → Step) : (s.modStep h id f).tx = s.tx := rfl

/-! ### State.modStepAt -/

@[simp] theorem State.modStepAt_pending (s : State) (slot : Nat) (f : Step → Step) : (s.modStepAt slot f).pending = s.pending := rfl
@[simp] theorem State.modStepAt_fresh (s : State) (slot : Nat) (f : Step → Step) : (s.modStepAt slot f).fresh = s.fresh := rfl
@[simp] theorem State.modStepAt_now (s : State) (slot : Nat) (f : Step → Step) : (s.modStepAt slot f).now = s.now := rfl
@[simp] theorem State.modStepAt_mem (s : State) (slot : Nat) (f : Step → Step) : (s.modStepAt slot f).mem = s.mem := rfl
@[simp] theorem State.modStepAt_hostA (s : State) (slot : Nat) (f : Step → Step) : (s.modStepAt slot f).hostA = s.hostA := rfl
@[simp] theorem State.modStepAt_hostB (s : State) (slot : Nat) (f : Step → Step) : (s.modStepAt slot f).hostB = s.hostB := rfl
@[simp] theorem State.modStepAt_pa (s : State) (slot : Nat) (f : Step → Step) : (s.modStepAt slot f).pa = s.pa := rfl
@[simp] theorem State.modStepAt_pb (s : State) (slot : Nat) (f : Step → Step) : (s.modStepAt slot f).pb = s.pb := rfl
@[simp] theorem State.modStepAt_cmds (s : State) (slot : Nat) (f : Step → Step) : (s.modStepAt slot f).cmds = s.cmds := rfl
@[simp] theorem State.modStepAt_cmdNo (s : State) (slot : Nat) (f : Step → Step) : (s.modStepAt slot f).cmdNo = s.cmdNo := rfl
@[simp] theorem State.modStepAt_lastFetch (s : State) (slot : Nat) (f : Step → Step) : (s.modStepAt slot f).lastFetch = s.lastFetch := rfl
@[simp] theorem State.modStepAt_msPortA (s : State) (slot : Nat) (f : Step → Step) : (s.modStepAt slot f).msPortA = s.msPortA := rfl
@[simp] theorem State.modStepAt_msPortB (s : State) (slot : Nat) (f : Step → Step) : (s.modStepAt slot f).msPortB = s.msPortB := rfl
@[simp] theorem State.modStepAt_msSide (s : State) (slot : Nat) (f : Step → Step) : (s.modStepAt slot f).msSide = s.msSide := rfl
@[simp] theorem State.modStepAt_msEasel (s : State) (slot : Nat) (f : Step → Step) : (s.modStepAt slot f).msEasel = s.msEasel := rfl
@[simp] theorem State.modStepAt_accs (s : State) (slot : Nat) (f : Step → Step) : (s.modStepAt slot f).accs = s.accs := rfl
@[simp] theorem State.modStepAt_accNo (s : State) (slot : Nat) (f : Step → Step) : (s.modStepAt slot f).accNo = s.accNo := rfl
@[simp] theorem State.modStepAt_sq (s : State) (slot : Nat) (f : Step → Step) : (s.modStepAt slot f).sq = s.sq := rfl
@[simp] theorem State.modStepAt_seqMiss (s : State) (slot : Nat) (f : Step → Step) : (s.modStepAt slot f).seqMiss = s.seqMiss := rfl
@[simp] theorem State.modStepAt_lkIgnore (s : State) (slot : Nat) (f : Step → Step) : (s.modStepAt slot f).lkIgnore = s.lkIgnore := rfl
@[simp] theorem State.modStepAt_regFix (s : State) (slot : Nat) (f : Step → Step) : (s.modStepAt slot f).regFix = s.regFix := rfl
@[simp] theorem State.modStepAt_upsets (s : State) (slot : Nat) (f : Step → Step) : (s.modStepAt slot f).upsets = s.upsets := rfl
@[simp] theorem State.modStepAt_objs (s : State) (slot : Nat) (f : Step → Step) : (s.modStepAt slot f).objs = s.objs := rfl
@[simp] theorem State.modStepAt_sysExts (s : State) (slot : Nat) (f : Step → Step) : (s.modStepAt slot f).sysExts = s.sysExts := rfl
@[simp] theorem State.modStepAt_pfEnts (s : State) (slot : Nat) (f : Step → Step) : (s.modStepAt slot f).pfEnts = s.pfEnts := rfl
@[simp] theorem State.modStepAt_pfNo (s : State) (slot : Nat) (f : Step → Step) : (s.modStepAt slot f).pfNo = s.pfNo := rfl
@[simp] theorem State.modStepAt_seqs (s : State) (slot : Nat) (f : Step → Step) : (s.modStepAt slot f).seqs = s.seqs := rfl
@[simp] theorem State.modStepAt_commitNo (s : State) (slot : Nat) (f : Step → Step) : (s.modStepAt slot f).commitNo = s.commitNo := rfl
@[simp] theorem State.modStepAt_commitC (s : State) (slot : Nat) (f : Step → Step) : (s.modStepAt slot f).commitC = s.commitC := rfl
@[simp] theorem State.modStepAt_applying (s : State) (slot : Nat) (f : Step → Step) : (s.modStepAt slot f).applying = s.applying := rfl
@[simp] theorem State.modStepAt_spillPool (s : State) (slot : Nat) (f : Step → Step) : (s.modStepAt slot f).spillPool = s.spillPool := rfl
@[simp] theorem State.modStepAt_models (s : State) (slot : Nat) (f : Step → Step) : (s.modStepAt slot f).models = s.models := rfl
@[simp] theorem State.modStepAt_slices (s : State) (slot : Nat) (f : Step → Step) : (s.modStepAt slot f).slices = s.slices := rfl
@[simp] theorem State.modStepAt_mst (s : State) (slot : Nat) (f : Step → Step) : (s.modStepAt slot f).mst = s.mst := rfl
@[simp] theorem State.modStepAt_joinQ (s : State) (slot : Nat) (f : Step → Step) : (s.modStepAt slot f).joinQ = s.joinQ := rfl
@[simp] theorem State.modStepAt_tenQ (s : State) (slot : Nat) (f : Step → Step) : (s.modStepAt slot f).tenQ = s.tenQ := rfl
@[simp] theorem State.modStepAt_tenC (s : State) (slot : Nat) (f : Step → Step) : (s.modStepAt slot f).tenC = s.tenC := rfl
@[simp] theorem State.modStepAt_curTenant (s : State) (slot : Nat) (f : Step → Step) : (s.modStepAt slot f).curTenant = s.curTenant := rfl
@[simp] theorem State.modStepAt_lastTenant (s : State) (slot : Nat) (f : Step → Step) : (s.modStepAt slot f).lastTenant = s.lastTenant := rfl
@[simp] theorem State.modStepAt_turnStart (s : State) (slot : Nat) (f : Step → Step) : (s.modStepAt slot f).turnStart = s.turnStart := rfl
@[simp] theorem State.modStepAt_turnEnd (s : State) (slot : Nat) (f : Step → Step) : (s.modStepAt slot f).turnEnd = s.turnEnd := rfl
@[simp] theorem State.modStepAt_turnSteps (s : State) (slot : Nat) (f : Step → Step) : (s.modStepAt slot f).turnSteps = s.turnSteps := rfl
@[simp] theorem State.modStepAt_dies (s : State) (slot : Nat) (f : Step → Step) : (s.modStepAt slot f).dies = s.dies := rfl
@[simp] theorem State.modStepAt_d2d (s : State) (slot : Nat) (f : Step → Step) : (s.modStepAt slot f).d2d = s.d2d := rfl
@[simp] theorem State.modStepAt_noc (s : State) (slot : Nat) (f : Step → Step) : (s.modStepAt slot f).noc = s.noc := rfl
@[simp] theorem State.modStepAt_pals (s : State) (slot : Nat) (f : Step → Step) : (s.modStepAt slot f).pals = s.pals := rfl
@[simp] theorem State.modStepAt_chans (s : State) (slot : Nat) (f : Step → Step) : (s.modStepAt slot f).chans = s.chans := rfl
@[simp] theorem State.modStepAt_grps (s : State) (slot : Nat) (f : Step → Step) : (s.modStepAt slot f).grps = s.grps := rfl
@[simp] theorem State.modStepAt_flash (s : State) (slot : Nat) (f : Step → Step) : (s.modStepAt slot f).flash = s.flash := rfl
@[simp] theorem State.modStepAt_links (s : State) (slot : Nat) (f : Step → Step) : (s.modStepAt slot f).links = s.links := rfl
@[simp] theorem State.modStepAt_bundleW (s : State) (slot : Nat) (f : Step → Step) : (s.modStepAt slot f).bundleW = s.bundleW := rfl
@[simp] theorem State.modStepAt_router (s : State) (slot : Nat) (f : Step → Step) : (s.modStepAt slot f).router = s.router := rfl
@[simp] theorem State.modStepAt_coord (s : State) (slot : Nat) (f : Step → Step) : (s.modStepAt slot f).coord = s.coord := rfl
@[simp] theorem State.modStepAt_power (s : State) (slot : Nat) (f : Step → Step) : (s.modStepAt slot f).power = s.power := rfl
@[simp] theorem State.modStepAt_mon (s : State) (slot : Nat) (f : Step → Step) : (s.modStepAt slot f).mon = s.mon := rfl
@[simp] theorem State.modStepAt_health (s : State) (slot : Nat) (f : Step → Step) : (s.modStepAt slot f).health = s.health := rfl
@[simp] theorem State.modStepAt_nor (s : State) (slot : Nat) (f : Step → Step) : (s.modStepAt slot f).nor = s.nor := rfl
@[simp] theorem State.modStepAt_clk (s : State) (slot : Nat) (f : Step → Step) : (s.modStepAt slot f).clk = s.clk := rfl
@[simp] theorem State.modStepAt_sec (s : State) (slot : Nat) (f : Step → Step) : (s.modStepAt slot f).sec = s.sec := rfl
@[simp] theorem State.modStepAt_snap (s : State) (slot : Nat) (f : Step → Step) : (s.modStepAt slot f).snap = s.snap := rfl
@[simp] theorem State.modStepAt_side (s : State) (slot : Nat) (f : Step → Step) : (s.modStepAt slot f).side = s.side := rfl
@[simp] theorem State.modStepAt_tx (s : State) (slot : Nat) (f : Step → Step) : (s.modStepAt slot f).tx = s.tx := rfl

/-! ### State.modGrp -/

@[simp] theorem State.modGrp_pending (s : State) (g : Nat) (f : Grp → Grp) : (s.modGrp g f).pending = s.pending := rfl
@[simp] theorem State.modGrp_fresh (s : State) (g : Nat) (f : Grp → Grp) : (s.modGrp g f).fresh = s.fresh := rfl
@[simp] theorem State.modGrp_now (s : State) (g : Nat) (f : Grp → Grp) : (s.modGrp g f).now = s.now := rfl
@[simp] theorem State.modGrp_mem (s : State) (g : Nat) (f : Grp → Grp) : (s.modGrp g f).mem = s.mem := rfl
@[simp] theorem State.modGrp_hostA (s : State) (g : Nat) (f : Grp → Grp) : (s.modGrp g f).hostA = s.hostA := rfl
@[simp] theorem State.modGrp_hostB (s : State) (g : Nat) (f : Grp → Grp) : (s.modGrp g f).hostB = s.hostB := rfl
@[simp] theorem State.modGrp_pa (s : State) (g : Nat) (f : Grp → Grp) : (s.modGrp g f).pa = s.pa := rfl
@[simp] theorem State.modGrp_pb (s : State) (g : Nat) (f : Grp → Grp) : (s.modGrp g f).pb = s.pb := rfl
@[simp] theorem State.modGrp_cmds (s : State) (g : Nat) (f : Grp → Grp) : (s.modGrp g f).cmds = s.cmds := rfl
@[simp] theorem State.modGrp_cmdNo (s : State) (g : Nat) (f : Grp → Grp) : (s.modGrp g f).cmdNo = s.cmdNo := rfl
@[simp] theorem State.modGrp_lastFetch (s : State) (g : Nat) (f : Grp → Grp) : (s.modGrp g f).lastFetch = s.lastFetch := rfl
@[simp] theorem State.modGrp_msPortA (s : State) (g : Nat) (f : Grp → Grp) : (s.modGrp g f).msPortA = s.msPortA := rfl
@[simp] theorem State.modGrp_msPortB (s : State) (g : Nat) (f : Grp → Grp) : (s.modGrp g f).msPortB = s.msPortB := rfl
@[simp] theorem State.modGrp_msSide (s : State) (g : Nat) (f : Grp → Grp) : (s.modGrp g f).msSide = s.msSide := rfl
@[simp] theorem State.modGrp_msEasel (s : State) (g : Nat) (f : Grp → Grp) : (s.modGrp g f).msEasel = s.msEasel := rfl
@[simp] theorem State.modGrp_accs (s : State) (g : Nat) (f : Grp → Grp) : (s.modGrp g f).accs = s.accs := rfl
@[simp] theorem State.modGrp_accNo (s : State) (g : Nat) (f : Grp → Grp) : (s.modGrp g f).accNo = s.accNo := rfl
@[simp] theorem State.modGrp_sq (s : State) (g : Nat) (f : Grp → Grp) : (s.modGrp g f).sq = s.sq := rfl
@[simp] theorem State.modGrp_seqMiss (s : State) (g : Nat) (f : Grp → Grp) : (s.modGrp g f).seqMiss = s.seqMiss := rfl
@[simp] theorem State.modGrp_lkIgnore (s : State) (g : Nat) (f : Grp → Grp) : (s.modGrp g f).lkIgnore = s.lkIgnore := rfl
@[simp] theorem State.modGrp_regFix (s : State) (g : Nat) (f : Grp → Grp) : (s.modGrp g f).regFix = s.regFix := rfl
@[simp] theorem State.modGrp_upsets (s : State) (g : Nat) (f : Grp → Grp) : (s.modGrp g f).upsets = s.upsets := rfl
@[simp] theorem State.modGrp_objs (s : State) (g : Nat) (f : Grp → Grp) : (s.modGrp g f).objs = s.objs := rfl
@[simp] theorem State.modGrp_sysExts (s : State) (g : Nat) (f : Grp → Grp) : (s.modGrp g f).sysExts = s.sysExts := rfl
@[simp] theorem State.modGrp_pfEnts (s : State) (g : Nat) (f : Grp → Grp) : (s.modGrp g f).pfEnts = s.pfEnts := rfl
@[simp] theorem State.modGrp_pfNo (s : State) (g : Nat) (f : Grp → Grp) : (s.modGrp g f).pfNo = s.pfNo := rfl
@[simp] theorem State.modGrp_seqs (s : State) (g : Nat) (f : Grp → Grp) : (s.modGrp g f).seqs = s.seqs := rfl
@[simp] theorem State.modGrp_commitNo (s : State) (g : Nat) (f : Grp → Grp) : (s.modGrp g f).commitNo = s.commitNo := rfl
@[simp] theorem State.modGrp_commitC (s : State) (g : Nat) (f : Grp → Grp) : (s.modGrp g f).commitC = s.commitC := rfl
@[simp] theorem State.modGrp_applying (s : State) (g : Nat) (f : Grp → Grp) : (s.modGrp g f).applying = s.applying := rfl
@[simp] theorem State.modGrp_spillPool (s : State) (g : Nat) (f : Grp → Grp) : (s.modGrp g f).spillPool = s.spillPool := rfl
@[simp] theorem State.modGrp_models (s : State) (g : Nat) (f : Grp → Grp) : (s.modGrp g f).models = s.models := rfl
@[simp] theorem State.modGrp_slices (s : State) (g : Nat) (f : Grp → Grp) : (s.modGrp g f).slices = s.slices := rfl
@[simp] theorem State.modGrp_steps (s : State) (g : Nat) (f : Grp → Grp) : (s.modGrp g f).steps = s.steps := rfl
@[simp] theorem State.modGrp_mst (s : State) (g : Nat) (f : Grp → Grp) : (s.modGrp g f).mst = s.mst := rfl
@[simp] theorem State.modGrp_joinQ (s : State) (g : Nat) (f : Grp → Grp) : (s.modGrp g f).joinQ = s.joinQ := rfl
@[simp] theorem State.modGrp_tenQ (s : State) (g : Nat) (f : Grp → Grp) : (s.modGrp g f).tenQ = s.tenQ := rfl
@[simp] theorem State.modGrp_tenC (s : State) (g : Nat) (f : Grp → Grp) : (s.modGrp g f).tenC = s.tenC := rfl
@[simp] theorem State.modGrp_curTenant (s : State) (g : Nat) (f : Grp → Grp) : (s.modGrp g f).curTenant = s.curTenant := rfl
@[simp] theorem State.modGrp_lastTenant (s : State) (g : Nat) (f : Grp → Grp) : (s.modGrp g f).lastTenant = s.lastTenant := rfl
@[simp] theorem State.modGrp_turnStart (s : State) (g : Nat) (f : Grp → Grp) : (s.modGrp g f).turnStart = s.turnStart := rfl
@[simp] theorem State.modGrp_turnEnd (s : State) (g : Nat) (f : Grp → Grp) : (s.modGrp g f).turnEnd = s.turnEnd := rfl
@[simp] theorem State.modGrp_turnSteps (s : State) (g : Nat) (f : Grp → Grp) : (s.modGrp g f).turnSteps = s.turnSteps := rfl
@[simp] theorem State.modGrp_dies (s : State) (g : Nat) (f : Grp → Grp) : (s.modGrp g f).dies = s.dies := rfl
@[simp] theorem State.modGrp_d2d (s : State) (g : Nat) (f : Grp → Grp) : (s.modGrp g f).d2d = s.d2d := rfl
@[simp] theorem State.modGrp_noc (s : State) (g : Nat) (f : Grp → Grp) : (s.modGrp g f).noc = s.noc := rfl
@[simp] theorem State.modGrp_pals (s : State) (g : Nat) (f : Grp → Grp) : (s.modGrp g f).pals = s.pals := rfl
@[simp] theorem State.modGrp_chans (s : State) (g : Nat) (f : Grp → Grp) : (s.modGrp g f).chans = s.chans := rfl
@[simp] theorem State.modGrp_grps (s : State) (g : Nat) (f : Grp → Grp) : (s.modGrp g f).grps = s.grps.modify g f := rfl
@[simp] theorem State.modGrp_flash (s : State) (g : Nat) (f : Grp → Grp) : (s.modGrp g f).flash = s.flash := rfl
@[simp] theorem State.modGrp_links (s : State) (g : Nat) (f : Grp → Grp) : (s.modGrp g f).links = s.links := rfl
@[simp] theorem State.modGrp_bundleW (s : State) (g : Nat) (f : Grp → Grp) : (s.modGrp g f).bundleW = s.bundleW := rfl
@[simp] theorem State.modGrp_router (s : State) (g : Nat) (f : Grp → Grp) : (s.modGrp g f).router = s.router := rfl
@[simp] theorem State.modGrp_coord (s : State) (g : Nat) (f : Grp → Grp) : (s.modGrp g f).coord = s.coord := rfl
@[simp] theorem State.modGrp_power (s : State) (g : Nat) (f : Grp → Grp) : (s.modGrp g f).power = s.power := rfl
@[simp] theorem State.modGrp_mon (s : State) (g : Nat) (f : Grp → Grp) : (s.modGrp g f).mon = s.mon := rfl
@[simp] theorem State.modGrp_health (s : State) (g : Nat) (f : Grp → Grp) : (s.modGrp g f).health = s.health := rfl
@[simp] theorem State.modGrp_nor (s : State) (g : Nat) (f : Grp → Grp) : (s.modGrp g f).nor = s.nor := rfl
@[simp] theorem State.modGrp_clk (s : State) (g : Nat) (f : Grp → Grp) : (s.modGrp g f).clk = s.clk := rfl
@[simp] theorem State.modGrp_sec (s : State) (g : Nat) (f : Grp → Grp) : (s.modGrp g f).sec = s.sec := rfl
@[simp] theorem State.modGrp_snap (s : State) (g : Nat) (f : Grp → Grp) : (s.modGrp g f).snap = s.snap := rfl
@[simp] theorem State.modGrp_side (s : State) (g : Nat) (f : Grp → Grp) : (s.modGrp g f).side = s.side := rfl
@[simp] theorem State.modGrp_tx (s : State) (g : Nat) (f : Grp → Grp) : (s.modGrp g f).tx = s.tx := rfl

/-! ### State.emit -/

@[simp] theorem State.emit_pending (s : State) (x : Tx) : (s.emit x).pending = s.pending := rfl
@[simp] theorem State.emit_fresh (s : State) (x : Tx) : (s.emit x).fresh = s.fresh := rfl
@[simp] theorem State.emit_now (s : State) (x : Tx) : (s.emit x).now = s.now := rfl
@[simp] theorem State.emit_mem (s : State) (x : Tx) : (s.emit x).mem = s.mem := rfl
@[simp] theorem State.emit_hostA (s : State) (x : Tx) : (s.emit x).hostA = s.hostA := rfl
@[simp] theorem State.emit_hostB (s : State) (x : Tx) : (s.emit x).hostB = s.hostB := rfl
@[simp] theorem State.emit_pa (s : State) (x : Tx) : (s.emit x).pa = s.pa := rfl
@[simp] theorem State.emit_pb (s : State) (x : Tx) : (s.emit x).pb = s.pb := rfl
@[simp] theorem State.emit_cmds (s : State) (x : Tx) : (s.emit x).cmds = s.cmds := rfl
@[simp] theorem State.emit_cmdNo (s : State) (x : Tx) : (s.emit x).cmdNo = s.cmdNo := rfl
@[simp] theorem State.emit_lastFetch (s : State) (x : Tx) : (s.emit x).lastFetch = s.lastFetch := rfl
@[simp] theorem State.emit_msPortA (s : State) (x : Tx) : (s.emit x).msPortA = s.msPortA := rfl
@[simp] theorem State.emit_msPortB (s : State) (x : Tx) : (s.emit x).msPortB = s.msPortB := rfl
@[simp] theorem State.emit_msSide (s : State) (x : Tx) : (s.emit x).msSide = s.msSide := rfl
@[simp] theorem State.emit_msEasel (s : State) (x : Tx) : (s.emit x).msEasel = s.msEasel := rfl
@[simp] theorem State.emit_accs (s : State) (x : Tx) : (s.emit x).accs = s.accs := rfl
@[simp] theorem State.emit_accNo (s : State) (x : Tx) : (s.emit x).accNo = s.accNo := rfl
@[simp] theorem State.emit_sq (s : State) (x : Tx) : (s.emit x).sq = s.sq := rfl
@[simp] theorem State.emit_seqMiss (s : State) (x : Tx) : (s.emit x).seqMiss = s.seqMiss := rfl
@[simp] theorem State.emit_lkIgnore (s : State) (x : Tx) : (s.emit x).lkIgnore = s.lkIgnore := rfl
@[simp] theorem State.emit_regFix (s : State) (x : Tx) : (s.emit x).regFix = s.regFix := rfl
@[simp] theorem State.emit_upsets (s : State) (x : Tx) : (s.emit x).upsets = s.upsets := rfl
@[simp] theorem State.emit_objs (s : State) (x : Tx) : (s.emit x).objs = s.objs := rfl
@[simp] theorem State.emit_sysExts (s : State) (x : Tx) : (s.emit x).sysExts = s.sysExts := rfl
@[simp] theorem State.emit_pfEnts (s : State) (x : Tx) : (s.emit x).pfEnts = s.pfEnts := rfl
@[simp] theorem State.emit_pfNo (s : State) (x : Tx) : (s.emit x).pfNo = s.pfNo := rfl
@[simp] theorem State.emit_seqs (s : State) (x : Tx) : (s.emit x).seqs = s.seqs := rfl
@[simp] theorem State.emit_commitNo (s : State) (x : Tx) : (s.emit x).commitNo = s.commitNo := rfl
@[simp] theorem State.emit_commitC (s : State) (x : Tx) : (s.emit x).commitC = s.commitC := rfl
@[simp] theorem State.emit_applying (s : State) (x : Tx) : (s.emit x).applying = s.applying := rfl
@[simp] theorem State.emit_spillPool (s : State) (x : Tx) : (s.emit x).spillPool = s.spillPool := rfl
@[simp] theorem State.emit_models (s : State) (x : Tx) : (s.emit x).models = s.models := rfl
@[simp] theorem State.emit_slices (s : State) (x : Tx) : (s.emit x).slices = s.slices := rfl
@[simp] theorem State.emit_steps (s : State) (x : Tx) : (s.emit x).steps = s.steps := rfl
@[simp] theorem State.emit_mst (s : State) (x : Tx) : (s.emit x).mst = s.mst := rfl
@[simp] theorem State.emit_joinQ (s : State) (x : Tx) : (s.emit x).joinQ = s.joinQ := rfl
@[simp] theorem State.emit_tenQ (s : State) (x : Tx) : (s.emit x).tenQ = s.tenQ := rfl
@[simp] theorem State.emit_tenC (s : State) (x : Tx) : (s.emit x).tenC = s.tenC := rfl
@[simp] theorem State.emit_curTenant (s : State) (x : Tx) : (s.emit x).curTenant = s.curTenant := rfl
@[simp] theorem State.emit_lastTenant (s : State) (x : Tx) : (s.emit x).lastTenant = s.lastTenant := rfl
@[simp] theorem State.emit_turnStart (s : State) (x : Tx) : (s.emit x).turnStart = s.turnStart := rfl
@[simp] theorem State.emit_turnEnd (s : State) (x : Tx) : (s.emit x).turnEnd = s.turnEnd := rfl
@[simp] theorem State.emit_turnSteps (s : State) (x : Tx) : (s.emit x).turnSteps = s.turnSteps := rfl
@[simp] theorem State.emit_dies (s : State) (x : Tx) : (s.emit x).dies = s.dies := rfl
@[simp] theorem State.emit_d2d (s : State) (x : Tx) : (s.emit x).d2d = s.d2d := rfl
@[simp] theorem State.emit_noc (s : State) (x : Tx) : (s.emit x).noc = s.noc := rfl
@[simp] theorem State.emit_pals (s : State) (x : Tx) : (s.emit x).pals = s.pals := rfl
@[simp] theorem State.emit_chans (s : State) (x : Tx) : (s.emit x).chans = s.chans := rfl
@[simp] theorem State.emit_grps (s : State) (x : Tx) : (s.emit x).grps = s.grps := rfl
@[simp] theorem State.emit_flash (s : State) (x : Tx) : (s.emit x).flash = s.flash := rfl
@[simp] theorem State.emit_links (s : State) (x : Tx) : (s.emit x).links = s.links := rfl
@[simp] theorem State.emit_bundleW (s : State) (x : Tx) : (s.emit x).bundleW = s.bundleW := rfl
@[simp] theorem State.emit_router (s : State) (x : Tx) : (s.emit x).router = s.router := rfl
@[simp] theorem State.emit_coord (s : State) (x : Tx) : (s.emit x).coord = s.coord := rfl
@[simp] theorem State.emit_power (s : State) (x : Tx) : (s.emit x).power = s.power := rfl
@[simp] theorem State.emit_mon (s : State) (x : Tx) : (s.emit x).mon = s.mon := rfl
@[simp] theorem State.emit_health (s : State) (x : Tx) : (s.emit x).health = s.health := rfl
@[simp] theorem State.emit_nor (s : State) (x : Tx) : (s.emit x).nor = s.nor := rfl
@[simp] theorem State.emit_clk (s : State) (x : Tx) : (s.emit x).clk = s.clk := rfl
@[simp] theorem State.emit_sec (s : State) (x : Tx) : (s.emit x).sec = s.sec := rfl
@[simp] theorem State.emit_snap (s : State) (x : Tx) : (s.emit x).snap = s.snap := rfl
@[simp] theorem State.emit_side (s : State) (x : Tx) : (s.emit x).side = s.side := rfl
@[simp] theorem State.emit_tx (s : State) (x : Tx) : (s.emit x).tx = s.tx ++ [x] := rfl

/-! ### State.emits -/

@[simp] theorem State.emits_pending (s : State) (l : List Tx) : (s.emits l).pending = s.pending := rfl
@[simp] theorem State.emits_fresh (s : State) (l : List Tx) : (s.emits l).fresh = s.fresh := rfl
@[simp] theorem State.emits_now (s : State) (l : List Tx) : (s.emits l).now = s.now := rfl
@[simp] theorem State.emits_mem (s : State) (l : List Tx) : (s.emits l).mem = s.mem := rfl
@[simp] theorem State.emits_hostA (s : State) (l : List Tx) : (s.emits l).hostA = s.hostA := rfl
@[simp] theorem State.emits_hostB (s : State) (l : List Tx) : (s.emits l).hostB = s.hostB := rfl
@[simp] theorem State.emits_pa (s : State) (l : List Tx) : (s.emits l).pa = s.pa := rfl
@[simp] theorem State.emits_pb (s : State) (l : List Tx) : (s.emits l).pb = s.pb := rfl
@[simp] theorem State.emits_cmds (s : State) (l : List Tx) : (s.emits l).cmds = s.cmds := rfl
@[simp] theorem State.emits_cmdNo (s : State) (l : List Tx) : (s.emits l).cmdNo = s.cmdNo := rfl
@[simp] theorem State.emits_lastFetch (s : State) (l : List Tx) : (s.emits l).lastFetch = s.lastFetch := rfl
@[simp] theorem State.emits_msPortA (s : State) (l : List Tx) : (s.emits l).msPortA = s.msPortA := rfl
@[simp] theorem State.emits_msPortB (s : State) (l : List Tx) : (s.emits l).msPortB = s.msPortB := rfl
@[simp] theorem State.emits_msSide (s : State) (l : List Tx) : (s.emits l).msSide = s.msSide := rfl
@[simp] theorem State.emits_msEasel (s : State) (l : List Tx) : (s.emits l).msEasel = s.msEasel := rfl
@[simp] theorem State.emits_accs (s : State) (l : List Tx) : (s.emits l).accs = s.accs := rfl
@[simp] theorem State.emits_accNo (s : State) (l : List Tx) : (s.emits l).accNo = s.accNo := rfl
@[simp] theorem State.emits_sq (s : State) (l : List Tx) : (s.emits l).sq = s.sq := rfl
@[simp] theorem State.emits_seqMiss (s : State) (l : List Tx) : (s.emits l).seqMiss = s.seqMiss := rfl
@[simp] theorem State.emits_lkIgnore (s : State) (l : List Tx) : (s.emits l).lkIgnore = s.lkIgnore := rfl
@[simp] theorem State.emits_regFix (s : State) (l : List Tx) : (s.emits l).regFix = s.regFix := rfl
@[simp] theorem State.emits_upsets (s : State) (l : List Tx) : (s.emits l).upsets = s.upsets := rfl
@[simp] theorem State.emits_objs (s : State) (l : List Tx) : (s.emits l).objs = s.objs := rfl
@[simp] theorem State.emits_sysExts (s : State) (l : List Tx) : (s.emits l).sysExts = s.sysExts := rfl
@[simp] theorem State.emits_pfEnts (s : State) (l : List Tx) : (s.emits l).pfEnts = s.pfEnts := rfl
@[simp] theorem State.emits_pfNo (s : State) (l : List Tx) : (s.emits l).pfNo = s.pfNo := rfl
@[simp] theorem State.emits_seqs (s : State) (l : List Tx) : (s.emits l).seqs = s.seqs := rfl
@[simp] theorem State.emits_commitNo (s : State) (l : List Tx) : (s.emits l).commitNo = s.commitNo := rfl
@[simp] theorem State.emits_commitC (s : State) (l : List Tx) : (s.emits l).commitC = s.commitC := rfl
@[simp] theorem State.emits_applying (s : State) (l : List Tx) : (s.emits l).applying = s.applying := rfl
@[simp] theorem State.emits_spillPool (s : State) (l : List Tx) : (s.emits l).spillPool = s.spillPool := rfl
@[simp] theorem State.emits_models (s : State) (l : List Tx) : (s.emits l).models = s.models := rfl
@[simp] theorem State.emits_slices (s : State) (l : List Tx) : (s.emits l).slices = s.slices := rfl
@[simp] theorem State.emits_steps (s : State) (l : List Tx) : (s.emits l).steps = s.steps := rfl
@[simp] theorem State.emits_mst (s : State) (l : List Tx) : (s.emits l).mst = s.mst := rfl
@[simp] theorem State.emits_joinQ (s : State) (l : List Tx) : (s.emits l).joinQ = s.joinQ := rfl
@[simp] theorem State.emits_tenQ (s : State) (l : List Tx) : (s.emits l).tenQ = s.tenQ := rfl
@[simp] theorem State.emits_tenC (s : State) (l : List Tx) : (s.emits l).tenC = s.tenC := rfl
@[simp] theorem State.emits_curTenant (s : State) (l : List Tx) : (s.emits l).curTenant = s.curTenant := rfl
@[simp] theorem State.emits_lastTenant (s : State) (l : List Tx) : (s.emits l).lastTenant = s.lastTenant := rfl
@[simp] theorem State.emits_turnStart (s : State) (l : List Tx) : (s.emits l).turnStart = s.turnStart := rfl
@[simp] theorem State.emits_turnEnd (s : State) (l : List Tx) : (s.emits l).turnEnd = s.turnEnd := rfl
@[simp] theorem State.emits_turnSteps (s : State) (l : List Tx) : (s.emits l).turnSteps = s.turnSteps := rfl
@[simp] theorem State.emits_dies (s : State) (l : List Tx) : (s.emits l).dies = s.dies := rfl
@[simp] theorem State.emits_d2d (s : State) (l : List Tx) : (s.emits l).d2d = s.d2d := rfl
@[simp] theorem State.emits_noc (s : State) (l : List Tx) : (s.emits l).noc = s.noc := rfl
@[simp] theorem State.emits_pals (s : State) (l : List Tx) : (s.emits l).pals = s.pals := rfl
@[simp] theorem State.emits_chans (s : State) (l : List Tx) : (s.emits l).chans = s.chans := rfl
@[simp] theorem State.emits_grps (s : State) (l : List Tx) : (s.emits l).grps = s.grps := rfl
@[simp] theorem State.emits_flash (s : State) (l : List Tx) : (s.emits l).flash = s.flash := rfl
@[simp] theorem State.emits_links (s : State) (l : List Tx) : (s.emits l).links = s.links := rfl
@[simp] theorem State.emits_bundleW (s : State) (l : List Tx) : (s.emits l).bundleW = s.bundleW := rfl
@[simp] theorem State.emits_router (s : State) (l : List Tx) : (s.emits l).router = s.router := rfl
@[simp] theorem State.emits_coord (s : State) (l : List Tx) : (s.emits l).coord = s.coord := rfl
@[simp] theorem State.emits_power (s : State) (l : List Tx) : (s.emits l).power = s.power := rfl
@[simp] theorem State.emits_mon (s : State) (l : List Tx) : (s.emits l).mon = s.mon := rfl
@[simp] theorem State.emits_health (s : State) (l : List Tx) : (s.emits l).health = s.health := rfl
@[simp] theorem State.emits_nor (s : State) (l : List Tx) : (s.emits l).nor = s.nor := rfl
@[simp] theorem State.emits_clk (s : State) (l : List Tx) : (s.emits l).clk = s.clk := rfl
@[simp] theorem State.emits_sec (s : State) (l : List Tx) : (s.emits l).sec = s.sec := rfl
@[simp] theorem State.emits_snap (s : State) (l : List Tx) : (s.emits l).snap = s.snap := rfl
@[simp] theorem State.emits_side (s : State) (l : List Tx) : (s.emits l).side = s.side := rfl
@[simp] theorem State.emits_tx (s : State) (l : List Tx) : (s.emits l).tx = s.tx ++ l := rfl

/-! ### State.modWrite -/

@[simp] theorem State.modWrite_pending (s : State) (a : Nat) (b : List Byte) : (s.modWrite a b).pending = s.pending := rfl
@[simp] theorem State.modWrite_fresh (s : State) (a : Nat) (b : List Byte) : (s.modWrite a b).fresh = s.fresh := rfl
@[simp] theorem State.modWrite_now (s : State) (a : Nat) (b : List Byte) : (s.modWrite a b).now = s.now := rfl
@[simp] theorem State.modWrite_mem (s : State) (a : Nat) (b : List Byte) : (s.modWrite a b).mem = Memory.write s.mem a b := rfl
@[simp] theorem State.modWrite_hostA (s : State) (a : Nat) (b : List Byte) : (s.modWrite a b).hostA = s.hostA := rfl
@[simp] theorem State.modWrite_hostB (s : State) (a : Nat) (b : List Byte) : (s.modWrite a b).hostB = s.hostB := rfl
@[simp] theorem State.modWrite_pa (s : State) (a : Nat) (b : List Byte) : (s.modWrite a b).pa = s.pa := rfl
@[simp] theorem State.modWrite_pb (s : State) (a : Nat) (b : List Byte) : (s.modWrite a b).pb = s.pb := rfl
@[simp] theorem State.modWrite_cmds (s : State) (a : Nat) (b : List Byte) : (s.modWrite a b).cmds = s.cmds := rfl
@[simp] theorem State.modWrite_cmdNo (s : State) (a : Nat) (b : List Byte) : (s.modWrite a b).cmdNo = s.cmdNo := rfl
@[simp] theorem State.modWrite_lastFetch (s : State) (a : Nat) (b : List Byte) : (s.modWrite a b).lastFetch = s.lastFetch := rfl
@[simp] theorem State.modWrite_msPortA (s : State) (a : Nat) (b : List Byte) : (s.modWrite a b).msPortA = s.msPortA := rfl
@[simp] theorem State.modWrite_msPortB (s : State) (a : Nat) (b : List Byte) : (s.modWrite a b).msPortB = s.msPortB := rfl
@[simp] theorem State.modWrite_msSide (s : State) (a : Nat) (b : List Byte) : (s.modWrite a b).msSide = s.msSide := rfl
@[simp] theorem State.modWrite_msEasel (s : State) (a : Nat) (b : List Byte) : (s.modWrite a b).msEasel = s.msEasel := rfl
@[simp] theorem State.modWrite_accs (s : State) (a : Nat) (b : List Byte) : (s.modWrite a b).accs = s.accs := rfl
@[simp] theorem State.modWrite_accNo (s : State) (a : Nat) (b : List Byte) : (s.modWrite a b).accNo = s.accNo := rfl
@[simp] theorem State.modWrite_sq (s : State) (a : Nat) (b : List Byte) : (s.modWrite a b).sq = s.sq := rfl
@[simp] theorem State.modWrite_seqMiss (s : State) (a : Nat) (b : List Byte) : (s.modWrite a b).seqMiss = s.seqMiss := rfl
@[simp] theorem State.modWrite_lkIgnore (s : State) (a : Nat) (b : List Byte) : (s.modWrite a b).lkIgnore = s.lkIgnore := rfl
@[simp] theorem State.modWrite_regFix (s : State) (a : Nat) (b : List Byte) : (s.modWrite a b).regFix = s.regFix := rfl
@[simp] theorem State.modWrite_upsets (s : State) (a : Nat) (b : List Byte) : (s.modWrite a b).upsets = s.upsets := rfl
@[simp] theorem State.modWrite_objs (s : State) (a : Nat) (b : List Byte) : (s.modWrite a b).objs = s.objs := rfl
@[simp] theorem State.modWrite_sysExts (s : State) (a : Nat) (b : List Byte) : (s.modWrite a b).sysExts = s.sysExts := rfl
@[simp] theorem State.modWrite_pfEnts (s : State) (a : Nat) (b : List Byte) : (s.modWrite a b).pfEnts = s.pfEnts := rfl
@[simp] theorem State.modWrite_pfNo (s : State) (a : Nat) (b : List Byte) : (s.modWrite a b).pfNo = s.pfNo := rfl
@[simp] theorem State.modWrite_seqs (s : State) (a : Nat) (b : List Byte) : (s.modWrite a b).seqs = s.seqs := rfl
@[simp] theorem State.modWrite_commitNo (s : State) (a : Nat) (b : List Byte) : (s.modWrite a b).commitNo = s.commitNo := rfl
@[simp] theorem State.modWrite_commitC (s : State) (a : Nat) (b : List Byte) : (s.modWrite a b).commitC = s.commitC := rfl
@[simp] theorem State.modWrite_applying (s : State) (a : Nat) (b : List Byte) : (s.modWrite a b).applying = s.applying := rfl
@[simp] theorem State.modWrite_spillPool (s : State) (a : Nat) (b : List Byte) : (s.modWrite a b).spillPool = s.spillPool := rfl
@[simp] theorem State.modWrite_models (s : State) (a : Nat) (b : List Byte) : (s.modWrite a b).models = s.models := rfl
@[simp] theorem State.modWrite_slices (s : State) (a : Nat) (b : List Byte) : (s.modWrite a b).slices = s.slices := rfl
@[simp] theorem State.modWrite_steps (s : State) (a : Nat) (b : List Byte) : (s.modWrite a b).steps = s.steps := rfl
@[simp] theorem State.modWrite_mst (s : State) (a : Nat) (b : List Byte) : (s.modWrite a b).mst = s.mst := rfl
@[simp] theorem State.modWrite_joinQ (s : State) (a : Nat) (b : List Byte) : (s.modWrite a b).joinQ = s.joinQ := rfl
@[simp] theorem State.modWrite_tenQ (s : State) (a : Nat) (b : List Byte) : (s.modWrite a b).tenQ = s.tenQ := rfl
@[simp] theorem State.modWrite_tenC (s : State) (a : Nat) (b : List Byte) : (s.modWrite a b).tenC = s.tenC := rfl
@[simp] theorem State.modWrite_curTenant (s : State) (a : Nat) (b : List Byte) : (s.modWrite a b).curTenant = s.curTenant := rfl
@[simp] theorem State.modWrite_lastTenant (s : State) (a : Nat) (b : List Byte) : (s.modWrite a b).lastTenant = s.lastTenant := rfl
@[simp] theorem State.modWrite_turnStart (s : State) (a : Nat) (b : List Byte) : (s.modWrite a b).turnStart = s.turnStart := rfl
@[simp] theorem State.modWrite_turnEnd (s : State) (a : Nat) (b : List Byte) : (s.modWrite a b).turnEnd = s.turnEnd := rfl
@[simp] theorem State.modWrite_turnSteps (s : State) (a : Nat) (b : List Byte) : (s.modWrite a b).turnSteps = s.turnSteps := rfl
@[simp] theorem State.modWrite_dies (s : State) (a : Nat) (b : List Byte) : (s.modWrite a b).dies = s.dies := rfl
@[simp] theorem State.modWrite_d2d (s : State) (a : Nat) (b : List Byte) : (s.modWrite a b).d2d = s.d2d := rfl
@[simp] theorem State.modWrite_noc (s : State) (a : Nat) (b : List Byte) : (s.modWrite a b).noc = s.noc := rfl
@[simp] theorem State.modWrite_pals (s : State) (a : Nat) (b : List Byte) : (s.modWrite a b).pals = s.pals := rfl
@[simp] theorem State.modWrite_chans (s : State) (a : Nat) (b : List Byte) : (s.modWrite a b).chans = s.chans := rfl
@[simp] theorem State.modWrite_grps (s : State) (a : Nat) (b : List Byte) : (s.modWrite a b).grps = s.grps := rfl
@[simp] theorem State.modWrite_flash (s : State) (a : Nat) (b : List Byte) : (s.modWrite a b).flash = s.flash := rfl
@[simp] theorem State.modWrite_links (s : State) (a : Nat) (b : List Byte) : (s.modWrite a b).links = s.links := rfl
@[simp] theorem State.modWrite_bundleW (s : State) (a : Nat) (b : List Byte) : (s.modWrite a b).bundleW = s.bundleW := rfl
@[simp] theorem State.modWrite_router (s : State) (a : Nat) (b : List Byte) : (s.modWrite a b).router = s.router := rfl
@[simp] theorem State.modWrite_coord (s : State) (a : Nat) (b : List Byte) : (s.modWrite a b).coord = s.coord := rfl
@[simp] theorem State.modWrite_power (s : State) (a : Nat) (b : List Byte) : (s.modWrite a b).power = s.power := rfl
@[simp] theorem State.modWrite_mon (s : State) (a : Nat) (b : List Byte) : (s.modWrite a b).mon = s.mon := rfl
@[simp] theorem State.modWrite_health (s : State) (a : Nat) (b : List Byte) : (s.modWrite a b).health = s.health := rfl
@[simp] theorem State.modWrite_nor (s : State) (a : Nat) (b : List Byte) : (s.modWrite a b).nor = s.nor := rfl
@[simp] theorem State.modWrite_clk (s : State) (a : Nat) (b : List Byte) : (s.modWrite a b).clk = s.clk := rfl
@[simp] theorem State.modWrite_sec (s : State) (a : Nat) (b : List Byte) : (s.modWrite a b).sec = s.sec := rfl
@[simp] theorem State.modWrite_snap (s : State) (a : Nat) (b : List Byte) : (s.modWrite a b).snap = s.snap := rfl
@[simp] theorem State.modWrite_side (s : State) (a : Nat) (b : List Byte) : (s.modWrite a b).side = s.side := rfl
@[simp] theorem State.modWrite_tx (s : State) (a : Nat) (b : List Byte) : (s.modWrite a b).tx = s.tx := rfl

/-! ### Ports, masters and host memory -/

@[simp] theorem State.setPort_pending (s : State) (p : Port) (x : PortSt) : (s.setPort p x).pending = s.pending := by cases p <;> rfl
@[simp] theorem State.setPort_fresh (s : State) (p : Port) (x : PortSt) : (s.setPort p x).fresh = s.fresh := by cases p <;> rfl
@[simp] theorem State.setPort_now (s : State) (p : Port) (x : PortSt) : (s.setPort p x).now = s.now := by cases p <;> rfl
@[simp] theorem State.setPort_mem (s : State) (p : Port) (x : PortSt) : (s.setPort p x).mem = s.mem := by cases p <;> rfl
@[simp] theorem State.setPort_hostA (s : State) (p : Port) (x : PortSt) : (s.setPort p x).hostA = s.hostA := by cases p <;> rfl
@[simp] theorem State.setPort_hostB (s : State) (p : Port) (x : PortSt) : (s.setPort p x).hostB = s.hostB := by cases p <;> rfl
@[simp] theorem State.setPort_cmds (s : State) (p : Port) (x : PortSt) : (s.setPort p x).cmds = s.cmds := by cases p <;> rfl
@[simp] theorem State.setPort_cmdNo (s : State) (p : Port) (x : PortSt) : (s.setPort p x).cmdNo = s.cmdNo := by cases p <;> rfl
@[simp] theorem State.setPort_lastFetch (s : State) (p : Port) (x : PortSt) : (s.setPort p x).lastFetch = s.lastFetch := by cases p <;> rfl
@[simp] theorem State.setPort_msPortA (s : State) (p : Port) (x : PortSt) : (s.setPort p x).msPortA = s.msPortA := by cases p <;> rfl
@[simp] theorem State.setPort_msPortB (s : State) (p : Port) (x : PortSt) : (s.setPort p x).msPortB = s.msPortB := by cases p <;> rfl
@[simp] theorem State.setPort_msSide (s : State) (p : Port) (x : PortSt) : (s.setPort p x).msSide = s.msSide := by cases p <;> rfl
@[simp] theorem State.setPort_msEasel (s : State) (p : Port) (x : PortSt) : (s.setPort p x).msEasel = s.msEasel := by cases p <;> rfl
@[simp] theorem State.setPort_accs (s : State) (p : Port) (x : PortSt) : (s.setPort p x).accs = s.accs := by cases p <;> rfl
@[simp] theorem State.setPort_accNo (s : State) (p : Port) (x : PortSt) : (s.setPort p x).accNo = s.accNo := by cases p <;> rfl
@[simp] theorem State.setPort_sq (s : State) (p : Port) (x : PortSt) : (s.setPort p x).sq = s.sq := by cases p <;> rfl
@[simp] theorem State.setPort_seqMiss (s : State) (p : Port) (x : PortSt) : (s.setPort p x).seqMiss = s.seqMiss := by cases p <;> rfl
@[simp] theorem State.setPort_lkIgnore (s : State) (p : Port) (x : PortSt) : (s.setPort p x).lkIgnore = s.lkIgnore := by cases p <;> rfl
@[simp] theorem State.setPort_regFix (s : State) (p : Port) (x : PortSt) : (s.setPort p x).regFix = s.regFix := by cases p <;> rfl
@[simp] theorem State.setPort_upsets (s : State) (p : Port) (x : PortSt) : (s.setPort p x).upsets = s.upsets := by cases p <;> rfl
@[simp] theorem State.setPort_objs (s : State) (p : Port) (x : PortSt) : (s.setPort p x).objs = s.objs := by cases p <;> rfl
@[simp] theorem State.setPort_sysExts (s : State) (p : Port) (x : PortSt) : (s.setPort p x).sysExts = s.sysExts := by cases p <;> rfl
@[simp] theorem State.setPort_pfEnts (s : State) (p : Port) (x : PortSt) : (s.setPort p x).pfEnts = s.pfEnts := by cases p <;> rfl
@[simp] theorem State.setPort_pfNo (s : State) (p : Port) (x : PortSt) : (s.setPort p x).pfNo = s.pfNo := by cases p <;> rfl
@[simp] theorem State.setPort_seqs (s : State) (p : Port) (x : PortSt) : (s.setPort p x).seqs = s.seqs := by cases p <;> rfl
@[simp] theorem State.setPort_commitNo (s : State) (p : Port) (x : PortSt) : (s.setPort p x).commitNo = s.commitNo := by cases p <;> rfl
@[simp] theorem State.setPort_commitC (s : State) (p : Port) (x : PortSt) : (s.setPort p x).commitC = s.commitC := by cases p <;> rfl
@[simp] theorem State.setPort_applying (s : State) (p : Port) (x : PortSt) : (s.setPort p x).applying = s.applying := by cases p <;> rfl
@[simp] theorem State.setPort_spillPool (s : State) (p : Port) (x : PortSt) : (s.setPort p x).spillPool = s.spillPool := by cases p <;> rfl
@[simp] theorem State.setPort_models (s : State) (p : Port) (x : PortSt) : (s.setPort p x).models = s.models := by cases p <;> rfl
@[simp] theorem State.setPort_slices (s : State) (p : Port) (x : PortSt) : (s.setPort p x).slices = s.slices := by cases p <;> rfl
@[simp] theorem State.setPort_steps (s : State) (p : Port) (x : PortSt) : (s.setPort p x).steps = s.steps := by cases p <;> rfl
@[simp] theorem State.setPort_mst (s : State) (p : Port) (x : PortSt) : (s.setPort p x).mst = s.mst := by cases p <;> rfl
@[simp] theorem State.setPort_joinQ (s : State) (p : Port) (x : PortSt) : (s.setPort p x).joinQ = s.joinQ := by cases p <;> rfl
@[simp] theorem State.setPort_tenQ (s : State) (p : Port) (x : PortSt) : (s.setPort p x).tenQ = s.tenQ := by cases p <;> rfl
@[simp] theorem State.setPort_tenC (s : State) (p : Port) (x : PortSt) : (s.setPort p x).tenC = s.tenC := by cases p <;> rfl
@[simp] theorem State.setPort_curTenant (s : State) (p : Port) (x : PortSt) : (s.setPort p x).curTenant = s.curTenant := by cases p <;> rfl
@[simp] theorem State.setPort_lastTenant (s : State) (p : Port) (x : PortSt) : (s.setPort p x).lastTenant = s.lastTenant := by cases p <;> rfl
@[simp] theorem State.setPort_turnStart (s : State) (p : Port) (x : PortSt) : (s.setPort p x).turnStart = s.turnStart := by cases p <;> rfl
@[simp] theorem State.setPort_turnEnd (s : State) (p : Port) (x : PortSt) : (s.setPort p x).turnEnd = s.turnEnd := by cases p <;> rfl
@[simp] theorem State.setPort_turnSteps (s : State) (p : Port) (x : PortSt) : (s.setPort p x).turnSteps = s.turnSteps := by cases p <;> rfl
@[simp] theorem State.setPort_dies (s : State) (p : Port) (x : PortSt) : (s.setPort p x).dies = s.dies := by cases p <;> rfl
@[simp] theorem State.setPort_d2d (s : State) (p : Port) (x : PortSt) : (s.setPort p x).d2d = s.d2d := by cases p <;> rfl
@[simp] theorem State.setPort_noc (s : State) (p : Port) (x : PortSt) : (s.setPort p x).noc = s.noc := by cases p <;> rfl
@[simp] theorem State.setPort_pals (s : State) (p : Port) (x : PortSt) : (s.setPort p x).pals = s.pals := by cases p <;> rfl
@[simp] theorem State.setPort_chans (s : State) (p : Port) (x : PortSt) : (s.setPort p x).chans = s.chans := by cases p <;> rfl
@[simp] theorem State.setPort_grps (s : State) (p : Port) (x : PortSt) : (s.setPort p x).grps = s.grps := by cases p <;> rfl
@[simp] theorem State.setPort_flash (s : State) (p : Port) (x : PortSt) : (s.setPort p x).flash = s.flash := by cases p <;> rfl
@[simp] theorem State.setPort_links (s : State) (p : Port) (x : PortSt) : (s.setPort p x).links = s.links := by cases p <;> rfl
@[simp] theorem State.setPort_bundleW (s : State) (p : Port) (x : PortSt) : (s.setPort p x).bundleW = s.bundleW := by cases p <;> rfl
@[simp] theorem State.setPort_router (s : State) (p : Port) (x : PortSt) : (s.setPort p x).router = s.router := by cases p <;> rfl
@[simp] theorem State.setPort_coord (s : State) (p : Port) (x : PortSt) : (s.setPort p x).coord = s.coord := by cases p <;> rfl
@[simp] theorem State.setPort_power (s : State) (p : Port) (x : PortSt) : (s.setPort p x).power = s.power := by cases p <;> rfl
@[simp] theorem State.setPort_mon (s : State) (p : Port) (x : PortSt) : (s.setPort p x).mon = s.mon := by cases p <;> rfl
@[simp] theorem State.setPort_health (s : State) (p : Port) (x : PortSt) : (s.setPort p x).health = s.health := by cases p <;> rfl
@[simp] theorem State.setPort_nor (s : State) (p : Port) (x : PortSt) : (s.setPort p x).nor = s.nor := by cases p <;> rfl
@[simp] theorem State.setPort_clk (s : State) (p : Port) (x : PortSt) : (s.setPort p x).clk = s.clk := by cases p <;> rfl
@[simp] theorem State.setPort_sec (s : State) (p : Port) (x : PortSt) : (s.setPort p x).sec = s.sec := by cases p <;> rfl
@[simp] theorem State.setPort_snap (s : State) (p : Port) (x : PortSt) : (s.setPort p x).snap = s.snap := by cases p <;> rfl
@[simp] theorem State.setPort_side (s : State) (p : Port) (x : PortSt) : (s.setPort p x).side = s.side := by cases p <;> rfl
@[simp] theorem State.setPort_tx (s : State) (p : Port) (x : PortSt) : (s.setPort p x).tx = s.tx := by cases p <;> rfl
@[simp] theorem State.modPort_pending (s : State) (p : Port) (g : PortSt → PortSt) : (s.modPort p g).pending = s.pending := by cases p <;> rfl
@[simp] theorem State.modPort_fresh (s : State) (p : Port) (g : PortSt → PortSt) : (s.modPort p g).fresh = s.fresh := by cases p <;> rfl
@[simp] theorem State.modPort_now (s : State) (p : Port) (g : PortSt → PortSt) : (s.modPort p g).now = s.now := by cases p <;> rfl
@[simp] theorem State.modPort_mem (s : State) (p : Port) (g : PortSt → PortSt) : (s.modPort p g).mem = s.mem := by cases p <;> rfl
@[simp] theorem State.modPort_hostA (s : State) (p : Port) (g : PortSt → PortSt) : (s.modPort p g).hostA = s.hostA := by cases p <;> rfl
@[simp] theorem State.modPort_hostB (s : State) (p : Port) (g : PortSt → PortSt) : (s.modPort p g).hostB = s.hostB := by cases p <;> rfl
@[simp] theorem State.modPort_cmds (s : State) (p : Port) (g : PortSt → PortSt) : (s.modPort p g).cmds = s.cmds := by cases p <;> rfl
@[simp] theorem State.modPort_cmdNo (s : State) (p : Port) (g : PortSt → PortSt) : (s.modPort p g).cmdNo = s.cmdNo := by cases p <;> rfl
@[simp] theorem State.modPort_lastFetch (s : State) (p : Port) (g : PortSt → PortSt) : (s.modPort p g).lastFetch = s.lastFetch := by cases p <;> rfl
@[simp] theorem State.modPort_msPortA (s : State) (p : Port) (g : PortSt → PortSt) : (s.modPort p g).msPortA = s.msPortA := by cases p <;> rfl
@[simp] theorem State.modPort_msPortB (s : State) (p : Port) (g : PortSt → PortSt) : (s.modPort p g).msPortB = s.msPortB := by cases p <;> rfl
@[simp] theorem State.modPort_msSide (s : State) (p : Port) (g : PortSt → PortSt) : (s.modPort p g).msSide = s.msSide := by cases p <;> rfl
@[simp] theorem State.modPort_msEasel (s : State) (p : Port) (g : PortSt → PortSt) : (s.modPort p g).msEasel = s.msEasel := by cases p <;> rfl
@[simp] theorem State.modPort_accs (s : State) (p : Port) (g : PortSt → PortSt) : (s.modPort p g).accs = s.accs := by cases p <;> rfl
@[simp] theorem State.modPort_accNo (s : State) (p : Port) (g : PortSt → PortSt) : (s.modPort p g).accNo = s.accNo := by cases p <;> rfl
@[simp] theorem State.modPort_sq (s : State) (p : Port) (g : PortSt → PortSt) : (s.modPort p g).sq = s.sq := by cases p <;> rfl
@[simp] theorem State.modPort_seqMiss (s : State) (p : Port) (g : PortSt → PortSt) : (s.modPort p g).seqMiss = s.seqMiss := by cases p <;> rfl
@[simp] theorem State.modPort_lkIgnore (s : State) (p : Port) (g : PortSt → PortSt) : (s.modPort p g).lkIgnore = s.lkIgnore := by cases p <;> rfl
@[simp] theorem State.modPort_regFix (s : State) (p : Port) (g : PortSt → PortSt) : (s.modPort p g).regFix = s.regFix := by cases p <;> rfl
@[simp] theorem State.modPort_upsets (s : State) (p : Port) (g : PortSt → PortSt) : (s.modPort p g).upsets = s.upsets := by cases p <;> rfl
@[simp] theorem State.modPort_objs (s : State) (p : Port) (g : PortSt → PortSt) : (s.modPort p g).objs = s.objs := by cases p <;> rfl
@[simp] theorem State.modPort_sysExts (s : State) (p : Port) (g : PortSt → PortSt) : (s.modPort p g).sysExts = s.sysExts := by cases p <;> rfl
@[simp] theorem State.modPort_pfEnts (s : State) (p : Port) (g : PortSt → PortSt) : (s.modPort p g).pfEnts = s.pfEnts := by cases p <;> rfl
@[simp] theorem State.modPort_pfNo (s : State) (p : Port) (g : PortSt → PortSt) : (s.modPort p g).pfNo = s.pfNo := by cases p <;> rfl
@[simp] theorem State.modPort_seqs (s : State) (p : Port) (g : PortSt → PortSt) : (s.modPort p g).seqs = s.seqs := by cases p <;> rfl
@[simp] theorem State.modPort_commitNo (s : State) (p : Port) (g : PortSt → PortSt) : (s.modPort p g).commitNo = s.commitNo := by cases p <;> rfl
@[simp] theorem State.modPort_commitC (s : State) (p : Port) (g : PortSt → PortSt) : (s.modPort p g).commitC = s.commitC := by cases p <;> rfl
@[simp] theorem State.modPort_applying (s : State) (p : Port) (g : PortSt → PortSt) : (s.modPort p g).applying = s.applying := by cases p <;> rfl
@[simp] theorem State.modPort_spillPool (s : State) (p : Port) (g : PortSt → PortSt) : (s.modPort p g).spillPool = s.spillPool := by cases p <;> rfl
@[simp] theorem State.modPort_models (s : State) (p : Port) (g : PortSt → PortSt) : (s.modPort p g).models = s.models := by cases p <;> rfl
@[simp] theorem State.modPort_slices (s : State) (p : Port) (g : PortSt → PortSt) : (s.modPort p g).slices = s.slices := by cases p <;> rfl
@[simp] theorem State.modPort_steps (s : State) (p : Port) (g : PortSt → PortSt) : (s.modPort p g).steps = s.steps := by cases p <;> rfl
@[simp] theorem State.modPort_mst (s : State) (p : Port) (g : PortSt → PortSt) : (s.modPort p g).mst = s.mst := by cases p <;> rfl
@[simp] theorem State.modPort_joinQ (s : State) (p : Port) (g : PortSt → PortSt) : (s.modPort p g).joinQ = s.joinQ := by cases p <;> rfl
@[simp] theorem State.modPort_tenQ (s : State) (p : Port) (g : PortSt → PortSt) : (s.modPort p g).tenQ = s.tenQ := by cases p <;> rfl
@[simp] theorem State.modPort_tenC (s : State) (p : Port) (g : PortSt → PortSt) : (s.modPort p g).tenC = s.tenC := by cases p <;> rfl
@[simp] theorem State.modPort_curTenant (s : State) (p : Port) (g : PortSt → PortSt) : (s.modPort p g).curTenant = s.curTenant := by cases p <;> rfl
@[simp] theorem State.modPort_lastTenant (s : State) (p : Port) (g : PortSt → PortSt) : (s.modPort p g).lastTenant = s.lastTenant := by cases p <;> rfl
@[simp] theorem State.modPort_turnStart (s : State) (p : Port) (g : PortSt → PortSt) : (s.modPort p g).turnStart = s.turnStart := by cases p <;> rfl
@[simp] theorem State.modPort_turnEnd (s : State) (p : Port) (g : PortSt → PortSt) : (s.modPort p g).turnEnd = s.turnEnd := by cases p <;> rfl
@[simp] theorem State.modPort_turnSteps (s : State) (p : Port) (g : PortSt → PortSt) : (s.modPort p g).turnSteps = s.turnSteps := by cases p <;> rfl
@[simp] theorem State.modPort_dies (s : State) (p : Port) (g : PortSt → PortSt) : (s.modPort p g).dies = s.dies := by cases p <;> rfl
@[simp] theorem State.modPort_d2d (s : State) (p : Port) (g : PortSt → PortSt) : (s.modPort p g).d2d = s.d2d := by cases p <;> rfl
@[simp] theorem State.modPort_noc (s : State) (p : Port) (g : PortSt → PortSt) : (s.modPort p g).noc = s.noc := by cases p <;> rfl
@[simp] theorem State.modPort_pals (s : State) (p : Port) (g : PortSt → PortSt) : (s.modPort p g).pals = s.pals := by cases p <;> rfl
@[simp] theorem State.modPort_chans (s : State) (p : Port) (g : PortSt → PortSt) : (s.modPort p g).chans = s.chans := by cases p <;> rfl
@[simp] theorem State.modPort_grps (s : State) (p : Port) (g : PortSt → PortSt) : (s.modPort p g).grps = s.grps := by cases p <;> rfl
@[simp] theorem State.modPort_flash (s : State) (p : Port) (g : PortSt → PortSt) : (s.modPort p g).flash = s.flash := by cases p <;> rfl
@[simp] theorem State.modPort_links (s : State) (p : Port) (g : PortSt → PortSt) : (s.modPort p g).links = s.links := by cases p <;> rfl
@[simp] theorem State.modPort_bundleW (s : State) (p : Port) (g : PortSt → PortSt) : (s.modPort p g).bundleW = s.bundleW := by cases p <;> rfl
@[simp] theorem State.modPort_router (s : State) (p : Port) (g : PortSt → PortSt) : (s.modPort p g).router = s.router := by cases p <;> rfl
@[simp] theorem State.modPort_coord (s : State) (p : Port) (g : PortSt → PortSt) : (s.modPort p g).coord = s.coord := by cases p <;> rfl
@[simp] theorem State.modPort_power (s : State) (p : Port) (g : PortSt → PortSt) : (s.modPort p g).power = s.power := by cases p <;> rfl
@[simp] theorem State.modPort_mon (s : State) (p : Port) (g : PortSt → PortSt) : (s.modPort p g).mon = s.mon := by cases p <;> rfl
@[simp] theorem State.modPort_health (s : State) (p : Port) (g : PortSt → PortSt) : (s.modPort p g).health = s.health := by cases p <;> rfl
@[simp] theorem State.modPort_nor (s : State) (p : Port) (g : PortSt → PortSt) : (s.modPort p g).nor = s.nor := by cases p <;> rfl
@[simp] theorem State.modPort_clk (s : State) (p : Port) (g : PortSt → PortSt) : (s.modPort p g).clk = s.clk := by cases p <;> rfl
@[simp] theorem State.modPort_sec (s : State) (p : Port) (g : PortSt → PortSt) : (s.modPort p g).sec = s.sec := by cases p <;> rfl
@[simp] theorem State.modPort_snap (s : State) (p : Port) (g : PortSt → PortSt) : (s.modPort p g).snap = s.snap := by cases p <;> rfl
@[simp] theorem State.modPort_side (s : State) (p : Port) (g : PortSt → PortSt) : (s.modPort p g).side = s.side := by cases p <;> rfl
@[simp] theorem State.modPort_tx (s : State) (p : Port) (g : PortSt → PortSt) : (s.modPort p g).tx = s.tx := by cases p <;> rfl
@[simp] theorem State.setHostMem_pending (s : State) (p : Port) (m : List Host.Cell) : (s.setHostMem p m).pending = s.pending := by cases p <;> rfl
@[simp] theorem State.setHostMem_fresh (s : State) (p : Port) (m : List Host.Cell) : (s.setHostMem p m).fresh = s.fresh := by cases p <;> rfl
@[simp] theorem State.setHostMem_now (s : State) (p : Port) (m : List Host.Cell) : (s.setHostMem p m).now = s.now := by cases p <;> rfl
@[simp] theorem State.setHostMem_mem (s : State) (p : Port) (m : List Host.Cell) : (s.setHostMem p m).mem = s.mem := by cases p <;> rfl
@[simp] theorem State.setHostMem_pa (s : State) (p : Port) (m : List Host.Cell) : (s.setHostMem p m).pa = s.pa := by cases p <;> rfl
@[simp] theorem State.setHostMem_pb (s : State) (p : Port) (m : List Host.Cell) : (s.setHostMem p m).pb = s.pb := by cases p <;> rfl
@[simp] theorem State.setHostMem_cmds (s : State) (p : Port) (m : List Host.Cell) : (s.setHostMem p m).cmds = s.cmds := by cases p <;> rfl
@[simp] theorem State.setHostMem_cmdNo (s : State) (p : Port) (m : List Host.Cell) : (s.setHostMem p m).cmdNo = s.cmdNo := by cases p <;> rfl
@[simp] theorem State.setHostMem_lastFetch (s : State) (p : Port) (m : List Host.Cell) : (s.setHostMem p m).lastFetch = s.lastFetch := by cases p <;> rfl
@[simp] theorem State.setHostMem_msPortA (s : State) (p : Port) (m : List Host.Cell) : (s.setHostMem p m).msPortA = s.msPortA := by cases p <;> rfl
@[simp] theorem State.setHostMem_msPortB (s : State) (p : Port) (m : List Host.Cell) : (s.setHostMem p m).msPortB = s.msPortB := by cases p <;> rfl
@[simp] theorem State.setHostMem_msSide (s : State) (p : Port) (m : List Host.Cell) : (s.setHostMem p m).msSide = s.msSide := by cases p <;> rfl
@[simp] theorem State.setHostMem_msEasel (s : State) (p : Port) (m : List Host.Cell) : (s.setHostMem p m).msEasel = s.msEasel := by cases p <;> rfl
@[simp] theorem State.setHostMem_accs (s : State) (p : Port) (m : List Host.Cell) : (s.setHostMem p m).accs = s.accs := by cases p <;> rfl
@[simp] theorem State.setHostMem_accNo (s : State) (p : Port) (m : List Host.Cell) : (s.setHostMem p m).accNo = s.accNo := by cases p <;> rfl
@[simp] theorem State.setHostMem_sq (s : State) (p : Port) (m : List Host.Cell) : (s.setHostMem p m).sq = s.sq := by cases p <;> rfl
@[simp] theorem State.setHostMem_seqMiss (s : State) (p : Port) (m : List Host.Cell) : (s.setHostMem p m).seqMiss = s.seqMiss := by cases p <;> rfl
@[simp] theorem State.setHostMem_lkIgnore (s : State) (p : Port) (m : List Host.Cell) : (s.setHostMem p m).lkIgnore = s.lkIgnore := by cases p <;> rfl
@[simp] theorem State.setHostMem_regFix (s : State) (p : Port) (m : List Host.Cell) : (s.setHostMem p m).regFix = s.regFix := by cases p <;> rfl
@[simp] theorem State.setHostMem_upsets (s : State) (p : Port) (m : List Host.Cell) : (s.setHostMem p m).upsets = s.upsets := by cases p <;> rfl
@[simp] theorem State.setHostMem_objs (s : State) (p : Port) (m : List Host.Cell) : (s.setHostMem p m).objs = s.objs := by cases p <;> rfl
@[simp] theorem State.setHostMem_sysExts (s : State) (p : Port) (m : List Host.Cell) : (s.setHostMem p m).sysExts = s.sysExts := by cases p <;> rfl
@[simp] theorem State.setHostMem_pfEnts (s : State) (p : Port) (m : List Host.Cell) : (s.setHostMem p m).pfEnts = s.pfEnts := by cases p <;> rfl
@[simp] theorem State.setHostMem_pfNo (s : State) (p : Port) (m : List Host.Cell) : (s.setHostMem p m).pfNo = s.pfNo := by cases p <;> rfl
@[simp] theorem State.setHostMem_seqs (s : State) (p : Port) (m : List Host.Cell) : (s.setHostMem p m).seqs = s.seqs := by cases p <;> rfl
@[simp] theorem State.setHostMem_commitNo (s : State) (p : Port) (m : List Host.Cell) : (s.setHostMem p m).commitNo = s.commitNo := by cases p <;> rfl
@[simp] theorem State.setHostMem_commitC (s : State) (p : Port) (m : List Host.Cell) : (s.setHostMem p m).commitC = s.commitC := by cases p <;> rfl
@[simp] theorem State.setHostMem_applying (s : State) (p : Port) (m : List Host.Cell) : (s.setHostMem p m).applying = s.applying := by cases p <;> rfl
@[simp] theorem State.setHostMem_spillPool (s : State) (p : Port) (m : List Host.Cell) : (s.setHostMem p m).spillPool = s.spillPool := by cases p <;> rfl
@[simp] theorem State.setHostMem_models (s : State) (p : Port) (m : List Host.Cell) : (s.setHostMem p m).models = s.models := by cases p <;> rfl
@[simp] theorem State.setHostMem_slices (s : State) (p : Port) (m : List Host.Cell) : (s.setHostMem p m).slices = s.slices := by cases p <;> rfl
@[simp] theorem State.setHostMem_steps (s : State) (p : Port) (m : List Host.Cell) : (s.setHostMem p m).steps = s.steps := by cases p <;> rfl
@[simp] theorem State.setHostMem_mst (s : State) (p : Port) (m : List Host.Cell) : (s.setHostMem p m).mst = s.mst := by cases p <;> rfl
@[simp] theorem State.setHostMem_joinQ (s : State) (p : Port) (m : List Host.Cell) : (s.setHostMem p m).joinQ = s.joinQ := by cases p <;> rfl
@[simp] theorem State.setHostMem_tenQ (s : State) (p : Port) (m : List Host.Cell) : (s.setHostMem p m).tenQ = s.tenQ := by cases p <;> rfl
@[simp] theorem State.setHostMem_tenC (s : State) (p : Port) (m : List Host.Cell) : (s.setHostMem p m).tenC = s.tenC := by cases p <;> rfl
@[simp] theorem State.setHostMem_curTenant (s : State) (p : Port) (m : List Host.Cell) : (s.setHostMem p m).curTenant = s.curTenant := by cases p <;> rfl
@[simp] theorem State.setHostMem_lastTenant (s : State) (p : Port) (m : List Host.Cell) : (s.setHostMem p m).lastTenant = s.lastTenant := by cases p <;> rfl
@[simp] theorem State.setHostMem_turnStart (s : State) (p : Port) (m : List Host.Cell) : (s.setHostMem p m).turnStart = s.turnStart := by cases p <;> rfl
@[simp] theorem State.setHostMem_turnEnd (s : State) (p : Port) (m : List Host.Cell) : (s.setHostMem p m).turnEnd = s.turnEnd := by cases p <;> rfl
@[simp] theorem State.setHostMem_turnSteps (s : State) (p : Port) (m : List Host.Cell) : (s.setHostMem p m).turnSteps = s.turnSteps := by cases p <;> rfl
@[simp] theorem State.setHostMem_dies (s : State) (p : Port) (m : List Host.Cell) : (s.setHostMem p m).dies = s.dies := by cases p <;> rfl
@[simp] theorem State.setHostMem_d2d (s : State) (p : Port) (m : List Host.Cell) : (s.setHostMem p m).d2d = s.d2d := by cases p <;> rfl
@[simp] theorem State.setHostMem_noc (s : State) (p : Port) (m : List Host.Cell) : (s.setHostMem p m).noc = s.noc := by cases p <;> rfl
@[simp] theorem State.setHostMem_pals (s : State) (p : Port) (m : List Host.Cell) : (s.setHostMem p m).pals = s.pals := by cases p <;> rfl
@[simp] theorem State.setHostMem_chans (s : State) (p : Port) (m : List Host.Cell) : (s.setHostMem p m).chans = s.chans := by cases p <;> rfl
@[simp] theorem State.setHostMem_grps (s : State) (p : Port) (m : List Host.Cell) : (s.setHostMem p m).grps = s.grps := by cases p <;> rfl
@[simp] theorem State.setHostMem_flash (s : State) (p : Port) (m : List Host.Cell) : (s.setHostMem p m).flash = s.flash := by cases p <;> rfl
@[simp] theorem State.setHostMem_links (s : State) (p : Port) (m : List Host.Cell) : (s.setHostMem p m).links = s.links := by cases p <;> rfl
@[simp] theorem State.setHostMem_bundleW (s : State) (p : Port) (m : List Host.Cell) : (s.setHostMem p m).bundleW = s.bundleW := by cases p <;> rfl
@[simp] theorem State.setHostMem_router (s : State) (p : Port) (m : List Host.Cell) : (s.setHostMem p m).router = s.router := by cases p <;> rfl
@[simp] theorem State.setHostMem_coord (s : State) (p : Port) (m : List Host.Cell) : (s.setHostMem p m).coord = s.coord := by cases p <;> rfl
@[simp] theorem State.setHostMem_power (s : State) (p : Port) (m : List Host.Cell) : (s.setHostMem p m).power = s.power := by cases p <;> rfl
@[simp] theorem State.setHostMem_mon (s : State) (p : Port) (m : List Host.Cell) : (s.setHostMem p m).mon = s.mon := by cases p <;> rfl
@[simp] theorem State.setHostMem_health (s : State) (p : Port) (m : List Host.Cell) : (s.setHostMem p m).health = s.health := by cases p <;> rfl
@[simp] theorem State.setHostMem_nor (s : State) (p : Port) (m : List Host.Cell) : (s.setHostMem p m).nor = s.nor := by cases p <;> rfl
@[simp] theorem State.setHostMem_clk (s : State) (p : Port) (m : List Host.Cell) : (s.setHostMem p m).clk = s.clk := by cases p <;> rfl
@[simp] theorem State.setHostMem_sec (s : State) (p : Port) (m : List Host.Cell) : (s.setHostMem p m).sec = s.sec := by cases p <;> rfl
@[simp] theorem State.setHostMem_snap (s : State) (p : Port) (m : List Host.Cell) : (s.setHostMem p m).snap = s.snap := by cases p <;> rfl
@[simp] theorem State.setHostMem_side (s : State) (p : Port) (m : List Host.Cell) : (s.setHostMem p m).side = s.side := by cases p <;> rfl
@[simp] theorem State.setHostMem_tx (s : State) (p : Port) (m : List Host.Cell) : (s.setHostMem p m).tx = s.tx := by cases p <;> rfl
@[simp] theorem State.modMaster_pending (s : State) (m : Master) (g : MasterSt → MasterSt) : (s.modMaster m g).pending = s.pending := by cases m <;> rfl
@[simp] theorem State.modMaster_fresh (s : State) (m : Master) (g : MasterSt → MasterSt) : (s.modMaster m g).fresh = s.fresh := by cases m <;> rfl
@[simp] theorem State.modMaster_now (s : State) (m : Master) (g : MasterSt → MasterSt) : (s.modMaster m g).now = s.now := by cases m <;> rfl
@[simp] theorem State.modMaster_mem (s : State) (m : Master) (g : MasterSt → MasterSt) : (s.modMaster m g).mem = s.mem := by cases m <;> rfl
@[simp] theorem State.modMaster_hostA (s : State) (m : Master) (g : MasterSt → MasterSt) : (s.modMaster m g).hostA = s.hostA := by cases m <;> rfl
@[simp] theorem State.modMaster_hostB (s : State) (m : Master) (g : MasterSt → MasterSt) : (s.modMaster m g).hostB = s.hostB := by cases m <;> rfl
@[simp] theorem State.modMaster_pa (s : State) (m : Master) (g : MasterSt → MasterSt) : (s.modMaster m g).pa = s.pa := by cases m <;> rfl
@[simp] theorem State.modMaster_pb (s : State) (m : Master) (g : MasterSt → MasterSt) : (s.modMaster m g).pb = s.pb := by cases m <;> rfl
@[simp] theorem State.modMaster_cmds (s : State) (m : Master) (g : MasterSt → MasterSt) : (s.modMaster m g).cmds = s.cmds := by cases m <;> rfl
@[simp] theorem State.modMaster_cmdNo (s : State) (m : Master) (g : MasterSt → MasterSt) : (s.modMaster m g).cmdNo = s.cmdNo := by cases m <;> rfl
@[simp] theorem State.modMaster_lastFetch (s : State) (m : Master) (g : MasterSt → MasterSt) : (s.modMaster m g).lastFetch = s.lastFetch := by cases m <;> rfl
@[simp] theorem State.modMaster_accs (s : State) (m : Master) (g : MasterSt → MasterSt) : (s.modMaster m g).accs = s.accs := by cases m <;> rfl
@[simp] theorem State.modMaster_accNo (s : State) (m : Master) (g : MasterSt → MasterSt) : (s.modMaster m g).accNo = s.accNo := by cases m <;> rfl
@[simp] theorem State.modMaster_sq (s : State) (m : Master) (g : MasterSt → MasterSt) : (s.modMaster m g).sq = s.sq := by cases m <;> rfl
@[simp] theorem State.modMaster_seqMiss (s : State) (m : Master) (g : MasterSt → MasterSt) : (s.modMaster m g).seqMiss = s.seqMiss := by cases m <;> rfl
@[simp] theorem State.modMaster_lkIgnore (s : State) (m : Master) (g : MasterSt → MasterSt) : (s.modMaster m g).lkIgnore = s.lkIgnore := by cases m <;> rfl
@[simp] theorem State.modMaster_regFix (s : State) (m : Master) (g : MasterSt → MasterSt) : (s.modMaster m g).regFix = s.regFix := by cases m <;> rfl
@[simp] theorem State.modMaster_upsets (s : State) (m : Master) (g : MasterSt → MasterSt) : (s.modMaster m g).upsets = s.upsets := by cases m <;> rfl
@[simp] theorem State.modMaster_objs (s : State) (m : Master) (g : MasterSt → MasterSt) : (s.modMaster m g).objs = s.objs := by cases m <;> rfl
@[simp] theorem State.modMaster_sysExts (s : State) (m : Master) (g : MasterSt → MasterSt) : (s.modMaster m g).sysExts = s.sysExts := by cases m <;> rfl
@[simp] theorem State.modMaster_pfEnts (s : State) (m : Master) (g : MasterSt → MasterSt) : (s.modMaster m g).pfEnts = s.pfEnts := by cases m <;> rfl
@[simp] theorem State.modMaster_pfNo (s : State) (m : Master) (g : MasterSt → MasterSt) : (s.modMaster m g).pfNo = s.pfNo := by cases m <;> rfl
@[simp] theorem State.modMaster_seqs (s : State) (m : Master) (g : MasterSt → MasterSt) : (s.modMaster m g).seqs = s.seqs := by cases m <;> rfl
@[simp] theorem State.modMaster_commitNo (s : State) (m : Master) (g : MasterSt → MasterSt) : (s.modMaster m g).commitNo = s.commitNo := by cases m <;> rfl
@[simp] theorem State.modMaster_commitC (s : State) (m : Master) (g : MasterSt → MasterSt) : (s.modMaster m g).commitC = s.commitC := by cases m <;> rfl
@[simp] theorem State.modMaster_applying (s : State) (m : Master) (g : MasterSt → MasterSt) : (s.modMaster m g).applying = s.applying := by cases m <;> rfl
@[simp] theorem State.modMaster_spillPool (s : State) (m : Master) (g : MasterSt → MasterSt) : (s.modMaster m g).spillPool = s.spillPool := by cases m <;> rfl
@[simp] theorem State.modMaster_models (s : State) (m : Master) (g : MasterSt → MasterSt) : (s.modMaster m g).models = s.models := by cases m <;> rfl
@[simp] theorem State.modMaster_slices (s : State) (m : Master) (g : MasterSt → MasterSt) : (s.modMaster m g).slices = s.slices := by cases m <;> rfl
@[simp] theorem State.modMaster_steps (s : State) (m : Master) (g : MasterSt → MasterSt) : (s.modMaster m g).steps = s.steps := by cases m <;> rfl
@[simp] theorem State.modMaster_joinQ (s : State) (m : Master) (g : MasterSt → MasterSt) : (s.modMaster m g).joinQ = s.joinQ := by cases m <;> rfl
@[simp] theorem State.modMaster_tenQ (s : State) (m : Master) (g : MasterSt → MasterSt) : (s.modMaster m g).tenQ = s.tenQ := by cases m <;> rfl
@[simp] theorem State.modMaster_tenC (s : State) (m : Master) (g : MasterSt → MasterSt) : (s.modMaster m g).tenC = s.tenC := by cases m <;> rfl
@[simp] theorem State.modMaster_curTenant (s : State) (m : Master) (g : MasterSt → MasterSt) : (s.modMaster m g).curTenant = s.curTenant := by cases m <;> rfl
@[simp] theorem State.modMaster_lastTenant (s : State) (m : Master) (g : MasterSt → MasterSt) : (s.modMaster m g).lastTenant = s.lastTenant := by cases m <;> rfl
@[simp] theorem State.modMaster_turnStart (s : State) (m : Master) (g : MasterSt → MasterSt) : (s.modMaster m g).turnStart = s.turnStart := by cases m <;> rfl
@[simp] theorem State.modMaster_turnEnd (s : State) (m : Master) (g : MasterSt → MasterSt) : (s.modMaster m g).turnEnd = s.turnEnd := by cases m <;> rfl
@[simp] theorem State.modMaster_turnSteps (s : State) (m : Master) (g : MasterSt → MasterSt) : (s.modMaster m g).turnSteps = s.turnSteps := by cases m <;> rfl
@[simp] theorem State.modMaster_dies (s : State) (m : Master) (g : MasterSt → MasterSt) : (s.modMaster m g).dies = s.dies := by cases m <;> rfl
@[simp] theorem State.modMaster_d2d (s : State) (m : Master) (g : MasterSt → MasterSt) : (s.modMaster m g).d2d = s.d2d := by cases m <;> rfl
@[simp] theorem State.modMaster_noc (s : State) (m : Master) (g : MasterSt → MasterSt) : (s.modMaster m g).noc = s.noc := by cases m <;> rfl
@[simp] theorem State.modMaster_pals (s : State) (m : Master) (g : MasterSt → MasterSt) : (s.modMaster m g).pals = s.pals := by cases m <;> rfl
@[simp] theorem State.modMaster_chans (s : State) (m : Master) (g : MasterSt → MasterSt) : (s.modMaster m g).chans = s.chans := by cases m <;> rfl
@[simp] theorem State.modMaster_grps (s : State) (m : Master) (g : MasterSt → MasterSt) : (s.modMaster m g).grps = s.grps := by cases m <;> rfl
@[simp] theorem State.modMaster_flash (s : State) (m : Master) (g : MasterSt → MasterSt) : (s.modMaster m g).flash = s.flash := by cases m <;> rfl
@[simp] theorem State.modMaster_links (s : State) (m : Master) (g : MasterSt → MasterSt) : (s.modMaster m g).links = s.links := by cases m <;> rfl
@[simp] theorem State.modMaster_bundleW (s : State) (m : Master) (g : MasterSt → MasterSt) : (s.modMaster m g).bundleW = s.bundleW := by cases m <;> rfl
@[simp] theorem State.modMaster_router (s : State) (m : Master) (g : MasterSt → MasterSt) : (s.modMaster m g).router = s.router := by cases m <;> rfl
@[simp] theorem State.modMaster_coord (s : State) (m : Master) (g : MasterSt → MasterSt) : (s.modMaster m g).coord = s.coord := by cases m <;> rfl
@[simp] theorem State.modMaster_power (s : State) (m : Master) (g : MasterSt → MasterSt) : (s.modMaster m g).power = s.power := by cases m <;> rfl
@[simp] theorem State.modMaster_mon (s : State) (m : Master) (g : MasterSt → MasterSt) : (s.modMaster m g).mon = s.mon := by cases m <;> rfl
@[simp] theorem State.modMaster_health (s : State) (m : Master) (g : MasterSt → MasterSt) : (s.modMaster m g).health = s.health := by cases m <;> rfl
@[simp] theorem State.modMaster_nor (s : State) (m : Master) (g : MasterSt → MasterSt) : (s.modMaster m g).nor = s.nor := by cases m <;> rfl
@[simp] theorem State.modMaster_clk (s : State) (m : Master) (g : MasterSt → MasterSt) : (s.modMaster m g).clk = s.clk := by cases m <;> rfl
@[simp] theorem State.modMaster_sec (s : State) (m : Master) (g : MasterSt → MasterSt) : (s.modMaster m g).sec = s.sec := by cases m <;> rfl
@[simp] theorem State.modMaster_snap (s : State) (m : Master) (g : MasterSt → MasterSt) : (s.modMaster m g).snap = s.snap := by cases m <;> rfl
@[simp] theorem State.modMaster_side (s : State) (m : Master) (g : MasterSt → MasterSt) : (s.modMaster m g).side = s.side := by cases m <;> rfl
@[simp] theorem State.modMaster_tx (s : State) (m : Master) (g : MasterSt → MasterSt) : (s.modMaster m g).tx = s.tx := by cases m <;> rfl
@[simp] theorem State.raise_pending (s : State) (r : SqReg) (b : Nat) : (s.raise r b).pending = s.pending := by unfold State.raise; dsimp only; split <;> rfl
@[simp] theorem State.raise_fresh (s : State) (r : SqReg) (b : Nat) : (s.raise r b).fresh = s.fresh := by unfold State.raise; dsimp only; split <;> rfl
@[simp] theorem State.raise_now (s : State) (r : SqReg) (b : Nat) : (s.raise r b).now = s.now := by unfold State.raise; dsimp only; split <;> rfl
@[simp] theorem State.raise_mem (s : State) (r : SqReg) (b : Nat) : (s.raise r b).mem = s.mem := by unfold State.raise; dsimp only; split <;> rfl
@[simp] theorem State.raise_hostA (s : State) (r : SqReg) (b : Nat) : (s.raise r b).hostA = s.hostA := by unfold State.raise; dsimp only; split <;> rfl
@[simp] theorem State.raise_hostB (s : State) (r : SqReg) (b : Nat) : (s.raise r b).hostB = s.hostB := by unfold State.raise; dsimp only; split <;> rfl
@[simp] theorem State.raise_pa (s : State) (r : SqReg) (b : Nat) : (s.raise r b).pa = s.pa := by unfold State.raise; dsimp only; split <;> rfl
@[simp] theorem State.raise_pb (s : State) (r : SqReg) (b : Nat) : (s.raise r b).pb = s.pb := by unfold State.raise; dsimp only; split <;> rfl
@[simp] theorem State.raise_cmds (s : State) (r : SqReg) (b : Nat) : (s.raise r b).cmds = s.cmds := by unfold State.raise; dsimp only; split <;> rfl
@[simp] theorem State.raise_cmdNo (s : State) (r : SqReg) (b : Nat) : (s.raise r b).cmdNo = s.cmdNo := by unfold State.raise; dsimp only; split <;> rfl
@[simp] theorem State.raise_lastFetch (s : State) (r : SqReg) (b : Nat) : (s.raise r b).lastFetch = s.lastFetch := by unfold State.raise; dsimp only; split <;> rfl
@[simp] theorem State.raise_msPortA (s : State) (r : SqReg) (b : Nat) : (s.raise r b).msPortA = s.msPortA := by unfold State.raise; dsimp only; split <;> rfl
@[simp] theorem State.raise_msPortB (s : State) (r : SqReg) (b : Nat) : (s.raise r b).msPortB = s.msPortB := by unfold State.raise; dsimp only; split <;> rfl
@[simp] theorem State.raise_msSide (s : State) (r : SqReg) (b : Nat) : (s.raise r b).msSide = s.msSide := by unfold State.raise; dsimp only; split <;> rfl
@[simp] theorem State.raise_msEasel (s : State) (r : SqReg) (b : Nat) : (s.raise r b).msEasel = s.msEasel := by unfold State.raise; dsimp only; split <;> rfl
@[simp] theorem State.raise_accs (s : State) (r : SqReg) (b : Nat) : (s.raise r b).accs = s.accs := by unfold State.raise; dsimp only; split <;> rfl
@[simp] theorem State.raise_accNo (s : State) (r : SqReg) (b : Nat) : (s.raise r b).accNo = s.accNo := by unfold State.raise; dsimp only; split <;> rfl
@[simp] theorem State.raise_seqMiss (s : State) (r : SqReg) (b : Nat) : (s.raise r b).seqMiss = s.seqMiss := by unfold State.raise; dsimp only; split <;> rfl
@[simp] theorem State.raise_lkIgnore (s : State) (r : SqReg) (b : Nat) : (s.raise r b).lkIgnore = s.lkIgnore := by unfold State.raise; dsimp only; split <;> rfl
@[simp] theorem State.raise_regFix (s : State) (r : SqReg) (b : Nat) : (s.raise r b).regFix = s.regFix := by unfold State.raise; dsimp only; split <;> rfl
@[simp] theorem State.raise_upsets (s : State) (r : SqReg) (b : Nat) : (s.raise r b).upsets = s.upsets := by unfold State.raise; dsimp only; split <;> rfl
@[simp] theorem State.raise_objs (s : State) (r : SqReg) (b : Nat) : (s.raise r b).objs = s.objs := by unfold State.raise; dsimp only; split <;> rfl
@[simp] theorem State.raise_sysExts (s : State) (r : SqReg) (b : Nat) : (s.raise r b).sysExts = s.sysExts := by unfold State.raise; dsimp only; split <;> rfl
@[simp] theorem State.raise_pfEnts (s : State) (r : SqReg) (b : Nat) : (s.raise r b).pfEnts = s.pfEnts := by unfold State.raise; dsimp only; split <;> rfl
@[simp] theorem State.raise_pfNo (s : State) (r : SqReg) (b : Nat) : (s.raise r b).pfNo = s.pfNo := by unfold State.raise; dsimp only; split <;> rfl
@[simp] theorem State.raise_seqs (s : State) (r : SqReg) (b : Nat) : (s.raise r b).seqs = s.seqs := by unfold State.raise; dsimp only; split <;> rfl
@[simp] theorem State.raise_commitNo (s : State) (r : SqReg) (b : Nat) : (s.raise r b).commitNo = s.commitNo := by unfold State.raise; dsimp only; split <;> rfl
@[simp] theorem State.raise_commitC (s : State) (r : SqReg) (b : Nat) : (s.raise r b).commitC = s.commitC := by unfold State.raise; dsimp only; split <;> rfl
@[simp] theorem State.raise_applying (s : State) (r : SqReg) (b : Nat) : (s.raise r b).applying = s.applying := by unfold State.raise; dsimp only; split <;> rfl
@[simp] theorem State.raise_spillPool (s : State) (r : SqReg) (b : Nat) : (s.raise r b).spillPool = s.spillPool := by unfold State.raise; dsimp only; split <;> rfl
@[simp] theorem State.raise_models (s : State) (r : SqReg) (b : Nat) : (s.raise r b).models = s.models := by unfold State.raise; dsimp only; split <;> rfl
@[simp] theorem State.raise_slices (s : State) (r : SqReg) (b : Nat) : (s.raise r b).slices = s.slices := by unfold State.raise; dsimp only; split <;> rfl
@[simp] theorem State.raise_steps (s : State) (r : SqReg) (b : Nat) : (s.raise r b).steps = s.steps := by unfold State.raise; dsimp only; split <;> rfl
@[simp] theorem State.raise_mst (s : State) (r : SqReg) (b : Nat) : (s.raise r b).mst = s.mst := by unfold State.raise; dsimp only; split <;> rfl
@[simp] theorem State.raise_joinQ (s : State) (r : SqReg) (b : Nat) : (s.raise r b).joinQ = s.joinQ := by unfold State.raise; dsimp only; split <;> rfl
@[simp] theorem State.raise_tenQ (s : State) (r : SqReg) (b : Nat) : (s.raise r b).tenQ = s.tenQ := by unfold State.raise; dsimp only; split <;> rfl
@[simp] theorem State.raise_tenC (s : State) (r : SqReg) (b : Nat) : (s.raise r b).tenC = s.tenC := by unfold State.raise; dsimp only; split <;> rfl
@[simp] theorem State.raise_curTenant (s : State) (r : SqReg) (b : Nat) : (s.raise r b).curTenant = s.curTenant := by unfold State.raise; dsimp only; split <;> rfl
@[simp] theorem State.raise_lastTenant (s : State) (r : SqReg) (b : Nat) : (s.raise r b).lastTenant = s.lastTenant := by unfold State.raise; dsimp only; split <;> rfl
@[simp] theorem State.raise_turnStart (s : State) (r : SqReg) (b : Nat) : (s.raise r b).turnStart = s.turnStart := by unfold State.raise; dsimp only; split <;> rfl
@[simp] theorem State.raise_turnEnd (s : State) (r : SqReg) (b : Nat) : (s.raise r b).turnEnd = s.turnEnd := by unfold State.raise; dsimp only; split <;> rfl
@[simp] theorem State.raise_turnSteps (s : State) (r : SqReg) (b : Nat) : (s.raise r b).turnSteps = s.turnSteps := by unfold State.raise; dsimp only; split <;> rfl
@[simp] theorem State.raise_dies (s : State) (r : SqReg) (b : Nat) : (s.raise r b).dies = s.dies := by unfold State.raise; dsimp only; split <;> rfl
@[simp] theorem State.raise_d2d (s : State) (r : SqReg) (b : Nat) : (s.raise r b).d2d = s.d2d := by unfold State.raise; dsimp only; split <;> rfl
@[simp] theorem State.raise_noc (s : State) (r : SqReg) (b : Nat) : (s.raise r b).noc = s.noc := by unfold State.raise; dsimp only; split <;> rfl
@[simp] theorem State.raise_pals (s : State) (r : SqReg) (b : Nat) : (s.raise r b).pals = s.pals := by unfold State.raise; dsimp only; split <;> rfl
@[simp] theorem State.raise_chans (s : State) (r : SqReg) (b : Nat) : (s.raise r b).chans = s.chans := by unfold State.raise; dsimp only; split <;> rfl
@[simp] theorem State.raise_grps (s : State) (r : SqReg) (b : Nat) : (s.raise r b).grps = s.grps := by unfold State.raise; dsimp only; split <;> rfl
@[simp] theorem State.raise_flash (s : State) (r : SqReg) (b : Nat) : (s.raise r b).flash = s.flash := by unfold State.raise; dsimp only; split <;> rfl
@[simp] theorem State.raise_links (s : State) (r : SqReg) (b : Nat) : (s.raise r b).links = s.links := by unfold State.raise; dsimp only; split <;> rfl
@[simp] theorem State.raise_bundleW (s : State) (r : SqReg) (b : Nat) : (s.raise r b).bundleW = s.bundleW := by unfold State.raise; dsimp only; split <;> rfl
@[simp] theorem State.raise_router (s : State) (r : SqReg) (b : Nat) : (s.raise r b).router = s.router := by unfold State.raise; dsimp only; split <;> rfl
@[simp] theorem State.raise_coord (s : State) (r : SqReg) (b : Nat) : (s.raise r b).coord = s.coord := by unfold State.raise; dsimp only; split <;> rfl
@[simp] theorem State.raise_power (s : State) (r : SqReg) (b : Nat) : (s.raise r b).power = s.power := by unfold State.raise; dsimp only; split <;> rfl
@[simp] theorem State.raise_mon (s : State) (r : SqReg) (b : Nat) : (s.raise r b).mon = s.mon := by unfold State.raise; dsimp only; split <;> rfl
@[simp] theorem State.raise_health (s : State) (r : SqReg) (b : Nat) : (s.raise r b).health = s.health := by unfold State.raise; dsimp only; split <;> rfl
@[simp] theorem State.raise_nor (s : State) (r : SqReg) (b : Nat) : (s.raise r b).nor = s.nor := by unfold State.raise; dsimp only; split <;> rfl
@[simp] theorem State.raise_clk (s : State) (r : SqReg) (b : Nat) : (s.raise r b).clk = s.clk := by unfold State.raise; dsimp only; split <;> rfl
@[simp] theorem State.raise_sec (s : State) (r : SqReg) (b : Nat) : (s.raise r b).sec = s.sec := by unfold State.raise; dsimp only; split <;> rfl
@[simp] theorem State.raise_snap (s : State) (r : SqReg) (b : Nat) : (s.raise r b).snap = s.snap := by unfold State.raise; dsimp only; split <;> rfl
@[simp] theorem State.raise_side (s : State) (r : SqReg) (b : Nat) : (s.raise r b).side = s.side := by unfold State.raise; dsimp only; split <;> rfl
@[simp] theorem State.raise_tx (s : State) (r : SqReg) (b : Nat) : (s.raise r b).tx = s.tx := by unfold State.raise; dsimp only; split <;> rfl
@[simp] theorem State.raiseIf_pending (s : State) (c : Bool) (r : SqReg) (b : Nat) : (s.raiseIf c r b).pending = s.pending := by unfold State.raiseIf; split <;> simp
@[simp] theorem State.raiseIf_fresh (s : State) (c : Bool) (r : SqReg) (b : Nat) : (s.raiseIf c r b).fresh = s.fresh := by unfold State.raiseIf; split <;> simp
@[simp] theorem State.raiseIf_now (s : State) (c : Bool) (r : SqReg) (b : Nat) : (s.raiseIf c r b).now = s.now := by unfold State.raiseIf; split <;> simp
@[simp] theorem State.raiseIf_mem (s : State) (c : Bool) (r : SqReg) (b : Nat) : (s.raiseIf c r b).mem = s.mem := by unfold State.raiseIf; split <;> simp
@[simp] theorem State.raiseIf_hostA (s : State) (c : Bool) (r : SqReg) (b : Nat) : (s.raiseIf c r b).hostA = s.hostA := by unfold State.raiseIf; split <;> simp
@[simp] theorem State.raiseIf_hostB (s : State) (c : Bool) (r : SqReg) (b : Nat) : (s.raiseIf c r b).hostB = s.hostB := by unfold State.raiseIf; split <;> simp
@[simp] theorem State.raiseIf_pa (s : State) (c : Bool) (r : SqReg) (b : Nat) : (s.raiseIf c r b).pa = s.pa := by unfold State.raiseIf; split <;> simp
@[simp] theorem State.raiseIf_pb (s : State) (c : Bool) (r : SqReg) (b : Nat) : (s.raiseIf c r b).pb = s.pb := by unfold State.raiseIf; split <;> simp
@[simp] theorem State.raiseIf_cmds (s : State) (c : Bool) (r : SqReg) (b : Nat) : (s.raiseIf c r b).cmds = s.cmds := by unfold State.raiseIf; split <;> simp
@[simp] theorem State.raiseIf_cmdNo (s : State) (c : Bool) (r : SqReg) (b : Nat) : (s.raiseIf c r b).cmdNo = s.cmdNo := by unfold State.raiseIf; split <;> simp
@[simp] theorem State.raiseIf_lastFetch (s : State) (c : Bool) (r : SqReg) (b : Nat) : (s.raiseIf c r b).lastFetch = s.lastFetch := by unfold State.raiseIf; split <;> simp
@[simp] theorem State.raiseIf_msPortA (s : State) (c : Bool) (r : SqReg) (b : Nat) : (s.raiseIf c r b).msPortA = s.msPortA := by unfold State.raiseIf; split <;> simp
@[simp] theorem State.raiseIf_msPortB (s : State) (c : Bool) (r : SqReg) (b : Nat) : (s.raiseIf c r b).msPortB = s.msPortB := by unfold State.raiseIf; split <;> simp
@[simp] theorem State.raiseIf_msSide (s : State) (c : Bool) (r : SqReg) (b : Nat) : (s.raiseIf c r b).msSide = s.msSide := by unfold State.raiseIf; split <;> simp
@[simp] theorem State.raiseIf_msEasel (s : State) (c : Bool) (r : SqReg) (b : Nat) : (s.raiseIf c r b).msEasel = s.msEasel := by unfold State.raiseIf; split <;> simp
@[simp] theorem State.raiseIf_accs (s : State) (c : Bool) (r : SqReg) (b : Nat) : (s.raiseIf c r b).accs = s.accs := by unfold State.raiseIf; split <;> simp
@[simp] theorem State.raiseIf_accNo (s : State) (c : Bool) (r : SqReg) (b : Nat) : (s.raiseIf c r b).accNo = s.accNo := by unfold State.raiseIf; split <;> simp
@[simp] theorem State.raiseIf_seqMiss (s : State) (c : Bool) (r : SqReg) (b : Nat) : (s.raiseIf c r b).seqMiss = s.seqMiss := by unfold State.raiseIf; split <;> simp
@[simp] theorem State.raiseIf_lkIgnore (s : State) (c : Bool) (r : SqReg) (b : Nat) : (s.raiseIf c r b).lkIgnore = s.lkIgnore := by unfold State.raiseIf; split <;> simp
@[simp] theorem State.raiseIf_regFix (s : State) (c : Bool) (r : SqReg) (b : Nat) : (s.raiseIf c r b).regFix = s.regFix := by unfold State.raiseIf; split <;> simp
@[simp] theorem State.raiseIf_upsets (s : State) (c : Bool) (r : SqReg) (b : Nat) : (s.raiseIf c r b).upsets = s.upsets := by unfold State.raiseIf; split <;> simp
@[simp] theorem State.raiseIf_objs (s : State) (c : Bool) (r : SqReg) (b : Nat) : (s.raiseIf c r b).objs = s.objs := by unfold State.raiseIf; split <;> simp
@[simp] theorem State.raiseIf_sysExts (s : State) (c : Bool) (r : SqReg) (b : Nat) : (s.raiseIf c r b).sysExts = s.sysExts := by unfold State.raiseIf; split <;> simp
@[simp] theorem State.raiseIf_pfEnts (s : State) (c : Bool) (r : SqReg) (b : Nat) : (s.raiseIf c r b).pfEnts = s.pfEnts := by unfold State.raiseIf; split <;> simp
@[simp] theorem State.raiseIf_pfNo (s : State) (c : Bool) (r : SqReg) (b : Nat) : (s.raiseIf c r b).pfNo = s.pfNo := by unfold State.raiseIf; split <;> simp
@[simp] theorem State.raiseIf_seqs (s : State) (c : Bool) (r : SqReg) (b : Nat) : (s.raiseIf c r b).seqs = s.seqs := by unfold State.raiseIf; split <;> simp
@[simp] theorem State.raiseIf_commitNo (s : State) (c : Bool) (r : SqReg) (b : Nat) : (s.raiseIf c r b).commitNo = s.commitNo := by unfold State.raiseIf; split <;> simp
@[simp] theorem State.raiseIf_commitC (s : State) (c : Bool) (r : SqReg) (b : Nat) : (s.raiseIf c r b).commitC = s.commitC := by unfold State.raiseIf; split <;> simp
@[simp] theorem State.raiseIf_applying (s : State) (c : Bool) (r : SqReg) (b : Nat) : (s.raiseIf c r b).applying = s.applying := by unfold State.raiseIf; split <;> simp
@[simp] theorem State.raiseIf_spillPool (s : State) (c : Bool) (r : SqReg) (b : Nat) : (s.raiseIf c r b).spillPool = s.spillPool := by unfold State.raiseIf; split <;> simp
@[simp] theorem State.raiseIf_models (s : State) (c : Bool) (r : SqReg) (b : Nat) : (s.raiseIf c r b).models = s.models := by unfold State.raiseIf; split <;> simp
@[simp] theorem State.raiseIf_slices (s : State) (c : Bool) (r : SqReg) (b : Nat) : (s.raiseIf c r b).slices = s.slices := by unfold State.raiseIf; split <;> simp
@[simp] theorem State.raiseIf_steps (s : State) (c : Bool) (r : SqReg) (b : Nat) : (s.raiseIf c r b).steps = s.steps := by unfold State.raiseIf; split <;> simp
@[simp] theorem State.raiseIf_mst (s : State) (c : Bool) (r : SqReg) (b : Nat) : (s.raiseIf c r b).mst = s.mst := by unfold State.raiseIf; split <;> simp
@[simp] theorem State.raiseIf_joinQ (s : State) (c : Bool) (r : SqReg) (b : Nat) : (s.raiseIf c r b).joinQ = s.joinQ := by unfold State.raiseIf; split <;> simp
@[simp] theorem State.raiseIf_tenQ (s : State) (c : Bool) (r : SqReg) (b : Nat) : (s.raiseIf c r b).tenQ = s.tenQ := by unfold State.raiseIf; split <;> simp
@[simp] theorem State.raiseIf_tenC (s : State) (c : Bool) (r : SqReg) (b : Nat) : (s.raiseIf c r b).tenC = s.tenC := by unfold State.raiseIf; split <;> simp
@[simp] theorem State.raiseIf_curTenant (s : State) (c : Bool) (r : SqReg) (b : Nat) : (s.raiseIf c r b).curTenant = s.curTenant := by unfold State.raiseIf; split <;> simp
@[simp] theorem State.raiseIf_lastTenant (s : State) (c : Bool) (r : SqReg) (b : Nat) : (s.raiseIf c r b).lastTenant = s.lastTenant := by unfold State.raiseIf; split <;> simp
@[simp] theorem State.raiseIf_turnStart (s : State) (c : Bool) (r : SqReg) (b : Nat) : (s.raiseIf c r b).turnStart = s.turnStart := by unfold State.raiseIf; split <;> simp
@[simp] theorem State.raiseIf_turnEnd (s : State) (c : Bool) (r : SqReg) (b : Nat) : (s.raiseIf c r b).turnEnd = s.turnEnd := by unfold State.raiseIf; split <;> simp
@[simp] theorem State.raiseIf_turnSteps (s : State) (c : Bool) (r : SqReg) (b : Nat) : (s.raiseIf c r b).turnSteps = s.turnSteps := by unfold State.raiseIf; split <;> simp
@[simp] theorem State.raiseIf_dies (s : State) (c : Bool) (r : SqReg) (b : Nat) : (s.raiseIf c r b).dies = s.dies := by unfold State.raiseIf; split <;> simp
@[simp] theorem State.raiseIf_d2d (s : State) (c : Bool) (r : SqReg) (b : Nat) : (s.raiseIf c r b).d2d = s.d2d := by unfold State.raiseIf; split <;> simp
@[simp] theorem State.raiseIf_noc (s : State) (c : Bool) (r : SqReg) (b : Nat) : (s.raiseIf c r b).noc = s.noc := by unfold State.raiseIf; split <;> simp
@[simp] theorem State.raiseIf_pals (s : State) (c : Bool) (r : SqReg) (b : Nat) : (s.raiseIf c r b).pals = s.pals := by unfold State.raiseIf; split <;> simp
@[simp] theorem State.raiseIf_chans (s : State) (c : Bool) (r : SqReg) (b : Nat) : (s.raiseIf c r b).chans = s.chans := by unfold State.raiseIf; split <;> simp
@[simp] theorem State.raiseIf_grps (s : State) (c : Bool) (r : SqReg) (b : Nat) : (s.raiseIf c r b).grps = s.grps := by unfold State.raiseIf; split <;> simp
@[simp] theorem State.raiseIf_flash (s : State) (c : Bool) (r : SqReg) (b : Nat) : (s.raiseIf c r b).flash = s.flash := by unfold State.raiseIf; split <;> simp
@[simp] theorem State.raiseIf_links (s : State) (c : Bool) (r : SqReg) (b : Nat) : (s.raiseIf c r b).links = s.links := by unfold State.raiseIf; split <;> simp
@[simp] theorem State.raiseIf_bundleW (s : State) (c : Bool) (r : SqReg) (b : Nat) : (s.raiseIf c r b).bundleW = s.bundleW := by unfold State.raiseIf; split <;> simp
@[simp] theorem State.raiseIf_router (s : State) (c : Bool) (r : SqReg) (b : Nat) : (s.raiseIf c r b).router = s.router := by unfold State.raiseIf; split <;> simp
@[simp] theorem State.raiseIf_coord (s : State) (c : Bool) (r : SqReg) (b : Nat) : (s.raiseIf c r b).coord = s.coord := by unfold State.raiseIf; split <;> simp
@[simp] theorem State.raiseIf_power (s : State) (c : Bool) (r : SqReg) (b : Nat) : (s.raiseIf c r b).power = s.power := by unfold State.raiseIf; split <;> simp
@[simp] theorem State.raiseIf_mon (s : State) (c : Bool) (r : SqReg) (b : Nat) : (s.raiseIf c r b).mon = s.mon := by unfold State.raiseIf; split <;> simp
@[simp] theorem State.raiseIf_health (s : State) (c : Bool) (r : SqReg) (b : Nat) : (s.raiseIf c r b).health = s.health := by unfold State.raiseIf; split <;> simp
@[simp] theorem State.raiseIf_nor (s : State) (c : Bool) (r : SqReg) (b : Nat) : (s.raiseIf c r b).nor = s.nor := by unfold State.raiseIf; split <;> simp
@[simp] theorem State.raiseIf_clk (s : State) (c : Bool) (r : SqReg) (b : Nat) : (s.raiseIf c r b).clk = s.clk := by unfold State.raiseIf; split <;> simp
@[simp] theorem State.raiseIf_sec (s : State) (c : Bool) (r : SqReg) (b : Nat) : (s.raiseIf c r b).sec = s.sec := by unfold State.raiseIf; split <;> simp
@[simp] theorem State.raiseIf_snap (s : State) (c : Bool) (r : SqReg) (b : Nat) : (s.raiseIf c r b).snap = s.snap := by unfold State.raiseIf; split <;> simp
@[simp] theorem State.raiseIf_side (s : State) (c : Bool) (r : SqReg) (b : Nat) : (s.raiseIf c r b).side = s.side := by unfold State.raiseIf; split <;> simp
@[simp] theorem State.raiseIf_tx (s : State) (c : Bool) (r : SqReg) (b : Nat) : (s.raiseIf c r b).tx = s.tx := by unfold State.raiseIf; split <;> simp
@[simp] theorem State.draw_pending (s : State) : s.draw.2.pending = s.pending := rfl
@[simp] theorem State.draw_now (s : State) : s.draw.2.now = s.now := rfl
@[simp] theorem State.draw_mem (s : State) : s.draw.2.mem = s.mem := rfl
@[simp] theorem State.draw_hostA (s : State) : s.draw.2.hostA = s.hostA := rfl
@[simp] theorem State.draw_hostB (s : State) : s.draw.2.hostB = s.hostB := rfl
@[simp] theorem State.draw_pa (s : State) : s.draw.2.pa = s.pa := rfl
@[simp] theorem State.draw_pb (s : State) : s.draw.2.pb = s.pb := rfl
@[simp] theorem State.draw_cmds (s : State) : s.draw.2.cmds = s.cmds := rfl
@[simp] theorem State.draw_cmdNo (s : State) : s.draw.2.cmdNo = s.cmdNo := rfl
@[simp] theorem State.draw_lastFetch (s : State) : s.draw.2.lastFetch = s.lastFetch := rfl
@[simp] theorem State.draw_msPortA (s : State) : s.draw.2.msPortA = s.msPortA := rfl
@[simp] theorem State.draw_msPortB (s : State) : s.draw.2.msPortB = s.msPortB := rfl
@[simp] theorem State.draw_msSide (s : State) : s.draw.2.msSide = s.msSide := rfl
@[simp] theorem State.draw_msEasel (s : State) : s.draw.2.msEasel = s.msEasel := rfl
@[simp] theorem State.draw_accs (s : State) : s.draw.2.accs = s.accs := rfl
@[simp] theorem State.draw_accNo (s : State) : s.draw.2.accNo = s.accNo := rfl
@[simp] theorem State.draw_sq (s : State) : s.draw.2.sq = s.sq := rfl
@[simp] theorem State.draw_seqMiss (s : State) : s.draw.2.seqMiss = s.seqMiss := rfl
@[simp] theorem State.draw_lkIgnore (s : State) : s.draw.2.lkIgnore = s.lkIgnore := rfl
@[simp] theorem State.draw_regFix (s : State) : s.draw.2.regFix = s.regFix := rfl
@[simp] theorem State.draw_upsets (s : State) : s.draw.2.upsets = s.upsets := rfl
@[simp] theorem State.draw_objs (s : State) : s.draw.2.objs = s.objs := rfl
@[simp] theorem State.draw_sysExts (s : State) : s.draw.2.sysExts = s.sysExts := rfl
@[simp] theorem State.draw_pfEnts (s : State) : s.draw.2.pfEnts = s.pfEnts := rfl
@[simp] theorem State.draw_pfNo (s : State) : s.draw.2.pfNo = s.pfNo := rfl
@[simp] theorem State.draw_seqs (s : State) : s.draw.2.seqs = s.seqs := rfl
@[simp] theorem State.draw_commitNo (s : State) : s.draw.2.commitNo = s.commitNo := rfl
@[simp] theorem State.draw_commitC (s : State) : s.draw.2.commitC = s.commitC := rfl
@[simp] theorem State.draw_applying (s : State) : s.draw.2.applying = s.applying := rfl
@[simp] theorem State.draw_spillPool (s : State) : s.draw.2.spillPool = s.spillPool := rfl
@[simp] theorem State.draw_models (s : State) : s.draw.2.models = s.models := rfl
@[simp] theorem State.draw_slices (s : State) : s.draw.2.slices = s.slices := rfl
@[simp] theorem State.draw_steps (s : State) : s.draw.2.steps = s.steps := rfl
@[simp] theorem State.draw_mst (s : State) : s.draw.2.mst = s.mst := rfl
@[simp] theorem State.draw_joinQ (s : State) : s.draw.2.joinQ = s.joinQ := rfl
@[simp] theorem State.draw_tenQ (s : State) : s.draw.2.tenQ = s.tenQ := rfl
@[simp] theorem State.draw_tenC (s : State) : s.draw.2.tenC = s.tenC := rfl
@[simp] theorem State.draw_curTenant (s : State) : s.draw.2.curTenant = s.curTenant := rfl
@[simp] theorem State.draw_lastTenant (s : State) : s.draw.2.lastTenant = s.lastTenant := rfl
@[simp] theorem State.draw_turnStart (s : State) : s.draw.2.turnStart = s.turnStart := rfl
@[simp] theorem State.draw_turnEnd (s : State) : s.draw.2.turnEnd = s.turnEnd := rfl
@[simp] theorem State.draw_turnSteps (s : State) : s.draw.2.turnSteps = s.turnSteps := rfl
@[simp] theorem State.draw_dies (s : State) : s.draw.2.dies = s.dies := rfl
@[simp] theorem State.draw_d2d (s : State) : s.draw.2.d2d = s.d2d := rfl
@[simp] theorem State.draw_noc (s : State) : s.draw.2.noc = s.noc := rfl
@[simp] theorem State.draw_pals (s : State) : s.draw.2.pals = s.pals := rfl
@[simp] theorem State.draw_chans (s : State) : s.draw.2.chans = s.chans := rfl
@[simp] theorem State.draw_grps (s : State) : s.draw.2.grps = s.grps := rfl
@[simp] theorem State.draw_flash (s : State) : s.draw.2.flash = s.flash := rfl
@[simp] theorem State.draw_links (s : State) : s.draw.2.links = s.links := rfl
@[simp] theorem State.draw_bundleW (s : State) : s.draw.2.bundleW = s.bundleW := rfl
@[simp] theorem State.draw_router (s : State) : s.draw.2.router = s.router := rfl
@[simp] theorem State.draw_coord (s : State) : s.draw.2.coord = s.coord := rfl
@[simp] theorem State.draw_power (s : State) : s.draw.2.power = s.power := rfl
@[simp] theorem State.draw_mon (s : State) : s.draw.2.mon = s.mon := rfl
@[simp] theorem State.draw_health (s : State) : s.draw.2.health = s.health := rfl
@[simp] theorem State.draw_nor (s : State) : s.draw.2.nor = s.nor := rfl
@[simp] theorem State.draw_clk (s : State) : s.draw.2.clk = s.clk := rfl
@[simp] theorem State.draw_sec (s : State) : s.draw.2.sec = s.sec := rfl
@[simp] theorem State.draw_snap (s : State) : s.draw.2.snap = s.snap := rfl
@[simp] theorem State.draw_side (s : State) : s.draw.2.side = s.side := rfl
@[simp] theorem State.draw_tx (s : State) : s.draw.2.tx = s.tx := rfl

@[simp] theorem State.draw_fresh (s : State) : s.draw.2.fresh = s.fresh + 1 := rfl

/-- The port changed is the port named. -/
@[simp] theorem State.port_setPort (s : State) (p : Port) (x : PortSt) : (s.setPort p x).port p = x := by cases p <;> rfl

/-- The other port is as it was. -/
@[simp] theorem State.port_setPort_other (s : State) (p : Port) (x : PortSt) : (s.setPort p x).port (otherPort p) = s.port (otherPort p) := by
  cases p <;> rfl

@[simp] theorem State.port_modPort (s : State) (p : Port) (g : PortSt → PortSt) : (s.modPort p g).port p = g (s.port p) := by cases p <;> rfl

@[simp] theorem State.port_modPort_other (s : State) (p : Port) (g : PortSt → PortSt) : (s.modPort p g).port (otherPort p) = s.port (otherPort p) := by
  cases p <;> rfl

@[simp] theorem State.master_modMaster (s : State) (m : Master) (g : MasterSt → MasterSt) : (s.modMaster m g).master m = g (s.master m) := by
  cases m <;> rfl

@[simp] theorem State.hostMem_setHostMem (s : State) (p : Port) (m : List Host.Cell) : (s.setHostMem p m).hostMem p = m := by cases p <;> rfl

/-- A link changed is the link named. -/
theorem State.link_modLink (s : State) (i : Nat) (g : Link → Link) (h : i < s.links.length) : (s.modLink i g).link i = g (s.link i) := by
  simp [State.link, State.modLink, List.getD, List.getElem?_eq_getElem h]

/-- Another link is as it was. -/
theorem State.link_modLink_ne (s : State) (i j : Nat) (g : Link → Link) (h : i ≠ j) : (s.modLink i g).link j = s.link j := by
  simp [State.link, State.modLink, List.getD, h]

/-- A die changed is the die named. -/
theorem State.die_modDie (s : State) (k : Nat) (g : Die → Die) (h : k < s.dies.length) : (s.modDie k g).die k = g (s.die k) := by
  simp [State.die, State.modDie, List.getD, List.getElem?_eq_getElem h]

/-- Another die is as it was. -/
theorem State.die_modDie_ne (s : State) (k j : Nat) (g : Die → Die) (h : k ≠ j) : (s.modDie k g).die j = s.die j := by
  simp [State.die, State.modDie, List.getD, h]

/-- A slice handle changed is the one named. -/
theorem State.slc_modSlc (s : State) (k : Nat) (g : Slice → Slice) (h : k < s.slices.length) : (s.modSlc k g).slc k = g (s.slc k) := by
  simp [State.slc, State.modSlc, List.getD, List.getElem?_eq_getElem h]

/-- Another handle is as it was. -/
theorem State.slc_modSlc_ne (s : State) (k j : Nat) (g : Slice → Slice) (h : k ≠ j) : (s.modSlc k g).slc j = s.slc j := by
  simp [State.slc, State.modSlc, List.getD, h]

end Sys2Proof.Machine
end

