-- ==== Sys2Proof/WellFormed.lean ====
section
/-! DEFINITION. Well-formed commands: every operand within the range that the spec gives it. The machine answers a next state for
ill-formed ones too; this says which commands a sender of the part can form. -/

namespace Sys2Proof

/-- A command's source: the submission index lies in the largest ring (R397). -/
def wfSrc (x : Src) : Bool := decide (x.sqIndex < 65536) && !(x.mailbox && x.fence)

/-- The 112 body bytes of Table 17-1. -/
def wfBody (b : List Byte) : Bool := decide (b.length = 112)

/-- Table 09-4. -/
def wfToken (t : Token) : Bool :=
  decide (t.tag < 65536) && decide (t.stepId < 2 ^ 64) && decide (t.run < 256) && decide (t.barrier < 65536) &&
  decide (t.member < 64) && decide (t.cause < 256) && decide (t.status < 65536) && decide (t.batchDigest < 2 ^ 64) &&
  decide (t.sliceDigest.length = 32)

/-- One COMMIT entry: `N_ACC` of 7 bits and the nodes of a path record of 64 bytes (R226). -/
def wfCommit (e : CommitEntry) : Bool := decide (e.nAcc < 128) && decide (e.path.length ≤ 64) && e.path.all fun n => decide (n < 256)

/-- Table 15-4. -/
def wfSliceMsg (m : SliceMsg) : Bool :=
  decide (m.tag < 65536) && decide (m.member < 64) && decide (m.coord < 64) && decide (m.causeCoord < 64) && decide (m.cause < 16)

/-- R201. -/
def wfEnvelope (e : Envelope) : Bool :=
  decide (e.stepId < 2 ^ 64) && decide (e.run < 16) && decide (e.layer < 65536) && decide (e.gsn < 65536)

/-- Table 10-3. -/
def wfCandList (c : CandList) : Bool := decide (c.stepId < 2 ^ 64) && decide (c.member < 64) && decide (c.shards < 65536)

/-- Table 14-5. -/
def wfIdent (i : Ident) : Bool := decide (i.coord < 64) && decide (i.link < 32) && decide (i.bkind < 4) && decide (i.bdim < 8) && decide (i.foldMask < 64)

/-- Table 15-2. -/
def wfPacket (p : Packet) : Bool := decide (p.cls < 3) && decide (p.hdr.dst < 64) && decide (p.hdr.src < 64) && decide (p.hdr.hops < 8)

/-- Table 14-2. -/
def wfFlit (f : Flit) : Bool := decide (f.seq < 4096) && decide (f.ack < 4096) && wfPacket f.pkt

/-- Table 03-6: formats of 4 bits. -/
def wfJob (j : CellJob) : Bool := decide (j.aFmt < 16) && decide (j.bFmt < 16) && decide (j.outFmt < 16)

/-- Sixty-four vector registers (Table 04-1). -/
def wfReg (l : List Nat) : Bool := l.all fun r => decide (r < 64)

/-- Vector instructions name registers 0 to 63. -/
def wfVec : VecOp → Bool
  | .fadd d a b | .fsub d a b | .fmul d a b | .fmin d a b | .fmax d a b | .fcmp d a b | .fdiv d a b => wfReg [d, a, b]
  | .iadd d a b | .isub d a b | .icmp d a b | .ishl d a b | .ishr d a b | .iand d a b | .ior d a b | .ixor d a b => wfReg [d, a, b]
  | .fma d a b c | .sel d a b c => wfReg [d, a, b, c]
  | .fsqrt d a | .fexp d a | .frecip d a | .frsqrt d a | .redSum d a | .redMax d a | .redMin d a | .redArgmax d a => wfReg [d, a]
  | .cvtTo f d a | .cvtFrom f d a | .mxPack f d a | .mxUnpack f d a => decide (f < 16) && wfReg [d, a]
  | .load d _ => wfReg [d]
  | .store a _ => wfReg [a]

/-- At most 4 MiB in lines of 64 bytes (R100). -/
def wfDma (d : Dma) : Bool := decide (64 * d.lines * d.runs ≤ 2 ^ 22)

/-- BAR4 sizes of 1 GiB to 4 TiB (R391). -/
def wfCfg : CfgReq → Bool
  | .memEnable _ => true
  | .bar4Size l => decide (30 ≤ l) && decide (l ≤ 42)

/-- The rails of Table 20-2. -/
def wfRail : Rail → Bool
  | .compute k => decide (k < 8)
  | .io m | .lpddr m | .aux m => decide (m < 4)

/-- The SQ registers of the part: 30 links, 8 compute dies. -/
def wfSq : SqReg → Bool
  | .lnk i => decide (i < 30)
  | .cd k => decide (k < 8)
  | .pci _ | .rte | .fls | .spill | .hlt | .pwr | .mon | .clk | .sec => true

/-- The posted-write blocks of the part. -/
def wfPw : PwBlk → Bool
  | .lnk i => decide (i < 30)
  | .mon | .clk | .pci _ | .rte | .fls => true

/-- Well-formed commands. -/
def Instr.wf (i : Instr) : Bool :=
  match i with
  | .devInfo src body => wfSrc src && wfBody body
  | .resetScope src body => wfSrc src && wfBody body
  | .resetScopeDelayExpire => true
  | .ringSetup src body => wfSrc src && wfBody body
  | .ringSetupTakeover src body => wfSrc src && wfBody body
  | .objCreate src body => wfSrc src && wfBody body
  | .objLoadHost src body => wfSrc src && wfBody body
  | .objStageFlash src body => wfSrc src && wfBody body
  | .objPromote src body => wfSrc src && wfBody body
  | .objEvict src body => wfSrc src && wfBody body
  | .objPin src body => wfSrc src && wfBody body
  | .objUnpin src body => wfSrc src && wfBody body
  | .objQuery src body => wfSrc src && wfBody body
  | .modelBind src body => wfSrc src && wfBody body
  | .viewSwitch src body => wfSrc src && wfBody body
  | .layerSwap src body => wfSrc src && wfBody body
  | .modelRelease src body => wfSrc src && wfBody body
  | .sliceJoin src body => wfSrc src && wfBody body
  | .sliceLeave src body => wfSrc src && wfBody body
  | .routeLoad src body => wfSrc src && wfBody body
  | .bundleSet src body => wfSrc src && wfBody body
  | .stepSubmit src body => wfSrc src && wfBody body
  | .stepKill src body => wfSrc src && wfBody body
  | .seqOpen src body => wfSrc src && wfBody body
  | .seqClose src body => wfSrc src && wfBody body
  | .pageShare src body => wfSrc src && wfBody body
  | .pageShareAct slot => decide (slot < 8192)
  | .prefetchSched src body => wfSrc src && wfBody body
  | .spillPolicy src body => wfSrc src && wfBody body
  | .paletteLoad src body => wfSrc src && wfBody body
  | .paletteRemove src body => wfSrc src && wfBody body
  | .stateDump src body => wfSrc src && wfBody body
  | .snapRead src body => wfSrc src && wfBody body
  | .fwUpdate src body => wfSrc src && wfBody body
  | .attest src body => wfSrc src && wfBody body
  | .powerPolicy src body => wfSrc src && wfBody body
  | .mbGo _ => true
  | .sqTailWrite _ _ => true
  | .cqHeadWrite _ _ => true
  | .commandFetch => true
  | .fencedCommandExecute slot => decide (slot < 8192)
  | .coalTimerExpire _ => true
  | .cfgCommitGo _ => true
  | .cfgCommitDiscard _ => true
  | .generationApply _ => true
  | .bfWrite _ off _ => decide (off < 0x4000000)
  | .pwWrite _ off _ => decide (off < 0x4000000)
  | .pwWriteLand _ blk => wfPw blk
  | .accDropClear _ blk => wfPw blk
  | .sqEventRead _ r => wfSq r
  | .sqEventClear _ r _ => wfSq r
  | .lockSet _ off => decide (off < 0x4000000)
  | .timeLoRead _ => true
  | .rackCapWrite _ _ => true
  | .hostCapWrite _ _ => true
  | .rteCoordWrite _ _ => true
  | .lnkRetrain _ link => decide (link < 30)
  | .lnkEnableWrite _ link _ => decide (link < 30)
  | .snapTrig _ => true
  | .snapRearm _ => true
  | .svnCommit _ => true
  | .keyRevoke _ slot => decide (slot < 4)
  | .allowlistAdd _ _ => true
  | .allowlistRemove _ _ => true
  | .allowlistClear _ _ => true
  | .registerWrite _ _ off size _ => decide (off < 0x4000000) && decide (size ≤ 4)
  | .bar4Read _ _ _ => true
  | .bar4Write _ _ _ => true
  | .perstAssert _ => true
  | .perstDeassert _ => true
  | .pcieHotReset _ _ => true
  | .pcieFlr _ => true
  | .pcieLinkUp _ rate width flit _ _ => decide (rate ≤ 5) && [1, 2, 4, 8, 16].contains width && (rate != 5 || flit)
  | .pcieLinkDown _ => true
  | .d3hotEntry _ => true
  | .d3hotExit _ => true
  | .ideFail _ stream => decide (stream ≤ 4)
  | .ideKeyProgram _ stream => decide (stream ≤ 4)
  | .spdmRequest _ nonce => decide (nonce.length = 32)
  | .arrive t => wfToken t
  | .release t => wfToken t
  | .preparedSend slice stepId => decide (slice < 8) && decide (stepId < 2 ^ 64)
  | .prepared t _ _ _ => wfToken t
  | .commitPoint slice stepId => decide (slice < 8) && decide (stepId < 2 ^ 64)
  | .commit t body => wfToken t && body.all wfCommit
  | .committed t => wfToken t
  | .killReq t => wfToken t
  | .kill t => wfToken t
  | .killed t => wfToken t
  | .startWaitExpire slice stepId => decide (slice < 8) && decide (stepId < 2 ^ 64)
  | .barrierWaitExpire slice stepId barrier => decide (slice < 8) && decide (stepId < 2 ^ 64) && decide (barrier < 65536)
  | .quantumExpire => true
  | .candidateList tag c => decide (tag < 65536) && wfCandList c
  | .progTile die slot => decide (die < 8) && decide (slot < 16)
  | .appendStallResume die slot => decide (die < 8) && decide (slot < 16)
  | .progCounter die slot => decide (die < 8) && decide (slot < 16)
  | .progMoeCtx die slot => decide (die < 8) && decide (slot < 16)
  | .moeCtxDeferredOpen die slot => decide (die < 8) && decide (slot < 16)
  | .progMerge die slot => decide (die < 8) && decide (slot < 16)
  | .progBarrier die slot => decide (die < 8) && decide (slot < 16)
  | .progPoolmask die slot => decide (die < 8) && decide (slot < 16)
  | .progReduce die slot => decide (die < 8) && decide (slot < 16)
  | .progSend die slot => decide (die < 8) && decide (slot < 16)
  | .sendMessage die slot _ => decide (die < 8) && decide (slot < 16)
  | .tileClaim die core => decide (die < 8) && decide (core < 120)
  | .claimGrant die => decide (die < 8)
  | .tileComplete die core entry _ _ _ => decide (die < 8) && decide (core < 120) && decide (entry < 65536)
  | .tileFail die core entry _ _ _ => decide (die < 8) && decide (core < 120) && decide (entry < 65536)
  | .failedTileDecide die entry => decide (die < 8) && decide (entry < 65536)
  | .nopTileComplete die entry => decide (die < 8) && decide (entry < 65536)
  | .reduceGroupReset die group => decide (die < 8) && decide (group < 1024)
  | .abandonConfirm die core entry => decide (die < 8) && decide (core < 120) && decide (entry < 65536)
  | .heartbeat die core => decide (die < 8) && decide (core < 120)
  | .coreLost die core => decide (die < 8) && decide (core < 120)
  | .seqWatchdog die core => decide (die < 8) && decide (core < 120)
  | .cellJobStart die core engine x => decide (die < 8) && decide (core < 120) && decide (engine < 4) && wfJob x.job
  | .cellJobDone die core engine cell => decide (die < 8) && decide (core < 120) && decide (engine < 4) && decide (cell < 16)
  | .vectorInstruction die core op => decide (die < 8) && decide (core < 120) && wfVec op
  | .dmaTransfer die core x => decide (die < 8) && decide (core < 120) && wfDma x.d
  | .dmaComplete die core ctx _ => decide (die < 8) && decide (core < 120) && decide (ctx < 16)
  | .fence die core => decide (die < 8) && decide (core < 120)
  | .paletteSlotLoadDone die core => decide (die < 8) && decide (core < 120)
  | .gtTileDone die core engine cell x => decide (die < 8) && decide (core < 120) && decide (engine < 4) && decide (cell < 16) && decide (x.checks.length = 16)
  | .gtForceTimer die core engine cell => decide (die < 8) && decide (core < 120) && decide (engine < 4) && decide (cell < 16)
  | .cellParityError die core engine cell => decide (die < 8) && decide (core < 120) && decide (engine < 4) && decide (cell < 16)
  | .bufferEccError die core engine _ => decide (die < 8) && decide (core < 120) && decide (engine < 4)
  | .coreStoreEccError die core _ => decide (die < 8) && decide (core < 120)
  | .unpackError die core entry => decide (die < 8) && decide (core < 120) && decide (entry < 65536)
  | .unpackRereadDone die entry => decide (die < 8) && decide (entry < 65536)
  | .count die e counts => decide (die < 8) && wfEnvelope e && decide (counts.length ≤ 64)
  | .grant die e _ _ => decide (die < 8) && wfEnvelope e
  | .row die e _ _ => decide (die < 8) && wfEnvelope e
  | .returnMsg die e _ _ _ => decide (die < 8) && wfEnvelope e
  | .record die e _ _ _ => decide (die < 8) && wfEnvelope e
  | .qrow die e _ _ _ => decide (die < 8) && wfEnvelope e
  | .kvrow die e _ _ _ => decide (die < 8) && wfEnvelope e
  | .nextRound die slot layer => decide (die < 8) && decide (slot < 16) && decide (layer < 65536)
  | .tailCopyDone slot _ => decide (slot < 16)
  | .spillStart pool => decide (pool < 2 ^ 32)
  | .spillWriteDone pool page => decide (pool < 2 ^ 32) && decide (page < 2 ^ 32)
  | .pageReturnStart pool page => decide (pool < 2 ^ 32) && decide (page < 2 ^ 32)
  | .pageReturnDone pool page _ => decide (pool < 2 ^ 32) && decide (page < 2 ^ 32)
  | .tileLand obj _ _ => decide (obj < 2 ^ 32)
  | .departWriteoutDone obj => decide (obj < 2 ^ 32)
  | .departRelease obj => decide (obj < 2 ^ 32)
  | .flashCopyDurable obj => decide (obj < 2 ^ 32)
  | .stageCopyWrite die obj _ => decide (die < 8) && decide (obj < 2 ^ 32)
  | .coldTileLand die obj _ => decide (die < 8) && decide (obj < 2 ^ 32)
  | .swapWriteStart model => decide (model < 2 ^ 32)
  | .tileRepair obj _ => decide (obj < 2 ^ 32)
  | .memReadUncorrectable _ => true
  | .channelFail ch => decide (ch < 256)
  | .patrolScrubMismatch group _ _ _ => decide (group < 16)
  | .nandOpDone die => decide (die < 128)
  | .nandProgramFail die block => decide (die < 128) && decide (block < 4096)
  | .nandDieFail die => decide (die < 128)
  | .nandRebuildDone die _ => decide (die < 128)
  | .readDisturbDue die block _ => decide (die < 128) && decide (block < 4096)
  | .thermalAgeTick _ => true
  | .relocationDone die block => decide (die < 128) && decide (block < 4096)
  | .nandOvertemp pkg => decide (pkg < 16)
  | .nandTempOk pkg => decide (pkg < 16)
  | .flashScrubPass die block _ => decide (die < 128) && decide (block < 4096)
  | .linkTrainDone link _ _ _ => decide (link < 30)
  | .linkTrainTimeout link => decide (link < 30)
  | .identReceived rx i => decide (rx.link < 30) && decide (rx.ack < 4096) && wfIdent i
  | .miswireRecheck link => decide (link < 30)
  | .dataFlitReceived link f _ => decide (link < 30) && wfFlit f
  | .nakReceived rx nakSeq => decide (rx.link < 30) && decide (rx.ack < 4096) && decide (nakSeq < 4096)
  | .creditReceived rx c0 c1 c2 => decide (rx.link < 30) && decide (rx.ack < 4096) && decide (c0 < 65536) && decide (c1 < 65536) && decide (c2 < 65536)
  | .ackTimeout link => decide (link < 30)
  | .creditTimer link => decide (link < 30)
  | .laneFault link lane => decide (link < 30) && decide (lane < 8)
  | .linkFail link => decide (link < 30)
  | .linkRetryTimer link => decide (link < 30)
  | .linkRestore link => decide (link < 30)
  | .packetRoute p => wfPacket p
  | .transitWindow => true
  | .twinTileRequest obj _ => decide (obj < 2 ^ 32)
  | .join m => wfSliceMsg m
  | .joinAck m => wfSliceMsg m
  | .joinFail m => wfSliceMsg m
  | .joinWaitExpire slice => decide (slice < 8)
  | .stop m => wfSliceMsg m
  | .stillToken tag origin _ => decide (tag < 65536) && decide (origin < 64)
  | .stillInFall _ => true
  | .stillOutPulseEnd => true
  | .d2dCrcError port => decide (port < 22)
  | .nodCrcError die => decide (die < 8)
  | .dieAgentWatchdog die => decide (die < 8)
  | .diePoolUncorrectable die _ => decide (die < 8)
  | .dieLost die => decide (die < 8)
  | .lockstepMismatch => true
  | .easelSramError => true
  | .ceSample => true
  | .registerScrub => true
  | .healthMessage => true
  | .healthRepeatTimer => true
  | .healthAck aseq => decide (aseq < 65536)
  | .faultPulseEnd => true
  | .sidebandHeartbeat => true
  | .orphanTimeout => true
  | .sidebandBusStuck => true
  | .recoveryImageMessage _ _ => true
  | .sidebandAttestRequest nonce => decide (nonce.length = 32)
  | .weirNAssert => true
  | .weirNRelease => true
  | .voltageStageSettle => true
  | .heldExit => true
  | .millpondTick _ _ _ _ => true
  | .inputSag => true
  | .sagCapTimer => true
  | .sagHoldTimer => true
  | .inputRecover => true
  | .inputOvervoltage => true
  | .powerOff => true
  | .phaseFail r => wfRail r
  | .railShort r => wfRail r
  | .thermalSample readings => (readings.all fun (i, _) => decide (i < 864))
  | .thermtrip sensor => decide (sensor < 864)
  | .coolantEstimate _ _ _ _ _ => true
  | .droopTrip die => decide (die < 12)
  | .refClockLoss => true
  | .refHoldoverExpire => true
  | .pllUnlock die => decide (die < 12)
  | .powerOn => true
  | .modRstNAssert => true
  | .moduleResetEnd => true
  | .bootStageDone => true
  | .memoryTrainingDone failed => (failed.all fun c => decide (c < 256))
  | .ftlReady => true
  | .dieResetDone die => decide (die < 8)
  | .flashResetDone => true
  | .configurationRequest _ r => wfCfg r
  | .refClockReturn => true
  | .quotaReturn pool => decide (pool < 2 ^ 32)
  | .vectorParityError die core => decide (die < 8) && decide (core < 120)
  | .sequencerEccError die core => decide (die < 8) && decide (core < 120)
  | .sidebandLinesHigh => true
  | .dynamicAddressAssign addr => decide (addr < 128)
  | .dynamicAddressReset => true
  | .tapInstruction _ => true
  | .noSourceAnswer obj => decide (obj < 2 ^ 32)
  | .reportSigned => true
  | .updateDone => true

end Sys2Proof
end

