-- ==== Sys2Proof/Tests/Slice0.lean ====
section
/-! SUPPORT. The model's own tests: worked examples of the spec and published check values, an ill-formed term for each check of
WellFormed, and for each statement with hypotheses a concrete state and operands that meet them, clause by clause. -/

-- one declaration after another: the tests need many small evaluations and little memory
set_option Elab.async false

namespace Sys2Proof.Tests

open Sys2Proof Sys2Proof.Machine

def ring0 : Ring :=
  { sqAddr := 0, cqAddr := 0x10000, sqLog2 := 4, cqLog2 := 4, vec := 0, coalUs := 0, fetch := 0, tail := 0, post := 0, head := 0, phase := true,
    live := true }

def portUp : PortSt := { State.port0 with linkUp := true, cfgReady := true, memEn := true, ring := some ring0 }

/-- Boot stage 5, both host ports up, a ring on each. -/
def up : State :=
  { State.reset with pa := portUp, pb := portUp, clk := { State.clk0 with inReset := false, stage := 5, refOk := true } }

def src0 : Src := { port := .a, mailbox := false, tag := 7, fence := false, sqIndex := 0 }

/-- Command body bytes: each (offset, bytes, value) little-endian, zero elsewhere. -/
def bytesAt (n : Nat) (l : List (Nat × Nat × Nat)) : List Byte :=
  ((List.range n).map fun i => l.findSome? fun (o, k, v) => if o ≤ i ∧ i < o + k then some (BitVec.ofNat 8 (v / 256 ^ (i - o))) else none).map (·.getD 0)

def body (l : List (Nat × Nat × Nat)) : List Byte := bytesAt 112 l

/-- The next state of an outcome. -/
def out (o : Host.Outcome State Fault Refusal) : State :=
  match o with
  | .next t => t
  | _ => State.reset

theorem ran {o : Host.Outcome State Fault Refusal} (h : goesOn o = true) : o = .next (out o) := by
  cases o with
  | next t => rfl
  | fault r => cases h
  | refused r => cases h

def msg0 : SliceMsg := { tag := 1, member := 0, coord := 0, causeCoord := 0, cause := 0, serial := 0, digest := [] }

def hdr0 : RouteHdr := { dst := 0, src := 0, bank := 0, xt := false, srcGsn := 0, dstGdn := 0, hops := 0, tag := 1, len := 64, pseq := 0 }

def pkt0 : Packet := { hdr := hdr0, cls := 0, kind := .other, bytes := List.replicate 64 0 }

def flit0 : Flit := { seq := 0, ack := 0, cls := 0, part := 0, pkt := pkt0 }

def objA (id : Nat) (k : ObjKind) (r : Res) : Obj := { obj0 id k 0 with res := r }

def withObjs (l : List Obj) : State := { up with objs := l }

def withObj (o : Obj) : State := withObjs [o]

/-- A choice from a list that is not empty gives an element of it. -/
theorem choose_some {α : Type} (s : State) {l : List α} (h : l.isEmpty = false) :
    ∃ x f, x ∈ l ∧ s.choose l = (some x, { s with fresh := f }) := by
  cases l with
  | nil => cases h
  | cons a t =>
    refine ⟨_, _, ?_, rfl⟩
    rw [List.getD_eq_getElem _ _ (Nat.mod_lt _ (by simp))]
    exact List.getElem_mem _

/-- A system extent finds its two places, whichever groups the module picks. -/
theorem placed {s : State} {ow key n : Nat} (h : ((s.sysRooms (up64k n) none).filter fun (g, _) =>
    !(s.sysRooms (up64k n) (some (dieOfGroup g))).isEmpty).isEmpty = false) : ∃ t, s.placeSys ow key n = some t := by
  obtain ⟨⟨g, o⟩, f, hm, he⟩ := choose_some s h
  have hg : (s.sysRooms (up64k n) (some (dieOfGroup g))).isEmpty = false := by simpa using (List.mem_filter.mp hm).2
  have hg' : (({ s with fresh := f } : State).sysRooms (up64k n) (some (dieOfGroup g))).isEmpty = false := hg
  obtain ⟨⟨g', o'⟩, f', -, he'⟩ := choose_some { s with fresh := f } hg'
  simp only [State.placeSys]
  rw [he]
  dsimp only
  rw [he']
  exact ⟨_, rfl⟩

/-- A manifest of two members with one set, the other member's (Tables 13-3 to 13-5). -/
def man0 : List Byte :=
  bytesAt 192 [(0, 4, 0x10000), (4, 2, 1), (8, 4, 32), (12, 4, 1), (16, 1, 2), (20, 4, 1), (24, 4, 128), (28, 4, 144), (144, 1, 1)]

/-- SHAKE256 of the manifest and of its header, from another implementation of FIPS 202. -/
def dig0 : List Byte := leBytes 32 0xcf19a03ff71cd9885306bb46493f835c914a3714f4722f224e0d7ed63f5ac9dc

def dig1 : List Byte := leBytes 32 0x22820144d6b781c6485bce9d132b4ecafa4316fb07223dc932f12fab6655146c

def manP : Manifest :=
  { nLayers := 1, spec := 0, specH := 0, hidden := 32, vocab := 1, members := 2,
    layers := [{ moe := false, topk := 0, experts := 0, scoreScale := 0 }],
    sets := [{ member := 1, die := 0, layer := 0, expert := 0, tiles := 0, digest := List.replicate 32 0 }],
    digest := dig0, hdrDigest := dig1 }

/-- A body with a 32-byte digest at `off`. -/
def withDig (off : Nat) (d b : List Byte) : List Byte := b.take off ++ d ++ b.drop (off + 32)

def upMan : State := { up with hostA := Memory.write [] 0x4000 man0 }

def view0 : View := { no := 0, slot := 0, man := manP, map := [], cold := List.replicate 8 0, holders := 0, state := 0, oldAction := 0, lost := false }

def model0 : Model :=
  { h := 3, slotNo := 0, dead := false, member := 0, cur := 0, nextView := 1, views := [view0], releasing := none, releaseAction := 0, swap := none,
    swaps := [] }

def upModel : State := { upMan with models := [model0] }

def bindBody : List Byte := withDig 32 dig0 (body [(0, 2, 3), (4, 4, 192), (8, 8, 0x4000)])

def swapBody : List Byte := withDig 32 dig0 (body [(0, 2, 3), (4, 4, 192), (8, 8, 0x4000), (28, 4, 10000000), (64, 1, 1)])

/-- A slice of both modules of a one-dimension fabric, this module at coordinate 0, and its routing table. -/
def coordUp (dims : Nat) : Coord := { State.coord0 with valid := true, dims := dims, coordN := 2 ^ dims, foldMask := 2 ^ dims - 1 }

def route0 : List Byte := bytesAt 128 ([(0, 2, 9), (4, 4, 1), (8, 8, 3), (64, 1, 7), (65, 1, 0)] ++ (List.range 62).map fun i => (66 + i, 1, 15))

def upSlice : State := { up with hostA := Memory.write [] 0x8000 route0, models := [model0], coord := coordUp 1 }

def joinBody0 : List Byte := body [(0, 1, 7), (2, 2, 9), (5, 1, 0x3E), (9, 1, 2), (10, 2, 3), (32, 8, 0x8000), (40, 4, 1)]

def tab0 : RTable := { rgen := 1, mask := 3, next := (route0.drop 64).map (·.toNat) }

def sliceJ : Slice :=
  { State.slice0 with state := .joined, tag := 9, fix0 := 0x3E, width := 2, model := 3, count := 2, rt := [some tab0, none], joinBody := joinBody0.take 44 }

/-- The same with slice handle 0 JOINED, a KV pool, a program and an open sequence. -/
def pool0 : Pool :=
  { d := 128, g := 1, fmt := 5, sr := false, layers := 1, heads := 1, layer0 := 0, head0 := 0, tableBytes := 65536, frames := 16, pageIds := 32,
    pageBytes := 65536, metaOff := 0, metaGroup := 0, pages := [], tables := [], target := 0, hostBuf := 0, lowFree := 0, highFree := 0, idleSteps := 1,
    fallback := false, stalled := false, spilling := false, demand := [], spillTo := none }

def seq0 : Seq :=
  { h := 5, slice := 0, pool := 2, spread := 1, mlist := [0], prefixLen := 0, seed := 0, len := 0, zeroAcc := 0, rootSlot := 0, map := [], step := 0,
    closeHeld := [], closing := false, closed := false, closedAt := 0, slotNo := 0, lastStep := 0, lastCommit := 0, nOut := 0, rflags := 0,
    tokValid := false, stamp := 0, toks := [] }

def poolObj : Obj := { objA 2 .kvpool .resident with pool := some pool0 }

/-- A sequence list of one DECODE entry. -/
def list0 : List Byte := bytesAt 64 [(0, 4, 5), (4, 4, 1), (8, 1, 8), (24, 6, tableAddr pool0 0), (36, 4, 0xFFFFFFFF)]

def upStep : State :=
  { upSlice with hostA := Memory.write [] 0x9000 list0, slices := sliceJ :: List.replicate 7 State.slice0, objs := [objA 1 .program .resident, poolObj],
                 seqs := [seq0] }

def submit0 : List Byte := body [(0, 8, 77), (10, 2, 3), (12, 2, 1), (16, 4, 1), (24, 8, 0x9000), (32, 8, 0xA000), (40, 8, 0xB000)]

def step0 : Step :=
  { slice := 0, id := 77, run := 0, slot := 0, model := 3, view := 0, tenant := 0, program := 1, seqs := [{ seqEntOf list0 with toks := [0] }],
    ref := { src := src0, opcode := 0x40, slot := none }, spAddr := 0, resAddr := 0, outAddr := 0, digest := 0, rbank := 0, pbank := 0, phase := 0, flags := 0,
    ovfPairs := 0, ovfRounds := 0, rerun := false, preempts := 0, pinned := [], alloc := [], leaves := [], staged := [], copies := [], arrivedAt := [],
    arriveSent := [], released := [], prepSent := false, killing := none, swapHeld := [], status := 0, gtPending := [], sched := [], pfTrig := [],
    killRefs := [], commitNo := 0, kvRows := [], waitRun := false, blame := none }

def upRun : State := { upStep with steps := [step0] }

def cmd0 (op : Nat) (b : List Byte) : CmdSlot :=
  { idx := 0, src := src0, opcode := op, state := .waiting, cseq := 0, stepId := 0, slice := 0, status := 0, body := b, postOn := .a, order := 0,
    shareWait := false }

def pal0 : List Byte := bytesAt 128 [(0, 1, 17), (1, 1, 1), (4, 4, 64), (8, 4, 0x10000)]

def dig2 : List Byte := leBytes 32 0x4c529d65bac715b05bed68c6c3e8025a95b98345c0fff516d5e27e8371aaba3

def upPal : State := { up with hostA := Memory.write [] 0x1000 pal0 }

/-- A firmware image in its form (Table 23-2). -/
def fwHead : List Byte := bytesAt 128 [(0, 4, 0x10000), (4, 1, 1), (16, 4, 4096)]

def fw0 : List Byte := fwHead ++ List.replicate 33888 0

theorem fld_take (b : List Byte) (o n : Nat) (h : o + n ≤ 128) : fld b o n = fld (b.take 128) o n := by
  simp only [fld, List.drop_take, List.take_take]
  rw [Nat.min_eq_left (by omega)]

theorem form_long {b : List Byte} (hl : b.length = 34016) (h : (fld (b.take 128) 0 4 == 0x10000 && decide (fld (b.take 128) 8 1 ≤ 64) &&
    fld (b.take 128) 16 4 == 4096 && onlyUses (b.take 128) [(0, 10), (16, 4), (24, 64)]) = true) : imageFormOk b = true := by
  simp only [Bool.and_eq_true, beq_iff_eq, decide_eq_true_eq] at h
  obtain ⟨⟨⟨h0, h8⟩, h16⟩, hu⟩ := h
  simp only [imageFormOk, fld_take b 0 4 (by decide), fld_take b 8 1 (by decide), fld_take b 16 4 (by decide), h0, h8, h16, hl, hu]
  decide

theorem read_take (m : List Host.Cell) (a n k : Nat) (h : k ≤ n) : (Memory.read m a n).take k = Memory.read m a k := by
  simp [Memory.read, ← List.map_take, List.take_range, Nat.min_eq_left h]

theorem form_read : imageFormOk (Memory.read (Memory.write [] 0x1000 fwHead) 0x1000 34016) = true :=
  form_long (by simp [Memory.read]) (by rw [read_take _ _ _ _ (by decide)]; decide +kernel)

theorem form_fw : imageFormOk fw0 = true :=
  form_long (by rw [fw0, List.length_append, List.length_replicate]; decide +kernel)
    (by rw [fw0, List.take_left' (by decide +kernel)]; decide +kernel)

def upFw : State := { up with hostA := Memory.write [] 0x1000 fwHead }

def fwBody : List Byte := body [(0, 8, 0x1000), (8, 4, 34016), (12, 1, 1), (13, 1, 1)]

def fwRead : List Byte := Memory.read (Memory.write [] 0x1000 fwHead) 0x1000 34016

theorem fw_at : fld fwBody 0 8 = 0x1000 ∧ fld fwBody 8 4 = 34016 := by decide +kernel

theorem fw_up : (upFw.started src0 0x70 fwBody).down src0.port = false := by decide +kernel

theorem fw_mem : (upFw.started src0 0x70 fwBody).hostMem src0.port = Memory.write [] 0x1000 fwHead := by
  simp only [State.hostMem, State.started, upFw, src0]

theorem fw_read : (upFw.started src0 0x70 fwBody).hostRead src0.port (fld fwBody 0 8) (fld fwBody 8 4) = some fwRead := by
  rw [fw_at.1, fw_at.2, State.hostRead, fw_up, fwRead, fw_mem, if_neg Bool.false_ne_true]

def acc0 : AccState := { busy := true, drop := false, dropN := 0, off := 0x40010, val := 5, seqNo := 3 }

def bufObj : Obj := { objA 3 .buffer .resident with size := 65536, extBytes := 65536, groups := 1, prot := true }

/-- A buffer at the start of the LPDDR5X windows, where the port's window begins. -/
def upBuf : State := withObj bufObj

def rpt0 : RptReq := { ref := none, spdm := true, dst := 0, unsigned := [] }

def upd0 : Upd := { ref := { src := src0, opcode := 0x70, slot := none }, slotB := true, activate := true, img := State.shippedImage }

def dpObj : Obj := { objA 3 .buffer .resident with size := 65536, extBytes := 65536, dp := true, die := 7, extOff := 0x1000000 }

/-- Out of reset, at a boot stage. -/
def atStage (n : Nat) : State := { State.reset with clk := { State.clk0 with inReset := false, stage := n, refOk := true } }

def linkS (i : Nat) (f : Link → Link) : State := { up with coord := coordUp 6 }.modLink i f

/-- What the neighbour on bundle D0 sends. -/
def ident0 : Ident := { coord := 1, link := 0, bkind := 0, bdim := 0, foldMask := 63, rack := 0, serial := 1 }

def ref0 : Ref := { src := src0, opcode := 0x30, slot := none }

/-- Slice handle 0 JOINING, as master or not. -/
def joining (m : Bool) : State :=
  { upStep with slices := { sliceJ with state := .joining, ref := some ref0, master := if m then 0 else 1 } :: List.replicate 7 State.slice0 }

/-- SHAKE256 of 68 zero bytes, from another implementation of FIPS 202. -/
def digZ : List Byte := leBytes 32 0xc45867a0178919759aa2ec77aba6949c68503338766727d4e47a351b6868f7df

/-- An MXFP4 tile of 32 by 4 zeros. -/
def dir0 : TileDir :=
  { off := 0, bytes := 64, scaleOff := 64, scaleBytes := 4, k32 := 1, n4 := 1, fmt := 7, coded := false, wide := false, trole := 1, layer := 0,
    expert := 0xFFFF, tdigest := digZ }

def tset (r : Res) : Obj := { objA 1 .tileset r with tiles := 2, size := 65536, dir := [dir0, dir0], src := some .flash, groups := 1, extBytes := 65536 }

def copy0 : FCopy := { obj := 1, setDigest := [], size := 65536, body := [], durable := true, claimed := true }

def withCopy (o : Obj) : State := (withObj o).modFlash fun f => { f with ready := true, copies := [copy0] }

def stageObj : Obj := { objA 4 .stage .resident with size := 65536, dp := true, die := 7, extOff := 0x1000000, extBytes := 65536 }

def stage0 : StageEnt := { obj := 1, tile := 0, stage := 4, addr := poolBase 7 + 0x1000000, bytes := 128, order := 1, landed := false, readers := 0, cold := false, trig := 0 }

def tile0 : Tile :=
  { idx := 11, slot := 0, prio := 0, pal := 0, role := 4, reduce := false, nop := false, pool := 0, tileSeq := 21, wait := 0, waitEn := false, sig0 := 0,
    sig0En := false, sig1 := 0, sig1En := false, group := 0, stepId := 77, state := .ready, attempts := 1, wrote := false, core := 119, status := 0,
    flags := 0, readyAt := 0, readyNo := 0,
    args := bytesAt 64 [(0, 1, 5), (2, 2, 1), (4, 4, 32), (8, 6, 0x100000000000), (20, 6, 0x100000000080)], layer := 0, fwd := none, palFails := [],
    unpackFails := 0, runFlags := 0, rowBlock := none, readsObj := none, readsStage := none }

def onDie (s : State) (f : Die → Die) : State := s.modDie 7 f

def withTile (e : Tile) : State := onDie { upRun with objs := bufObj :: upRun.objs } fun d => { d with tiles := [e] }

def claimed : Tile := { tile0 with state := .claimed }

/-- Core 119 of die 7. -/
def onCore (f : Core → Core) : State := (withTile claimed).modCore 7 119 fun c => f { c with running := some 11 }

def job0 : CellJob :=
  { wide := false, aFmt := 7, bFmt := 7, rows := 1, k := 32, n := 4, aSrc := 0, aScale := 0, bSrc := 64, bScale := 0, outDst := 256, segK := 32, bCoded := false, chunk := 0,
    outFmt := 0, fwd := false }

def run0 : JobRun := { job := job0, entry := 11, bytes := [], flags := 0 }

def fullCells : List Cell := (List.range 16).map fun i => { cell0 0 i with job := some run0 }

def dma0 : Dma := { toStore := true, storeAddr := 0, modAddr := 0x100000000000, lines := 1, runs := 1, storeStride := 0, modStride := 0, tile := none, add := false }

def group0 : RGroup := { idx := 1, slot := 0, addr := 0x100000000000, bytes := 64, members := 2, poisoned := true }

def swap0 : Swap := { ref := ref0, layer := 0, bound := 1000, view := 0, targets := [], writing := false, failed := false }

/-- The run of step 77 once its start barrier is released, on the slice's master. -/
def step1 : Step := { step0 with phase := 1, released := [0] }

def runS (t : Step) (m : List MasterStep) : State := { upRun with steps := [t], mst := m }

def tok0 (s : State) (t : Step) (barrier cause : Nat) : Token :=
  { tag := 9, stepId := 77, run := 0, barrier := barrier, member := 1, cause := cause, status := 0, batchDigest := 0, sliceDigest := s.stepDigest t }

def tokM (barrier cause : Nat) : Token :=
  { tag := 9, stepId := 77, run := 0, barrier := barrier, member := 1, cause := cause, status := 0, batchDigest := 0, sliceDigest := [] }

def mstS (m : MasterStep) : State := { upStep with mst := [m] }

def m0 : MasterStep := mst0 0 77 0

theorem for_master {s : State} {k : Token} {h : Nat} {m : MasterStep} (hn : s.stepOf h k.stepId = none)
    (hd : s.easelUp = true ∧ s.sliceOfTag k.tag = some h ∧ s.mstOf h k.stepId = some m ∧ (s.slc h).state = .joined ∧ (s.slc h).isMaster = true ∧
      k.member < (s.slc h).count ∧ m.run % 256 = k.run) : s.masterFor k h m :=
  ⟨hd.1, hd.2.1, hd.2.2.1, hd.2.2.2.1, hd.2.2.2.2.1, hd.2.2.2.2.2.1, hd.2.2.2.2.2.2, fun t ht => by rw [hn] at ht; cases ht⟩

theorem for_step {s : State} {k : Token} {h : Nat} {t : Step} (hd : s.easelUp = true ∧ s.sliceOfTag k.tag = some h ∧ s.stepOf h k.stepId = some t ∧
    (s.slc h).state = .joined ∧ t.run % 256 = k.run ∧ t.phase < 4) (hs : k.sliceDigest = s.stepDigest t) : s.tokenFor k h t :=
  ⟨hd.1, hd.2.1, hd.2.2.1, hd.2.2.2.1, hd.2.2.2.2.1, hd.2.2.2.2.2, hs⟩

def cand0 : CandList :=
  { stepId := 77, run := 0, member := 0, tile := 0, entry := 0, node := 0, head := 0, shards := 1, cands := [{ token := 5, logit := 0 }] }

def par0 : List Byte := bytesAt 64 [(8, 4, 0x3F800000)]

def stepC : Step := { step1 with phase := 3, prepSent := true, spAddr := 0xA000 }

def commitS : State :=
  { runS stepC [{ m0 with released := [0, 0xFFFF], prepared := [0, 1], cands := [cand0] }] with hostA := Memory.write [] 0xA000 par0 }

def pageL : PageDesc := { page0 with state := .live, refcnt := 1 }

def withPool (p : Pool) : State := { up with objs := [{ poolObj with pool := some p }, { objA 6 .hostbuf .resident with size := 131072 }] }

def copyT : TailCopy := { seq := 5, pool := 2, src := 1, dst := 2, n := 1, page := 0, done := false }

def agent0 : Agent :=
  { slot := 0, cursor := 0, stop := 1, stalled := false, ctxWait := false, nextSeq := 0, quota := 16, ctrBase := 0, grpBase := 0, mrgBase := 0, barriers := [],
    sends := [], phases := [] }

def progObj : Obj := { objA 1 .program .resident with size := 65536, groups := 1, extBytes := 65536, prot := true }

/-- The agent of die 7 stands at one record of step 77's layer program. -/
def progS (a : Agent) (r : List Byte) : State :=
  onDie { runS step1 [] with
    mem := Memory.write [] 0x100000000040 r, objs := [progObj, poolObj], pals := [{ id := 17, role := 4, vendor := false, ver := 0, digest := [], code := [] }],
    slices := { sliceJ with palset := [0, 0, 0, 17, 0, 0, 0] } :: List.replicate 7 State.slice0 } fun d => { d with agents := [a] }

def recB (l : List (Nat × Nat × Nat)) : List Byte := bytesAt 128 l

def tileR : List Byte := recB [(0, 1, 1), (17, 1, 17), (18, 1, 4)]

def ctx0 : Ctx := { ctxOf agent0 (recB []) with ownOpen := true, srcOpen := true }

def env0 : Envelope := { stepId := 77, run := 0, layer := 0, gsn := 0, pgen := 0 }

def withCtx (c : Ctx) : State := onDie (runS step1 []) fun d => { d with ctxs := [c] }

def merge0 : MergeEnt :=
  { idx := 3, slot := 0, seq := 5, qPos0 := 0, layer := 0, kvHead := 0, parts := 2, recAddr := 0x100000000000, ctr := 0, recBytes := 64, arrived := 0, order := [] }

def blk0 : RowBlk := { lslot := 0, first := 0, rows := 4, ctr := 0, left := 1, sent := false }

def send0 : SendRec := { kind := 6, member := 1, die := 7, dctr := 0, lctr := 0, layer := 0, src := 0, dst := 0, bytes := 0, sent := false }

def cpl0 : Cpl := { tag := 0, cseq := 0, status := 0, opcode := 0, orig := .a, held := true, hostLost := false, result := [], slot := none, names := none }

def refN : Ref := { src := src0, opcode := 0x01, slot := none }

theorem tok_digest (s : State) (t : Step) (b c : Nat) : (tok0 s t b c).sliceDigest = s.stepDigest t := rfl

/-- Every die's agent is at the end of the program. -/
def doneS : State := (runS step1 []).modDies fun d => { d with agents := [{ agent0 with cursor := 1 }] }

def poolS : Pool := { pool0 with target := 1, hostBuf := 6, pages := [(1, { pageL with spillAct := true })], spillTo := some (1, 65536) }

def poolD : Pool := { pool0 with target := 1, hostBuf := 6, pages := [(1, { pageL with state := .spilled, spillTier := 1 })], demand := [1] }

/-- A page that comes back from flash as the bytes of the CRC-32C check value "123456789". -/
def poolR : Pool := { pool0 with target := 2, pages := [(1, { pageL with state := .arriving, spillTier := 2, spillCrc := 0xE3069283 })] }

def retS : State :=
  (withPool poolR).modFlash fun f => { f with ready := true, spills := [{ pool := 2, page := 1, loc := 0, n := 1, bytes := leBytes 9 0x393837363534333231 }] }

def groupW : RGroup := { group0 with poisoned := false }

def memT : Tile := { tile0 with reduce := true, group := 1, state := .done }

/-- All 16 step slots in use, so that a slot's quota of tiles is 4,096. -/
def fullS : State :=
  let s := progS agent0 tileR
  onDie { s with steps := step1 :: (List.range 15).map fun i => { step1 with id := 78 + i, slot := i + 1 } } fun d =>
    { d with tiles := List.replicate 4096 tile0 }


def unit0 : MapEnt := { obj := 1, unit := 0, stripe := 0, stripes := 18, journalled := false }

def fwd0 : FwdA := { entry := 11, fmt := 3, k := 32, rows := 1 }

/-- A message from another member, and one that this module's dies sent. -/
def envF : Envelope := { env0 with gsn := 8 }

def noc0 : NocMsg := { src := 3, dst := 7, kind := 6, env := env0, a := 0x100000000000, b := 0, nums := [], bytes := [] }

def full (d : Die) : Die := { d with early := [(envF, List.replicate 16376 0)] }

theorem far {s : State} {k kind a b : Nat} {e : Envelope} {l : List Nat} {x : List Byte} (h : s.noc = []) (hf : s.fromFar e = true) :
    s.delivered k kind e a b l x = some s := by simp [State.delivered, State.arrives, h, hf]

theorem near {s : State} {k kind a b : Nat} {e : Envelope} {l : List Nat} {x : List Byte} {m : NocMsg}
    (h : ({ m with src := 0 } : NocMsg) = { src := 0, dst := k, kind := kind, env := e, a := a, b := b, nums := l, bytes := x }) (hn : s.noc = []) :
    ({ s with noc := [m] } : State).delivered k kind e a b l x = some s := by
  simp [State.delivered, State.arrives, h, ← hn]

/-! ## Worked examples of the spec and published check values -/

/-- FIPS 202, SHAKE256 of the empty message. -/
theorem test_shake256_of_nothing :
    shake256 [] = leBytes 32 0x2f76d56e64270cb5821bb862ea52cd3f24eb3e74eb3f3b23138da80b2bddb946 := by decide +kernel

/-- The check value of CRC-32C. -/
theorem test_crc32c_check : crc32c (leBytes 9 0x393837363534333231) = 0xE3069283 := by decide +kernel

/-- The known answer of Threefry-4x32-20 for a zero key and counter. -/
theorem test_threefry_zero : threefry ⟨0, 0, 0, 0⟩ ⟨0, 0, 0, 0⟩ = ⟨0x9C6CA96A, 0xE17EAE66, 0xFC10ECD4, 0x5256A7D8⟩ := by decide +kernel

/-- R58, the example after R61: the key words of a sequence's seed. -/
theorem test_key_words : tfSeed 0x0123456789ABCDEF0011223344556677 = ⟨0x44556677, 0x00112233, 0x89ABCDEF, 0x01234567⟩ := by decide +kernel

/-- R49, the example after R45: the weights 0.37, -0.12, 0.05 and 0.2 in MXFP4. -/
theorem test_weights_quantised :
    mxBlock 7 (fun _ => rneShift) [0x3EBD70A4, 0xBDF5C28F, 0x3D4CCCCD, 0x3E4CCCCD] = (123, [7, 12, 2, 5], 0) := by decide +kernel

/-- The same example: the activations 2.0, 1.5, -4.0 and 0.5 in MXFP8 have scale code 121 and elements 128, 96, -256 and 32. -/
theorem test_activations_quantised :
    (mxBlock 3 (fun _ => rneShift) [0x40000000, 0x3FC00000, 0xC0800000, 0x3F000000]).1 = 121 ∧
    ((mxBlock 3 (fun _ => rneShift) [0x40000000, 0x3FC00000, 0xC0800000, 0x3F000000]).2.1.map fun c => (mxDecode 3 127 c).1) =
      [0x43000000, 0x42C00000, 0xC3800000, 0x42000000] := by decide +kernel

/-- The same example: the block adds 0.40625 to the accumulator (R41, R42). -/
theorem test_block_partial :
    (cellBlock 3 7 0 121 123 (mxBlock 3 (fun _ => rneShift) [0x40000000, 0x3FC00000, 0xC0800000, 0x3F000000]).2.1 [7, 12, 2, 5]).1 = 0x3ED00000 := by
  decide +kernel

/-- R273, the example after R393: module address 0x11A0_0000_1000 lies on channel 96. -/
theorem test_channel_of_an_address :
    ({ up with grps := up.grps.map fun g => { g with protGib := 4 } } : State).region 0x11A000001000 = .win 6 false 4096 ∧
    chanOf 6 false 4096 = 96 := by decide +kernel

/-- The example after R435: port B's window moved to 0x11C0_4000_0000 fails as inconsistent at PCI_WIN_LO, bit 30. -/
theorem test_window_generation_rejected :
    ((out (exec (.cfgCommitGo .portB) { up with msPortB := { State.master0 with
      shadow := [{ off := 0x81010, val := 0x11C0 }, { off := 0x8100C, val := 0x40000000 }] } })).msPortB.reason,
     (out (exec (.cfgCommitGo .portB) { up with msPortB := { State.master0 with
      shadow := [{ off := 0x81010, val := 0x11C0 }, { off := 0x8100C, val := 0x40000000 }] } })).msPortB.rejOff,
     (out (exec (.cfgCommitGo .portB) { up with msPortB := { State.master0 with
      shadow := [{ off := 0x81010, val := 0x11C0 }, { off := 0x8100C, val := 0x40000000 }] } })).msPortB.rejLsb) = (2, 0x8100C, 30) := by
  decide +kernel

/-- The example after R470: a 50 °C inlet caps the module at 3,000 W and 55 °C at 2,000 W. -/
theorem test_inlet_caps : inletCapOf 800 = 3000 ∧ inletCapOf 880 = 2000 := by decide +kernel

/-- The opcode table gives no row any bits: a word spells no command, and putting one in front changes nothing. -/
theorem test_words_spell_nothing : decodeTableWord 32 0x1234 = none ∧ State.reset.withFetchWord 32 0x1234 = State.reset := by decide +kernel

/-- R441: a posted command comes out as a completion entry whose `PHASE` is 1 in the ring's first pass. -/
theorem test_first_completion_phase :
    Memory.get (out (exec (.objPin src0 (body [(0, 4, 1)])) (withObj (objA 1 .buffer .resident)))).hostA 0x10000 = 7 := by decide +kernel

/-- R382, a step takes the command at the front of the queue and leaves the rest. -/
theorem test_step_takes_the_front :
    (out (step { up with pending := [.inputSag, .inputRecover] })).pending = [.inputRecover] := by decide +kernel

/-- R20 by hand: CD0 to CD7 along the row to IO3's column, then within it; CD1 to IO2; opposite I/O dies by the next higher index. -/
theorem test_package_paths : path0 0 7 = [0, 2, 4, 6, 7] ∧ path0 1 10 = [1, 3, 5, 10] ∧ path0 8 10 = [8, 9, 10] ∧ path0 11 9 = [11, 8, 9] := by
  decide +kernel

/-- R303 by hand: a demand read suspends an operation at most four times; the fifth finds it ended. -/
theorem test_four_suspends : ((List.range 4).foldl (fun (f : Flash) _ => f.suspend 5) (State.flash0.startOp 5)).busy = [{ die := 5, suspends := 4 }] ∧
    ((List.range 5).foldl (fun (f : Flash) _ => f.suspend 5) (State.flash0.startOp 5)).busy = [] := by decide +kernel

/-! ## Well-formedness: an ill-formed term for each check, and well-formed ones beside them -/

def tokW : Token := { tokM 0 0 with sliceDigest := List.replicate 32 0 }

def candW : CandList := cand0

theorem test_wfToken_refuses : ([{ tokW with tag := 65536 },
    { tokW with stepId := 2 ^ 64 },
    { tokW with run := 256 },
    { tokW with barrier := 65536 },
    { tokW with member := 64 },
    { tokW with cause := 256 },
    { tokW with status := 65536 },
    { tokW with batchDigest := 2 ^ 64 },
    { tokW with sliceDigest := [] }].all fun x => !wfToken x) = true := by decide +kernel

theorem test_wfCommit_refuses : ([{ nAcc := 128, discard := false, path := [] },
    { nAcc := 0, discard := false, path := List.replicate 128 0 }].all fun x => !wfCommit x) = true := by decide +kernel

theorem test_wfSliceMsg_refuses : ([{ msg0 with tag := 65536 },
    { msg0 with member := 64 },
    { msg0 with coord := 64 },
    { msg0 with causeCoord := 64 },
    { msg0 with cause := 16 }].all fun x => !wfSliceMsg x) = true := by decide +kernel

theorem test_wfEnvelope_refuses : ([{ env0 with stepId := 2 ^ 64 },
    { env0 with run := 16 },
    { env0 with layer := 65536 },
    { env0 with gsn := 65536 }].all fun x => !wfEnvelope x) = true := by decide +kernel

theorem test_wfCandList_refuses : ([{ candW with stepId := 2 ^ 64 },
    { candW with member := 64 },
    { candW with shards := 65536 }].all fun x => !wfCandList x) = true := by decide +kernel

theorem test_wfIdent_refuses : ([{ ident0 with coord := 64 },
    { ident0 with link := 32 },
    { ident0 with bkind := 4 },
    { ident0 with bdim := 8 },
    { ident0 with foldMask := 64 }].all fun x => !wfIdent x) = true := by decide +kernel

theorem test_wfPacket_refuses : ([{ pkt0 with cls := 3 },
    { pkt0 with hdr := { hdr0 with dst := 64 } },
    { pkt0 with hdr := { hdr0 with src := 64 } },
    { pkt0 with hdr := { hdr0 with hops := 8 } }].all fun x => !wfPacket x) = true := by decide +kernel

theorem test_wfFlit_refuses : ([{ flit0 with seq := 4096 },
    { flit0 with ack := 4096 },
    { flit0 with pkt := { pkt0 with cls := 3 } }].all fun x => !wfFlit x) = true := by decide +kernel

theorem test_wfJob_refuses : ([{ job0 with aFmt := 16 },
    { job0 with bFmt := 16 },
    { job0 with outFmt := 16 }].all fun x => !wfJob x) = true := by decide +kernel

theorem test_wfVec_refuses : ([.fadd 64 0 0,
    .fadd 0 64 0,
    .fadd 0 0 64,
    .ishl 0 0 64,
    .fma 0 0 0 64,
    .sel 0 64 0 0,
    .redArgmax 0 64,
    .cvtTo 16 0 0,
    .mxPack 0 64 0,
    .load 64 0,
    .store 64 0].all fun x => !wfVec x) = true := by decide +kernel

theorem test_wfRail_refuses : ([.compute 8,
    .io 4,
    .lpddr 4,
    .aux 4].all fun x => !wfRail x) = true := by decide +kernel

theorem test_wfSq_refuses : ([.lnk 30,
    .cd 8].all fun x => !wfSq x) = true := by decide +kernel

theorem test_wfPw_refuses : ([.lnk 30].all fun x => !wfPw x) = true := by decide +kernel

theorem test_wfCfg_refuses : ([.bar4Size 29,
    .bar4Size 43].all fun x => !wfCfg x) = true := by decide +kernel

theorem test_wf_refuses_1 : (([
    .devInfo { src0 with sqIndex := 65536 } (body []),
    .devInfo { src0 with mailbox := true, fence := true } (body []),
    .devInfo src0 [],
    .resetScope src0 [],
    .ringSetup src0 [],
    .ringSetupTakeover src0 [],
    .objCreate src0 [],
    .objLoadHost src0 [],
    .objStageFlash src0 [],
    .objPromote src0 [],
    .objEvict src0 [],
    .objPin src0 [],
    .objUnpin src0 [],
    .objQuery src0 [],
    .modelBind src0 [],
    .viewSwitch src0 [],
    .layerSwap src0 [],
    .modelRelease src0 [],
    .sliceJoin src0 [],
    .sliceLeave src0 [],
    .routeLoad src0 [],
    .bundleSet src0 [],
    .stepSubmit src0 [],
    .stepKill src0 []] : List Instr).all fun i => !i.wf) = true := by decide +kernel

theorem test_wf_refuses_2 : (([
    .seqOpen src0 [],
    .seqClose src0 [],
    .pageShare src0 [],
    .pageShareAct 8192,
    .prefetchSched src0 [],
    .spillPolicy src0 [],
    .paletteLoad src0 [],
    .paletteRemove src0 [],
    .stateDump src0 [],
    .snapRead src0 [],
    .fwUpdate src0 [],
    .attest src0 [],
    .powerPolicy src0 [],
    .fencedCommandExecute 8192,
    .bfWrite .portA 0x4000000 0,
    .pwWrite .portA 0x4000000 0,
    .pwWriteLand .portA (.lnk 30),
    .accDropClear .portA (.lnk 30),
    .sqEventRead .portA (.cd 8),
    .sqEventClear .portA (.cd 8) 0,
    .lockSet .portA 0x4000000,
    .lnkRetrain .portA 30,
    .lnkEnableWrite .portA 30 true,
    .keyRevoke .portA 4] : List Instr).all fun i => !i.wf) = true := by decide +kernel

theorem test_wf_refuses_3 : (([
    .registerWrite .portA .bar0 0x4000000 0 0,
    .registerWrite .portA .bar0 0 5 0,
    .ideFail .a 5,
    .ideKeyProgram .a 5,
    .spdmRequest .a [],
    .arrive { tokW with run := 256 },
    .release { tokW with run := 256 },
    .preparedSend 8 0,
    .preparedSend 0 (2 ^ 64),
    .prepared { tokW with run := 256 } 0 0 0,
    .commitPoint 8 0,
    .commitPoint 0 (2 ^ 64),
    .commit { tokW with run := 256 } [],
    .commit tokW [{ nAcc := 128, discard := false, path := [] }],
    .committed { tokW with run := 256 },
    .killReq { tokW with run := 256 },
    .kill { tokW with run := 256 },
    .killed { tokW with run := 256 },
    .startWaitExpire 8 0,
    .startWaitExpire 0 (2 ^ 64),
    .barrierWaitExpire 8 0 0,
    .barrierWaitExpire 0 (2 ^ 64) 0,
    .barrierWaitExpire 0 0 65536,
    .candidateList 65536 candW] : List Instr).all fun i => !i.wf) = true := by decide +kernel

theorem test_wf_refuses_4 : (([
    .candidateList 0 { candW with member := 64 },
    .progTile 8 0,
    .progTile 0 16,
    .appendStallResume 8 0,
    .appendStallResume 0 16,
    .progCounter 8 0,
    .progCounter 0 16,
    .progMoeCtx 8 0,
    .progMoeCtx 0 16,
    .moeCtxDeferredOpen 8 0,
    .moeCtxDeferredOpen 0 16,
    .progMerge 8 0,
    .progMerge 0 16,
    .progBarrier 8 0,
    .progBarrier 0 16,
    .progPoolmask 8 0,
    .progPoolmask 0 16,
    .progReduce 8 0,
    .progReduce 0 16,
    .progSend 8 0,
    .progSend 0 16,
    .sendMessage 8 0 0,
    .sendMessage 0 16 0,
    .tileClaim 8 0] : List Instr).all fun i => !i.wf) = true := by decide +kernel

theorem test_wf_refuses_5 : (([
    .tileClaim 0 120,
    .claimGrant 8,
    .tileComplete 8 0 0 0 0 0,
    .tileComplete 0 120 0 0 0 0,
    .tileComplete 0 0 65536 0 0 0,
    .tileFail 8 0 0 0 0 true,
    .tileFail 0 120 0 0 0 true,
    .tileFail 0 0 65536 0 0 true,
    .failedTileDecide 8 0,
    .failedTileDecide 0 65536,
    .nopTileComplete 8 0,
    .nopTileComplete 0 65536,
    .reduceGroupReset 8 0,
    .reduceGroupReset 0 1024,
    .abandonConfirm 8 0 0,
    .abandonConfirm 0 120 0,
    .abandonConfirm 0 0 65536,
    .heartbeat 8 0,
    .heartbeat 0 120,
    .coreLost 8 0,
    .coreLost 0 120,
    .seqWatchdog 8 0,
    .seqWatchdog 0 120,
    .cellJobStart 8 0 0 ⟨false, job0⟩] : List Instr).all fun i => !i.wf) = true := by decide +kernel

theorem test_wf_refuses_6 : (([
    .cellJobStart 0 120 0 ⟨false, job0⟩,
    .cellJobStart 0 0 4 ⟨false, job0⟩,
    .cellJobStart 0 0 0 ⟨false, { job0 with aFmt := 16 }⟩,
    .cellJobDone 8 0 0 0,
    .cellJobDone 0 120 0 0,
    .cellJobDone 0 0 4 0,
    .cellJobDone 0 0 0 16,
    .vectorInstruction 8 0 (.fsqrt 0 0),
    .vectorInstruction 0 120 (.fsqrt 0 0),
    .vectorInstruction 0 0 (.fsqrt 64 0),
    .dmaTransfer 8 0 ⟨false, dma0⟩,
    .dmaTransfer 0 120 ⟨false, dma0⟩,
    .dmaTransfer 0 0 ⟨false, { dma0 with lines := 65537 }⟩,
    .dmaComplete 8 0 0 true,
    .dmaComplete 0 120 0 true,
    .dmaComplete 0 0 16 true,
    .fence 8 0,
    .fence 0 120,
    .paletteSlotLoadDone 8 0,
    .paletteSlotLoadDone 0 120,
    .gtTileDone 8 0 0 0 ⟨true, (List.replicate 16 0)⟩,
    .gtTileDone 0 120 0 0 ⟨true, (List.replicate 16 0)⟩,
    .gtTileDone 0 0 4 0 ⟨true, (List.replicate 16 0)⟩,
    .gtTileDone 0 0 0 16 ⟨true, (List.replicate 16 0)⟩,
    .gtTileDone 0 0 0 0 ⟨true, []⟩] : List Instr).all fun i => !i.wf) = true := by decide +kernel

theorem test_wf_refuses_7 : (([
    .gtForceTimer 8 0 0 0,
    .gtForceTimer 0 120 0 0,
    .gtForceTimer 0 0 4 0,
    .gtForceTimer 0 0 0 16,
    .cellParityError 8 0 0 0,
    .cellParityError 0 120 0 0,
    .cellParityError 0 0 4 0,
    .cellParityError 0 0 0 16,
    .bufferEccError 8 0 0 true,
    .bufferEccError 0 120 0 true,
    .bufferEccError 0 0 4 true,
    .coreStoreEccError 8 0 true,
    .coreStoreEccError 0 120 true,
    .unpackError 8 0 0,
    .unpackError 0 120 0,
    .unpackError 0 0 65536,
    .unpackRereadDone 8 0,
    .unpackRereadDone 0 65536,
    .count 8 env0 [],
    .count 0 { env0 with run := 16 } [],
    .count 0 env0 (List.replicate 65 0),
    .grant 8 env0 0 [],
    .grant 0 { env0 with run := 16 } 0 [],
    .row 8 env0 0 []] : List Instr).all fun i => !i.wf) = true := by decide +kernel

theorem test_wf_refuses_8 : (([
    .row 0 { env0 with run := 16 } 0 [],
    .returnMsg 8 env0 0 0 [],
    .returnMsg 0 { env0 with run := 16 } 0 0 [],
    .record 8 env0 0 0 [],
    .record 0 { env0 with run := 16 } 0 0 [],
    .qrow 8 env0 0 0 [],
    .qrow 0 { env0 with run := 16 } 0 0 [],
    .kvrow 8 env0 0 0 [],
    .kvrow 0 { env0 with run := 16 } 0 0 [],
    .nextRound 8 0 0,
    .nextRound 0 16 0,
    .nextRound 0 0 65536,
    .tailCopyDone 16 0,
    .spillStart (2 ^ 32),
    .spillWriteDone (2 ^ 32) 0,
    .spillWriteDone 0 (2 ^ 32),
    .pageReturnStart (2 ^ 32) 0,
    .pageReturnStart 0 (2 ^ 32),
    .pageReturnDone (2 ^ 32) 0 true,
    .pageReturnDone 0 (2 ^ 32) true,
    .tileLand (2 ^ 32) 0 [],
    .departWriteoutDone (2 ^ 32),
    .departRelease (2 ^ 32),
    .flashCopyDurable (2 ^ 32)] : List Instr).all fun i => !i.wf) = true := by decide +kernel

theorem test_wf_refuses_9 : (([
    .stageCopyWrite 8 0 0,
    .stageCopyWrite 0 (2 ^ 32) 0,
    .coldTileLand 8 0 0,
    .coldTileLand 0 (2 ^ 32) 0,
    .swapWriteStart (2 ^ 32),
    .tileRepair (2 ^ 32) 0,
    .channelFail 256,
    .patrolScrubMismatch 16 0 true none,
    .nandOpDone 128,
    .nandProgramFail 128 0,
    .nandProgramFail 0 4096,
    .nandDieFail 128,
    .nandRebuildDone 128 true,
    .readDisturbDue 128 0 0,
    .readDisturbDue 0 4096 0,
    .relocationDone 128 0,
    .relocationDone 0 4096,
    .nandOvertemp 16,
    .nandTempOk 16,
    .flashScrubPass 128 0 0,
    .flashScrubPass 0 4096 0,
    .linkTrainDone 30 0 0 true,
    .linkTrainTimeout 30,
    .identReceived ⟨30, 0⟩ ident0] : List Instr).all fun i => !i.wf) = true := by decide +kernel

theorem test_wf_refuses_10 : (([
    .identReceived ⟨0, 4096⟩ ident0,
    .identReceived ⟨0, 0⟩ { ident0 with coord := 64 },
    .miswireRecheck 30,
    .dataFlitReceived 30 flit0 true,
    .dataFlitReceived 0 { flit0 with seq := 4096 } true,
    .nakReceived ⟨30, 0⟩ 0,
    .nakReceived ⟨0, 4096⟩ 0,
    .nakReceived ⟨0, 0⟩ 4096,
    .creditReceived ⟨30, 0⟩ 0 0 0,
    .creditReceived ⟨0, 4096⟩ 0 0 0,
    .creditReceived ⟨0, 0⟩ 65536 0 0,
    .creditReceived ⟨0, 0⟩ 0 65536 0,
    .creditReceived ⟨0, 0⟩ 0 0 65536,
    .ackTimeout 30,
    .creditTimer 30,
    .laneFault 30 0,
    .laneFault 0 8,
    .linkFail 30,
    .linkRetryTimer 30,
    .linkRestore 30,
    .packetRoute { pkt0 with cls := 3 },
    .twinTileRequest (2 ^ 32) 0,
    .join { msg0 with coord := 64 },
    .joinAck { msg0 with coord := 64 },
    .joinFail { msg0 with coord := 64 },
    .joinWaitExpire 8,
    .stop { msg0 with coord := 64 }] : List Instr).all fun i => !i.wf) = true := by decide +kernel

theorem test_wf_refuses_11 : (([
    .stillToken 65536 0 0,
    .stillToken 0 64 0,
    .d2dCrcError 22,
    .nodCrcError 8,
    .dieAgentWatchdog 8,
    .diePoolUncorrectable 8 0,
    .dieLost 8,
    .healthAck 65536,
    .sidebandAttestRequest [],
    .phaseFail (.compute 8),
    .railShort (.compute 8),
    .thermalSample [(864, 0)],
    .thermtrip 864,
    .droopTrip 12,
    .pllUnlock 12,
    .memoryTrainingDone [256],
    .dieResetDone 8,
    .configurationRequest .a (.bar4Size 43),
    .quotaReturn (2 ^ 32),
    .vectorParityError 8 0,
    .vectorParityError 0 120,
    .sequencerEccError 8 0,
    .sequencerEccError 0 120,
    .dynamicAddressAssign 128] : List Instr).all fun i => !i.wf) = true := by decide +kernel

theorem test_wf_refuses_12 : (([
    .noSourceAnswer (2 ^ 32)] : List Instr).all fun i => !i.wf) = true := by decide +kernel

theorem test_wf_admits_1 : (([
    .devInfo src0 (body []),
    .resetScope src0 (body []),
    .ringSetup src0 (body []),
    .ringSetupTakeover src0 (body []),
    .objCreate src0 (body []),
    .objLoadHost src0 (body []),
    .objStageFlash src0 (body []),
    .objPromote src0 (body []),
    .objEvict src0 (body []),
    .objPin src0 (body []),
    .objUnpin src0 (body []),
    .objQuery src0 (body []),
    .modelBind src0 (body []),
    .viewSwitch src0 (body []),
    .layerSwap src0 (body []),
    .modelRelease src0 (body []),
    .sliceJoin src0 (body []),
    .sliceLeave src0 (body []),
    .routeLoad src0 (body []),
    .bundleSet src0 (body []),
    .stepSubmit src0 (body []),
    .stepKill src0 (body []),
    .seqOpen src0 (body []),
    .seqClose src0 (body [])] : List Instr).all fun i => i.wf) = true := by decide +kernel

theorem test_wf_admits_2 : (([
    .pageShare src0 (body []),
    .pageShareAct 0,
    .prefetchSched src0 (body []),
    .spillPolicy src0 (body []),
    .paletteLoad src0 (body []),
    .paletteRemove src0 (body []),
    .stateDump src0 (body []),
    .snapRead src0 (body []),
    .fwUpdate src0 (body []),
    .attest src0 (body []),
    .powerPolicy src0 (body []),
    .fencedCommandExecute 0,
    .bfWrite .portA 0 0,
    .pwWrite .portA 0 0,
    .pwWriteLand .portA .clk,
    .accDropClear .portA .clk,
    .sqEventRead .portA .clk,
    .sqEventClear .portA .clk 0,
    .lockSet .portA 0,
    .lnkRetrain .portA 0,
    .lnkEnableWrite .portA 0 true,
    .keyRevoke .portA 0,
    .registerWrite .portA .bar0 0 0 0,
    .ideFail .a 0] : List Instr).all fun i => i.wf) = true := by decide +kernel

theorem test_wf_admits_3 : (([
    .ideKeyProgram .a 0,
    .spdmRequest .a (List.replicate 32 0),
    .arrive tokW,
    .release tokW,
    .preparedSend 0 0,
    .prepared tokW 0 0 0,
    .commitPoint 0 0,
    .commit tokW [],
    .committed tokW,
    .killReq tokW,
    .kill tokW,
    .killed tokW,
    .startWaitExpire 0 0,
    .barrierWaitExpire 0 0 0,
    .candidateList 0 candW,
    .progTile 0 0,
    .appendStallResume 0 0,
    .progCounter 0 0,
    .progMoeCtx 0 0,
    .moeCtxDeferredOpen 0 0,
    .progMerge 0 0,
    .progBarrier 0 0,
    .progPoolmask 0 0,
    .progReduce 0 0] : List Instr).all fun i => i.wf) = true := by decide +kernel

theorem test_wf_admits_4 : (([
    .progSend 0 0,
    .sendMessage 0 0 0,
    .tileClaim 0 0,
    .claimGrant 0,
    .tileComplete 0 0 0 0 0 0,
    .tileFail 0 0 0 0 0 true,
    .failedTileDecide 0 0,
    .nopTileComplete 0 0,
    .reduceGroupReset 0 0,
    .abandonConfirm 0 0 0,
    .heartbeat 0 0,
    .coreLost 0 0,
    .seqWatchdog 0 0,
    .cellJobStart 0 0 0 ⟨false, job0⟩,
    .cellJobDone 0 0 0 0,
    .vectorInstruction 0 0 (.fsqrt 0 0),
    .dmaTransfer 0 0 ⟨false, dma0⟩,
    .dmaComplete 0 0 0 true,
    .fence 0 0,
    .paletteSlotLoadDone 0 0,
    .gtTileDone 0 0 0 0 ⟨true, (List.replicate 16 0)⟩,
    .gtForceTimer 0 0 0 0,
    .cellParityError 0 0 0 0,
    .bufferEccError 0 0 0 true] : List Instr).all fun i => i.wf) = true := by decide +kernel

theorem test_wf_admits_5 : (([
    .coreStoreEccError 0 0 true,
    .unpackError 0 0 0,
    .unpackRereadDone 0 0,
    .count 0 env0 [],
    .grant 0 env0 0 [],
    .row 0 env0 0 [],
    .returnMsg 0 env0 0 0 [],
    .record 0 env0 0 0 [],
    .qrow 0 env0 0 0 [],
    .kvrow 0 env0 0 0 [],
    .nextRound 0 0 0,
    .tailCopyDone 0 0,
    .spillStart 0,
    .spillWriteDone 0 0,
    .pageReturnStart 0 0,
    .pageReturnDone 0 0 true,
    .tileLand 0 0 [],
    .departWriteoutDone 0,
    .departRelease 0,
    .flashCopyDurable 0,
    .stageCopyWrite 0 0 0,
    .coldTileLand 0 0 0,
    .swapWriteStart 0,
    .tileRepair 0 0] : List Instr).all fun i => i.wf) = true := by decide +kernel

theorem test_wf_admits_6 : (([
    .channelFail 0,
    .patrolScrubMismatch 0 0 true none,
    .nandOpDone 0,
    .nandProgramFail 0 0,
    .nandDieFail 0,
    .nandRebuildDone 0 true,
    .readDisturbDue 0 0 0,
    .relocationDone 0 0,
    .nandOvertemp 0,
    .nandTempOk 0,
    .flashScrubPass 0 0 0,
    .linkTrainDone 0 0 0 true,
    .linkTrainTimeout 0,
    .identReceived ⟨0, 0⟩ ident0,
    .miswireRecheck 0,
    .dataFlitReceived 0 flit0 true,
    .nakReceived ⟨0, 0⟩ 0,
    .creditReceived ⟨0, 0⟩ 0 0 0,
    .ackTimeout 0,
    .creditTimer 0,
    .laneFault 0 0,
    .linkFail 0,
    .linkRetryTimer 0,
    .linkRestore 0] : List Instr).all fun i => i.wf) = true := by decide +kernel

theorem test_wf_admits_7 : (([
    .packetRoute pkt0,
    .twinTileRequest 0 0,
    .join msg0,
    .joinAck msg0,
    .joinFail msg0,
    .joinWaitExpire 0,
    .stop msg0,
    .stillToken 0 0 0,
    .d2dCrcError 0,
    .nodCrcError 0,
    .dieAgentWatchdog 0,
    .diePoolUncorrectable 0 0,
    .dieLost 0,
    .healthAck 0,
    .sidebandAttestRequest (List.replicate 32 0),
    .phaseFail (.io 0),
    .railShort (.io 0),
    .thermalSample [],
    .thermtrip 0,
    .droopTrip 0,
    .pllUnlock 0,
    .memoryTrainingDone [],
    .dieResetDone 0,
    .configurationRequest .a (.memEnable true)] : List Instr).all fun i => i.wf) = true := by decide +kernel

theorem test_wf_admits_8 : (([
    .quotaReturn 0,
    .vectorParityError 0 0,
    .sequencerEccError 0 0,
    .dynamicAddressAssign 0,
    .noSourceAnswer 0] : List Instr).all fun i => i.wf) = true := by decide +kernel
/-! ## For each statement with hypotheses, states and operands that meet them -/

theorem test_meets_ObjectCommandsTakeEffect :
    (∃ (s : State) (src : Src) (b : List Byte), (s.turn src = true) ∧ b.length = 112 ∧ (onlyUses b [(0, 16)] = false)) ∧
    (∃ (s : State) (src : Src) (b : List Byte), (s.turn src = true) ∧ b.length = 112 ∧ (onlyUses b [(0, 8)] = false)) ∧
    (∃ (s : State) (src : Src) (b : List Byte), (s.turn src = true) ∧ b.length = 112 ∧ (onlyUses b [(0, 5)] = false)) ∧
    (∃ (s : State) (src : Src) (b : List Byte), (s.turn src = true) ∧ b.length = 112 ∧ (onlyUses b [(0, 4)] = false)) ∧
    (∃ (s : State) (src : Src) (b : List Byte), (s.turn src = true) ∧ b.length = 112 ∧ (onlyUses b [(0, 4), (8, 8)] = false)) ∧
    (∃ (s : State) (src : Src) (b : List Byte) (o : _), (s.turn src = true) ∧ b.length = 112 ∧ (onlyUses b [(0, 4)] = true) ∧ (s.obj (fld b 0 4) = some o) ∧ o.lost = false ∧ (o.res ≠ .absent) ∧ ((o.res = .departing → o.released = false)) ∧ (o.pins ≠ 65535)) ∧
    (∃ (s : State) (src : Src) (b : List Byte) (o : _), (s.turn src = true) ∧ b.length = 112 ∧ (onlyUses b [(0, 4)] = true) ∧ (s.obj (fld b 0 4) = some o) ∧ (o.opins ≠ 0)) ∧
    (∃ (s : State) (src : Src) (b : List Byte) (o : _), (s.turn src = true) ∧ b.length = 112 ∧ (onlyUses b [(0, 4), (8, 8)] = true) ∧ (s.obj (fld b 0 4) = some o)) ∧
    (∃ (s : State) (src : Src) (b : List Byte) (o : _), (s.turn src = true) ∧ b.length = 112 ∧ (onlyUses b [(0, 5)] = true) ∧ (fld b 4 1 = 2) ∧ (s.obj (fld b 0 4) = some o) ∧ o.pins = 0 ∧ (o.res ≠ .arriving) ∧ (o.res ≠ .departing) ∧ (s.poolInUse o.id = false)) ∧
    (∃ (s : State) (src : Src) (b : List Byte) (o : _), (s.turn src = true) ∧ b.length = 112 ∧ (onlyUses b [(0, 5)] = true) ∧ (fld b 4 1 < 2) ∧ (s.obj (fld b 0 4) = some o) ∧ o.movable = true ∧ o.lost = false ∧ o.res = .resident ∧ o.pins = 0 ∧ o.fcopy = true) ∧
    (∃ (s : State) (src : Src) (b : List Byte) (o : _), (s.turn src = true) ∧ b.length = 112 ∧ (onlyUses b [(0, 16)] = true) ∧ (s.obj (fld b 0 4) = some o) ∧ o.movable = true ∧ o.lost = false ∧ o.res = .absent ∧ (s.hostSrcOk o.tiles o.size (fld b 4 4) (fld b 8 4) (fld b 12 4) (o.kind == .program) = true)) ∧
    (∃ (s : State) (src : Src) (b : List Byte) (o : _), (s.turn src = true) ∧ b.length = 112 ∧ (onlyUses b [(0, 5)] = true) ∧ (fld b 4 1 = 0) ∧ (s.obj (fld b 0 4) = some o) ∧ o.movable = true ∧ o.lost = false ∧ o.res = .absent ∧ o.fcopy = true ∧ s.flash.ready = true) ∧
    (∃ (s : State) (src : Src) (b : List Byte) (o : _), (s.turn src = true) ∧ b.length = 112 ∧ (onlyUses b [(0, 8)] = true) ∧ (fld b 4 4 = 0) ∧ (s.obj (fld b 0 4) = some o) ∧ o.movable = true ∧ o.lost = false ∧ o.res = .resident ∧ s.flash.ready = true ∧ o.fcopy = false ∧ (s.copyFits o.id o.size = true) ∧ (o.stageW = [])) ∧
    (∃ (s : State) (src : Src) (b : List Byte) (off : _), (s.turn src = true) ∧ b.length = 112 ∧ (onlyUses b [(0, 16)] = true) ∧ (fld b 0 4 ≠ 0) ∧ (fld b 4 1 = 4) ∧ (fld b 5 1 < 8) ∧ (fld b 6 2 = 0) ∧ (s.obj (fld b 0 4) = none) ∧ ((s.die (fld b 5 1)).lost = false) ∧ (lowOff (s.occPool (fld b 5 1)) 0x1000000 (up64k (fld b 8 8)) 0x4000000 = some off)) :=
  ⟨⟨up, src0, body [(111, 1, 1)], by decide +kernel⟩,
   ⟨up, src0, body [(111, 1, 1)], by decide +kernel⟩,
   ⟨up, src0, body [(111, 1, 1)], by decide +kernel⟩,
   ⟨up, src0, body [(111, 1, 1)], by decide +kernel⟩,
   ⟨up, src0, body [(111, 1, 1)], by decide +kernel⟩,
   ⟨withObj (objA 1 .buffer .departing), src0, body [(0, 4, 1)], objA 1 .buffer .departing, by decide +kernel⟩,
   ⟨withObj { objA 1 .buffer .resident with pins := 2, opins := 1 }, src0, body [(0, 4, 1)], { objA 1 .buffer .resident with pins := 2, opins := 1 }, by decide +kernel⟩,
   ⟨withObj (objA 1 .buffer .resident), src0, body [(0, 4, 1), (8, 8, 0x2000)], objA 1 .buffer .resident, by decide +kernel⟩,
   ⟨withObj (objA 1 .buffer .resident), src0, body [(0, 4, 1), (4, 1, 2)], objA 1 .buffer .resident, by decide +kernel⟩,
   ⟨withObj { objA 1 .tileset .resident with fcopy := true }, src0, body [(0, 4, 1), (4, 1, 1)], { objA 1 .tileset .resident with fcopy := true }, by decide +kernel⟩,
   ⟨withObjs [objA 1 .program .absent, { objA 2 .hostbuf .resident with size := 4096 }], src0, body [(0, 4, 1), (4, 4, 2)], objA 1 .program .absent, by decide +kernel⟩,
   ⟨(withObj { objA 1 .tileset .absent with fcopy := true }).modFlash fun f => { f with ready := true }, src0, body [(0, 4, 1)], { objA 1 .tileset .absent with fcopy := true }, by decide +kernel⟩,
   ⟨(withObj { objA 1 .tileset .resident with size := 4096 }).modFlash fun f => { f with ready := true }, src0, body [(0, 4, 1)], { objA 1 .tileset .resident with size := 4096 }, by decide +kernel⟩,
   ⟨up, src0, body [(0, 4, 1), (4, 1, 4), (5, 1, 7), (8, 8, 4096)], 0x1000000, by decide +kernel⟩⟩

theorem test_meets_ModelCommandsTakeEffect :
    (∃ (s : State) (src : Src) (b : List Byte), (s.turn src = true) ∧ b.length = 112 ∧ (onlyUses b [(0, 3), (4, 24), (32, 64)] = false)) ∧
    (∃ (s : State) (src : Src) (b : List Byte), (s.turn src = true) ∧ b.length = 112 ∧ (onlyUses b [(0, 2), (4, 24), (32, 65)] = false)) ∧
    (∃ (s : State) (src : Src) (b : List Byte), (s.turn src = true) ∧ b.length = 112 ∧ (onlyUses b [(0, 65)] = false)) ∧
    (∃ (s : State) (src : Src) (b : List Byte), (s.turn src = true) ∧ b.length = 112 ∧ (onlyUses b [(0, 3)] = false)) ∧
    (∃ (s : State) (src : Src) (b : List Byte), (s.turn src = true) ∧ b.length = 112 ∧ (onlyUses b [(0, 3), (4, 12)] = false)) ∧
    (∃ (s : State) (src : Src) (b : List Byte) (man : _) (map : _) (s2 : _) (st : _), (s.turn src = true) ∧ b.length = 112 ∧ (onlyUses b [(0, 3), (4, 24), (32, 64)] = true) ∧ (fld b 0 2 ≠ 0) ∧ (fld b 2 1 ≤ 63) ∧ (s.model (fld b 0 2) = none) ∧ ((s.models.filter fun m => !m.dead).length < 16) ∧ ((s.started src 0x20 b).readView src.port b (fld b 2 1) = (st, some (man, map))) ∧ ((s.started src 0x20 b).placeSys 1 (65536 * fld b 0 2) (viewBytes b) = some s2)) ∧
    (∃ (s : State) (src : Src) (b : List Byte) (m : _) (man : _) (map : _) (s2 : _) (st : _), (s.turn src = true) ∧ b.length = 112 ∧ (onlyUses b [(0, 2), (4, 24), (32, 65)] = true) ∧ (s.model (fld b 0 2) = some m) ∧ m.releasing = none ∧ (fld b 96 1 % 4 ≤ 1) ∧ (fld b 96 1 < 4) ∧ ((s.started src 0x21 b).readView src.port b m.member = (st, some (man, map))) ∧ (m.viewsAfter ≤ 4) ∧ ((s.started src 0x21 b).placeSys 1 (65536 * fld b 0 2 + m.nextView) (viewBytes b) = some s2)) ∧
    (∃ (s : State) (src : Src) (b : List Byte) (m : _) (cur : _) (man : _) (eb : _) (tg : _) (w : _) (st : _), (s.turn src = true) ∧ b.length = 112 ∧ (onlyUses b [(0, 65)] = true) ∧ (s.model (fld b 0 2) = some m) ∧ (m.curView = some cur) ∧ m.releasing = none ∧ m.swap = none ∧ (fld b 64 1 = 1) ∧ (fld b 28 4 ≠ 0) ∧ (fld b 28 4 ≤ 10000000) ∧ (fld b 24 4 ≤ 4096) ∧ (128 ≤ fld b 4 4) ∧ (fld b 4 4 ≤ 67108864) ∧ ((s.started src 0x22 b).readManifest src.port (fld b 8 8) (fld b 4 4) ((b.drop 32).take 32) = (st, some man)) ∧ (swapManOk cur.man man (fld b 2 2) = true) ∧ (fld b 2 2 < man.nLayers) ∧ (((man.own m.member).filter fun (e, _) => e.layer == fld b 2 2).length = fld b 24 4) ∧ ((s.started src 0x22 b).hostRead src.port (fld b 16 8) (32 * fld b 24 4) = some eb) ∧ ((s.started src 0x22 b).swapEntries src.port (fld b 0 2) (fld b 2 2) man cur (chunks 32 (fld b 24 4) eb) = (stOK, tg, w)) ∧ ((tg.map (·.obj)).Nodup) ∧ ((w + 11616000 - 1) / 11616000 + 200 ≤ fld b 28 4)) ∧
    (∃ (s : State) (src : Src) (b : List Byte) (m : _) (v : _), (s.turn src = true) ∧ b.length = 112 ∧ (onlyUses b [(0, 3)] = true) ∧ (s.model (fld b 0 2) = some m) ∧ m.releasing = none ∧ (fld b 2 1 ≤ 1) ∧ (m.curView = some v) ∧ (v.holders ≠ 0)) ∧
    (∃ (s : State) (src : Src) (b : List Byte) (m : _), (s.turn src = true) ∧ b.length = 112 ∧ (onlyUses b [(0, 3), (4, 12)] = true) ∧ (fld b 2 1 = 0) ∧ (fld b 4 4 = 0) ∧ (s.model (fld b 0 2) = some m) ∧ m.releasing = none) :=
  ⟨⟨up, src0, body [(111, 1, 1)], by decide +kernel⟩,
   ⟨up, src0, body [(111, 1, 1)], by decide +kernel⟩,
   ⟨up, src0, body [(111, 1, 1)], by decide +kernel⟩,
   ⟨up, src0, body [(111, 1, 1)], by decide +kernel⟩,
   ⟨up, src0, body [(111, 1, 1)], by decide +kernel⟩,
   let ⟨t, h⟩ := placed (s := upMan.started src0 0x20 bindBody) (ow := 1) (key := 65536 * 3) (n := 192) (by decide +kernel); ⟨upMan, src0, bindBody, manP, [], t, stOK, by decide +kernel, by decide +kernel, by decide +kernel, by decide +kernel, by decide +kernel, by decide +kernel, by decide +kernel, by decide +kernel, h⟩,
   let ⟨t, h⟩ := placed (s := upModel.started src0 0x21 bindBody) (ow := 1) (key := 65536 * 3 + 1) (n := 192) (by decide +kernel); ⟨upModel, src0, bindBody, model0, manP, [], t, stOK, by decide +kernel, by decide +kernel, by decide +kernel, by decide +kernel, by decide +kernel, by decide +kernel, by decide +kernel, by decide +kernel, by decide +kernel, h⟩,
   ⟨upModel, src0, swapBody, model0, view0, manP, [], [], 0, stOK, by decide +kernel⟩,
   ⟨{ up with models := [{ model0 with views := [{ view0 with holders := 1 }] }] }, src0, body [(0, 2, 3)], { model0 with views := [{ view0 with holders := 1 }] }, { view0 with holders := 1 }, by decide +kernel⟩,
   ⟨upModel, src0, body [(0, 2, 3)], model0, by decide +kernel⟩⟩

theorem test_meets_SliceCommandsTakeEffect :
    (∃ (s : State) (src : Src) (b : List Byte), (s.turn src = true) ∧ b.length = 112 ∧ (onlyUses b [(0, 19), (20, 24)] = false)) ∧
    (∃ (s : State) (src : Src) (b : List Byte), (s.turn src = true) ∧ b.length = 112 ∧ (onlyUses b [(0, 1)] = false)) ∧
    (∃ (s : State) (src : Src) (b : List Byte), (s.turn src = true) ∧ b.length = 112 ∧ (onlyUses b [(0, 2), (4, 24)] = false)) ∧
    (∃ (s : State) (src : Src) (b : List Byte), (s.turn src = true) ∧ b.length = 112 ∧ (onlyUses b [(0, 29)] = false) ∧ s.coord.valid = true) ∧
    (∃ (s : State) (src : Src) (b : List Byte) (v : _) (tb : _) (tag : _) (rt : _), (s.turn src = true) ∧ b.length = 112 ∧ (onlyUses b [(0, 19), (20, 24)] = true) ∧ (fld b 0 1 ≤ 7) ∧ s.coord.valid = true ∧ ((s.slc (fld b 0 1)).state = .free) ∧ ((s.model (sliceOfBody b).model).bind Model.curView = some v) ∧ ((s.model (sliceOfBody b).model).bind (·.releasing) = none) ∧ ((s.started src 0x30 b).joinOk b (sliceOfBody b) v.man.members = true) ∧ (fld b 40 4 ≠ 0) ∧ ((s.started src 0x30 b).hostRead src.port (fld b 32 8) 128 = some tb) ∧ (parseRoute tb = some (tag, rt)) ∧ ((s.started src 0x30 b).routeOk (sliceOfBody b) tag rt = true) ∧ (fld b 0 1 < s.slices.length)) ∧
    (∃ (s : State) (src : Src) (b : List Byte), (s.turn src = true) ∧ b.length = 112 ∧ (onlyUses b [(0, 1)] = true) ∧ (fld b 0 1 ≤ 7) ∧ ((s.slc (fld b 0 1)).state = .stopped) ∧ ((s.steps.any fun t => t.slice == fld b 0 1) = false) ∧ (s.seqsIn (fld b 0 1) = [])) ∧
    (∃ (s : State) (src : Src) (b : List Byte) (tb : _), (s.turn src = true) ∧ b.length = 112 ∧ (onlyUses b [(0, 2), (4, 24)] = true) ∧ (fld b 1 1 = 2) ∧ (fld b 24 4 % 16 = 0) ∧ (fld b 24 4 ≤ 256) ∧ ((s.started src 0x32 b).hostRead src.port (fld b 16 8) (fld b 24 4) = some tb) ∧ ((chunks 16 (fld b 24 4 / 16) tb).all transitOk = true) ∧ (((chunks 16 (fld b 24 4 / 16) tb).map fun e => fld e 0 2).Nodup)) ∧
    (∃ (s : State) (src : Src) (b : List Byte), (s.turn src = true) ∧ b.length = 112 ∧ (onlyUses b [(0, 29)] = true) ∧ s.coord.valid = true ∧ ((∀ i, i < 28 → fld b i 1 = (s.link i).bundle)) ∧ ((∀ i, i < 28 → fld b i 1 ≤ 6 ∨ fld b i 1 = 15)) ∧ ((∀ d, d < 7 → ((List.range 28).filter fun i => fld b i 1 == d).length ≤ 8)) ∧ (fld b 28 1 = 2 ^ s.coord.dims - 1) ∧ ((∀ i, i < 28 → fld b i 1 = 6 → fld b 28 1 = s.coord.foldMask))) :=
  ⟨⟨up, src0, body [(111, 1, 1)], by decide +kernel⟩,
   ⟨up, src0, body [(111, 1, 1)], by decide +kernel⟩,
   ⟨up, src0, body [(111, 1, 1)], by decide +kernel⟩,
   ⟨{ up with coord := coordUp 6 }, src0, body [(111, 1, 1)], by decide +kernel⟩,
   ⟨upSlice, src0, joinBody0, view0, route0, 9, tab0, by decide +kernel⟩,
   ⟨{ up with slices := List.replicate 8 { sliceJ with state := .stopped } }, src0, body [(0, 1, 7)], by decide +kernel⟩,
   ⟨{ up with hostA := Memory.write [] 0x8000 (bytesAt 16 [(0, 2, 9), (4, 2, 800)]) }, src0, body [(1, 1, 2), (16, 8, 0x8000), (24, 4, 16)], bytesAt 16 [(0, 2, 9), (4, 2, 800)], by decide +kernel⟩,
   ⟨{ up with coord := coordUp 6 }, src0, body ((28, 1, 63) :: (List.range 28).map fun i => (i, 1, i % 7)), by decide +kernel⟩⟩

theorem test_meets_StepCommandsTakeEffect :
    (∃ (s : State) (src : Src) (b : List Byte), (s.turn src = true) ∧ b.length = 112 ∧ (onlyUses b [(0, 15), (16, 4), (24, 40)] = false)) ∧
    (∃ (s : State) (src : Src) (b : List Byte), (s.turn src = true) ∧ b.length = 112 ∧ (onlyUses b [(0, 1), (8, 8)] = false)) ∧
    (∃ (s : State) (src : Src) (b : List Byte), (s.turn src = true) ∧ b.length = 112 ∧ (onlyUses b [(0, 6), (8, 32)] = false)) ∧
    (∃ (s : State) (src : Src) (b : List Byte), (s.turn src = true) ∧ b.length = 112 ∧ (onlyUses b [(0, 4)] = false)) ∧
    (∃ (s : State) (src : Src) (b : List Byte), (s.turn src = true) ∧ b.length = 112 ∧ (onlyUses b [(0, 12)] = false)) ∧
    (∃ (s : State) (src : Src) (b : List Byte), (s.turn src = true) ∧ b.length = 112 ∧ (onlyUses b [(0, 20)] = false)) ∧
    (∃ (s : State) (src : Src) (b : List Byte) (m : _) (v : _) (lb : _) (st : _) (es : _) (slot : _), (s.turn src = true) ∧ b.length = 112 ∧ (onlyUses b [(0, 15), (16, 4), (24, 40)] = true) ∧ (fld b 0 8 ≠ 0) ∧ (fld b 8 1 ≤ 7) ∧ (fld b 9 1 ≤ 63) ∧ (fld b 12 2 ≠ 0) ∧ (fld b 12 2 ≤ 8192) ∧ (fld b 14 1 ≤ 1) ∧ ((s.slc (fld b 8 1)).state = .joined) ∧ (s.model (fld b 10 2) = some m) ∧ (m.curView = some v) ∧ m.releasing = none ∧ ((s.obj (fld b 16 4)).map (·.kind) = some .program) ∧ ((s.started src 0x40 b).readList src.port b = (st, lb)) ∧ st = stOK ∧ ((chunks 64 (fld b 12 2) lb).all seqEntForm = true) ∧ (((chunks 64 (fld b 12 2) lb).map seqEntOf).all (specOk v.man) = true) ∧ ((((chunks 64 (fld b 12 2) lb).map seqEntOf).map (·.seq)).Nodup) ∧ ((((chunks 64 (fld b 12 2) lb).map seqEntOf).map (·.nTok)).foldl (· + ·) 0 ≤ 262144) ∧ (((chunks 64 (fld b 12 2) lb).map seqEntOf).all ((s.started src 0x40 b).seqOk (fld b 8 1)) = true) ∧ ((s.started src 0x40 b).treeBytes ((chunks 64 (fld b 12 2) lb).map seqEntOf) ≤ 64 * 2 ^ 28) ∧ (allSome ((s.started src 0x40 b).readToks src.port (fld b 32 8)) ((chunks 64 (fld b 12 2) lb).map seqEntOf) = some es) ∧ ((es.any fun e => ((s.seqOf e.seq).map (·.step)) != some 0) = false) ∧ ((s.slc (fld b 8 1)).lastStep < fld b 0 8) ∧ ((s.dies.any fun d => d.inReset) = false) ∧ (s.freeStepSlot = some slot)) ∧
    (∃ (s : State) (src : Src) (b : List Byte) (x : _), (s.turn src = true) ∧ b.length = 112 ∧ (onlyUses b [(0, 1), (8, 8)] = true) ∧ (fld b 0 1 ≤ 7) ∧ ((s.slc (fld b 0 1)).state ≠ .stopped) ∧ (s.stepOf (fld b 0 1) (fld b 8 8) = some x) ∧ (x.phase ≤ 3)) ∧
    (∃ (s : State) (src : Src) (b : List Byte) (o : _) (p : _) (i : _), (s.turn src = true) ∧ b.length = 112 ∧ (onlyUses b [(0, 6), (8, 32)] = true) ∧ (fld b 4 1 ≤ 7) ∧ ((s.slc (fld b 4 1)).state = .joined) ∧ (fld b 0 4 ≠ 0) ∧ (s.seqOf (fld b 0 4) = none) ∧ (s.obj (fld b 8 4) = some o) ∧ (o.pool = some p) ∧ o.lost = false ∧ (fld b 12 4 ≤ 2097152) ∧ (fld b 5 1 = 1) ∧ (fld b 32 8 = 0) ∧ (1 ≤ (s.slc (fld b 4 1)).count) ∧ ((s.seqsIn (fld b 4 1)).length < 65536) ∧ (p.lowSlot = some i)) ∧
    (∃ (s : State) (src : Src) (b : List Byte) (q : _), (s.turn src = true) ∧ b.length = 112 ∧ (onlyUses b [(0, 4)] = true) ∧ (s.seqOf (fld b 0 4) = some q) ∧ ((s.slc q.slice).state ≠ .stopped) ∧ q.step = 0) ∧
    (∃ (s : State) (src : Src) (b : List Byte) (a : _), (s.turn src = true) ∧ b.length = 112 ∧ (onlyUses b [(0, 12)] = true) ∧ (s.seqOf (fld b 0 4) = some a) ∧ a.step = 0) ∧
    (∃ (s : State) (src : Src) (b : List Byte) (o : _) (p : _), (s.turn src = true) ∧ b.length = 112 ∧ (onlyUses b [(0, 20)] = true) ∧ (s.obj (fld b 0 4) = some o) ∧ (o.pool = some p) ∧ o.lost = false ∧ (fld b 4 1 = 0) ∧ (fld b 5 1 ≤ 1) ∧ (fld b 6 2 ≠ 0) ∧ (fld b 8 4 = 0) ∧ (fld b 16 4 ≤ p.frames) ∧ (fld b 12 4 ≤ fld b 16 4)) ∧
    (∃ (s : State) (slot : Nat) (c : CmdSlot) (q : Seq), s.easelUp = true ∧ ((s.cmds.find? fun c => c.idx == slot && c.shareWait) = some c) ∧ (s.seqOf (fld c.body 0 4) = some q) ∧ q.step = 0) :=
  ⟨⟨up, src0, body [(111, 1, 1)], by decide +kernel⟩,
   ⟨up, src0, body [(111, 1, 1)], by decide +kernel⟩,
   ⟨up, src0, body [(111, 1, 1)], by decide +kernel⟩,
   ⟨up, src0, body [(111, 1, 1)], by decide +kernel⟩,
   ⟨up, src0, body [(111, 1, 1)], by decide +kernel⟩,
   ⟨up, src0, body [(111, 1, 1)], by decide +kernel⟩,
   ⟨upStep, src0, submit0, model0, view0, list0, stOK, [{ seqEntOf list0 with toks := [0] }], 0, by decide +kernel⟩,
   ⟨upRun, src0, body [(8, 8, 77)], step0, by decide +kernel⟩,
   ⟨upStep, src0, body [(0, 4, 6), (5, 1, 1), (8, 4, 2), (12, 4, 2097152), (16, 8, 1)], poolObj, pool0, 0, by decide +kernel⟩,
   ⟨upStep, src0, body [(0, 4, 5)], seq0, by decide +kernel⟩,
   ⟨upStep, src0, body [(0, 4, 5), (4, 4, 6), (8, 4, 1)], seq0, by decide +kernel⟩,
   ⟨upStep, src0, body [(0, 4, 2), (6, 2, 1), (12, 4, 16), (16, 4, 16)], poolObj, pool0, by decide +kernel⟩,
   ⟨{ upStep with cmds := [{ cmd0 0x44 (body [(0, 4, 5), (4, 4, 6)]) with shareWait := true }] }, 0, { cmd0 0x44 (body [(0, 4, 5), (4, 4, 6)]) with shareWait := true }, seq0, by decide +kernel⟩⟩

theorem test_meets_StoreCommandsTakeEffect :
    (∃ (s : State) (src : Src) (b : List Byte), (s.turn src = true) ∧ b.length = 112 ∧ (onlyUses b [(0, 14), (16, 12)] = false)) ∧
    (∃ (s : State) (src : Src) (b : List Byte), (s.turn src = true) ∧ b.length = 112 ∧ (onlyUses b [(0, 1), (8, 8), (16, 8), (24, 4)] = false)) ∧
    (∃ (s : State) (src : Src) (b : List Byte), (s.turn src = true) ∧ b.length = 112 ∧ (onlyUses b [(0, 12)] = false)) ∧
    (∃ (s : State) (src : Src) (b : List Byte), (s.turn src = true) ∧ b.length = 112 ∧ (onlyUses b [(0, 14)] = false)) ∧
    (∃ (s : State) (src : Src) (b : List Byte), (s.turn src = true) ∧ b.length = 112 ∧ (onlyUses b [(0, 44)] = false)) ∧
    (∃ (s : State) (src : Src) (b : List Byte) (img : _) (sig : _), (s.turn src = true) ∧ b.length = 112 ∧ (onlyUses b [(0, 14), (16, 12)] = true) ∧ (fld b 12 1 = 0) ∧ (fld b 13 1 = 0) ∧ (fld b 8 4 ≤ 32832) ∧ ((fld b 24 4 = 0 ∨ fld b 24 4 = 29856)) ∧ ((s.started src 0x50 b).hostRead src.port (fld b 0 8) (fld b 8 4) = some img) ∧ ((s.started src 0x50 b).hostRead src.port (fld b 16 8) (fld b 24 4) = some sig) ∧ (palFormOk img (fld b 24 4) = true) ∧ ((if fld b 24 4 = 0 then s.sec.palAl.contains (shake256 img) else s.sec.palSigned img sig) = true)) ∧
    (∃ (s : State) (src : Src) (b : List Byte), (s.turn src = true) ∧ b.length = 112 ∧ (onlyUses (withBit b 12) [(0, 14), (16, 12)] = true) ∧ (fld (withBit b 12) 12 1 = 1) ∧ (fld (withBit b 12) 0 12 = 0) ∧ (fld (withBit b 12) 16 12 = 0) ∧ (s.palUsed (fld (withBit b 12) 13 1) = false) ∧ ((s.pals.any fun p => p.id == fld (withBit b 12) 13 1) = true)) ∧
    (∃ (s : State) (src : Src) (b : List Byte), (s.turn src = true) ∧ b.length = 112 ∧ (1 < fld (withBit b 12) 12 1)) ∧
    (∃ (s : State) (src : Src) (b : List Byte), (s.turn src = true) ∧ b.length = 112 ∧ (onlyUses b [(0, 1), (8, 8), (16, 8), (24, 4)] = true) ∧ (fld b 0 1 ≤ 15) ∧ (fld b 24 4 % 64 = 0) ∧ (fld b 24 4 ≤ 2 ^ 24)) ∧
    (∃ (s : State) (src : Src) (b : List Byte), (s.turn src = true) ∧ b.length = 112 ∧ (onlyUses b [(0, 12)] = true)) ∧
    (∃ (s : State) (src : Src) (b : List Byte) (img : _), (s.turn src = true) ∧ b.length = 112 ∧ (onlyUses b [(0, 14)] = true) ∧ (fld b 12 1 ≤ 1) ∧ (fld b 13 1 ≤ 1) ∧ s.sec.upd = none ∧ (((fld b 12 1 == 1) == s.clk.image) = false) ∧ ((s.started src 0x70 b).hostRead src.port (fld b 0 8) (fld b 8 4) = some img) ∧ (imageFormOk img = true)) ∧
    (∃ (s : State) (src : Src) (b : List Byte), (s.turn src = true) ∧ b.length = 112 ∧ (onlyUses b [(0, 44)] = true) ∧ (s.rptTotal ≤ fld b 40 4) ∧ s.sec.rptFull = false) :=
  ⟨⟨up, src0, body [(111, 1, 1)], by decide +kernel⟩,
   ⟨up, src0, body [(111, 1, 1)], by decide +kernel⟩,
   ⟨up, src0, body [(111, 1, 1)], by decide +kernel⟩,
   ⟨up, src0, body [(111, 1, 1)], by decide +kernel⟩,
   ⟨up, src0, body [(111, 1, 1)], by decide +kernel⟩,
   ⟨upPal.modSec fun c => { c with palAl := [dig2] }, src0, body [(0, 8, 0x1000), (8, 4, 128)], pal0, [], by decide +kernel⟩,
   ⟨{ up with pals := [{ id := 17, role := 1, vendor := false, ver := 0, digest := [], code := [] }] }, src0, body [(13, 1, 17)], by decide +kernel⟩,
   ⟨up, src0, body [(12, 1, 2)], by decide +kernel⟩,
   ⟨up, src0, body [(0, 1, 15), (16, 8, 0x1000), (24, 4, 2 ^ 24)], by decide +kernel⟩,
   ⟨up, src0, body [(0, 8, 0x1000), (8, 4, 2 ^ 32 - 1)], by decide +kernel⟩,
   ⟨upFw, src0, fwBody, fwRead, ⟨by decide +kernel, by decide +kernel, by decide +kernel, by decide +kernel, by decide +kernel, by decide +kernel, by decide +kernel, fw_read, form_read⟩⟩,
   ⟨up, src0, body [(32, 8, 0x1000), (40, 4, up.rptTotal)], by decide +kernel⟩⟩

theorem test_meets_DeviceCommandsTakeEffect :
    (∃ (s : State) (src : Src) (b : List Byte), (s.turn src = true) ∧ b.length = 112 ∧ (onlyUses b [] = false)) ∧
    (∃ (s : State) (src : Src) (b : List Byte), (s.turn src = true) ∧ b.length = 112 ∧ (onlyUses b [(0, 1)] = false)) ∧
    (∃ (s : State) (src : Src) (b : List Byte), (s.turn src = true) ∧ b.length = 112 ∧ (onlyUses b [(0, 17)] = false)) ∧
    (∃ (s : State) (src : Src) (b : List Byte), (s.turn src = true) ∧ b.length = 112 ∧ (onlyUses b [] = true)) ∧
    (∃ (s : State) (src : Src) (b : List Byte), (s.turn src = true) ∧ b.length = 112 ∧ (onlyUses b [(0, 1)] = true) ∧ (fld b 0 1 = 1)) ∧
    (∃ (s : State) (src : Src) (b : List Byte) (k : _), (s.turn src = true) ∧ b.length = 112 ∧ (onlyUses b [(0, 1)] = true) ∧ (k < 8) ∧ (fld b 0 1 = 0x10 + k) ∧ ((s.die k).lost = false) ∧ (slotsUsed s = 0)) ∧
    (∃ (s : State) (src : Src) (b : List Byte), (s.turn src = true) ∧ b.length = 112 ∧ (onlyUses b [(0, 1)] = true) ∧ (fld b 0 1 = 0x20) ∧ s.flashIdle = true) ∧
    (∃ (s : State) (src : Src) (b : List Byte), (s.turn src = true) ∧ b.length = 112 ∧ (onlyUses b [(0, 20), (20, 2)] = true) ∧ (fld b 19 1 = 0)) ∧
    (∃ (s : State) (src : Src) (b : List Byte), (s.turn src = true) ∧ b.length = 112 ∧ (onlyUses (withBit b 19) [(0, 20), (20, 2)] = true) ∧ (fld (withBit b 19) 19 1 = 1) ∧ (fld (withBit b 19) 18 1 ≤ 63) ∧ (s.down (otherPort src.port) = true)) ∧
    (∃ (s : State) (src : Src) (b : List Byte), (s.turn src = true) ∧ b.length = 112 ∧ (1 < fld (withBit b 19) 19 1)) ∧
    (∃ (s : State) (src : Src) (b : List Byte), (s.turn src = true) ∧ b.length = 112 ∧ (onlyUses b [(0, 17)] = true) ∧ (fld b 0 4 = 0xFFFFFFFF) ∧ (fld b 4 4 ≤ fld b 8 4) ∧ (fld b 8 4 ≤ 4400) ∧ (100 ≤ fld b 12 4) ∧ (fld b 12 4 ≤ 5000) ∧ (fld b 16 1 = 0)) ∧
    (∃ (s : State) (src : Src) (b : List Byte), src.mailbox = true ∧ (s.barAns src.port = .serve) ∧ s.easelUp = true ∧ ((s.port src.port).mbBusy = false) ∧ b.length = 112 ∧ (onlyUses b [(0, 20), (20, 2)] = true) ∧ (fld b 19 1 = 0) ∧ (fld b 18 1 ≤ 63) ∧ (ringForm b = true) ∧ ((s.port src.port).held = [])) :=
  ⟨⟨up, src0, body [(111, 1, 1)], by decide +kernel⟩,
   ⟨up, src0, body [(111, 1, 1)], by decide +kernel⟩,
   ⟨up, src0, body [(111, 1, 1)], by decide +kernel⟩,
   ⟨up, src0, body [], by decide +kernel⟩,
   ⟨up, src0, body [(0, 1, 1)], by decide +kernel⟩,
   ⟨up, src0, body [(0, 1, 0x17)], 7, by decide +kernel⟩,
   ⟨up, src0, body [(0, 1, 0x20)], by decide +kernel⟩,
   ⟨up, src0, body [(0, 8, 0x1000)], by decide +kernel⟩,
   ⟨{ up with pb := State.port0 }, src0, body [(18, 1, 63)], by decide +kernel⟩,
   ⟨up, src0, body [(19, 1, 128)], by decide +kernel⟩,
   ⟨up, src0, body [(0, 4, 0xFFFFFFFF), (8, 4, 4400), (12, 4, 100)], by decide +kernel⟩,
   ⟨up, { src0 with mailbox := true }, body [(0, 8, 0x1000), (8, 8, 0x2000), (16, 1, 6), (17, 1, 16), (18, 1, 63), (20, 2, 1000)], by decide +kernel⟩⟩

theorem test_meets_RingTransportTakesEffect :
    (∃ (s : State) (p : Port), (s.barAns p = .serve) ∧ s.easelUp = true ∧ ((s.port p).mbBusy = false) ∧ ((parseEntry (s.port p).mbCmd).opcode = 1) ∧ ((parseEntry (s.port p).mbCmd).body.length = 112) ∧ (onlyUses (parseEntry (s.port p).mbCmd).body [] = true)) ∧
    (∃ (s : State) (p : Port) (r : Ring), (s.barAns p = .serve) ∧ ((s.port p).ring = some r)) ∧
    (∃ (s : State) (p : Port) (v : W32) (r : Ring), (s.barAns p = .serve) ∧ ((s.port p).ring = some r) ∧ (v.toNat % 65536 < 2 ^ r.cqLog2) ∧ ((s.port p).held = [])) ∧
    (∃ (s : State), (s.canFetch (otherPort s.lastFetch) = true)) ∧
    (∃ (s : State) (slot : Nat) (c : CmdSlot), ((s.cmds.find? fun c => c.idx == slot) = some c) ∧ s.easelUp = true ∧ (s.mayRun c = true)) ∧
    (∃ (s : State) (p : Port) (r : Ring), ((s.port p).ring = some r) ∧ ((s.port p).coalRun = true) ∧ (r.post ≠ r.head)) :=
  ⟨⟨up.modPort .a fun x => { x with mbCmd := bytesAt 128 [(8, 1, 1)] }, .a, by decide +kernel⟩,
   ⟨up, .a, ring0, by decide +kernel⟩,
   ⟨up, .b, 15, ring0, by decide +kernel⟩,
   ⟨up.modPort .a fun x => { x with ring := some { ring0 with tail := 1 } }, by decide +kernel⟩,
   ⟨{ up with cmds := [cmd0 1 (body [])] }, 0, cmd0 1 (body []), by decide +kernel⟩,
   ⟨up.modPort .a fun x => { x with ring := some { ring0 with post := 1 }, coalRun := true }, .a, { ring0 with post := 1 }, by decide +kernel⟩⟩

theorem test_meets_SequencedStatus :
    (∃ (s : State) (r : SqReg) (b : Nat), ((s.sqGet r).ev.getLsbD b = false)) ∧
    (∃ (s : State) (m : Master) (r : SqReg), (s.reaches m = true) ∧ (sqSeen m r = true)) ∧
    (∃ (s : State) (m : Master) (r : SqReg) (v : W32), (s.reaches m = true) ∧ (sqSeen m r = true) ∧ (v.toNat / 2 ^ 24 = (s.sqGet r).seq.toNat) ∧ (m ∈ (s.sqGet r).perm)) ∧
    (∃ (s : State) (m : Master) (r : SqReg) (v : W32), (s.reaches m = true) ∧ (sqSeen m r = true) ∧ ((v.toNat / 2 ^ 24 ≠ (s.sqGet r).seq.toNat ∨ m ∉ (s.sqGet r).perm))) :=
  ⟨⟨up, .clk, 23, by decide +kernel⟩,
   ⟨up, .portB, .rte, by decide +kernel⟩,
   ⟨{ up with sq := [(.rte, { ev := 1, seq := 1, perm := [.portB] })] }, .portB, .rte, 0x01000001, by decide +kernel⟩,
   ⟨up, .portB, .rte, 0x01000001, by decide +kernel⟩⟩

theorem test_meets_PostedWrites :
    (∃ (s : State) (m : Master) (off : Nat) (k : PwBlk), (s.reaches m = true) ∧ (pwAt off = some k) ∧ (off % 4 = 0) ∧ (off ≠ pwBase k) ∧ (regOffsets.contains off = true) ∧ ((s.accOf m k).busy = false)) ∧
    (∃ (s : State) (m : Master) (off : Nat) (k : PwBlk), (s.reaches m = true) ∧ (pwAt off = some k) ∧ (off % 4 = 0) ∧ (off ≠ pwBase k) ∧ (regOffsets.contains off = true) ∧ ((s.accOf m k).busy = true)) ∧
    (∃ (s : State) (m : Master) (k : PwBlk), ((s.accOf m k).busy = true) ∧ ((s.accs.any fun (m', b, x) => m' != m && b == k && x.busy && decide (x.seqNo < (s.accOf m k).seqNo)) = false)) ∧
    (∃ (s : State) (m : Master), (s.reaches m = true)) :=
  ⟨⟨up, .portA, 0x40010, .mon, by decide +kernel⟩,
   ⟨{ up with accs := [(.portA, .mon, acc0)] }, .portA, 0x40014, .mon, by decide +kernel⟩,
   ⟨{ up with accs := [(.portA, .mon, acc0)] }, .portA, .mon, by decide +kernel⟩,
   ⟨up, .portA, by decide +kernel⟩⟩

theorem test_meets_Generations :
    (∃ (s : State) (m : Master) (off : Nat), (s.reaches m = true) ∧ ((scopeOf off).isSome = true)) ∧
    (∃ (s : State) (m : Master), (s.reaches m = true) ∧ ((s.master m).pending = true)) ∧
    (∃ (s : State) (m : Master), (s.reaches m = true) ∧ ((s.master m).pending = false)) ∧
    (∃ (s : State) (m : Master), (s.reaches m = true)) ∧
    (∃ (s : State) (m : Master) (sc : Nat × Nat) (l : List ShadowW), (s.genScope m = some sc) ∧ ((sc.1 = 4 → s.curTenant = none)) ∧ ((masterAll.any fun k => s.genScope k == some sc && decide ((s.master k).goSeq < (s.master m).goSeq)) = false) ∧ ((s.master m).taken = some l)) :=
  ⟨⟨up, .portA, 0x100, by decide +kernel⟩,
   ⟨{ up with msPortA := { State.master0 with pending := true } }, .portA, by decide +kernel⟩,
   ⟨up, .portA, by decide +kernel⟩,
   ⟨up, .portA, by decide +kernel⟩,
   ⟨{ up with msPortA := { State.master0 with pending := true, checked := true, taken := some [{ off := 0x100, val := 1000 }] } }, .portA, (4, 0), [{ off := 0x100, val := 1000 }], by decide +kernel⟩⟩

theorem test_meets_RegisterWritesTakeEffect :
    (∃ (s : State) (m : Master), (s.reaches m = true) ∧ (masterPriv m = true)) ∧
    (∃ (s : State) (m : Master), (s.reaches m = true) ∧ (masterPriv m = true) ∧ s.sec.lock = false) ∧
    (∃ (s : State) (m : Master) (i : Nat), (s.reaches m = true) ∧ (i < 30) ∧ ((s.link i).lock = false) ∧ (i < s.links.length)) ∧
    (∃ (s : State) (m : Master), (s.reaches m = true)) ∧
    (∃ (s : State) (m : Master), (s.reaches m = true) ∧ (masterPriv m = true)) ∧
    (∃ (m : Master), (masterPriv m = false)) ∧
    (∃ (s : State) (m : Master), (s.reaches m = true)) ∧
    (∃ (s : State) (m : Master), (s.reaches m = true) ∧ s.snap.armed = false) ∧
    (∃ (s : State) (m : Master), (s.reaches m = true) ∧ s.snap.armed = true ∧ s.snap.prop = false) ∧
    (∃ (s : State) (m : Master), (s.reaches m = true)) :=
  ⟨⟨up, .easel, by decide +kernel⟩,
   ⟨up, .easel, by decide +kernel⟩,
   ⟨up, .portA, 29, by decide +kernel⟩,
   ⟨up, .portB, by decide +kernel⟩,
   ⟨up, .sideband, by decide +kernel⟩,
   ⟨.portA, by decide +kernel⟩,
   ⟨up, .portA, by decide +kernel⟩,
   ⟨up.modSnap fun x => { x with armed := false }, .portA, by decide +kernel⟩,
   ⟨up.modSnap fun x => { x with prop := false }, .portA, by decide +kernel⟩,
   ⟨up, .portA, by decide +kernel⟩⟩

theorem test_meets_FabricRegisterWrites :
    (∃ (s : State) (m : Master) (v : W32), (s.reaches m = true) ∧ (masterPriv m = true) ∧ s.coord.lock = false ∧ ((s.slices.any fun x => x.state == .joined) = false) ∧ s.coord.rackWritten = true ∧ (bitsOf v.toNat 13 8 = 63 - bitsOf v.toNat 5 0) ∧ (bitsOf v.toNat 5 0 < 2 ^ bitsOf v.toNat 16 14) ∧ (1 ≤ bitsOf v.toNat 16 14) ∧ (bitsOf v.toNat 16 14 ≤ 6)) ∧
    (∃ (s : State) (m : Master) (v : W32), (s.reaches m = true) ∧ (masterPriv m = true) ∧ s.coord.lock = false ∧ ((s.slices.any fun x => x.state == .joined) = false) ∧ ((s.coord.rackWritten = false ∨ bitsOf v.toNat 13 8 ≠ 63 - bitsOf v.toNat 5 0 ∨ 2 ^ bitsOf v.toNat 16 14 ≤ bitsOf v.toNat 5 0 ∨ bitsOf v.toNat 16 14 = 0 ∨ 6 < bitsOf v.toNat 16 14))) ∧
    (∃ (s : State) (m : Master), (s.reaches m = true) ∧ (masterPriv m = true) ∧ s.coord.lock = true) ∧
    (∃ (s : State) (m : Master), (s.reaches m = true) ∧ (masterPriv m = true) ∧ ((s.slices.any fun x => x.state == .joined) = true)) ∧
    (∃ (m : Master), (masterPriv m = false)) ∧
    (∃ (s : State) (m : Master) (i : Nat), (s.reaches m = true) ∧ ((s.link i).lock = true)) ∧
    (∃ (s : State) (m : Master) (i : Nat), (s.reaches m = true) ∧ ((s.link i).lock = false) ∧ ((s.link i).state ≠ .disabled)) ∧
    (∃ (s : State) (m : Master) (i : Nat), (s.reaches m = true) ∧ ((s.link i).lock = false) ∧ ((s.link i).state = .disabled)) ∧
    (∃ (s : State) (m : Master) (i : Nat), (s.reaches m = true) ∧ ((s.link i).lock = false)) ∧
    (∃ (s : State) (m : Master) (i : Nat), (s.reaches m = true) ∧ ((s.link i).state ≠ .disabled) ∧ ((s.link i).state ≠ .waitCoord)) ∧
    (∃ (s : State) (m : Master) (i : Nat), (s.reaches m = true) ∧ (((s.link i).state = .disabled ∨ (s.link i).state = .waitCoord))) :=
  ⟨⟨{ up with coord := { State.coord0 with rackWritten := true } }, .sideband, 0x1803F, by decide +kernel⟩,
   ⟨{ up with coord := { coordUp 6 with rackWritten := true } }, .sideband, 0x1C03F, ⟨by decide +kernel, by decide +kernel, by decide +kernel, by decide +kernel, .inr (.inr (.inr (.inr (by decide +kernel))))⟩⟩,
   ⟨{ up with coord := { coordUp 6 with lock := true } }, .sideband, by decide +kernel⟩,
   ⟨upStep, .sideband, by decide +kernel⟩,
   ⟨.portA, by decide +kernel⟩,
   ⟨up.modLink 29 fun x => { x with lock := true }, .portA, 29, by decide +kernel⟩,
   ⟨up, .portA, 29, by decide +kernel⟩,
   ⟨up.modLink 0 fun x => { x with state := .disabled }, .portA, 0, by decide +kernel⟩,
   ⟨up.modLink 0 fun x => { x with state := .disabled }, .portA, 0, by decide +kernel⟩,
   ⟨up.modLink 0 fun x => { x with state := .failed }, .portA, 0, by decide +kernel⟩,
   ⟨up, .portA, 0, ⟨by decide +kernel, .inr (by decide +kernel)⟩⟩⟩

theorem test_meets_SecurityRegisterWrites :
    (∃ (s : State) (m : Master) (x : FwImage), (s.reaches m = true) ∧ (masterPriv m = true) ∧ (s.sec.running = some x) ∧ (5 ≤ s.clk.stage) ∧ (s.sec.svn < x.svn)) ∧
    (∃ (s : State) (m : Master) (k : Nat), (s.reaches m = true) ∧ (masterPriv m = true) ∧ (k < 4) ∧ (s.sec.revoked.getLsbD k = false) ∧ (s.sec.revoked.getLsbD (if k % 2 = 0 then k + 1 else k - 1) = false) ∧ ((k < 2 → s.sec.running.map (·.keySlot) ≠ some k))) ∧
    (∃ (s : State) (m : Master) (man : Bool), (s.reaches m = true) ∧ (masterPriv m = true) ∧ ((s.sec.alOf man).length < 256) ∧ (s.sec.alDigest ∉ s.sec.alOf man)) ∧
    (∃ (s : State) (m : Master) (man : Bool), (s.reaches m = true) ∧ (masterPriv m = true) ∧ (s.sec.alDigest ∈ s.sec.alOf man)) ∧
    (∃ (s : State) (m : Master) (man : Bool), (s.reaches m = true) ∧ (masterPriv m = true) ∧ (s.sec.alOf man ≠ [])) :=
  ⟨⟨up.modSec fun c => { c with running := some { State.shippedImage with svn := 3 } }, .easel, { State.shippedImage with svn := 3 }, by decide +kernel⟩,
   ⟨up.modSec fun c => { c with running := some State.shippedImage }, .easel, 1, by decide +kernel⟩,
   ⟨up, .easel, true, by decide +kernel⟩,
   ⟨up.modSec fun c => { c with palAl := [List.replicate 32 0] }, .easel, false, by decide +kernel⟩,
   ⟨up.modSec fun c => { c with palAl := [List.replicate 32 0] }, .easel, false, by decide +kernel⟩⟩

theorem test_meets_PlainAccesses :
    (∃ (s : State) (m : Master) (off : Nat), (s.reaches m = true) ∧ (off % 4 = 0) ∧ (off < 0x2000000)) ∧
    (∃ (s : State) (off : Nat) (size : Nat), (s.barAns .a = .serve) ∧ (off + size ≤ 0x80) ∧ s.pa.mbBusy = false ∧ s.easelUp = true) ∧
    (∃ (s : State) (p : Port) (off : Nat) (n : Nat), (s.barAns p = .serve) ∧ (off + n ≤ 2 ^ (s.port p).bar4Log2) ∧ (off % 64 + n ≤ 64) ∧ (1 ≤ n) ∧ s.memReady = true ∧ (64 ≤ 2 ^ (s.port p).bar4Log2) ∧ (s.rangeOk ((s.port p).winAddr off) n = true)) ∧
    (∃ (s : State) (p : Port) (off : Nat) (n : Nat), (s.barAns p = .serve) ∧ (off + n ≤ 2 ^ (s.port p).bar4Log2) ∧ (off % 64 + n ≤ 64) ∧ (1 ≤ n) ∧ s.memReady = false ∧ (64 ≤ 2 ^ (s.port p).bar4Log2)) ∧
    (∃ (s : State) (p : Port) (off : Nat) (b : List Byte), (s.barAns p = .serve) ∧ (off + b.length ≤ 2 ^ (s.port p).bar4Log2) ∧ (off % 64 + b.length ≤ 64) ∧ (1 ≤ b.length) ∧ s.memReady = true ∧ (64 ≤ 2 ^ (s.port p).bar4Log2) ∧ ((s.bufferAt ((s.port p).winAddr off) b.length).isSome = true) ∧ (s.rangeOk ((s.port p).winAddr off) b.length = true)) :=
  ⟨⟨up, .portA, 0x1FFFFFC, by decide +kernel⟩,
   ⟨up, 0x7C, 4, by decide +kernel⟩,
   ⟨upBuf, .a, 64, 64, by decide +kernel⟩,
   ⟨State.modClk up fun c => { c with stage := 4 }, .a, 0, 64, by decide +kernel⟩,
   ⟨upBuf, .a, 63, [0x5A], by decide +kernel⟩⟩

theorem test_meets_PortEventsTakeEffect :
    (∃ (s : State) (p : Port) (rate : Nat) (width : Nat), ((s.port p).perst = false) ∧ s.clk.inReset = false ∧ (rate < 8) ∧ (width < 32)) ∧
    (∃ (s : State) (p : Port) (k : Nat), (k ∈ (s.port p).ideKeyed) ∧ ((s.port p).linkUp = true)) ∧
    (∃ (s : State) (p : Port) (k : Nat), ((s.port p).linkUp = true) ∧ ((s.port p).cfgReady = true) ∧ (k ≤ 4) ∧ ((∀ j ∈ (s.port p).ideFailed, j = k))) ∧
    (∃ (s : State) (p : Port) (k : Nat) (j : Nat), ((s.port p).linkUp = true) ∧ ((s.port p).cfgReady = true) ∧ (k ≤ 4) ∧ (j ∈ (s.port p).ideFailed) ∧ (j ≠ k)) ∧
    (∃ (s : State) (p : Port), ((s.port p).cfgReaches = true) ∧ s.clk.inReset = false ∧ ((s.port p).flr = false) ∧ ((s.port p).cfgReady = true)) ∧
    (∃ (s : State) (p : Port) (l : Nat), ((s.port p).cfgReaches = true) ∧ s.clk.inReset = false ∧ ((s.port p).flr = false) ∧ ((s.port p).cfgReady = true) ∧ (30 ≤ l) ∧ (l ≤ 42)) :=
  ⟨⟨State.modClk State.reset fun c => { c with inReset := false }, .a, 7, 31, by decide +kernel⟩,
   ⟨up.modPort .a fun x => { x with ide := 1, ideKeyed := [4] }, .a, 4, by decide +kernel⟩,
   ⟨up.modPort .a fun x => { x with ideFailed := [4] }, .a, 4, ⟨by decide +kernel, by decide +kernel, by decide +kernel, by decide +kernel⟩⟩,
   ⟨up.modPort .a fun x => { x with ideFailed := [4] }, .a, 3, 4, by decide +kernel⟩,
   ⟨up, .a, by decide +kernel⟩,
   ⟨up, .a, 42, by decide +kernel⟩⟩

theorem test_meets_PortGoingDown :
    (∃ (s : State) (p : Port), (s.down p = true)) ∧
    (∃ (s : State) (p : Port) (f : PortSt → PortSt), (s.down p = false) ∧ ((f (s.port p)).down = true)) ∧
    (∃ (s : State), (s.objs = [])) :=
  ⟨⟨State.reset, .a, by decide +kernel⟩,
   ⟨up, .a, fun x => { x with linkUp := false }, by decide +kernel⟩,
   ⟨State.reset, by decide +kernel⟩⟩

theorem test_meets_ReportsAndUpdates :
    (∃ (s : State) (p : Port), ((s.port p).cfgReaches = true) ∧ ((s.port p).cfgReady = true) ∧ s.easelUp = true ∧ s.sec.rptFull = false) ∧
    (∃ (s : State), s.sidebandUp = true ∧ s.health.failed = false ∧ s.beat.sec.rptFull = false) ∧
    (∃ (s : State) (q : RptReq) (rest : List RptReq), (s.sec.rpts = q :: rest) ∧ s.easelUp = true ∧ q.ref = none ∧ q.spdm = true) ∧
    (∃ (s : State) (u : Upd), (s.sec.upd = some u) ∧ s.easelUp = true ∧ (s.sec.verifies u.img = true) ∧ u.slotB = true) :=
  ⟨⟨up, .b, by decide +kernel⟩,
   ⟨up, by decide +kernel⟩,
   ⟨up.modSec fun c => { c with rpts := [rpt0] }, rpt0, [], by decide +kernel⟩,
   ⟨up.modSec fun c => { c with vkeyFw := [List.replicate 32 0, []], upd := some upd0 }, upd0, by decide +kernel⟩⟩

theorem test_meets_FaultsTakeEffect :
    (∃ (s : State) (k : Nat), ((s.d2dAt k).down = false) ∧ (k < 22) ∧ s.clk.inReset = false ∧ (k < s.d2d.length)) ∧
    (∃ (s : State) (k : Nat), ((s.die k).lost = false) ∧ (k < 8) ∧ (k < s.dies.length)) ∧
    (∃ (s : State), s.power.held = false) ∧
    (∃ (s : State), s.power.held = true) ∧
    (∃ (s : State) (k : Nat) (off : Nat) (o : Obj), ((s.die k).lost = false) ∧ (k < 8) ∧ (0x1000000 ≤ off) ∧ (off < 0x4000000) ∧ ((s.objs.find? fun o => o.dp && o.die == k && o.extents.any (inRange (poolBase k + off))) = some o) ∧ (o.kind ≠ .stage)) ∧
    (∃ (s : State) (k : Nat), ((s.die k).lost = false) ∧ (k < 8) ∧ s.clk.inReset = false) ∧
    (∃ (s : State), s.clk.inReset = false ∧ s.health.easelStop = false) ∧
    (∃ (s : State), s.clk.inReset = false ∧ s.health.easelStop = false) ∧
    (∃ (s : State), s.easelUp = true) ∧
    (∃ (s : State), s.easelUp = true) :=
  ⟨⟨up, 21, by decide +kernel⟩,
   ⟨up, 7, by decide +kernel⟩,
   ⟨up, by decide +kernel⟩,
   ⟨up.modPower fun p => { p with held := true }, by decide +kernel⟩,
   ⟨withObj dpObj, 7, 0x1000000, dpObj, by decide +kernel⟩,
   ⟨up, 7, by decide +kernel⟩,
   ⟨up, by decide +kernel⟩,
   ⟨up, by decide +kernel⟩,
   ⟨up, by decide +kernel⟩,
   ⟨up, by decide +kernel⟩⟩

theorem test_meets_HealthAndSideband :
    (∃ (s : State), s.health.alertDue = true ∧ s.sidebandUp = true) ∧
    (∃ (s : State), s.health.alertOut = true ∧ s.sidebandUp = true) ∧
    (∃ (s : State) (n : Nat), s.sidebandUp = true ∧ s.beat.health.alertOut = true ∧ s.beat.health.aseq = n) ∧
    (∃ (s : State), s.sidebandUp = true) ∧
    (∃ (s : State), s.clk.inReset = false ∧ s.power.orphan = false) ∧
    (∃ (s : State) (a : Nat), s.sidebandUp = true ∧ (a < 128)) ∧
    (∃ (s : State), s.sidebandUp = true) :=
  ⟨⟨up.modHealth fun h => { h with alertDue := true }, by decide +kernel⟩,
   ⟨up.modHealth fun h => { h with alertOut := true }, by decide +kernel⟩,
   ⟨up.modHealth fun h => { h with alertOut := true, aseq := 255 }, 255, by decide +kernel⟩,
   ⟨up, by decide +kernel⟩,
   ⟨up, by decide +kernel⟩,
   ⟨up, 127, by decide +kernel⟩,
   ⟨up, by decide +kernel⟩⟩

theorem test_meets_ResetsAndClocks :
    (∃ (s : State), s.clk.powered = true) ∧
    (∃ (s : State), s.clk.resetDue = true) ∧
    (∃ (s : State), s.clk.refLost = true ∧ s.clk.inReset = false) ∧
    (∃ (s : State), s.clk.powered = false) ∧
    (∃ (s : State), s.clk.inReset = true ∧ s.clk.powered = true ∧ s.clk.refLost = false ∧ s.health.thermtripN = false) ∧
    (∃ (s : State), s.clk.refLost = true ∧ s.clk.inReset = false) ∧
    (∃ (s : State) (k : Nat), s.clk.inReset = false ∧ s.clk.refOk = true ∧ (k < 8)) ∧
    (∃ (s : State) (k : Nat), s.clk.inReset = false ∧ s.clk.refOk = true ∧ (k < 4)) ∧
    (∃ (s : State) (k : Nat), ((s.die k).inReset = true) ∧ (k < s.dies.length)) ∧
    (∃ (s : State), s.clk.flsRst = true) :=
  ⟨⟨State.reset, by decide +kernel⟩,
   ⟨up.modClk fun c => { c with resetDue := true }, by decide +kernel⟩,
   ⟨up.modClk fun c => { c with refLost := true }, by decide +kernel⟩,
   ⟨up.modClk fun c => { c with powered := false }, by decide +kernel⟩,
   ⟨State.reset, by decide +kernel⟩,
   ⟨up.modClk fun c => { c with refLost := true }, by decide +kernel⟩,
   ⟨up, 7, by decide +kernel⟩,
   ⟨up, 3, by decide +kernel⟩,
   ⟨up.modDie 7 fun d => { d with inReset := true }, 7, by decide +kernel⟩,
   ⟨up.modClk fun c => { c with flsRst := true }, by decide +kernel⟩⟩

theorem test_meets_BootStages :
    (∃ (s : State), s.clk.inReset = false ∧ s.clk.stage = 1) ∧
    (∃ (s : State) (x : FwImage), s.clk.inReset = false ∧ s.clk.stage = 2 ∧ s.clk.noImage = false ∧ (s.sec.img s.sec.bootB = some x) ∧ (s.sec.verifies x = true)) ∧
    (∃ (s : State) (x : FwImage) (y : FwImage), s.clk.inReset = false ∧ s.clk.stage = 2 ∧ s.clk.noImage = false ∧ (s.sec.img s.sec.bootB = some x) ∧ (s.sec.verifies x = false) ∧ (s.sec.img (!s.sec.bootB) = some y) ∧ (s.sec.verifies y = true)) ∧
    (∃ (s : State), s.clk.inReset = false ∧ s.clk.stage = 2 ∧ (s.sec.img s.sec.bootB = none) ∧ (s.sec.img (!s.sec.bootB) = none)) ∧
    (∃ (s : State), s.clk.inReset = false ∧ s.clk.stage = 3) ∧
    (∃ (s : State), s.clk.inReset = false ∧ s.clk.stage = 4) ∧
    (∃ (s : State), s.clk.inReset = false ∧ (3 ≤ s.clk.stage) ∧ s.flash.ready = false ∧ s.clk.flsRst = false) ∧
    (∃ (s : State), s.clk.inReset = false ∧ s.clk.stage = 2 ∧ s.clk.noImage = true ∧ s.side.stuck = false) ∧
    (∃ (s : State) (b : List Byte), s.clk.inReset = false ∧ s.clk.stage = 2 ∧ s.clk.noImage = true ∧ s.side.stuck = false ∧ (imageFormOk (s.sec.recBuf ++ b) = true)) :=
  ⟨⟨atStage 1, by decide +kernel⟩,
   ⟨atStage 2, State.shippedImage, by decide +kernel⟩,
   ⟨(atStage 2).modSec fun c => { c with imgA := some { State.shippedImage with sigOk := false }, imgB := some State.shippedImage }, { State.shippedImage with sigOk := false }, State.shippedImage, by decide +kernel⟩,
   ⟨(atStage 2).modSec fun c => { c with imgA := none }, by decide +kernel⟩,
   ⟨atStage 3, by decide +kernel⟩,
   ⟨atStage 4, by decide +kernel⟩,
   ⟨atStage 3, by decide +kernel⟩,
   ⟨(atStage 2).modClk fun c => { c with noImage := true }, by decide +kernel⟩,
   ⟨(atStage 2).modClk fun c => { c with noImage := true }, fw0, ⟨by decide +kernel, by decide +kernel, by decide +kernel, by decide +kernel, form_fw⟩⟩⟩

theorem test_meets_PowerEventsTakeEffect :
    (∃ (s : State), s.clk.inReset = false ∧ s.power.brake = false) ∧
    (∃ (s : State), s.power.sag = 0 ∧ s.clk.inReset = false) ∧
    (∃ (s : State), s.power.sag = 1) ∧
    (∃ (s : State), s.power.sag = 2) ∧
    (∃ (s : State), s.clk.inReset = false ∧ s.power.held = false ∧ (420 ≤ s.power.effCap)) ∧
    (∃ (s : State), s.power.held = true ∧ (s.power.sag ≠ 3) ∧ (420 ≤ s.power.effCap)) ∧
    (∃ (s : State) (r : Rail), (r ∈ railAll) ∧ (s.railLost r + 1 ≤ railSpares r)) ∧
    (∃ (s : State) (k : Nat), s.clk.inReset = false ∧ (k < 8) ∧ (Rail.compute k ∉ s.power.shorted)) ∧
    (∃ (s : State), s.clk.inReset = false) ∧
    (∃ (s : State), (4000 ≤ s.power.limit) ∧ s.dies.length = 8) :=
  ⟨⟨up, by decide +kernel⟩,
   ⟨up, by decide +kernel⟩,
   ⟨up.modPower fun p => { p with sag := 1 }, by decide +kernel⟩,
   ⟨up.modPower fun p => { p with sag := 2 }, by decide +kernel⟩,
   ⟨up.modPower fun p => { p with effCap := 420 }, by decide +kernel⟩,
   ⟨up.modPower fun p => { p with effCap := 420, held := true }, by decide +kernel⟩,
   ⟨up, .aux 3, by decide +kernel⟩,
   ⟨up, 7, by decide +kernel⟩,
   ⟨up, by decide +kernel⟩,
   ⟨up, by decide +kernel⟩⟩

theorem test_meets_ThermalEventsTakeEffect :
    (∃ (s : State) (i : Nat), s.clk.inReset = false ∧ (i < 864)) ∧
    (∃ (s : State) (i : Nat), s.clk.inReset = false ∧ s.health.thermtripN = false ∧ (i < 864)) ∧
    (∃ (s : State), s.clk.inReset = false) ∧
    (∃ (s : State), s.clk.inReset = false) :=
  ⟨⟨up, 863, by decide +kernel⟩,
   ⟨up, 863, by decide +kernel⟩,
   ⟨up, by decide +kernel⟩,
   ⟨up, by decide +kernel⟩⟩

theorem test_meets_LinkStates :
    (∃ (s : State) (i : Nat) (good : Nat), ((s.link i).state = .train) ∧ (i < s.links.length) ∧ (laneCount (good % 2 ^ (if i < 28 then 4 else 8)) = (if i < 28 then 4 else 8))) ∧
    (∃ (s : State) (i : Nat) (good : Nat), ((s.link i).state = .train) ∧ (laneCount (good % 2 ^ (if i < 28 then 4 else 8)) < (if i < 28 then 4 else 8) / 2)) ∧
    (∃ (s : State) (i : Nat), ((s.link i).state = .retrain)) ∧
    (∃ (s : State) (i : Nat) (ack : Nat) (x : Ident), (((s.ackIn i ack).link i).state = .check) ∧ (((s.ackIn i ack).modLink i fun l => { l with peer := some x }).identPasses i x = true)) ∧
    (∃ (s : State) (i : Nat) (ack : Nat) (x : Ident), (((s.ackIn i ack).link i).state = .check) ∧ (((s.ackIn i ack).modLink i fun l => { l with peer := some x }).identPasses i x = false)) ∧
    (∃ (s : State) (i : Nat) (x : Ident), ((s.link i).state = .miswire) ∧ ((s.link i).peer = some x) ∧ ((s.sendIdent i (s.ownIdent i)).identPasses i x = true)) ∧
    (∃ (s : State) (i : Nat) (lane : Nat), ((s.link i).state = .up) ∧ (bitOf (s.link i).lanes lane = true) ∧ ((s.link i).narrow = false) ∧ (i < s.links.length)) ∧
    (∃ (s : State) (i : Nat), ((s.link i).state = .up)) ∧
    (∃ (s : State) (i : Nat), ((s.link i).state = .failed) ∧ (s.routedLink i = false)) ∧
    (∃ (s : State) (i : Nat), ((s.link i).state = .up) ∧ ((s.link i).narrow = true) ∧ (s.routedLink i = false)) :=
  ⟨⟨linkS 29 fun l => { l with state := .train }, 29, 255, by decide +kernel⟩,
   ⟨linkS 27 fun l => { l with state := .train }, 27, 1, by decide +kernel⟩,
   ⟨linkS 27 fun l => { l with state := .retrain }, 27, by decide +kernel⟩,
   ⟨linkS 0 fun l => { l with state := .check }, 0, 0, ident0, by decide +kernel⟩,
   ⟨linkS 1 fun l => { l with state := .check }, 1, 0, ident0, by decide +kernel⟩,
   ⟨linkS 0 fun l => { l with state := .miswire, peer := some ident0 }, 0, ident0, by decide +kernel⟩,
   ⟨linkS 0 fun l => { l with state := .up, lanes := 15 }, 0, 3, by decide +kernel⟩,
   ⟨linkS 0 fun l => { l with state := .up }, 0, by decide +kernel⟩,
   ⟨linkS 0 fun l => { l with state := .failed }, 0, by decide +kernel⟩,
   ⟨linkS 0 fun l => { l with state := .up, narrow := true }, 0, by decide +kernel⟩⟩

theorem test_meets_FlitsAndCredits :
    (∃ (s : State) (i : Nat) (f : Flit), ((s.link i).state = .up) ∧ (f.seq = (s.link i).rxNext) ∧ (f.cls < 3) ∧ (f.part + 1 = pktFlits f.pkt)) ∧
    (∃ (s : State) (i : Nat) (f : Flit), ((s.link i).state = .up) ∧ (f.seq = (s.link i).rxNext) ∧ (f.cls < 3) ∧ (f.part + 1 ≠ pktFlits f.pkt) ∧ (pktFlits f.pkt ≤ rxBuf f.cls)) ∧
    (∃ (s : State) (i : Nat) (f : Flit), ((s.link i).state = .up) ∧ (f.seq = (s.link i).rxNext) ∧ (f.cls < 3) ∧ (f.part + 1 ≠ pktFlits f.pkt) ∧ (rxBuf f.cls < pktFlits f.pkt)) ∧
    (∃ (s : State) (i : Nat) (f : Flit), ((s.link i).state = .up) ∧ (f.seq ≠ (s.link i).rxNext) ∧ ((f.seq + 4096 - (s.link i).rxNext) % 4096 < 2048)) ∧
    (∃ (s : State) (i : Nat) (ack : Nat), (((s.modLink i fun l => l.acked ack).link i).state = .up)) ∧
    (∃ (s : State) (i : Nat), ((s.link i).state = .up)) ∧
    (∃ (c0 : Nat) (c1 : Nat) (c2 : Nat), (c0 < 65536) ∧ (c1 < 65536) ∧ (c2 < 65536)) ∧
    (∃ (s : State) (i : Nat) (a : Nat) (b : Nat) (c : Nat), ((s.link i).owed = [a, b, c]) ∧ (0 < a + b + c)) ∧
    (∃ (s : State) (i : Nat), (i < s.links.length)) :=
  ⟨⟨linkS 0 fun l => { l with state := .up }, 0, flit0, by decide +kernel⟩,
   ⟨linkS 0 fun l => { l with state := .up }, 0, { flit0 with pkt := { pkt0 with hdr := { hdr0 with len := 512 } } }, by decide +kernel⟩,
   ⟨linkS 0 fun l => { l with state := .up }, 0, { flit0 with pkt := { pkt0 with hdr := { hdr0 with len := 16640 } } }, by decide +kernel⟩,
   ⟨linkS 0 fun l => { l with state := .up }, 0, { flit0 with seq := 2047 }, by decide +kernel⟩,
   ⟨linkS 0 fun l => { l with state := .up }, 0, 5, by decide +kernel⟩,
   ⟨linkS 0 fun l => { l with state := .up }, 0, by decide +kernel⟩,
   ⟨65535, 65535, 65535, by decide +kernel⟩,
   ⟨linkS 0 fun l => { l with owed := [0, 1, 0] }, 0, 0, 1, 0, by decide +kernel⟩,
   ⟨up, 29, by decide +kernel⟩⟩

theorem test_meets_RouterTakesEffect :
    (∃ (s : State) (p : Packet) (h : Nat), (s.sliceOfTag p.hdr.tag = some h) ∧ p.hdr.dst = s.coord.coord) ∧
    (∃ (s : State) (p : Packet) (q : Packet) (h : Nat) (b : Nat), (s.sliceOfTag p.hdr.tag = some h) ∧ (p.hdr.dst ≠ s.coord.coord) ∧ (s.nextHop h p = some (b, q))) ∧
    (∃ (s : State) (p : Packet) (h : Nat), (s.sliceOfTag p.hdr.tag = some h) ∧ (p.hdr.dst ≠ s.coord.coord) ∧ (s.nextHop h p = none)) ∧
    (∃ (s : State), (s.router.heldT = [])) ∧
    (∃ (s : State) (t : State) (i : Nat) (p : Packet), (s.router.heldT = [(i, p)]) ∧ (i < 30) ∧ (({ s with router := { s.router with used := [], heldT := [] } } : State).route i p = (t, false))) ∧
    (∃ (s : State) (obj : Nat), (s.obj obj = none)) ∧
    (∃ (s : State) (obj : Nat) (o : Obj), (s.obj obj = some o) ∧ o.res = .resident ∧ o.lost = false ∧ o.movable = true ∧ o.tiles = 0) ∧
    (∃ (s : State) (obj : Nat) (o : Obj), (s.obj obj = some o) ∧ o.res = .arriving ∧ (o.src = some .twin)) :=
  ⟨⟨upStep, { pkt0 with hdr := { hdr0 with tag := 9 } }, 0, by decide +kernel⟩,
   ⟨upStep, { pkt0 with hdr := { hdr0 with tag := 9, dst := 1 } }, { pkt0 with hdr := { hdr0 with tag := 9, dst := 1 } }, 0, 0, by decide +kernel⟩,
   ⟨upStep, { pkt0 with hdr := { hdr0 with tag := 9, dst := 2 } }, 0, by decide +kernel⟩,
   ⟨up, by decide +kernel⟩,
   let s : State := { up with router := { up.router with heldT := [(0, pkt0)] } }; ⟨s, (({ s with router := { s.router with used := [], heldT := [] } } : State).route 0 pkt0).1, 0, pkt0, rfl, by decide, Prod.ext rfl (by decide +kernel)⟩,
   ⟨up, 1, by decide +kernel⟩,
   ⟨withObj (objA 1 .tileset .resident), 1, objA 1 .tileset .resident, by decide +kernel⟩,
   ⟨withObj { objA 1 .tileset .arriving with src := some .twin }, 1, { objA 1 .tileset .arriving with src := some .twin }, by decide +kernel⟩⟩

theorem test_meets_SliceMessages :
    (∃ (s : State) (m : SliceMsg) (h : Nat), s.easelUp = true ∧ (s.sliceOfTag m.tag = some h) ∧ ((s.slc h).state = .joining) ∧ ((s.slc h).isMaster = true)) ∧
    (∃ (s : State) (m : SliceMsg), s.easelUp = true ∧ (s.sliceOfTag m.tag = none)) ∧
    (∃ (s : State) (m : SliceMsg) (h : Nat) (r : Ref), s.easelUp = true ∧ (s.sliceOfTag m.tag = some h) ∧ ((s.slc h).state = .joining) ∧ ((s.slc h).ref = some r)) ∧
    (∃ (s : State) (m : SliceMsg) (h : Nat) (r : Ref), s.easelUp = true ∧ (s.sliceOfTag m.tag = some h) ∧ ((s.slc h).state = .joining) ∧ ((s.slc h).ref = some r) ∧ ((s.slc h).waitLoads = [])) ∧
    (∃ (s : State) (h : Nat) (r : Ref), s.easelUp = true ∧ ((s.slc h).state = .joining) ∧ ((s.slc h).ref = some r) ∧ ((s.slc h).waitLoads = [])) :=
  ⟨⟨joining true, { msg0 with tag := 9 }, 0, by decide +kernel⟩,
   ⟨up, msg0, by decide +kernel⟩,
   ⟨joining false, { msg0 with tag := 9 }, 0, ref0, by decide +kernel⟩,
   ⟨joining false, { msg0 with tag := 9 }, 0, ref0, by decide +kernel⟩,
   ⟨joining false, 0, ref0, by decide +kernel⟩⟩

theorem test_meets_StillsTakeEffect :
    (∃ (s : State) (tag : Nat) (origin : Nat) (n : Nat) (h : Nat), (s.sliceOfTag tag = some h) ∧ ((s.slc h).state = .joined) ∧ ((origin, n) ∉ s.snap.pairs) ∧ s.snap.armed = true) ∧
    (∃ (s : State) (tag : Nat) (origin : Nat) (n : Nat) (h : Nat), (s.sliceOfTag tag = some h) ∧ ((s.slc h).state = .joined) ∧ ((origin, n) ∉ s.snap.pairs) ∧ s.snap.armed = false) ∧
    (∃ (s : State) (ns : Nat), (1000 ≤ ns) ∧ s.clk.inReset = false) :=
  ⟨⟨upStep, 9, 1, 1, 0, by decide +kernel⟩,
   ⟨upStep.modSnap fun x => { x with armed := false }, 9, 1, 1, 0, by decide +kernel⟩,
   ⟨up, 1000, by decide +kernel⟩⟩

theorem test_meets_MovementTakesEffect :
    (∃ (s : State) (id : Nat) (i : Nat) (o : Obj) (src : LoadSrc) (rd : Nat → Nat → List Byte) (t : TileDir), (s.obj id = some o) ∧ (o.src = some src) ∧ o.res = .arriving ∧ (src ≠ .twin) ∧ (o.tiles ≠ 0) ∧ (s.landNext o src i = true) ∧ (o.dir[i]? = some t) ∧ (s.sourceRead o src i = some rd) ∧ ((tileBytes rd t).length = t.bytes + t.scaleBytes) ∧ (tilePasses t (tileBytes rd t) = true) ∧ (o.landed.length + 1 ≠ o.tiles)) ∧
    (∃ (s : State) (id : Nat) (i : Nat) (o : Obj) (src : LoadSrc) (rd : Nat → Nat → List Byte) (t : TileDir), (s.obj id = some o) ∧ (o.src = some src) ∧ o.res = .arriving ∧ (src ≠ .twin) ∧ (o.tiles ≠ 0) ∧ (s.landNext o src i = true) ∧ (o.dir[i]? = some t) ∧ (s.sourceRead o src i = some rd) ∧ (tilePasses t (tileBytes rd t) = false) ∧ (i ∉ o.retried)) ∧
    (∃ (s : State) (id : Nat) (i : Nat) (o : Obj) (src : LoadSrc) (rd : Nat → Nat → List Byte) (t : TileDir), (s.obj id = some o) ∧ (o.src = some src) ∧ o.res = .arriving ∧ (src ≠ .twin) ∧ (o.tiles ≠ 0) ∧ (s.landNext o src i = true) ∧ (o.dir[i]? = some t) ∧ (s.sourceRead o src i = some rd) ∧ (tilePasses t (tileBytes rd t) = false) ∧ (i ∈ o.retried)) ∧
    (∃ (s : State) (id : Nat) (o : Obj) (src : LoadSrc) (rd : Nat → Nat → List Byte), (s.obj id = some o) ∧ (o.src = some src) ∧ o.res = .arriving ∧ (src ≠ .twin) ∧ o.tiles = 0 ∧ (s.sourceRead o src 0 = some rd)) ∧
    (∃ (s : State) (id : Nat) (o : Obj), (s.obj id = some o) ∧ o.res = .departing ∧ o.writeOut = true ∧ (o.stageW = []) ∧ (Flash.writesWait s.flash = false)) ∧
    (∃ (s : State) (id : Nat) (o : Obj), (s.obj id = some o) ∧ o.res = .departing ∧ o.released = false ∧ o.writeOut = false ∧ o.readers = 0 ∧ o.fcopy = false) ∧
    (∃ (s : State) (id : Nat) (o : Obj), (s.obj id = some o) ∧ o.res = .departing ∧ o.released = false ∧ o.writeOut = false ∧ o.readers = 0 ∧ o.fcopy = true) ∧
    (∃ (s : State) (id : Nat) (o : Obj), (s.obj id = some o) ∧ o.res = .departing ∧ o.writeOut = true ∧ (o.stageW ≠ []) ∧ (Flash.writesWait s.flash = false)) ∧
    (∃ (s : State) (id : Nat) (o : Obj) (c : FCopy), (s.obj id = some o) ∧ (s.fcopyOf id = some c) ∧ c.durable = false ∧ (Flash.writesWait s.flash = false) ∧ (s.flash.written id c.size = true) ∧ o.res = .resident) ∧
    (∃ (s : State) (k : Nat) (id : Nat) (tile : Nat) (x : StageEnt) (o : Obj) (t : TileDir) (b : List Byte), (((s.die k).stage.find? fun x => x.obj == id && x.tile == tile && x.asked) = some x) ∧ (s.obj id = some o) ∧ (o.dir[tile]? = some t) ∧ o.res = .resident ∧ x.order = 1 ∧ (s.after false x.trig = false) ∧ (s.stageBytes x o t = some b) ∧ ((s.die k).inWay x.addr x.bytes = []) ∧ ((s.die k).held.length < 4096)) ∧
    (∃ (s : State) (k : Nat) (id : Nat) (tile : Nat) (x : StageEnt) (o : Obj) (t : TileDir) (b : List Byte), (((s.die k).stage.find? fun x => x.obj == id && x.tile == tile && x.asked) = some x) ∧ (s.obj id = some o) ∧ (o.dir[tile]? = some t) ∧ (x.order ≠ 1) ∧ (s.after true x.trig = false) ∧ (s.stageBytes x o t = some b) ∧ ((s.die k).inWay x.addr x.bytes = []) ∧ ((s.die k).held.length < 4096)) ∧
    (∃ (s : State) (k : Nat) (id : Nat) (tile : Nat) (a : Nat) (x : StageEnt) (o : Obj) (st : Obj) (t : TileDir) (c : FCopy), (((s.die k).stage.filter fun x => x.obj == id && x.cold && !x.landed && x.readers == 0) = [x]) ∧ x.tile = tile ∧ ((s.die k).coldNeeded x = true) ∧ (s.obj id = some o) ∧ (s.obj x.stage = some st) ∧ (o.dir[tile]? = some t) ∧ (s.fcopyOf id = some c) ∧ c.durable = true ∧ (tilePasses t (tileBytes (Memory.read c.body) t) = true) ∧ ((s.die k).coldRoom st x.bytes = some a) ∧ ((s.die k).held.length < 4096)) ∧
    (∃ (s : State) (h : Nat) (w : Swap), (((s.model h).bind (·.swap)) = some w) ∧ w.writing = false ∧ (s.olderSteps h w.view = false) ∧ (w.targets = [])) :=
  ⟨⟨withCopy (tset .arriving), 1, 0, tset .arriving, .flash, fun a n => Memory.read [] a n, dir0, ⟨by decide +kernel, rfl, rfl, by decide, by decide, by decide +kernel, rfl, rfl, by decide +kernel, by decide +kernel, by decide +kernel⟩⟩,
   ⟨withCopy { tset .arriving with dir := [{ dir0 with coded := true }] }, 1, 0, { tset .arriving with dir := [{ dir0 with coded := true }] }, .flash, fun a n => Memory.read [] a n, { dir0 with coded := true }, ⟨by decide +kernel, rfl, rfl, by decide, by decide, by decide +kernel, rfl, rfl, by decide +kernel, by decide +kernel⟩⟩,
   ⟨withCopy { tset .arriving with retried := [0], dir := [{ dir0 with coded := true }] }, 1, 0, { tset .arriving with retried := [0], dir := [{ dir0 with coded := true }] }, .flash, fun a n => Memory.read [] a n, { dir0 with coded := true }, ⟨by decide +kernel, rfl, rfl, by decide, by decide, by decide +kernel, rfl, rfl, by decide +kernel, by decide +kernel⟩⟩,
   ⟨withCopy { tset .arriving with tiles := 0 }, 1, { tset .arriving with tiles := 0 }, .flash, fun a n => Memory.read [] a n, ⟨by decide +kernel, rfl, rfl, by decide, by decide +kernel, rfl⟩⟩,
   ⟨withCopy { tset .departing with writeOut := true }, 1, { tset .departing with writeOut := true }, by decide +kernel⟩,
   ⟨withObj (tset .departing), 1, tset .departing, by decide +kernel⟩,
   ⟨withCopy { tset .departing with fcopy := true }, 1, { tset .departing with fcopy := true }, by decide +kernel⟩,
   ⟨withCopy { tset .departing with writeOut := true, stageW := [{ ref := ref0, alt := 0 }] }, 1, { tset .departing with writeOut := true, stageW := [{ ref := ref0, alt := 0 }] }, by decide +kernel⟩,
   ⟨(withObj (tset .resident)).modFlash fun f => { f with ready := true, copies := [{ copy0 with durable := false }], map := [unit0] }, 1, tset .resident, { copy0 with durable := false }, by decide +kernel⟩,
   ⟨onDie (withObjs [tset .resident, stageObj]) fun d => { d with stage := [stage0] }, 7, 1, 0, stage0, tset .resident, dir0, List.replicate 68 0, by decide +kernel⟩,
   ⟨onDie { withCopy (tset .absent) with objs := [tset .absent, stageObj] } fun d => { d with stage := [{ stage0 with order := 0 }] }, 7, 1, 0, { stage0 with order := 0 }, tset .absent, dir0, List.replicate 68 0, by decide +kernel⟩,
   ⟨onDie { withCopy (tset .absent) with objs := [tset .absent, stageObj] } fun d => { d with stage := [{ stage0 with cold := true }], tiles := [{ tile0 with rowBlock := some (0, 0), args := bytesAt 64 [(0, 4, 1)] }] }, 7, 1, 0, 0, { stage0 with cold := true }, tset .absent, stageObj, dir0, copy0, by decide +kernel⟩,
   ⟨{ up with models := [{ model0 with swap := some swap0 }] }, 3, swap0, by decide +kernel⟩⟩

theorem test_meets_MemoryFaults :
    (∃ (s : State) (a : Nat) (g : Nat) (r : Nat), (s.region a = .win g true r) ∧ ((s.chan (chanOf g true r)).failed = false) ∧ ((s.grp g).lost = false) ∧ ((s.grp g).outOfService = false) ∧ ((s.grp g).recon = false)) ∧
    (∃ (s : State) (a : Nat) (g : Nat) (r : Nat), (s.region a = .win g false r) ∧ ((s.chan (chanOf g false r)).failed = false) ∧ ((s.grp g).lost = false) ∧ ((s.grp g).outOfService = false)) ∧
    (∃ (s : State) (c : Nat), (c < 256) ∧ ((s.chan c).failed = false) ∧ (s.chFail (c / 16) = 0)) ∧
    (∃ (s : State) (g : Nat), ((s.grp g).lost = false) ∧ ((s.grp g).outOfService = false)) ∧
    (∃ (s : State) (id : Nat) (tile : Nat) (o : Obj) (t : TileDir) (c : FCopy), (s.obj id = some o) ∧ (o.dir[tile]? = some t) ∧ o.kind = .tileset ∧ o.res = .resident ∧ o.lost = false ∧ (s.fcopyOf id = some c) ∧ o.fcopy = true ∧ s.flash.ready = true ∧ c.durable = true ∧ (tilePasses t (tileBytes (Memory.read c.body) t) = true)) ∧
    (∃ (s : State) (id : Nat) (tile : Nat) (o : Obj) (t : TileDir), (s.obj id = some o) ∧ (o.dir[tile]? = some t) ∧ o.kind = .tileset ∧ o.res = .resident ∧ o.lost = false ∧ o.fcopy = false) :=
  ⟨⟨up, 0x100000000000, 0, 0, by decide +kernel⟩,
   ⟨{ up with grps := up.grps.map fun g => { g with protGib := 4 } }, 0x102000000000, 0, 0, by decide +kernel⟩,
   ⟨up, 255, by decide +kernel⟩,
   ⟨up, 15, by decide +kernel⟩,
   ⟨withCopy { tset .resident with fcopy := true }, 1, 1, { tset .resident with fcopy := true }, dir0, copy0, by decide +kernel⟩,
   ⟨withObj (tset .resident), 1, 1, tset .resident, dir0, by decide +kernel⟩⟩

theorem test_meets_FlashTierTakesEffect :
    (∃ (s : State) (d : Nat) (b : Nat), (nandBlock d b = true) ∧ (d ∉ s.flash.failed) ∧ (s.flash.progFails = [])) ∧
    (∃ (s : State) (d : Nat), (d < 128) ∧ (d ∉ s.flash.failed)) ∧
    (∃ (s : State) (d : Nat), (d ∈ s.flash.unbuilt) ∧ s.flash.rebuild = true ∧ (s.flash.paused = [])) ∧
    (∃ (s : State) (d : Nat), (d ∈ s.flash.unbuilt) ∧ s.flash.rebuild = true ∧ (s.flash.paused = [])) ∧
    (∃ (d : Nat) (b : Nat), (nandBlock d b = true)) ∧
    (∃ (s : State) (d : Nat) (b : Nat), (nandBlock d b = true) ∧ (d ∉ s.flash.failed) ∧ (s.flash.paused = []) ∧ ((s.flash.stripes.any fun t => t.pages.any fun p => p.die == d && p.block == b) = false)) ∧
    (∃ (p : Nat), (p < 16)) ∧
    (∃ (s : State) (p : Nat), (p ∈ s.flash.paused)) :=
  ⟨⟨up, 127, 4095, by decide +kernel⟩,
   ⟨up, 127, by decide +kernel⟩,
   ⟨up.modFlash fun f => { f with unbuilt := [127], rebuild := true }, 127, by decide +kernel⟩,
   ⟨up.modFlash fun f => { f with unbuilt := [127], rebuild := true }, 127, by decide +kernel⟩,
   ⟨127, 4095, by decide +kernel⟩,
   ⟨up, 127, 4095, by decide +kernel⟩,
   ⟨15, by decide +kernel⟩,
   ⟨up.modFlash fun f => { f with paused := [15] }, 15, by decide +kernel⟩⟩

theorem test_meets_CoreInstructionsTakeEffect :
    (∃ (s : State) (k : Nat) (j : Nat) (a : Nat), (s.issues k j = true) ∧ (a + 256 ≤ storeBytes)) ∧
    (∃ (s : State) (k : Nat) (j : Nat) (a : Nat), (s.issues k j = true) ∧ (a + 256 ≤ storeBytes)) ∧
    (∃ (s : State) (k : Nat) (j : Nat) (d : Nat) (a : Nat) (b : Nat) (v : List W32) (f : BitVec 5), (s.issues k j = true) ∧ (vecResult (s.core k j) (.fadd d a b) = some (d, v, f))) ∧
    (∃ (s : State) (k : Nat) (j : Nat) (fmt : Nat) (e : Nat), (s.issues k j = true) ∧ ((s.core k j).running = some e) ∧ (2 < fmt)) ∧
    (∃ (s : State) (k : Nat) (j : Nat) (en : Nat) (e : Nat) (second : Bool) (job : CellJob), (s.issues k j = true) ∧ ((if second then (s.core k j).loaded else (s.core k j).running) = some e) ∧ (jobStatus (s.core k j).store job = 0) ∧ ((s.core k j).freeCell en = none)) ∧
    (∃ (s : State) (k : Nat) (j : Nat) (en : Nat) (e : Nat) (i : Nat) (second : Bool) (job : CellJob) (x : Cell) (c : Core), (s.issues k j = true) ∧ ((if second then (s.core k j).loaded else (s.core k j).running) = some e) ∧ (jobStatus (s.core k j).store job = 0) ∧ ((s.core k j).freeCell en = some i) ∧ ((s.core k j).cellAt en i = x) ∧ (jobStatus (s.core k j).store (x.effective job) x.fwd.isNone = 0) ∧ ((s.core k j).runJob x e (x.effective job) = some c)) ∧
    (∃ (s : State) (k : Nat) (j : Nat) (e : Nat) (i : Nat) (second : Bool) (x : Tile) (t : Step) (d : Dma), (s.issues k j = true) ∧ ((if second then (s.core k j).loaded else (s.core k j).running) = some e) ∧ ((s.die k).entry e = some x) ∧ (s.stepAt x.slot = some t) ∧ (s.dmaCheck t k x d = .go) ∧ ((s.core k j).freeCtx = some i)) ∧
    (∃ (s : State) (k : Nat) (j : Nat) (ctx : Nat) (e : Nat) (d : Dma), (assocGet (s.core k j).dmas ctx = some (e, d)) ∧ (s.dmaWaits k d = false) ∧ ((s.core k j).seqQ = []) ∧ (k < s.dies.length) ∧ (j < (s.die k).cores.length)) ∧
    (∃ (s : State) (k : Nat) (j : Nat) (ctx : Nat) (e : Nat) (d : Dma), (assocGet (s.core k j).dmas ctx = some (e, d)) ∧ (s.dmaWaits k d = false)) ∧
    (∃ (s : State) (k : Nat) (j : Nat), (s.issues k j = true) ∧ ((s.core k j).busy = false)) ∧
    (∃ (s : State) (k : Nat) (j : Nat) (en : Nat) (i : Nat) (r : JobRun), (((s.core k j).cellAt en i).job = some r) ∧ ((s.core k j).jobQ = []) ∧ ((s.core k j).seqQ = [])) ∧
    (∃ (s : State) (k : Nat) (j : Nat), ((s.core k j).loadingPal ≠ 0) ∧ ((s.core k j).running = none) ∧ ((s.core k j).active1 = false) ∧ ((s.core k j).nextPal = []) ∧ (k < s.dies.length) ∧ (j < (s.die k).cores.length)) :=
  ⟨⟨up, 7, 119, storeBytes - 256, by decide +kernel⟩,
   ⟨up, 7, 119, storeBytes - 256, by decide +kernel⟩,
   ⟨up, 7, 119, 0, 1, 2, (lanes2 f32Add ((up.core 7 119).vreg 1) ((up.core 7 119).vreg 2)).1, (lanes2 f32Add ((up.core 7 119).vreg 1) ((up.core 7 119).vreg 2)).2, ⟨by decide +kernel, rfl⟩⟩,
   ⟨onCore id, 7, 119, 3, 11, by decide +kernel⟩,
   ⟨onCore fun c => { c with cells := fullCells }, 7, 119, 0, 11, false, job0, by decide +kernel⟩,
   let p : (((onCore id).core 7 119).runJob (((onCore id).core 7 119).cellAt 0 0) 11 job0).isSome = true := (by decide +kernel); ⟨onCore id, 7, 119, 0, 11, 0, false, job0, _, Option.get _ p, by decide +kernel, by decide +kernel, by decide +kernel, by decide +kernel, rfl, by decide +kernel, (Option.some_get p).symm⟩,
   ⟨onCore id, 7, 119, 11, 0, false, claimed, step0, dma0, by decide +kernel⟩,
   ⟨onCore fun c => { c with dmas := [(15, 11, dma0)] }, 7, 119, 15, 11, dma0, by decide +kernel⟩,
   ⟨onCore fun c => { c with dmas := [(15, 11, dma0)] }, 7, 119, 15, 11, dma0, by decide +kernel⟩,
   ⟨up, 7, 119, by decide +kernel⟩,
   ⟨onCore fun c => { c with cells := fullCells }, 7, 119, 0, 15, run0, by decide +kernel⟩,
   ⟨up.modCore 7 119 fun c => { c with loadingPal := 254 }, 7, 119, by decide +kernel⟩⟩

theorem test_meets_CoreErrorsTakeEffect :
    (∃ (s : State) (k : Nat) (j : Nat) (en : Nat) (i : Nat) (l : List W32), (l = gtExpected ((s.core k j).cellAt en i).gtIdx)) ∧
    (∃ (s : State) (k : Nat) (j : Nat) (en : Nat) (i : Nat) (l : List W32), (l = gtExpected ((s.core k j).cellAt en i).gtIdx)) ∧
    (∃ (s : State) (k : Nat) (j : Nat) (en : Nat) (i : Nat) (l : List W32), (l ≠ gtExpected ((s.core k j).cellAt en i).gtIdx)) ∧
    (∃ (s : State) (k : Nat) (j : Nat) (en : Nat) (i : Nat) (r : JobRun) (e : Tile), (((s.core k j).cellAt en i).job = some r) ∧ (s.again1s ((s.core k j).cellAt en i).parityAt = false) ∧ ((s.die k).entry r.entry = some e) ∧ (((s.core k j).cellAt en i).failed = false) ∧ (k < s.dies.length)) ∧
    (∃ (s : State) (k : Nat) (j : Nat) (en : Nat) (i : Nat) (f : FwdA) (e : Tile), (((s.core k j).cellAt en i).job = none) ∧ (((s.core k j).cellAt en i).fwd = some f) ∧ (s.again1s ((s.core k j).cellAt en i).parityAt = false) ∧ ((s.die k).entry f.entry = some e) ∧ (((s.core k j).cellAt en i).failed = false) ∧ (k < s.dies.length)) ∧
    (∃ (s : State) (k : Nat) (j : Nat) (en : Nat) (i : Nat), (((s.core k j).cellAt en i).job = none) ∧ (((s.core k j).cellAt en i).fwd = none) ∧ (s.again1s ((s.core k j).cellAt en i).parityAt = false) ∧ (((s.core k j).cellAt en i).failed = false)) ∧
    (∃ (s : State) (k : Nat) (j : Nat) (en : Nat) (i : Nat), (((s.core k j).cellAt en i).job = none) ∧ (((s.core k j).cellAt en i).fwd = none) ∧ (s.again1s ((s.core k j).cellAt en i).parityAt = true)) ∧
    (∃ (s : State) (k : Nat) (j : Nat), (s.again1s (s.core k j).csErrAt = false)) ∧
    (∃ (s : State) (k : Nat) (j : Nat), (s.again1s (s.core k j).csErrAt = true)) ∧
    (∃ (s : State) (k : Nat) (j : Nat), (s.again1s (s.core k j).vecErrAt = false)) ∧
    (∃ (s : State) (k : Nat) (j : Nat), (s.again1s (s.core k j).vecErrAt = true)) ∧
    (∃ (s : State) (k : Nat) (j : Nat), (s.again1s (s.core k j).seqErrAt = false)) ∧
    (∃ (s : State) (k : Nat) (j : Nat), (s.again1s (s.core k j).seqErrAt = true)) ∧
    (∃ (s : State) (k : Nat) (j : Nat) (n : Nat) (e : Tile), ((s.die k).entry n = some e) ∧ e.state = .claimed ∧ e.core = j) ∧
    (∃ (s : State) (k : Nat) (n : Nat) (e : Tile), ((s.die k).entry n = some e) ∧ e.state = .failed ∧ e.status = tsUnpack ∧ (e.unpackFails ≤ 1)) :=
  ⟨⟨up, 7, 119, 7, 15, gtExpected 0, congrArg gtExpected (by decide +kernel)⟩,
   ⟨up, 7, 119, 7, 15, gtExpected 0, congrArg gtExpected (by decide +kernel)⟩,
   ⟨up, 7, 119, 7, 15, [], fun h => by have := congrArg List.length h; simp [gtExpected] at this⟩,
   ⟨onCore fun c => { c with cells := fullCells }, 7, 119, 0, 15, run0, claimed, by decide +kernel⟩,
   ⟨onCore fun c => { c with cells := [{ cell0 0 15 with fwd := some fwd0 }] }, 7, 119, 0, 15, fwd0, claimed, by decide +kernel⟩,
   ⟨up, 7, 119, 7, 15, by decide +kernel⟩,
   ⟨onCore fun c => { c with cells := [{ cell0 0 15 with parityAt := some 0 }] }, 7, 119, 0, 15, by decide +kernel⟩,
   ⟨up, 7, 119, by decide +kernel⟩,
   ⟨onCore fun c => { c with csErrAt := some 0 }, 7, 119, by decide +kernel⟩,
   ⟨up, 7, 119, by decide +kernel⟩,
   ⟨onCore fun c => { c with vecErrAt := some 0 }, 7, 119, by decide +kernel⟩,
   ⟨up, 7, 119, by decide +kernel⟩,
   ⟨onCore fun c => { c with seqErrAt := some 0 }, 7, 119, by decide +kernel⟩,
   ⟨onCore id, 7, 119, 11, claimed, by decide +kernel⟩,
   ⟨withTile { tile0 with state := .failed, status := tsUnpack, unpackFails := 1 }, 7, 11, { tile0 with state := .failed, status := tsUnpack, unpackFails := 1 }, by decide +kernel⟩⟩

theorem test_meets_TileListTakesEffect :
    (∃ (s : State) (k : Nat) (j : Nat) (e : Tile), ((s.die k).lost = false) ∧ (j < 120) ∧ (((s.die k).cores.getD j State.core0).hasRoom = true) ∧ (j ∉ (s.die k).open_) ∧ s.power.held = false ∧ (s.nextGrant k = none) ∧ (s.pickTile k j = some e)) ∧
    (∃ (s : State) (k : Nat) (j : Nat), ((s.die k).lost = false) ∧ (j < 120) ∧ (((s.die k).cores.getD j State.core0).hasRoom = true) ∧ (j ∉ (s.die k).open_) ∧ (s.pickTile k j = none)) ∧
    (∃ (s : State) (k : Nat) (j : Nat) (l : List Nat) (e : Tile), s.power.held = false ∧ ((s.die k).open_ = j :: l) ∧ (s.pickTile k j = some e)) ∧
    (∃ (s : State) (u : State) (k : Nat) (j : Nat) (n : Nat) (q : Nat) (a : Nat) (f : BitVec 5) (e : Tile) (t : Step), ((s.die k).current j n q a = some e) ∧ (s.stepAt e.slot = some t) ∧ t.killing = none ∧ (((s.die k).cores.getD j State.core0).reports e = true) ∧ (s.roleCheck t k e = .go) ∧ (s.roleRun t k e = some (u, f))) ∧
    (∃ (s : State) (k : Nat) (j : Nat) (n : Nat) (q : Nat) (a : Nat), ((s.die k).current j n q a = none)) ∧
    (∃ (s : State) (k : Nat) (n : Nat) (e : Tile) (t : Step), ((s.die k).entry n = some e) ∧ e.nop = true ∧ e.state = .ready ∧ ((s.die k).poisoned e = false) ∧ (s.stepAt e.slot = some t) ∧ t.killing = none) ∧
    (∃ (s : State) (k : Nat) (j : Nat) (n : Nat) (q : Nat) (e : Tile) (t : Step), ((s.die k).entry n = some e) ∧ ((s.die k).current j n q e.attempts = some e) ∧ (s.stepAt e.slot = some t) ∧ t.killing = none) ∧
    (∃ (s : State) (k : Nat) (n : Nat) (e : Tile), ((s.die k).entry n = some e) ∧ e.state = .failed ∧ e.status = tsUnpack ∧ (2 ≤ e.unpackFails)) ∧
    (∃ (s : State) (k : Nat) (n : Nat) (e : Tile), ((s.die k).entry n = some e) ∧ e.state = .failed ∧ e.status = tsDmaErr) ∧
    (∃ (s : State) (k : Nat) (g : Nat) (x : RGroup), ((s.die k).groups.find? (fun y => y.idx == g) = some x) ∧ x.poisoned = true ∧ ((∀ e ∈ (s.die k).tiles, ¬ (e.reduce = true ∧ e.group = g)))) ∧
    (∃ (s : State) (k : Nat) (j : Nat) (n : Nat) (e : Tile) (t : Step), ((s.die k).entry n = some e) ∧ e.state = .claimed ∧ e.core = j ∧ (s.stepAt e.slot = some t) ∧ (t.killing ≠ none)) :=
  ⟨⟨withTile tile0, 7, 119, tile0, by decide +kernel⟩,
   ⟨up, 7, 119, by decide +kernel⟩,
   ⟨onDie (withTile tile0) fun d => { d with open_ := [119] }, 7, 119, [], tile0, by decide +kernel⟩,
   let p : ((onCore id).roleRun step0 7 claimed).isSome = true := (by decide +kernel); ⟨onCore id, (Option.get _ p).1, 7, 119, 11, 21, 1, (Option.get _ p).2, claimed, step0, by decide +kernel, by decide +kernel, by decide, by decide +kernel, by decide +kernel, (Option.some_get p).symm⟩,
   ⟨withTile claimed, 7, 119, 11, 20, 1, by decide +kernel⟩,
   ⟨withTile { tile0 with nop := true }, 7, 11, { tile0 with nop := true }, step0, by decide +kernel⟩,
   ⟨withTile claimed, 7, 119, 11, 21, claimed, step0, by decide +kernel⟩,
   ⟨withTile { tile0 with state := .failed, status := tsUnpack, unpackFails := 2 }, 7, 11, { tile0 with state := .failed, status := tsUnpack, unpackFails := 2 }, by decide +kernel⟩,
   ⟨withTile { tile0 with state := .failed, status := tsDmaErr }, 7, 11, { tile0 with state := .failed, status := tsDmaErr }, by decide +kernel⟩,
   ⟨onDie upRun fun d => { d with groups := [group0] }, 7, 1, group0, by decide +kernel⟩,
   ⟨{ onCore id with steps := [{ step0 with killing := some 1 }] }, 7, 119, 11, claimed, { step0 with killing := some 1 }, by decide +kernel⟩⟩

theorem test_meets_CoreWatchTakesEffect :
    (∃ (s : State) (k : Nat) (j : Nat), ((s.core k j).closed = false) ∧ (k < s.dies.length) ∧ (j < (s.die k).cores.length)) ∧
    (∃ (s : State) (k : Nat) (j : Nat), ((s.die k).lost = false) ∧ (j < 120) ∧ ((s.core k j).able = true) ∧ s.power.held = false) ∧
    (∃ (s : State) (k : Nat) (j : Nat), ((s.core k j).able = true) ∧ s.power.held = false ∧ ((s.core k j).wdAt = none)) :=
  ⟨⟨up, 7, 119, by decide +kernel⟩,
   ⟨up, 7, 119, by decide +kernel⟩,
   ⟨up, 7, 119, by decide +kernel⟩⟩

theorem test_meets_BarrierTokens :
    (∃ (s : State) (k : Token) (h : Nat), s.easelUp = true ∧ (s.sliceOfTag k.tag = some h) ∧ ((s.slc h).state = .joined) ∧ ((s.slc h).isMaster = true) ∧ (k.member < (s.slc h).count) ∧ k.barrier = 0 ∧ (s.mstOf h k.stepId = none) ∧ (k.run < 256)) ∧
    (∃ (s : State) (k : Token) (h : Nat) (m : MasterStep), (s.masterFor k h m) ∧ (k.barrier ≠ 0) ∧ m.killing = false ∧ m.decided = false ∧ (k.barrier ∉ m.released) ∧ ((∀ i, i < (s.slc h).count → ∃ x ∈ addNew m.arrived (k.barrier, k.member, 0), x.1 = k.barrier ∧ x.2.1 = i))) ∧
    (∃ (s : State) (k : Token) (h : Nat) (t : Step), (s.tokenFor k h t) ∧ k.barrier = 0 ∧ t.phase = 0 ∧ t.killing = none ∧ ((s.modStep t.slice t.id fun t => { t with phase := 1, released := [0] }).startLost t = false)) ∧
    (∃ (s : State) (k : Token) (h : Nat) (t : Step), (s.tokenFor k h t) ∧ (k.barrier ≠ 0) ∧ (k.barrier ∉ t.released) ∧ ((∀ d ∈ s.dies, ∀ a ∈ d.agents, a.barriers = []))) ∧
    (∃ (s : State) (h : Nat) (id : Nat) (t : Step), s.easelUp = true ∧ (s.stepOf h id = some t) ∧ t.prepSent = false ∧ (s.allDone t = true) ∧ (t.phase < 4) ∧ s.power.held = false) ∧
    (∃ (s : State) (k : Token) (h : Nat) (m : MasterStep), (s.masterFor k h m) ∧ m.killing = false ∧ m.decided = false ∧ (k.member ∉ m.prepared)) ∧
    (∃ (s : State) (h : Nat) (id : Nat) (i : Nat) (m : MasterStep), s.easelUp = true ∧ (s.mstOf h id = some m) ∧ m.killing = false ∧ m.decided = false ∧ (0 ∉ m.released) ∧ (i < (s.slc h).count) ∧ ((∀ x ∈ m.arrived, ¬ (x.1 = 0 ∧ x.2.1 = i)))) ∧
    (∃ (s : State) (h : Nat) (id : Nat) (m : MasterStep), s.easelUp = true ∧ (s.mstOf h id = some m) ∧ m.killing = false ∧ m.decided = false ∧ (0 ∈ m.released) ∧ (0xFFFF ∉ m.released) ∧ (m.prepared = []) ∧ (0 < (s.slc h).count)) :=
  ⟨⟨upStep, tokM 0 0, 0, by decide +kernel⟩,
   ⟨mstS { m0 with released := [0], arrived := [(5, 0, 0)] }, tokM 5 0, 0, { m0 with released := [0], arrived := [(5, 0, 0)] }, ⟨for_master (by decide +kernel) (by decide +kernel), by decide +kernel⟩⟩,
   ⟨upRun, tok0 upRun step0 0 0, 0, step0, ⟨for_step (by decide +kernel) (tok_digest _ _ _ _), by decide +kernel⟩⟩,
   ⟨runS step1 [], tok0 (runS step1 []) step1 5 0, 0, step1, ⟨for_step (by decide +kernel) (tok_digest _ _ _ _), by decide +kernel⟩⟩,
   ⟨doneS, 0, 77, step1, by decide +kernel⟩,
   ⟨mstS m0, tokM 0 0, 0, m0, ⟨for_master (by decide +kernel) (by decide +kernel), by decide +kernel⟩⟩,
   ⟨mstS m0, 0, 77, 1, m0, by decide +kernel⟩,
   ⟨mstS { m0 with released := [0] }, 0, 77, { m0 with released := [0] }, by decide +kernel⟩⟩

theorem test_meets_CommitAndKillTokens :
    (∃ (s : State) (h : Nat) (id : Nat) (m : MasterStep) (t : Step) (ps : List SParam) (res : List SeqResult) (nv : Bool), s.easelUp = true ∧ (s.mstOf h id = some m) ∧ (s.stepOf h id = some t) ∧ ((s.slc h).isMaster = true) ∧ m.killing = false ∧ m.decided = false ∧ ((∀ i, i < (s.slc h).count → i ∈ m.prepared)) ∧ ((∀ o ∈ s.steps, ¬ (o.slice = h ∧ o.id < id ∧ o.slot < 16))) ∧ ((∀ o ∈ s.mst, ¬ (o.slice = h ∧ o.id < id))) ∧ (m.rowMissing t.seqs ((((s.model t.model).bind fun v => v.view t.view).map fun v => v.man.specH).getD 0) = false) ∧ (m.rowsFull t.seqs ((((s.model t.model).bind fun v => v.view t.view).map fun v => v.man.specH).getD 0) = true) ∧ (s.readParams t.ref.src.port t.spAddr t.seqs = (stOK, ps)) ∧ (s.decideAll t m ((((s.model t.model).bind fun v => v.view t.view).map fun v => v.man.specH).getD 0) ps = (res, nv))) ∧
    (∃ (s : State) (k : Token) (h : Nat) (t : Step), (s.tokenFor k h t) ∧ t.prepSent = true ∧ t.killing = none ∧ ((s.slc h).isMaster = true)) ∧
    (∃ (s : State) (k : Token) (h : Nat) (m : MasterStep), (s.masterFor k h m) ∧ m.decided = true) ∧
    (∃ (s : State) (k : Token) (h : Nat) (m : MasterStep), (s.masterFor k h m) ∧ m.decided = false) ∧
    (∃ (s : State) (k : Token) (h : Nat) (t : Step), (s.tokenFor k h t) ∧ t.killing = none ∧ k.status = 0 ∧ k.cause = 1) ∧
    (∃ (s : State) (k : Token) (h : Nat) (t : Step), (s.tokenFor k h t) ∧ t.killing = none ∧ k.status = 0 ∧ k.cause = 2) ∧
    (∃ (s : State) (k : Token) (h : Nat) (i : Nat) (m : MasterStep), (s.masterFor k h m) ∧ m.killing = true ∧ m.thenKill = none ∧ (i ∈ m.expect) ∧ (i ∉ addNew m.killed k.member)) ∧
    (∃ (s : State) (ten : Nat) (e : Nat), s.easelUp = true ∧ (s.curTenant = some ten) ∧ (s.turnEnd = some e) ∧ (s.tenSteps ten = [])) ∧
    (∃ (s : State) (tag : Nat) (h : Nat) (c : CandList) (m : MasterStep), s.easelUp = true ∧ (s.sliceOfTag tag = some h) ∧ (s.mstOf h c.stepId = some m) ∧ (m.run % 256 = c.run) ∧ m.killing = false ∧ m.decided = false ∧ ((s.slc h).isMaster = true) ∧ (rowBad (({ m with cands := (m.cands.filter fun x => !(x.member == c.member && x.tile == c.tile && x.entry == c.entry && x.node == c.node && x.head == c.head)) ++ [c] } : MasterStep).row c.entry c.node c.head) = false)) ∧
    (∃ (s : State) (m : SliceMsg) (h : Nat), s.easelUp = true ∧ (s.sliceOfTag m.tag = some h) ∧ ((s.slc h).state = .joined)) ∧
    (∃ (s : State) (i : Nat) (seq : Nat) (t : Step) (c : TailCopy) (o : Obj) (p : Pool), (s.stepAt i = some t) ∧ (t.copies.find? (fun c => c.seq == seq && !c.done) = some c) ∧ (s.obj c.pool = some o) ∧ (o.pool = some p) ∧ ((p.page c.src).state = .live)) :=
  ⟨⟨commitS, 0, 77, { m0 with released := [0, 0xFFFF], prepared := [0, 1], cands := [cand0] }, stepC, [sparam par0], (commitS.decideAll stepC { m0 with released := [0, 0xFFFF], prepared := [0, 1], cands := [cand0] } 0 [sparam par0]).1, (commitS.decideAll stepC { m0 with released := [0, 0xFFFF], prepared := [0, 1], cands := [cand0] } 0 [sparam par0]).2, ⟨by decide +kernel, by decide +kernel, by decide +kernel, by decide +kernel, by decide +kernel, by decide +kernel, by decide +kernel, by decide +kernel, by decide +kernel, by decide +kernel, by decide +kernel, by decide +kernel, rfl⟩⟩,
   ⟨runS stepC [], tok0 (runS stepC []) stepC 0 0, 0, stepC, ⟨for_step (by decide +kernel) (tok_digest _ _ _ _), by decide +kernel⟩⟩,
   ⟨mstS { m0 with decided := true }, tokM 0 0, 0, { m0 with decided := true }, ⟨for_master (by decide +kernel) (by decide +kernel), by decide +kernel⟩⟩,
   ⟨mstS m0, tokM 0 1, 0, m0, ⟨for_master (by decide +kernel) (by decide +kernel), by decide +kernel⟩⟩,
   ⟨upRun, tok0 upRun step0 0 1, 0, step0, ⟨for_step (by decide +kernel) (tok_digest _ _ _ _), by decide +kernel⟩⟩,
   ⟨upRun, tok0 upRun step0 0 2, 0, step0, ⟨for_step (by decide +kernel) (tok_digest _ _ _ _), by decide +kernel⟩⟩,
   ⟨mstS { m0 with killing := true, expect := [0, 1] }, tokM 0 0, 0, 0, { m0 with killing := true, expect := [0, 1] }, ⟨for_master (by decide +kernel) (by decide +kernel), by decide +kernel, by decide +kernel, by decide +kernel, by decide +kernel⟩⟩,
   ⟨{ up with curTenant := some 63, turnEnd := some 5 }, 63, 5, by decide +kernel⟩,
   ⟨mstS m0, 9, 0, cand0, m0, by decide +kernel⟩,
   ⟨upStep, { msg0 with tag := 9 }, 0, by decide +kernel⟩,
   ⟨{ runS { step1 with copies := [copyT] } [] with objs := [{ poolObj with pool := some { pool0 with pages := [(1, pageL)] } }] }, 0, 5, { step1 with copies := [copyT] }, copyT, { poolObj with pool := some { pool0 with pages := [(1, pageL)] } }, { pool0 with pages := [(1, pageL)] }, by decide +kernel⟩⟩

theorem test_meets_LayerProgramTakesEffect :
    (∃ (s : State) (k : Nat) (i : Nat) (t : Step) (a : Agent) (b : List Byte), (s.atRecord k i 1 tileUses t a b) ∧ (s.descOk t b = true) ∧ (s.swapBarred t (fld b 2 2) = false) ∧ (s.admits k (tileOfRec t a b) ((s.die k).readyNow (tileOfRec t a b) && !s.copyHeld k (tileOfRec t a b)) = true)) ∧
    (∃ (s : State) (k : Nat) (i : Nat) (t : Step) (a : Agent) (b : List Byte), (s.atRecord k i 1 tileUses t a b) ∧ (s.descOk t b = true) ∧ (s.swapBarred t (fld b 2 2) = false) ∧ (s.admits k (tileOfRec t a b) ((s.die k).readyNow (tileOfRec t a b) && !s.copyHeld k (tileOfRec t a b)) = false)) ∧
    (∃ (s : State) (k : Nat) (i : Nat) (t : Step) (a : Agent) (b : List Byte), s.power.held = false ∧ (s.nextRecord k i = some (t, a, b)) ∧ a.stalled = true ∧ ((∀ c ∈ (s.die k).ctxs, c.slot = i → c.later = [] ∧ ∀ x ∈ c.blocks, x.ctr ≠ noCtr)) ∧ (s.descOk t b = true) ∧ (s.swapBarred t (fld b 2 2) = false) ∧ (s.admits k (tileOfRec t a b) ((s.die k).readyNow (tileOfRec t a b) && !s.copyHeld k (tileOfRec t a b)) = true)) ∧
    (∃ (s : State) (k : Nat) (i : Nat) (t : Step) (a : Agent) (b : List Byte), (s.atRecord k i 2 [(16, 2), (20, 3)] t a b) ∧ (fld b 16 2 < slotCtrs) ∧ ((∀ e ∈ (s.die k).tiles, ¬ (e.state = .waiting ∧ e.waitEn = true ∧ e.wait = a.ctrBase + fld b 16 2)))) ∧
    (∃ (s : State) (k : Nat) (i : Nat) (t : Step) (a : Agent) (b : List Byte), (s.atRecord k i 3 moeUses t a b) ∧ (s.ctxFull k i = false)) ∧
    (∃ (s : State) (k : Nat) (i : Nat) (t : Step) (a : Agent) (b : List Byte), (s.atRecord k i 3 moeUses t a b) ∧ (s.ctxFull k i = true)) ∧
    (∃ (s : State) (k : Nat) (i : Nat) (t : Step) (a : Agent) (b : List Byte), (s.nextRecord k i = some (t, a, b)) ∧ a.ctxWait = true ∧ (s.ctxFull k i = false) ∧ s.power.held = false) ∧
    (∃ (s : State) (k : Nat) (i : Nat) (t : Step) (a : Agent) (b : List Byte), (s.atRecord k i 4 [(16, 24)] t a b) ∧ (bitOf (fld b 27 1) 7 = true) ∧ (((s.die k).merges.filter fun m => m.slot == i) = []) ∧ ((mergeOf a 0 b).parts ≠ 0) ∧ ((mergeOf a 0 b).parts ≤ 64) ∧ (fld b 34 2 < slotCtrs)) ∧
    (∃ (s : State) (k : Nat) (i : Nat) (t : Step) (a : Agent) (b : List Byte), (s.atRecord k i 5 [(16, 4)] t a b) ∧ (barrierTaken (fld b 16 2) = false) ∧ (fld b 18 2 < slotCtrs)) ∧
    (∃ (s : State) (k : Nat) (i : Nat) (t : Step) (a : Agent) (b : List Byte), (s.atRecord k i 6 [(16, 5)] t a b) ∧ (fld b 16 2 + fld b 18 2 ≤ 120)) ∧
    (∃ (s : State) (k : Nat) (i : Nat) (t : Step) (a : Agent) (b : List Byte), (s.atRecord k i 7 [(16, 4), (24, 6), (32, 4)] t a b) ∧ (fld b 16 2 < slotGroups) ∧ (s.inPool (fld b 24 6) (fld b 32 4) = true)) ∧
    (∃ (s : State) (k : Nat) (i : Nat) (t : Step) (a : Agent) (b : List Byte), (s.atRecord k i 8 [(16, 3), (20, 10), (32, 6), (40, 4)] t a b) ∧ ((fld b 16 1 = 6 ∨ fld b 16 1 = 7)) ∧ (fld b 17 1 < (s.slc t.slice).count) ∧ (fld b 18 1 ≤ 7) ∧ (fld b 20 2 < slotCtrs) ∧ (fld b 22 2 < slotCtrs) ∧ (s.rangeOk (fld b 24 6) (fld b 40 4) = true)) ∧
    (∃ (s : State) (k : Nat) (i : Nat) (n : Nat) (t : Step) (a : Agent) (r : SendRec), (s.stepAt i = some t) ∧ (s.agentOf k i = some a) ∧ (a.sends[n]? = some r) ∧ r.sent = false ∧ ((s.die k).ctr r.lctr = 0) ∧ t.killing = none ∧ s.power.held = false) :=
  ⟨⟨progS agent0 tileR, 7, 0, step1, agent0, tileR, by unfold State.atRecord; decide +kernel⟩,
   ⟨fullS, 7, 0, step1, agent0, tileR, by unfold State.atRecord; decide +kernel⟩,
   ⟨progS { agent0 with stalled := true } tileR, 7, 0, step1, { agent0 with stalled := true }, tileR, by decide +kernel⟩,
   ⟨progS agent0 (recB [(0, 1, 2), (16, 2, 1023), (20, 3, 5)]), 7, 0, step1, agent0, recB [(0, 1, 2), (16, 2, 1023), (20, 3, 5)], by unfold State.atRecord; decide +kernel⟩,
   ⟨progS agent0 (recB [(0, 1, 3)]), 7, 0, step1, agent0, recB [(0, 1, 3)], by unfold State.atRecord; decide +kernel⟩,
   ⟨(progS agent0 (recB [(0, 1, 3)])).modDie 7 fun d => { d with ctxs := [ctx0, { ctx0 with layer := 1 }] }, 7, 0, step1, agent0, recB [(0, 1, 3)], by unfold State.atRecord; decide +kernel⟩,
   ⟨progS { agent0 with ctxWait := true } (recB [(0, 1, 3)]), 7, 0, step1, { agent0 with ctxWait := true }, recB [(0, 1, 3)], by decide +kernel⟩,
   ⟨progS agent0 (recB [(0, 1, 4), (27, 1, 128 + 64), (34, 2, 1023)]), 7, 0, step1, agent0, recB [(0, 1, 4), (27, 1, 128 + 64), (34, 2, 1023)], by unfold State.atRecord; decide +kernel⟩,
   ⟨progS agent0 (recB [(0, 1, 5), (16, 2, 0xFDFF), (18, 2, 1023)]), 7, 0, step1, agent0, recB [(0, 1, 5), (16, 2, 0xFDFF), (18, 2, 1023)], by unfold State.atRecord; decide +kernel⟩,
   ⟨progS agent0 (recB [(0, 1, 6), (16, 2, 100), (18, 2, 20), (20, 1, 3)]), 7, 0, step1, agent0, recB [(0, 1, 6), (16, 2, 100), (18, 2, 20), (20, 1, 3)], by unfold State.atRecord; decide +kernel⟩,
   ⟨progS agent0 (recB [(0, 1, 7), (16, 2, 63), (18, 2, 2), (24, 6, poolBase 7 + 0x1000000), (32, 4, 64)]), 7, 0, step1, agent0, recB [(0, 1, 7), (16, 2, 63), (18, 2, 2), (24, 6, poolBase 7 + 0x1000000), (32, 4, 64)], by unfold State.atRecord; decide +kernel⟩,
   ⟨progS agent0 (recB [(0, 1, 8), (16, 1, 7), (17, 1, 1), (18, 1, 7), (20, 2, 1023), (22, 2, 1023), (24, 6, 0x100000000000), (32, 6, 0x100000000000), (40, 4, 64)]), 7, 0, step1, agent0, recB [(0, 1, 8), (16, 1, 7), (17, 1, 1), (18, 1, 7), (20, 2, 1023), (22, 2, 1023), (24, 6, 0x100000000000), (32, 6, 0x100000000000), (40, 4, 64)], by unfold State.atRecord; decide +kernel⟩,
   ⟨progS { agent0 with sends := [send0] } [], 7, 0, 0, step1, { agent0 with sends := [send0] }, send0, by decide +kernel⟩⟩

theorem test_meets_DistributaryMessages :
    (∃ (s : State) (u : State) (k : Nat) (e : Envelope) (l : List Nat) (t : Step), (s.delivered k 1 e 0 0 l [] = some u) ∧ (u.stepFor e = some t) ∧ (e.pgen = (u.placeOf t).gen % 65536) ∧ ((u.die k).ctx t.slot e.layer = none) ∧ (k < u.dies.length) ∧ ((u.die k).heldBack = []) ∧ ((u.die k).earlyBytes + countBytes l ≤ 65536)) ∧
    (∃ (s : State) (u : State) (k : Nat) (e : Envelope) (l : List Nat) (t : Step), (s.delivered k 1 e 0 0 l [] = some u) ∧ (u.stepFor e = some t) ∧ (e.pgen = (u.placeOf t).gen % 65536) ∧ ((u.die k).ctx t.slot e.layer = none) ∧ (k < u.dies.length) ∧ ((u.die k).heldBack = []) ∧ (65536 < (u.die k).earlyBytes + countBytes l)) ∧
    (∃ (s : State) (u : State) (k : Nat) (e : Envelope) (l : List Nat) (t : Step) (c : Ctx), (s.delivered k 1 e 0 0 l [] = some u) ∧ (u.stepFor e = some t) ∧ (e.pgen = (u.placeOf t).gen % 65536) ∧ ((u.die k).ctx t.slot e.layer = some c) ∧ c.ownOpen = true ∧ c.round = 0) ∧
    (∃ (s : State) (k : Nat) (e : Envelope) (l : List Nat), (s.delivered k 1 e 0 0 l [] = none)) ∧
    (∃ (s : State) (u : State) (k : Nat) (r : Nat) (e : Envelope) (off : Nat) (cr : Nat) (t : Step), (s.delivered k 2 e r 0 [off, cr] [] = some u) ∧ (u.stepFor e = some t)) ∧
    (∃ (s : State) (u : State) (k : Nat) (q : Nat) (e : Envelope) (x : List Byte) (t : Step) (c : Ctx) (b : RowBlk), (s.delivered k 3 e q 0 [] x = some u) ∧ (u.stepFor e = some t) ∧ (e.pgen = (u.placeOf t).gen % 65536) ∧ ((u.die k).ctx t.slot e.layer = some c) ∧ (c.blocks.find? (fun b => decide (b.first ≤ q) && decide (q < b.first + b.rows)) = some b) ∧ ((∀ r ∈ c.arrivedRows, r.qslot ≠ q)) ∧ (b.ctr ≠ noCtr)) ∧
    (∃ (s : State) (u : State) (k : Nat) (a : Nat) (c : Nat) (e : Envelope) (x : List Byte) (t : Step), (s.delivered k 4 e a c [] x = some u) ∧ (u.stepFor e = some t)) ∧
    (∃ (s : State) (u : State) (k : Nat) (n : Nat) (p : Nat) (e : Envelope) (x : List Byte) (t : Step) (m : MergeEnt), (s.delivered k 5 e n p [] x = some u) ∧ (u.stepFor e = some t) ∧ ((u.die k).merge n = some m) ∧ (p < m.parts)) ∧
    (∃ (s : State) (u : State) (k : Nat) (a : Nat) (c : Nat) (e : Envelope) (x : List Byte) (t : Step), (s.delivered k 6 e a c [] x = some u) ∧ (u.stepFor e = some t)) ∧
    (∃ (s : State) (u : State) (k : Nat) (a : Nat) (c : Nat) (e : Envelope) (x : List Byte) (t : Step), (s.delivered k 7 e a c [] x = some u) ∧ (u.stepFor e = some t)) ∧
    (∃ (s : State) (k : Nat) (i : Nat) (l : Nat) (g : Nat) (v : Nat) (c : Ctx) (t : Step), ((s.die k).ctx i l = some c) ∧ (s.stepAt i = some t) ∧ (0 < c.round) ∧ c.ownOpen = true ∧ ((∀ b ∈ c.blocks, b.sent = true)) ∧ (c.rem = [(g, [v + 1])])) :=
  ⟨⟨runS step1 [], runS step1 [], 7, envF, [], step1, ⟨far rfl (by decide +kernel), by decide +kernel, by decide +kernel, by decide +kernel, by decide +kernel, by decide +kernel, by decide +kernel⟩⟩,
   ⟨onDie (runS step1 []) full, onDie (runS step1 []) full, 7, envF, [], step1, ⟨far rfl (by decide +kernel), by decide +kernel, by decide +kernel, by decide +kernel, by decide +kernel, by decide +kernel, by decide +kernel⟩⟩,
   ⟨withCtx ctx0, withCtx ctx0, 7, envF, [], step1, ctx0, ⟨far rfl (by decide +kernel), by decide +kernel, by decide +kernel, by decide +kernel, by decide +kernel, by decide +kernel⟩⟩,
   ⟨runS step1 [], 7, env0, [], by decide +kernel⟩,
   ⟨runS step1 [], runS step1 [], 7, 1, envF, 0, 0, step1, ⟨far rfl (by decide +kernel), by decide +kernel⟩⟩,
   ⟨withCtx { ctx0 with blocks := [blk0] }, withCtx { ctx0 with blocks := [blk0] }, 7, 3, envF, [], step1, { ctx0 with blocks := [blk0] }, blk0, ⟨far rfl (by decide +kernel), by decide +kernel, by decide +kernel, by decide +kernel, by decide +kernel, by decide +kernel, by decide +kernel⟩⟩,
   ⟨runS step1 [], runS step1 [], 7, 0x100000000000, 0, envF, [], step1, ⟨far rfl (by decide +kernel), by decide +kernel⟩⟩,
   ⟨onDie (runS step1 []) (fun d => { d with merges := [merge0] }), onDie (runS step1 []) (fun d => { d with merges := [merge0] }), 7, 3, 1, envF, [], step1, merge0, ⟨far rfl (by decide +kernel), by decide +kernel, by decide +kernel, by decide +kernel⟩⟩,
   ⟨{ runS step1 [] with noc := [noc0] }, runS step1 [], 7, 0x100000000000, 0, env0, [], step1, ⟨near (by decide +kernel) rfl, by decide +kernel⟩⟩,
   ⟨runS step1 [], runS step1 [], 7, 0x100000000000, 0, envF, [], step1, ⟨far rfl (by decide +kernel), by decide +kernel⟩⟩,
   ⟨withCtx { ctx0 with round := 1, rem := [(5, [3])] }, 7, 0, 0, 5, 2, { ctx0 with round := 1, rem := [(5, [3])] }, step1, by decide +kernel⟩⟩

theorem test_meets_SpilledPages :
    (∃ (s : State) (i : Nat) (p : Pool), (s.pool i = some p) ∧ (p.target ≠ 0) ∧ p.stalled = false ∧ (p.freeFrames < p.lowFree)) ∧
    (∃ (s : State) (u : State) (i : Nat) (g : Nat) (tier : Nat) (loc : Nat) (o : Obj) (p : Pool), (s.obj i = some o) ∧ (o.pool = some p) ∧ (p.spillTo = some (tier, loc)) ∧ ((p.page g).spillAct = true) ∧ ((tier = 2 → s.flash.ready = true ∧ s.flash.paused = [])) ∧ ((p.page g).pins = 0) ∧ ((p.page g).refcnt ≠ 0) ∧ ((p.page g).state = .live) ∧ (s.spillWrite p i g tier loc (Memory.read s.mem (o.frameAddr p (p.page g).frame 0) p.pageBytes) = some u)) ∧
    (∃ (s : State) (u : State) (i : Nat) (g : Nat) (f : Nat) (p : Pool), (s.pool i = some p) ∧ ((∀ x ∈ p.demand, (p.page x).state = .spilled)) ∧ ((s.modPool i fun _ => p).nextReturn i p = some g) ∧ ((s.modPool i fun _ => p).choose p.freeFrameList = (some f, u))) ∧
    (∃ (s : State) (i : Nat) (g : Nat) (o : Obj) (p : Pool) (b : List Byte), (s.obj i = some o) ∧ (o.pool = some p) ∧ ((p.page g).state = .arriving) ∧ ((p.page g).refcnt ≠ 0) ∧ (s.spillRead i p g = some b) ∧ (crc32c b = (p.page g).spillCrc) ∧ (s.steps = [])) ∧
    (∃ (s : State) (i : Nat) (g : Nat) (o : Obj) (p : Pool) (b : List Byte), (s.obj i = some o) ∧ (o.pool = some p) ∧ ((p.page g).state = .arriving) ∧ ((p.page g).refcnt ≠ 0) ∧ (s.spillRead i p g = some b) ∧ ((p.page g).retried = false)) ∧
    (∃ (s : State) (i : Nat) (p : Pool), (s.pool i = some p) ∧ p.stalled = true ∧ p.target = 2 ∧ s.flash.ready = true ∧ (s.flashTakes p = true)) :=
  ⟨⟨withPool { pool0 with target := 1, lowFree := 16, highFree := 16, pages := [(1, pageL)] }, 2, { pool0 with target := 1, lowFree := 16, highFree := 16, pages := [(1, pageL)] }, by decide +kernel⟩,
   let p : ((withPool poolS).spillWrite poolS 2 1 1 65536 (Memory.read (withPool poolS).mem (Obj.frameAddr { poolObj with pool := some poolS } poolS (poolS.page 1).frame 0) poolS.pageBytes)).isSome = true := (by decide +kernel); ⟨withPool poolS, Option.get _ p, 2, 1, 1, 65536, { poolObj with pool := some poolS }, poolS, by decide +kernel, by decide +kernel, by decide +kernel, by decide +kernel, by decide +kernel, by decide +kernel, by decide +kernel, by decide +kernel, (Option.some_get p).symm⟩,
   let ⟨x, f, _, h⟩ := choose_some ((withPool poolD).modPool 2 fun _ => poolD) (l := poolD.freeFrameList) (by decide +kernel); ⟨withPool poolD, { (withPool poolD).modPool 2 (fun _ => poolD) with fresh := f }, 2, 1, x, poolD, by decide +kernel, by decide +kernel, by decide +kernel, h⟩,
   ⟨retS, 2, 1, { poolObj with pool := some poolR }, poolR, leBytes 9 0x393837363534333231, by decide +kernel⟩,
   ⟨retS, 2, 1, { poolObj with pool := some poolR }, poolR, leBytes 9 0x393837363534333231, by decide +kernel⟩,
   ⟨({ withPool { pool0 with stalled := true, target := 2 } with now := 10 ^ 12 } : State).modFlash fun f => { f with ready := true, spillGib := 4096 }, 2, { pool0 with stalled := true, target := 2 }, by decide +kernel⟩⟩

theorem test_meets_RegisterFrame :
    (∃ (s : State) (t : State) (m : Master) (blk : PwBlk), (exec (.accDropClear m blk) s = .next t)) ∧
    (∃ (s : State) (t : State) (m : Master), (exec (.snapRearm m) s = .next t)) ∧
    (∃ (s : State) (t : State) (m : Master), (exec (.snapTrig m) s = .next t)) ∧
    (∃ (s : State) (t : State) (m : Master) (manifest : Bool), (exec (.allowlistAdd m manifest) s = .next t)) ∧
    (∃ (s : State) (t : State) (m : Master) (manifest : Bool), (exec (.allowlistRemove m manifest) s = .next t)) ∧
    (∃ (s : State) (t : State) (m : Master) (manifest : Bool), (exec (.allowlistClear m manifest) s = .next t)) ∧
    (∃ (s : State) (t : State) (m : Master) (slot : Nat), (exec (.keyRevoke m slot) s = .next t)) ∧
    (∃ (s : State) (t : State) (m : Master), (exec (.svnCommit m) s = .next t)) ∧
    (∃ (s : State) (t : State) (m : Master) (off : Nat) (v : W32), (exec (.pwWrite m off v) s = .next t)) ∧
    (∃ (s : State) (t : State), (exec .registerScrub s = .next t)) ∧
    (∃ (s : State) (t : State) (m : Master) (r : SqReg), (exec (.sqEventRead m r) s = .next t)) ∧
    (∃ (s : State) (t : State) (m : Master) (r : SqReg) (v : W32), (exec (.sqEventClear m r v) s = .next t)) ∧
    (∃ (s : State) (t : State) (m : Master) (off : Nat) (v : W32) (n : _), (exec (.bfWrite m off v) s = .next t) ∧ (n ≠ m)) ∧
    (∃ (s : State) (t : State) (m : Master) (n : _), (exec (.cfgCommitDiscard m) s = .next t) ∧ (n ≠ m)) ∧
    (∃ (s : State) (t : State) (m : Master), (exec (.cfgCommitGo m) s = .next t)) ∧
    (∃ (s : State) (t : State) (m : Master) (n : _), (exec (.timeLoRead m) s = .next t) ∧ (n ≠ m)) ∧
    (∃ (s : State) (t : State) (m : Master) (off : Nat), (exec (.lockSet m off) s = .next t)) :=
  ⟨⟨State.reset, _, .portA, .clk, ran (by decide +kernel)⟩,
   ⟨State.reset, _, .portA, ran (by decide +kernel)⟩,
   ⟨State.reset, _, .portA, ran (by decide +kernel)⟩,
   ⟨State.reset, _, .portA, true, ran (by decide +kernel)⟩,
   ⟨State.reset, _, .portA, true, ran (by decide +kernel)⟩,
   ⟨State.reset, _, .portA, true, ran (by decide +kernel)⟩,
   ⟨State.reset, _, .portA, 1, ran (by decide +kernel)⟩,
   ⟨State.reset, _, .portA, ran (by decide +kernel)⟩,
   ⟨State.reset, _, .portA, 1, 1, ran (by decide +kernel)⟩,
   ⟨State.reset, _, ran (by decide +kernel)⟩,
   ⟨State.reset, _, .portA, .clk, ran (by decide +kernel)⟩,
   ⟨State.reset, _, .portA, .clk, 1, ran (by decide +kernel)⟩,
   ⟨State.reset, _, .portA, 1, 1, .portB, ⟨ran (by decide +kernel), by decide +kernel⟩⟩,
   ⟨State.reset, _, .portA, .portB, ⟨ran (by decide +kernel), by decide +kernel⟩⟩,
   ⟨State.reset, _, .portA, ran (by decide +kernel)⟩,
   ⟨State.reset, _, .portA, .portB, ⟨ran (by decide +kernel), by decide +kernel⟩⟩,
   ⟨State.reset, _, .portA, 1, ran (by decide +kernel)⟩⟩

theorem test_meets_PinAndPortFrame :
    (∃ (s : State) (t : State) (p : Port) (q : _), (exec (.d3hotExit p) s = .next t) ∧ (q ≠ p)) ∧
    (∃ (s : State) (t : State) (p : Port) (q : _), (exec (.perstDeassert p) s = .next t) ∧ (q ≠ p)) ∧
    (∃ (s : State) (t : State) (p : Port) (v : W32) (q : _), (exec (.sqTailWrite p v) s = .next t) ∧ (q ≠ p)) ∧
    (∃ (s : State) (t : State) (p : Port), (exec (.coalTimerExpire p) s = .next t)) ∧
    (∃ (s : State) (t : State) (p : Port) (r : CfgReq) (q : _), (exec (.configurationRequest p r) s = .next t) ∧ (q ≠ p)) ∧
    (∃ (s : State) (t : State) (p : Port) (off : Nat) (n : Nat), (exec (.bar4Read p off n) s = .next t)) ∧
    (∃ (s : State) (t : State) (p : Port) (nonce : List Byte), (exec (.spdmRequest p nonce) s = .next t)) ∧
    (∃ (s : State) (t : State) (addr : Nat), (exec (.dynamicAddressAssign addr) s = .next t)) ∧
    (∃ (s : State) (t : State), (exec .dynamicAddressReset s = .next t)) ∧
    (∃ (s : State) (t : State), (exec .sidebandBusStuck s = .next t)) ∧
    (∃ (s : State) (t : State), (exec .sidebandLinesHigh s = .next t)) ∧
    (∃ (s : State) (t : State) (ir : Nat), (exec (.tapInstruction ir) s = .next t)) ∧
    (∃ (s : State) (t : State), (exec .faultPulseEnd s = .next t)) ∧
    (∃ (s : State) (t : State), (exec .healthMessage s = .next t)) ∧
    (∃ (s : State) (t : State), (exec .healthRepeatTimer s = .next t)) ∧
    (∃ (s : State) (t : State), (exec .ceSample s = .next t)) ∧
    (∃ (s : State) (t : State), (exec .stillOutPulseEnd s = .next t)) ∧
    (∃ (s : State) (t : State) (highNs : Nat), (exec (.stillInFall highNs) s = .next t)) ∧
    (∃ (s : State) (t : State) (tag : Nat) (origin : Nat) (capNo : Nat), (exec (.stillToken tag origin capNo) s = .next t)) ∧
    (∃ (s : State) (t : State) (die : Nat), (exec (.droopTrip die) s = .next t)) ∧
    (∃ (s : State) (t : State), (exec .inputSag s = .next t)) ∧
    (∃ (s : State) (t : State) (p1ms : Nat) (p10ms : Nat) (v1ms : Nat) (coresFull : Bool), (exec (.millpondTick p1ms p10ms v1ms coresFull) s = .next t)) ∧
    (∃ (s : State) (t : State), (exec .voltageStageSettle s = .next t)) ∧
    (∃ (s : State) (t : State) (r : Rail), (exec (.phaseFail r) s = .next t)) ∧
    (∃ (s : State) (t : State), (exec .refClockLoss s = .next t)) ∧
    (∃ (s : State) (t : State), (exec .refClockReturn s = .next t)) ∧
    (∃ (s : State) (t : State), (exec .flashResetDone s = .next t)) ∧
    (∃ (s : State) (t : State) (die : Nat), (exec (.dieResetDone die) s = .next t)) ∧
    (∃ (s : State) (t : State), (exec .lockstepMismatch s = .next t)) ∧
    (∃ (s : State) (t : State), (exec .easelSramError s = .next t)) :=
  ⟨⟨State.reset, _, .a, .b, ⟨ran (by decide +kernel), by decide +kernel⟩⟩,
   ⟨State.reset, _, .a, .b, ⟨ran (by decide +kernel), by decide +kernel⟩⟩,
   ⟨State.reset, _, .a, 1, .b, ⟨ran (by decide +kernel), by decide +kernel⟩⟩,
   ⟨State.reset, _, .a, ran (by decide +kernel)⟩,
   ⟨State.reset, _, .a, .memEnable true, .b, ⟨ran (by decide +kernel), by decide +kernel⟩⟩,
   ⟨State.reset, _, .a, 1, 1, ran (by decide +kernel)⟩,
   ⟨State.reset, _, .a, [], ran (by decide +kernel)⟩,
   ⟨State.reset, _, 1, ran (by decide +kernel)⟩,
   ⟨State.reset, _, ran (by decide +kernel)⟩,
   ⟨State.reset, _, ran (by decide +kernel)⟩,
   ⟨State.reset, _, ran (by decide +kernel)⟩,
   ⟨State.reset, _, 1, ran (by decide +kernel)⟩,
   ⟨State.reset, _, ran (by decide +kernel)⟩,
   ⟨State.reset, _, ran (by decide +kernel)⟩,
   ⟨State.reset, _, ran (by decide +kernel)⟩,
   ⟨State.reset, _, ran (by decide +kernel)⟩,
   ⟨State.reset, _, ran (by decide +kernel)⟩,
   ⟨State.reset, _, 1, ran (by decide +kernel)⟩,
   ⟨State.reset, _, 1, 1, 1, ran (by decide +kernel)⟩,
   ⟨State.reset, _, 1, ran (by decide +kernel)⟩,
   ⟨State.reset, _, ran (by decide +kernel)⟩,
   ⟨State.reset, _, 1, 1, 1, true, ran (by decide +kernel)⟩,
   ⟨State.reset, _, ran (by decide +kernel)⟩,
   ⟨State.reset, _, .io 0, ran (by decide +kernel)⟩,
   ⟨State.reset, _, ran (by decide +kernel)⟩,
   ⟨State.reset, _, ran (by decide +kernel)⟩,
   ⟨State.reset, _, ran (by decide +kernel)⟩,
   ⟨State.reset, _, 1, ran (by decide +kernel)⟩,
   ⟨State.reset, _, ran (by decide +kernel)⟩,
   ⟨State.reset, _, ran (by decide +kernel)⟩⟩

theorem test_meets_FlashAndLinkFrame :
    (∃ (s : State) (t : State) (die : Nat) (block : Nat) (corrected : Nat), (exec (.flashScrubPass die block corrected) s = .next t)) ∧
    (∃ (s : State) (t : State) (die : Nat), (exec (.nandOpDone die) s = .next t)) ∧
    (∃ (s : State) (t : State) (pkg : Nat), (exec (.nandTempOk pkg) s = .next t)) ∧
    (∃ (s : State) (t : State) (pkg : Nat), (exec (.nandOvertemp pkg) s = .next t)) ∧
    (∃ (s : State) (t : State) (die : Nat) (block : Nat) (reads : Nat), (exec (.readDisturbDue die block reads) s = .next t)) ∧
    (∃ (s : State) (t : State) (minutes : Nat), (exec (.thermalAgeTick minutes) s = .next t)) ∧
    (∃ (s : State) (t : State), (exec .ftlReady s = .next t)) ∧
    (∃ (s : State) (t : State) (obj : Nat), (exec (.departWriteoutDone obj) s = .next t)) ∧
    (∃ (s : State) (t : State) (obj : Nat) (tile : Nat), (exec (.twinTileRequest obj tile) s = .next t)) ∧
    (∃ (s : State) (t : State) (group : Nat) (stripe : Nat) (persists : Bool) (unit : Option Nat) (n : _), (exec (.patrolScrubMismatch group stripe persists unit) s = .next t) ∧ (n ≠ group)) ∧
    (∃ (s : State) (t : State) (link : Nat) (ack : Nat) (c0 : Nat) (c1 : Nat) (c2 : Nat), (exec (.creditReceived ⟨link, ack⟩ c0 c1 c2) s = .next t)) ∧
    (∃ (s : State) (t : State) (link : Nat) (n : _), (exec (.creditTimer link) s = .next t) ∧ (n ≠ link)) ∧
    (∃ (s : State) (t : State) (p : Packet), (exec (.packetRoute p) s = .next t)) ∧
    (∃ (s : State) (t : State), (exec .transitWindow s = .next t)) ∧
    (∃ (s : State) (t : State) (link : Nat) (f : Flit) (intact : Bool), (exec (.dataFlitReceived link f intact) s = .next t)) ∧
    (∃ (s : State) (t : State) (m : SliceMsg), (exec (.join m) s = .next t)) :=
  ⟨⟨State.reset, _, 1, 1, 1, ran (by decide +kernel)⟩,
   ⟨State.reset, _, 1, ran (by decide +kernel)⟩,
   ⟨State.reset, _, 1, ran (by decide +kernel)⟩,
   ⟨State.reset, _, 1, ran (by decide +kernel)⟩,
   ⟨State.reset, _, 1, 1, 1, ran (by decide +kernel)⟩,
   ⟨State.reset, _, 1, ran (by decide +kernel)⟩,
   ⟨State.reset, _, ran (by decide +kernel)⟩,
   ⟨State.reset, _, 1, ran (by decide +kernel)⟩,
   ⟨State.reset, _, 1, 1, ran (by decide +kernel)⟩,
   ⟨State.reset, _, 1, 1, true, none, 2, ⟨ran (by decide +kernel), by decide +kernel⟩⟩,
   ⟨State.reset, _, 1, 1, 1, 1, 1, ran (by decide +kernel)⟩,
   ⟨State.reset, _, 1, 2, ⟨ran (by decide +kernel), by decide +kernel⟩⟩,
   ⟨State.reset, _, pkt0, ran (by decide +kernel)⟩,
   ⟨State.reset, _, ran (by decide +kernel)⟩,
   ⟨State.reset, _, 1, flit0, true, ran (by decide +kernel)⟩,
   ⟨State.reset, _, msg0, ran (by decide +kernel)⟩⟩

theorem test_meets_TileAndPageFrame :
    (∃ (s : State) (t : State) (die : Nat) (core : Nat) (engine : Nat) (cell : Nat) (n : _), (exec (.gtForceTimer die core engine cell) s = .next t) ∧ (n ≠ die)) ∧
    (∃ (s : State) (t : State) (die : Nat) (core : Nat) (n : _), (exec (.heartbeat die core) s = .next t) ∧ (n ≠ die)) ∧
    (∃ (s : State) (t : State) (die : Nat) (core : Nat) (n : _), (exec (.paletteSlotLoadDone die core) s = .next t) ∧ (n ≠ die)) ∧
    (∃ (s : State) (t : State) (slice : Nat) (stepId : Nat), (exec (.preparedSend slice stepId) s = .next t)) ∧
    (∃ (s : State) (t : State) (die : Nat) (slot : Nat) (idx : Nat), (exec (.sendMessage die slot idx) s = .next t)) ∧
    (∃ (s : State) (t : State) (die : Nat) (entry : Nat), (exec (.failedTileDecide die entry) s = .next t)) ∧
    (∃ (s : State) (t : State) (die : Nat) (entry : Nat), (exec (.nopTileComplete die entry) s = .next t)) ∧
    (∃ (s : State) (t : State) (die : Nat) (entry : Nat), (exec (.unpackRereadDone die entry) s = .next t)) ∧
    (∃ (s : State) (t : State) (die : Nat) (slot : Nat), (exec (.moeCtxDeferredOpen die slot) s = .next t)) ∧
    (∃ (s : State) (t : State) (die : Nat) (slot : Nat) (layer : Nat), (exec (.nextRound die slot layer) s = .next t)) ∧
    (∃ (s : State) (t : State) (die : Nat) (slot : Nat), (exec (.appendStallResume die slot) s = .next t)) ∧
    (∃ (s : State) (t : State) (pool : Nat) (page : Nat), (exec (.pageReturnStart pool page) s = .next t)) ∧
    (∃ (s : State) (t : State) (pool : Nat), (exec (.spillStart pool) s = .next t)) ∧
    (∃ (s : State) (t : State) (pool : Nat), (exec (.quotaReturn pool) s = .next t)) :=
  ⟨⟨State.reset, _, 1, 1, 1, 1, 2, ⟨ran (by decide +kernel), by decide +kernel⟩⟩,
   ⟨State.reset, _, 1, 1, 2, ⟨ran (by decide +kernel), by decide +kernel⟩⟩,
   ⟨State.reset, _, 1, 1, 2, ⟨ran (by decide +kernel), by decide +kernel⟩⟩,
   ⟨State.reset, _, 1, 1, ran (by decide +kernel)⟩,
   ⟨State.reset, _, 1, 1, 1, ran (by decide +kernel)⟩,
   ⟨State.reset, _, 1, 1, ran (by decide +kernel)⟩,
   ⟨State.reset, _, 1, 1, ran (by decide +kernel)⟩,
   ⟨State.reset, _, 1, 1, ran (by decide +kernel)⟩,
   ⟨State.reset, _, 1, 1, ran (by decide +kernel)⟩,
   ⟨State.reset, _, 1, 1, 1, ran (by decide +kernel)⟩,
   ⟨State.reset, _, 1, 1, ran (by decide +kernel)⟩,
   ⟨State.reset, _, 1, 1, ran (by decide +kernel)⟩,
   ⟨State.reset, _, 1, ran (by decide +kernel)⟩,
   ⟨State.reset, _, 1, ran (by decide +kernel)⟩⟩

theorem test_meets_RingCommandFrame :
    (∃ (s : State) (t : State) (src : Src) (b : List Byte) (i : _), (s.turn src = true) ∧ b.length = 112 ∧ (exec (.objPin src b) s = .next t) ∧ (i ≠ fld b 0 4)) ∧
    (∃ (s : State) (t : State) (src : Src) (b : List Byte) (i : _), (s.turn src = true) ∧ b.length = 112 ∧ (exec (.objUnpin src b) s = .next t) ∧ (i ≠ fld b 0 4)) ∧
    (∃ (s : State) (t : State) (src : Src) (b : List Byte), (s.turn src = true) ∧ b.length = 112 ∧ (exec (.objQuery src b) s = .next t)) ∧
    (∃ (s : State) (t : State) (src : Src) (b : List Byte), (s.turn src = true) ∧ b.length = 112 ∧ (exec (.objCreate src b) s = .next t)) ∧
    (∃ (s : State) (t : State) (src : Src) (b : List Byte), (s.turn src = true) ∧ b.length = 112 ∧ (exec (.objLoadHost src b) s = .next t)) ∧
    (∃ (s : State) (t : State) (src : Src) (b : List Byte), (s.turn src = true) ∧ b.length = 112 ∧ (exec (.objStageFlash src b) s = .next t)) ∧
    (∃ (s : State) (t : State) (src : Src) (b : List Byte), (s.turn src = true) ∧ b.length = 112 ∧ (exec (.objPromote src b) s = .next t)) ∧
    (∃ (s : State) (t : State) (src : Src) (b : List Byte), (s.turn src = true) ∧ b.length = 112 ∧ (exec (.objEvict src b) s = .next t)) ∧
    (∃ (s : State) (t : State) (src : Src) (b : List Byte), (s.turn src = true) ∧ b.length = 112 ∧ (exec (.modelBind src b) s = .next t)) ∧
    (∃ (s : State) (t : State) (src : Src) (b : List Byte), (s.turn src = true) ∧ b.length = 112 ∧ (exec (.viewSwitch src b) s = .next t)) ∧
    (∃ (s : State) (t : State) (src : Src) (b : List Byte), (s.turn src = true) ∧ b.length = 112 ∧ (exec (.layerSwap src b) s = .next t)) ∧
    (∃ (s : State) (t : State) (src : Src) (b : List Byte), (s.turn src = true) ∧ b.length = 112 ∧ (exec (.modelRelease src b) s = .next t)) ∧
    (∃ (s : State) (t : State) (src : Src) (b : List Byte), (s.turn src = true) ∧ b.length = 112 ∧ (exec (.sliceJoin src b) s = .next t)) ∧
    (∃ (s : State) (t : State) (src : Src) (b : List Byte), (s.turn src = true) ∧ b.length = 112 ∧ (exec (.sliceLeave src b) s = .next t)) ∧
    (∃ (s : State) (t : State) (src : Src) (b : List Byte), (s.turn src = true) ∧ b.length = 112 ∧ (exec (.routeLoad src b) s = .next t)) ∧
    (∃ (s : State) (t : State) (src : Src) (b : List Byte), (s.turn src = true) ∧ b.length = 112 ∧ (exec (.stepSubmit src b) s = .next t)) ∧
    (∃ (s : State) (t : State) (src : Src) (b : List Byte), (s.turn src = true) ∧ b.length = 112 ∧ (exec (.stepKill src b) s = .next t)) ∧
    (∃ (s : State) (t : State) (src : Src) (b : List Byte), (s.turn src = true) ∧ b.length = 112 ∧ (exec (.seqOpen src b) s = .next t)) ∧
    (∃ (s : State) (t : State) (src : Src) (b : List Byte), (s.turn src = true) ∧ b.length = 112 ∧ (exec (.seqClose src b) s = .next t)) ∧
    (∃ (s : State) (t : State) (src : Src) (b : List Byte), (s.turn src = true) ∧ b.length = 112 ∧ (exec (.pageShare src b) s = .next t)) ∧
    (∃ (s : State) (t : State) (src : Src) (b : List Byte), (s.turn src = true) ∧ b.length = 112 ∧ (exec (.prefetchSched src b) s = .next t)) ∧
    (∃ (s : State) (t : State) (src : Src) (b : List Byte), (s.turn src = true) ∧ b.length = 112 ∧ (exec (.spillPolicy src b) s = .next t)) ∧
    (∃ (s : State) (t : State) (src : Src) (b : List Byte), (s.turn src = true) ∧ b.length = 112 ∧ (exec (.paletteLoad src b) s = .next t)) ∧
    (∃ (s : State) (t : State) (src : Src) (b : List Byte), (s.turn src = true) ∧ b.length = 112 ∧ (exec (.stateDump src b) s = .next t)) ∧
    (∃ (s : State) (t : State) (src : Src) (b : List Byte), (s.turn src = true) ∧ b.length = 112 ∧ (exec (.snapRead src b) s = .next t)) ∧
    (∃ (s : State) (t : State) (src : Src) (b : List Byte), (s.turn src = true) ∧ b.length = 112 ∧ (exec (.fwUpdate src b) s = .next t)) ∧
    (∃ (s : State) (t : State) (src : Src) (b : List Byte), (s.turn src = true) ∧ b.length = 112 ∧ (exec (.attest src b) s = .next t)) ∧
    (∃ (s : State) (t : State) (src : Src) (b : List Byte), (s.turn src = true) ∧ b.length = 112 ∧ (exec (.devInfo src b) s = .next t)) ∧
    (∃ (s : State) (t : State) (src : Src) (b : List Byte), (s.turn src = true) ∧ b.length = 112 ∧ (exec (.resetScope src b) s = .next t)) ∧
    (∃ (s : State) (t : State) (src : Src) (b : List Byte), (s.turn src = true) ∧ b.length = 112 ∧ (exec (.powerPolicy src b) s = .next t)) :=
  ⟨⟨up, _, src0, body [], 2, ⟨by decide +kernel, by decide +kernel, ran (by decide +kernel), by decide +kernel⟩⟩,
   ⟨up, _, src0, body [], 2, ⟨by decide +kernel, by decide +kernel, ran (by decide +kernel), by decide +kernel⟩⟩,
   ⟨up, _, src0, body [], ⟨by decide +kernel, by decide +kernel, ran (by decide +kernel)⟩⟩,
   ⟨up, _, src0, body [], ⟨by decide +kernel, by decide +kernel, ran (by decide +kernel)⟩⟩,
   ⟨up, _, src0, body [], ⟨by decide +kernel, by decide +kernel, ran (by decide +kernel)⟩⟩,
   ⟨up, _, src0, body [], ⟨by decide +kernel, by decide +kernel, ran (by decide +kernel)⟩⟩,
   ⟨up, _, src0, body [], ⟨by decide +kernel, by decide +kernel, ran (by decide +kernel)⟩⟩,
   ⟨up, _, src0, body [], ⟨by decide +kernel, by decide +kernel, ran (by decide +kernel)⟩⟩,
   ⟨up, _, src0, body [], ⟨by decide +kernel, by decide +kernel, ran (by decide +kernel)⟩⟩,
   ⟨up, _, src0, body [], ⟨by decide +kernel, by decide +kernel, ran (by decide +kernel)⟩⟩,
   ⟨up, _, src0, body [], ⟨by decide +kernel, by decide +kernel, ran (by decide +kernel)⟩⟩,
   ⟨up, _, src0, body [], ⟨by decide +kernel, by decide +kernel, ran (by decide +kernel)⟩⟩,
   ⟨up, _, src0, body [], ⟨by decide +kernel, by decide +kernel, ran (by decide +kernel)⟩⟩,
   ⟨up, _, src0, body [], ⟨by decide +kernel, by decide +kernel, ran (by decide +kernel)⟩⟩,
   ⟨up, _, src0, body [], ⟨by decide +kernel, by decide +kernel, ran (by decide +kernel)⟩⟩,
   ⟨up, _, src0, body [], ⟨by decide +kernel, by decide +kernel, ran (by decide +kernel)⟩⟩,
   ⟨up, _, src0, body [], ⟨by decide +kernel, by decide +kernel, ran (by decide +kernel)⟩⟩,
   ⟨up, _, src0, body [], ⟨by decide +kernel, by decide +kernel, ran (by decide +kernel)⟩⟩,
   ⟨up, _, src0, body [], ⟨by decide +kernel, by decide +kernel, ran (by decide +kernel)⟩⟩,
   ⟨up, _, src0, body [], ⟨by decide +kernel, by decide +kernel, ran (by decide +kernel)⟩⟩,
   ⟨up, _, src0, body [], ⟨by decide +kernel, by decide +kernel, ran (by decide +kernel)⟩⟩,
   ⟨up, _, src0, body [], ⟨by decide +kernel, by decide +kernel, ran (by decide +kernel)⟩⟩,
   ⟨up, _, src0, body [], ⟨by decide +kernel, by decide +kernel, ran (by decide +kernel)⟩⟩,
   ⟨up, _, src0, body [], ⟨by decide +kernel, by decide +kernel, ran (by decide +kernel)⟩⟩,
   ⟨up, _, src0, body [], ⟨by decide +kernel, by decide +kernel, ran (by decide +kernel)⟩⟩,
   ⟨up, _, src0, body [], ⟨by decide +kernel, by decide +kernel, ran (by decide +kernel)⟩⟩,
   ⟨up, _, src0, body [], ⟨by decide +kernel, by decide +kernel, ran (by decide +kernel)⟩⟩,
   ⟨up, _, src0, body [], ⟨by decide +kernel, by decide +kernel, ran (by decide +kernel)⟩⟩,
   ⟨up, _, src0, body [], ⟨by decide +kernel, by decide +kernel, ran (by decide +kernel)⟩⟩,
   ⟨up, _, src0, body [], ⟨by decide +kernel, by decide +kernel, ran (by decide +kernel)⟩⟩⟩

theorem test_meets_EmptyQueueCountsOneTick :
    (∃ (s : State), (s.pending = []) ∧ s.clk.inReset = false) ∧
    (∃ (s : State), (s.pending = []) ∧ s.clk.inReset = true) :=
  ⟨⟨up, by decide +kernel⟩,
   ⟨State.reset, by decide +kernel⟩⟩

theorem test_meets_ResetValues :
    (∃ (i : _), (i < 30)) ∧
    (∃ (g : _), (g < 16)) ∧
    (∃ (k : _) (j : _), (k < 8) ∧ (j < 120)) :=
  ⟨⟨29, by decide +kernel⟩,
   ⟨15, by decide +kernel⟩,
   ⟨7, 119, by decide +kernel⟩⟩

theorem test_meets_EveryStepKeepsMemoryCanonical :
    ∃ (s : State) (t : State), s.memOk = true ∧ (step s = .next t) :=
  ⟨{ up with pending := [.d3hotExit .a] }, _, ⟨by decide +kernel, ran (by decide +kernel)⟩⟩

theorem test_meets_EveryStepKeepsTheParts :
    ∃ (s : State) (t : State), s.shapeOk = true ∧ (step s = .next t) :=
  ⟨{ up with pending := [.d3hotExit .a] }, _, ⟨by decide +kernel, ran (by decide +kernel)⟩⟩

theorem test_meets_FusesOnlyBurn :
    ∃ (s : State) (t : State), (step s = .next t) ∧ s.sec.keysOk = true :=
  ⟨{ up with pending := [.keyRevoke .easel 1] }, _, ⟨ran (by decide +kernel), by decide +kernel⟩⟩

theorem test_meets_CompletionsArePosted :
    (∃ (s : State) (r : Ref), s.health.failed = false ∧ r.src.mailbox = false) ∧
    (∃ (s : State) (r : Ref) (g : Ring), s.health.failed = false ∧ r.src.mailbox = false ∧ r.slot = none ∧ s.memOk = true ∧ ((s.port r.src.port).ring = some g) ∧ ((s.port r.src.port).canPost = true) ∧ ((s.port r.src.port).held = [])) ∧
    (∃ (s : State) (r : Ref), s.health.failed = false ∧ r.src.mailbox = false ∧ r.slot = none ∧ ((s.port r.src.port).ring = none) ∧ ((s.port r.src.port).held.length < 4096)) ∧
    (∃ (s : State) (r : Ref), s.health.failed = false ∧ r.src.mailbox = false ∧ r.slot = none ∧ ((s.port r.src.port).ring = none) ∧ (4096 ≤ (s.port r.src.port).held.length)) :=
  ⟨⟨up, refN, by decide +kernel⟩,
   ⟨up, refN, ring0, by decide +kernel⟩,
   ⟨State.reset, refN, by decide +kernel⟩,
   ⟨{ State.reset with pa := { State.port0 with held := List.replicate 4096 cpl0 } }, refN, by decide +kernel⟩⟩

theorem test_meets_EightCorrectedBitsMakeABlockDue :
    (∃ (d : Nat) (b : Nat) (n : Nat), (d < 128) ∧ (b < 4096) ∧ (8 ≤ n)) ∧
    (∃ (p : NPlace), (p.die < 128) ∧ (p.block < 4096)) :=
  ⟨⟨127, 4095, 8, by decide +kernel⟩,
   ⟨{ die := 127, block := 4095, page := 0 }, by decide +kernel⟩⟩

theorem test_meets_CapturesOnlyWhileArmed :
    (∃ (s : State), s.snap.armed = false) ∧
    (∃ (s : State) (m : Master), (s.reaches m = true)) ∧
    (∃ (s : State), s.snap.armed = true) :=
  ⟨⟨up.modSnap fun x => { x with armed := false }, by decide +kernel⟩,
   ⟨up, .portA, by decide +kernel⟩,
   ⟨up, by decide +kernel⟩⟩

theorem test_meets_AWholeGroupCloses :
    (∃ (d : Die) (g : Nat) (x : RGroup) (e : _), (d.groups.find? (fun y => y.idx == g) = some x) ∧ x.poisoned = false ∧ ((∀ e ∈ d.tiles, e.reduce = true → e.group = g → e.state = .done)) ∧ ((d.tiles.filter fun e => e.reduce && e.group == g).length = x.members) ∧ (e ∈ d.tiles) ∧ (¬ (e.reduce = true ∧ e.group = g))) ∧
    (∃ (s : State) (k : Nat) (n : Nat) (v : Nat) (e : Tile), (k < s.dies.length) ∧ ((s.die k).entry n = some e) ∧ e.reduce = true ∧ e.sig0En = true ∧ e.sig1En = false ∧ ((s.die k).ctr e.sig0 = v + 2)) :=
  ⟨⟨{ State.die0 with groups := [groupW], tiles := [memT, { memT with idx := 12 }, tile0] }, 1, groupW, tile0, by decide +kernel⟩,
   ⟨onDie upRun fun d => { d with groups := [groupW], tiles := [{ memT with sig0En := true, sig0 := 4 }], ctrs := [(4, 2, 0)] }, 7, 11, 0, { memT with sig0En := true, sig0 := 4 }, by decide +kernel⟩⟩

theorem test_meets_RevocationOfKeys :
    (∃ (s : State) (m : Master) (k : Nat), (s.reaches m = true) ∧ (masterPriv m = true) ∧ (k < 4) ∧ (s.sec.revoked.getLsbD (if k % 2 = 0 then k + 1 else k - 1) = false) ∧ (¬ (k < 2 ∧ (s.sec.running.map (·.keySlot)) = some k))) ∧
    (∃ (s : State) (k : Nat), (k < 2) ∧ ((s.sec.running.map (·.keySlot)) = some k)) ∧
    (∃ (s : State) (k : Nat), (k < 4) ∧ (s.sec.revoked.getLsbD (if k % 2 = 0 then k + 1 else k - 1) = true)) ∧
    (∃ (m : Master), (masterPriv m = false)) ∧
    (∃ (c : Sec) (x : FwImage), (c.revoked.getLsbD x.keySlot = true)) :=
  ⟨⟨up, .easel, 3, by decide +kernel⟩,
   ⟨up.modSec fun c => { c with running := some State.shippedImage }, 0, by decide +kernel⟩,
   ⟨up.modSec fun c => { c with revoked := 4 }, 3, by decide +kernel⟩,
   ⟨.portA, by decide +kernel⟩,
   ⟨{ State.sec0 with revoked := 1 }, State.shippedImage, by decide +kernel⟩⟩

theorem test_meets_MemoryFrame :
    (∃ (s : State) (t : State) (p : Port) (off : Nat) (b : List Byte) (a : _), s.memOk = true ∧ (exec (.bar4Write p off b) s = .next t) ∧ (a < (s.port p).winAddr off ∨ (s.port p).winAddr off + b.length ≤ a)) ∧
    (∃ (s : State) (t : State) (k : Nat) (g : Nat) (x : RGroup) (a : _), s.memOk = true ∧ ((s.die k).groups.find? (fun x => x.idx == g) = some x) ∧ (exec (.reduceGroupReset k g) s = .next t) ∧ (a < x.addr ∨ x.addr + x.bytes ≤ a)) ∧
    (∃ (s : State) (t : State) (k : Nat) (id : Nat) (tile : Nat) (x : StageEnt) (o : Obj) (d : TileDir) (a : _), s.memOk = true ∧ (((s.die k).stage.find? fun x => x.obj == id && x.tile == tile && x.asked) = some x) ∧ (s.obj id = some o) ∧ (o.dir[tile]? = some d) ∧ (exec (.stageCopyWrite k id tile) s = .next t) ∧ (a < x.addr ∨ x.addr + (up64 d.bytes + d.scaleBytes) ≤ a)) ∧
    (∃ (s : State) (t : State) (id : Nat) (tile : Nat) (o : Obj) (d : TileDir) (a : _), s.memOk = true ∧ (s.obj id = some o) ∧ (o.dir[tile]? = some d) ∧ (exec (.tileRepair id tile) s = .next t) ∧ ((∀ i, i < d.bytes → a ≠ o.addr (d.off + i))) ∧ ((∀ i, i < d.scaleBytes → a ≠ o.addr (d.scaleOff + i)))) ∧
    (∃ (s : State) (t : State) (k : Nat) (ad : Nat) (c : Nat) (e : Envelope) (b : List Byte) (a : _), s.memOk = true ∧ ((exec (.qrow k e ad c b) s = .next t ∨ exec (.kvrow k e ad c b) s = .next t)) ∧ (a < ad ∨ ad + b.length ≤ a)) ∧
    (∃ (s : State) (t : State) (k : Nat) (ad : Nat) (c : Nat) (e : Envelope) (b : List Byte) (a : _), s.memOk = true ∧ (exec (.returnMsg k e ad c b) s = .next t) ∧ (a < ad + 64 ∨ ad + 64 + b.length ≤ a)) ∧
    (∃ (s : State) (t : State) (k : Nat) (j : Nat) (r : Nat) (ad : Nat) (a : _), (s.issues k j = true) ∧ (ad + 256 ≤ storeBytes) ∧ (Memory.wf (s.core k j).store = true) ∧ (exec (.vectorInstruction k j (.store r ad)) s = .next t) ∧ (a < ad ∨ ad + 256 ≤ a)) :=
  ⟨⟨upBuf, _, .a, 64, [1, 2], 0x100000000042, ⟨by decide +kernel, ran (by decide +kernel), by decide +kernel⟩⟩,
   ⟨onDie upRun fun d => { d with groups := [group0] }, _, 7, 1, group0, 0x100000000040, ⟨by decide +kernel, by decide +kernel, ran (by decide +kernel), by decide +kernel⟩⟩,
   ⟨onDie (withObjs [tset .resident, stageObj]) fun d => { d with stage := [stage0] }, _, 7, 1, 0, stage0, tset .resident, dir0, 0, ⟨by decide +kernel, by decide +kernel, by decide +kernel, by decide +kernel, ran (by decide +kernel), by decide +kernel⟩⟩,
   ⟨withObj (tset .resident), _, 1, 1, tset .resident, dir0, 0, ⟨by decide +kernel, by decide +kernel, by decide +kernel, ran (by decide +kernel), by decide +kernel, by decide +kernel⟩⟩,
   ⟨runS step1 [], _, 7, 0x100000000000, 0, env0, [1], 0x100000000001, ⟨by decide +kernel, Or.inl (ran (by decide +kernel)), by decide +kernel⟩⟩,
   ⟨runS step1 [], _, 7, 0x100000000000, 0, env0, [1], 0x100000000041, ⟨by decide +kernel, ran (by decide +kernel), by decide +kernel⟩⟩,
   ⟨up, _, 7, 119, 63, storeBytes - 256, 0, ⟨by decide +kernel, by decide +kernel, by decide +kernel, ran (by decide +kernel), by decide +kernel⟩⟩⟩

end Sys2Proof.Tests
end

section
/-! Tile lists: the closing of a whole reduction group and the counters that a completion decrements (R127, R130, R136). -/

namespace Sys2Proof.Machine

open Sys2Proof

/-! ### Counters of a die -/

@[simp] theorem Die.ctr_modEntry (d : Die) (n : Nat) (f : Tile → Tile) (i : Nat) : (d.modEntry n f).ctr i = d.ctr i := rfl

/-- A counter reads the value last put there, zero included, which is held by the counter's absence. -/
@[simp] theorem Die.ctr_putCtr (d : Die) (i v : Nat) : (d.putCtr i v).ctr i = v := by
  have absent : (d.ctrs.filter fun (j, _, _) => j != i).find? (fun (j, _, _) => j == i) = none := by
    simp [List.find?_eq_none]
  by_cases hv : v = 0 <;> simp [Die.putCtr, Die.ctr, absent, hv]

/-! ### The closing of a group (R136) -/

@[simp] theorem Die.ctr_closeGroup (d : Die) (g i : Nat) : (d.closeGroup g).ctr i = d.ctr i := by
  unfold Die.closeGroup
  split
  · rfl
  · split <;> rfl

theorem Tile.not_member_iff {e : Tile} {g : Nat} : (!(e.reduce && e.group == g)) = true ↔ ¬ (e.reduce = true ∧ e.group = g) := by
  rw [Bool.not_eq_true', ← Bool.not_eq_true, Bool.and_eq_true, beq_iff_eq]

/-- When every member in the list is DONE, counting the DONE members counts all of them. -/
theorem Die.filter_done_members {d : Die} {g : Nat} (done : ∀ e ∈ d.tiles, e.reduce = true → e.group = g → e.state = .done) :
    (d.tiles.filter fun e => e.reduce && e.group == g && e.state == .done) = d.tiles.filter fun e => e.reduce && e.group == g := by
  apply List.filter_congr
  intro e he
  cases member : e.reduce && e.group == g with
  | false => rfl
  | true =>
    simp only [Bool.and_eq_true, beq_iff_eq] at member
    simp [done e he member.1 member.2]

/-- A whole group, unpoisoned, leaves the die with its members. -/
theorem Die.closeGroup_of_whole {d : Die} {g : Nat} {x : RGroup} (found : d.groups.find? (fun y => y.idx == g) = some x)
    (clean : x.poisoned = false) (done : ∀ e ∈ d.tiles, e.reduce = true → e.group = g → e.state = .done)
    (whole : (d.tiles.filter fun e => e.reduce && e.group == g).length = x.members) :
    d.closeGroup g =
      { d with tiles := d.tiles.filter (fun e => !(e.reduce && e.group == g)), groups := d.groups.filter fun y => y.idx != g } := by
  simp [Die.closeGroup, found, clean, Die.filter_done_members done, whole]

/-! ### Decrements (R127, R130) -/

/-- The decrement of a counter that stays above zero makes no tile READY: it changes that counter alone. -/
theorem State.decCtrs_above_zero {s : State} {k i v : Nat} (hk : k < s.dies.length) (h : (s.die k).ctr i = v + 2) :
    s.decCtrs k [i] = s.modDie k fun d => d.putCtr i (d.ctr i - 1) := by
  have one : s.decOne k i = s.modDie k fun d => d.putCtr i (d.ctr i - 1) := by simp [State.decOne, h]
  have left : ((s.decOne k i).die k).ctr i = v + 1 := by simp [one, State.die_modDie _ _ _ hk, h]
  calc s.decCtrs k [i]
      _ = s.decOne k i := by simp [State.decCtrs, left]
      _ = s.modDie k fun d => d.putCtr i (d.ctr i - 1) := one

/-- The completion of a group's member with SIG0 alone, in its three changes of the die: DONE, the counter, the group. -/
theorem State.completeEntry_of_member {s : State} {k n : Nat} {e : Tile} (f : BitVec 5) (entry : (s.die k).entry n = some e)
    (member : e.reduce = true) (sig0 : e.sig0En = true) (sig1 : e.sig1En = false) :
    s.completeEntry k n f =
      ((((s.modStepAt e.slot fun t => { t with flags := t.flags ||| f }).modDie k fun d =>
        d.modEntry n fun e => { e with state := .done, status := 0, flags := f }).decCtrs k [e.sig0]).modDie k fun d =>
          d.closeGroup e.group) := by
  simp [State.completeEntry, entry, member, sig0, sig1]

/-- A member's SIG0 counter above one is decremented by one in the member's own completion. -/
theorem State.completeEntry_decrements_sig0 {s : State} {k n v : Nat} {e : Tile} (f : BitVec 5) (hk : k < s.dies.length)
    (entry : (s.die k).entry n = some e) (member : e.reduce = true) (sig0 : e.sig0En = true) (sig1 : e.sig1En = false)
    (ctr : (s.die k).ctr e.sig0 = v + 2) : ((s.completeEntry k n f).die k).ctr e.sig0 = v + 1 := by
  rw [State.completeEntry_of_member f entry member sig0 sig1]
  have done (g : Step → Step) (h : Tile → Tile) : (((s.modStepAt e.slot g).modDie k (·.modEntry n h)).die k).ctr e.sig0 = v + 2 := by
    rw [State.die_modDie (s.modStepAt e.slot g) k _ hk]
    exact ctr
  rw [State.decCtrs_above_zero (by simpa using hk) (done _ _)]
  simp [State.die_modDie, hk, done]

/-- Settles O58: a whole group is filtered out of both lists, and a member's completion decrements its counter before it looks at the group. -/
theorem aWholeGroupCloses : Obligations.AWholeGroupCloses := by
  unfold Obligations.AWholeGroupCloses
  refine ⟨?closes, ?decrements⟩
  case closes =>
    intro d g x found clean done whole
    rw [Die.closeGroup_of_whole found clean done whole]
    refine ⟨?members, ?group, ?others⟩
    case members => exact fun e he => Tile.not_member_iff.mp (List.mem_filter.mp he).2
    case group => exact fun y hy => bne_iff_ne.mp (List.mem_filter.mp hy).2
    case others => exact fun e he other => List.mem_filter.mpr ⟨he, Tile.not_member_iff.mpr other⟩
  case decrements =>
    intro s k n v e f hk entry member sig0 sig1 ctr
    exact State.completeEntry_decrements_sig0 f hk entry member sig0 sig1 ctr

end Sys2Proof.Machine
end

section
/-! The flash tier: what counting a read against a NAND block makes of the block's history (R311, R313). -/

namespace Sys2Proof.Machine

open Sys2Proof

/-! ### A block's history after a read -/

/-- A read of `n` pages that needed `corrected` corrected bits, as FLASH_SCRUB_PASS and a read of the log count it. -/
def NBlock.afterRead (n corrected : Nat) (k : NBlock) : NBlock :=
  { k with reads := k.reads + n, due := k.due || decide (8 ≤ corrected) }

@[simp] theorem NBlock.die_judge (k : NBlock) : k.judge.die = k.die := rfl

@[simp] theorem NBlock.block_judge (k : NBlock) : k.judge.block = k.block := rfl

@[simp] theorem NBlock.die_afterRead (n c : Nat) (k : NBlock) : (k.afterRead n c).die = k.die := rfl

@[simp] theorem NBlock.block_afterRead (n c : Nat) (k : NBlock) : (k.afterRead n c).block = k.block := rfl

/-- Judging a block by its counts never takes back that it is due. -/
theorem NBlock.due_judge {k : NBlock} (h : k.due = true) : k.judge.due = true := by
  simp [NBlock.judge, h]

theorem NBlock.due_afterRead {n c : Nat} (k : NBlock) (h : 8 ≤ c) : (k.afterRead n c).due = true := by
  simp [NBlock.afterRead, h]

/-! ### The list of blocks after a change of one block -/

theorem nandBlock_iff {d b : Nat} : nandBlock d b = true ↔ d < 128 ∧ b < 4096 := by
  simp [nandBlock]

/-- A block at the place of the change is an image of that change. -/
theorem State.eq_of_mem_modBlock {s : State} {d b : Nat} {f : NBlock → NBlock} {k : NBlock}
    (mem : k ∈ (s.modBlock d b f).flash.blocks) (die : k.die = d) (block : k.block = b) : ∃ j, k = f j := by
  obtain ⟨j, -, rfl⟩ := List.mem_map.mp mem
  split at die
  next here => exact ⟨j, if_pos here⟩
  next elsewhere =>
    rw [if_neg elsewhere] at block
    simp [die, block] at elsewhere

/-- The place of the change is listed afterwards, whether it was listed before or not, when the change moves no block. -/
theorem State.exists_mem_modBlock (s : State) (d b : Nat) {f : NBlock → NBlock} (die : ∀ k, (f k).die = k.die)
    (block : ∀ k, (f k).block = k.block) : ∃ k ∈ (s.modBlock d b f).flash.blocks, k.die = d ∧ k.block = b := by
  have listed : ∃ k ∈ (if s.flash.blocks.any fun k => k.die == d && k.block == b then s.flash.blocks
      else s.flash.blocks ++ [block0 d b]), k.die = d ∧ k.block = b := by
    split
    next known => simpa using known
    next => exact ⟨block0 d b, by simp, rfl, rfl⟩
  obtain ⟨k, mem, hd, hb⟩ := listed
  exact ⟨f k, List.mem_map.mpr ⟨k, mem, by simp [hd, hb]⟩, by rw [die, hd], by rw [block, hb]⟩

/-- Counting against a block of the module changes that block and judges it; the event `REFRESH_LATE` leaves the list alone. -/
theorem State.blocks_countBlock (s : State) {d b : Nat} (f : NBlock → NBlock) (h : nandBlock d b = true) :
    (s.countBlock d b f).flash.blocks = (s.modBlock d b fun k => (f k).judge).flash.blocks := by
  simp [State.countBlock, h]

/-! ### A read counted (R311, R313) -/

theorem State.exists_mem_countRead (s : State) {d b : Nat} (n c : Nat) (h : nandBlock d b = true) :
    ∃ k ∈ (s.countBlock d b (NBlock.afterRead n c)).flash.blocks, k.die = d ∧ k.block = b := by
  rw [State.blocks_countBlock s _ h]
  exact State.exists_mem_modBlock s d b (by simp) (by simp)

/-- R313: eight corrected bits make the block due, whatever its counts. -/
theorem State.due_of_mem_countRead {s : State} {d b n c : Nat} {k : NBlock} (h : nandBlock d b = true) (eight : 8 ≤ c)
    (mem : k ∈ (s.countBlock d b (NBlock.afterRead n c)).flash.blocks) (die : k.die = d) (block : k.block = b) : k.due = true := by
  rw [State.blocks_countBlock s _ h] at mem
  obtain ⟨j, rfl⟩ := State.eq_of_mem_modBlock mem die block
  exact NBlock.due_judge (NBlock.due_afterRead j eight)

/-- FLASH_SCRUB_PASS counts one read and takes the block off the list of the scrub after boot. -/
theorem exec_flashScrubPass (d b n : Nat) (s : State) : exec (.flashScrubPass d b n) s =
    .next ((s.countBlock d b (NBlock.afterRead 1 n)).modFlash fun f => { f with scrub := f.scrub.filter fun x => x != (d, b) }) := rfl

/-- A read of the log counts with the number of corrected bits that it draws; the suspend of a demand read leaves the list of blocks alone. -/
theorem State.blocks_readNand (s : State) (demand : Bool) (n : Nat) (p : NPlace) : (s.readNand demand n p).flash.blocks =
    (s.draw.2.countBlock p.die p.block (NBlock.afterRead n (Config.freeNat s.fresh % 256))).flash.blocks := by
  cases demand <;> rfl

/-- Settles O56: both reads count through `NBlock.afterRead`, which marks the block due at eight corrected bits; judging and suspending keep the
mark. The number of corrected bits of a read of the log is a free value (log entry 62). -/
theorem eightCorrectedBitsMakeABlockDue : Obligations.EightCorrectedBitsMakeABlockDue := by
  unfold Obligations.EightCorrectedBitsMakeABlockDue
  refine ⟨?scrub, ?log⟩
  case scrub =>
    intro s d b n hd hb eight
    have h : nandBlock d b = true := nandBlock_iff.mpr ⟨hd, hb⟩
    exact ⟨_, exec_flashScrubPass d b n s, State.exists_mem_countRead s 1 n h, fun k => State.due_of_mem_countRead h eight⟩
  case log =>
    intro s demand n p hd hb
    have h : nandBlock p.die p.block = true := nandBlock_iff.mpr ⟨hd, hb⟩
    refine ⟨_, rfl, ?_⟩
    rw [State.blocks_readNand]
    refine ⟨State.exists_mem_countRead _ _ _ h, fun k mem die block => ?_⟩
    rcases Nat.lt_or_ge (Config.freeNat s.fresh % 256) 8 with few | eight
    · exact Or.inr few
    · exact Or.inl (State.due_of_mem_countRead h eight mem die block)

end Sys2Proof.Machine
end

section
/-! The Still: what a trigger, a capture and REARM make of the snapshot registers and the image (R448, R449, R451, R452). -/

namespace Sys2Proof.Machine

open Sys2Proof

/-! ### Captures and triggers -/

/-- The snapshot after a capture: one image, disarmed and valid, under the next `CAPNO` (R448, R449). -/
def Snap.captured (n : Snap) (src : Nat) (fclass : BitVec 7) (origin now : Nat) (image : List (Nat × W32)) : Snap :=
  { n with
    armed := false, valid := true, src := BitVec.ofNat 4 (2 ^ src), fclass := fclass, origin := origin,
    capNo := (n.capNo + 1) % 2 ^ 32, time := now, image := image, stillOutLow := true }

@[simp] theorem State.capture_snap (s : State) (src : Nat) (fclass : BitVec 7) (origin : Nat) :
    (s.capture src fclass origin).snap = s.snap.captured src fclass origin s.now s.stillImage := rfl

/-- Still tokens leave as packets; the sender's own snapshot stays (R452). -/
@[simp] theorem State.sendStill_snap (s : State) (origin capNo : Nat) : (s.sendStill origin capNo).snap = s.snap := by
  unfold State.sendStill
  refine List.foldlRecOn (motive := fun t : State => t.snap = s.snap) _ _ rfl fun t kept h _ => ?_
  split
  · rw [State.emits_snap, kept]
  · exact kept

theorem State.trigger_snap_of_disarmed {s : State} (src : Nat) (fclass : BitVec 7) (disarmed : s.snap.armed = false) :
    (s.trigger src fclass).snap = { s.snap with missed := satAdd 16 s.snap.missed 1 } := by
  simp [State.trigger, disarmed]

/-- An armed trigger is a capture of the module's own; with `PROP` the pair that its tokens carry is kept besides (R452). -/
theorem State.trigger_snap_of_armed {s : State} (src : Nat) (fclass : BitVec 7) (armed : s.snap.armed = true) :
    ∃ pairs, (s.trigger src fclass).snap = { s.snap.captured src fclass s.coord.coord s.now s.stillImage with pairs := pairs } := by
  unfold State.trigger
  rw [if_pos armed]
  dsimp only
  split
  · exact ⟨_, by rw [State.sendStill_snap, State.modSnap_snap, State.capture_snap]⟩
  · exact ⟨_, State.capture_snap s src fclass s.coord.coord⟩

/-- Two captures in a row have different numbers, the wrap included. -/
theorem capNo_succ_ne (n : Nat) : (n + 1) % 2 ^ 32 ≠ n := by omega

/-! ### REARM -/

theorem exec_snapRearm {s : State} {m : Master} (reaches : s.reaches m = true) : exec (.snapRearm m) s = .next s.rearm :=
  congrArg Host.Outcome.next (if_pos reaches)

/-- Settles O57: a trigger is a capture or a miss by ARMED alone, the tokens it sends leave the snapshot as it is, and `CAPNO` counts modulo
2^32, where no value is its own successor. -/
theorem capturesOnlyWhileArmed : Obligations.CapturesOnlyWhileArmed := by
  unfold Obligations.CapturesOnlyWhileArmed
  refine ⟨?disarmed, ?rearm, ?armed⟩
  case disarmed =>
    intro s src cls disarmed
    exact State.trigger_snap_of_disarmed src cls disarmed
  case rearm =>
    intro s m reaches
    exact ⟨s.rearm, exec_snapRearm reaches, State.modSnap_snap s _⟩
  case armed =>
    intro s src cls armed
    obtain ⟨pairs, snap⟩ := State.trigger_snap_of_armed src cls armed
    rw [snap]
    exact ⟨rfl, rfl, capNo_succ_ne s.snap.capNo, rfl, rfl⟩

end Sys2Proof.Machine
end

section
/-! Key slots: which write of a `REVOKE_*` bit burns its fuse, and what a revoked slot vouches for (R511, R515). -/

namespace Sys2Proof.Machine

open Sys2Proof

/-! ### Burning a fuse -/

/-- The measurement log takes an entry beside the fuses, which it leaves as they are. -/
@[simp] theorem State.measure_revoked (s : State) (kind detail : Nat) (digest : List Byte) :
    (s.measure kind detail digest).sec.revoked = s.sec.revoked := by
  simp [State.measure]

/-- The other slot of the same kind: 0 and 1 vouch for firmware, 2 and 3 for palettes. -/
def otherKeySlot (k : Nat) : Nat := if k % 2 = 0 then k + 1 else k - 1

/-- The module ignores a revocation of `k`: no such slot, burnt already, the last of its kind, or the running image's. -/
def Sec.ignoresRevoke (c : Sec) (k : Nat) : Prop :=
  3 < k ∨ c.revoked.getLsbD k ∨ c.revoked.getLsbD (otherKeySlot k) ∨ (k < 2 ∧ c.running.map (·.keySlot) = some k)

theorem State.keyRevoke_of_ignored {s : State} {k : Nat} (h : s.sec.ignoresRevoke k) : s.keyRevoke k = s := if_pos h

theorem State.keyRevoke_revoked_of_not_ignored {s : State} {k : Nat} (h : ¬ s.sec.ignoresRevoke k) :
    (s.keyRevoke k).sec.revoked = s.sec.revoked ||| 1 <<< k := by
  have burns : ∃ digest, s.keyRevoke k =
      ((s.modSec fun c => { c with revoked := c.revoked ||| 1 <<< k }).measure 7 k digest).raise .sec 4 := ⟨_, if_neg h⟩
  obtain ⟨digest, burns⟩ := burns
  simp [burns]

/-- Burning a bit that is burnt changes nothing. -/
theorem or_one_shiftLeft_of_getLsbD {w : Nat} {r : BitVec w} {k : Nat} (burnt : r.getLsbD k = true) : r ||| (1 <<< k : Nat) = r := by
  refine BitVec.eq_of_getLsbD_eq fun i hi => ?_
  rcases eq_or_ne k i with rfl | other
  · simp [burnt]
  · have clear : (BitVec.ofNat w (1 <<< k)).getLsbD i = false := by
      rw [BitVec.getLsbD_ofNat, Nat.one_shiftLeft, Nat.testBit_two_pow_of_ne other, Bool.and_false]
    simp [clear]

/-- The fuse reads burnt after the write when the slot is neither the last of its kind nor the running image's, a fuse burnt before included. -/
theorem State.keyRevoke_revoked {s : State} {k : Nat} (hk : k < 4) (other : s.sec.revoked.getLsbD (otherKeySlot k) = false)
    (idle : ¬ (k < 2 ∧ s.sec.running.map (·.keySlot) = some k)) : (s.keyRevoke k).sec.revoked = s.sec.revoked ||| 1 <<< k := by
  cases burnt : s.sec.revoked.getLsbD k with
  | true => rw [State.keyRevoke_of_ignored (Or.inr (Or.inl burnt)), or_one_shiftLeft_of_getLsbD burnt]
  | false =>
    refine State.keyRevoke_revoked_of_not_ignored fun ignored => ?_
    simp only [Sec.ignoresRevoke, burnt, other, Bool.false_eq_true, false_or] at ignored
    rcases ignored with outside | running
    · omega
    · exact idle running

/-! ### KEY_REVOKE -/

theorem exec_keyRevoke {s : State} {m : Master} (k : Nat) (reaches : s.reaches m = true) (priv : masterPriv m = true) :
    exec (.keyRevoke m k) s = .next (s.keyRevoke k) :=
  congrArg Host.Outcome.next (if_pos (by rw [priv, reaches]; rfl))

theorem exec_keyRevoke_of_unprivileged (s : State) {m : Master} (k : Nat) (unpriv : masterPriv m = false) :
    exec (.keyRevoke m k) s = .next s :=
  congrArg Host.Outcome.next (if_neg (by simp [unpriv]))

/-- An ignored revocation leaves the state as it is, whether or not the master reaches the register with privilege. -/
theorem exec_keyRevoke_of_ignored {s : State} (m : Master) {k : Nat} (h : s.sec.ignoresRevoke k) :
    exec (.keyRevoke m k) s = .next s :=
  congrArg Host.Outcome.next (by rw [State.keyRevoke_of_ignored h, ite_self])

/-! ### Verification under a revoked slot -/

theorem Sec.keyOk_of_revoked {c : Sec} {x : FwImage} (revoked : c.revoked.getLsbD x.keySlot = true) : c.keyOk x = false := by
  simp [Sec.keyOk, revoked]

theorem Sec.verifies_of_revoked {c : Sec} {x : FwImage} (revoked : c.revoked.getLsbD x.keySlot = true) : c.verifies x = false := by
  simp [Sec.verifies, Sec.keyOk_of_revoked revoked]

/-- Settles O59: a write that is not ignored burns the fuse, and one of a burnt fuse leaves it burnt; the running image's slot and the last of a
kind are among the ignored ones; an image's check asks first that its slot is not revoked. -/
theorem revocationOfKeys : Obligations.RevocationOfKeys := by
  unfold Obligations.RevocationOfKeys
  refine ⟨?burns, ?running, ?last, ?unprivileged, ?revoked⟩
  case burns =>
    intro s m k reaches priv hk other idle
    exact ⟨s.keyRevoke k, exec_keyRevoke k reaches priv, State.keyRevoke_revoked hk other idle⟩
  case running =>
    intro s m k firmware running
    exact exec_keyRevoke_of_ignored m (Or.inr (Or.inr (Or.inr ⟨firmware, running⟩)))
  case last =>
    intro s m k _ other
    exact exec_keyRevoke_of_ignored m (Or.inr (Or.inr (Or.inl other)))
  case unprivileged =>
    intro s m k unpriv
    exact exec_keyRevoke_of_unprivileged s k unpriv
  case revoked =>
    intro c x revoked
    exact Sec.verifies_of_revoked revoked

end Sys2Proof.Machine
end

section
/-! What a frame says as an equation: a state that differs from `s` at most in the fields of a mask is `s` with those fields as they are there. -/

namespace Sys2Proof.Machine

open Sys2Proof

/-- `s` with the fields whose bits are in `w` as they are in `t`; the queue of waiting commands stays. -/
def State.taking (w : Nat) (s t : State) : State :=
  { pending := s.pending
    fresh := if 0x1 &&& w = 0x1 then t.fresh else s.fresh
    now := if 0x2 &&& w = 0x2 then t.now else s.now
    mem := if 0x4 &&& w = 0x4 then t.mem else s.mem
    hostA := if 0x8 &&& w = 0x8 then t.hostA else s.hostA
    hostB := if 0x10 &&& w = 0x10 then t.hostB else s.hostB
    pa := if 0x20 &&& w = 0x20 then t.pa else s.pa
    pb := if 0x40 &&& w = 0x40 then t.pb else s.pb
    cmds := if 0x80 &&& w = 0x80 then t.cmds else s.cmds
    cmdNo := if 0x100 &&& w = 0x100 then t.cmdNo else s.cmdNo
    lastFetch := if 0x200 &&& w = 0x200 then t.lastFetch else s.lastFetch
    msPortA := if 0x400 &&& w = 0x400 then t.msPortA else s.msPortA
    msPortB := if 0x800 &&& w = 0x800 then t.msPortB else s.msPortB
    msSide := if 0x1000 &&& w = 0x1000 then t.msSide else s.msSide
    msEasel := if 0x2000 &&& w = 0x2000 then t.msEasel else s.msEasel
    accs := if 0x4000 &&& w = 0x4000 then t.accs else s.accs
    accNo := if 0x8000 &&& w = 0x8000 then t.accNo else s.accNo
    sq := if 0x10000 &&& w = 0x10000 then t.sq else s.sq
    seqMiss := if 0x20000 &&& w = 0x20000 then t.seqMiss else s.seqMiss
    lkIgnore := if 0x40000 &&& w = 0x40000 then t.lkIgnore else s.lkIgnore
    regFix := if 0x80000 &&& w = 0x80000 then t.regFix else s.regFix
    upsets := if 0x100000 &&& w = 0x100000 then t.upsets else s.upsets
    objs := if 0x200000 &&& w = 0x200000 then t.objs else s.objs
    sysExts := if 0x400000 &&& w = 0x400000 then t.sysExts else s.sysExts
    pfEnts := if 0x800000 &&& w = 0x800000 then t.pfEnts else s.pfEnts
    pfNo := if 0x1000000 &&& w = 0x1000000 then t.pfNo else s.pfNo
    seqs := if 0x2000000 &&& w = 0x2000000 then t.seqs else s.seqs
    commitNo := if 0x4000000 &&& w = 0x4000000 then t.commitNo else s.commitNo
    commitC := if 0x8000000 &&& w = 0x8000000 then t.commitC else s.commitC
    applying := if 0x10000000 &&& w = 0x10000000 then t.applying else s.applying
    spillPool := if 0x20000000 &&& w = 0x20000000 then t.spillPool else s.spillPool
    models := if 0x40000000 &&& w = 0x40000000 then t.models else s.models
    slices := if 0x80000000 &&& w = 0x80000000 then t.slices else s.slices
    steps := if 0x100000000 &&& w = 0x100000000 then t.steps else s.steps
    mst := if 0x200000000 &&& w = 0x200000000 then t.mst else s.mst
    joinQ := if 0x400000000 &&& w = 0x400000000 then t.joinQ else s.joinQ
    tenQ := if 0x800000000 &&& w = 0x800000000 then t.tenQ else s.tenQ
    tenC := if 0x1000000000 &&& w = 0x1000000000 then t.tenC else s.tenC
    curTenant := if 0x2000000000 &&& w = 0x2000000000 then t.curTenant else s.curTenant
    lastTenant := if 0x4000000000 &&& w = 0x4000000000 then t.lastTenant else s.lastTenant
    turnStart := if 0x8000000000 &&& w = 0x8000000000 then t.turnStart else s.turnStart
    turnEnd := if 0x10000000000 &&& w = 0x10000000000 then t.turnEnd else s.turnEnd
    turnSteps := if 0x20000000000 &&& w = 0x20000000000 then t.turnSteps else s.turnSteps
    dies := if 0x40000000000 &&& w = 0x40000000000 then t.dies else s.dies
    d2d := if 0x80000000000 &&& w = 0x80000000000 then t.d2d else s.d2d
    noc := if 0x100000000000 &&& w = 0x100000000000 then t.noc else s.noc
    pals := if 0x200000000000 &&& w = 0x200000000000 then t.pals else s.pals
    chans := if 0x400000000000 &&& w = 0x400000000000 then t.chans else s.chans
    grps := if 0x800000000000 &&& w = 0x800000000000 then t.grps else s.grps
    flash := if 0x1000000000000 &&& w = 0x1000000000000 then t.flash else s.flash
    links := if 0x2000000000000 &&& w = 0x2000000000000 then t.links else s.links
    bundleW := if 0x4000000000000 &&& w = 0x4000000000000 then t.bundleW else s.bundleW
    router := if 0x8000000000000 &&& w = 0x8000000000000 then t.router else s.router
    coord := if 0x10000000000000 &&& w = 0x10000000000000 then t.coord else s.coord
    power := if 0x20000000000000 &&& w = 0x20000000000000 then t.power else s.power
    mon := if 0x40000000000000 &&& w = 0x40000000000000 then t.mon else s.mon
    health := if 0x80000000000000 &&& w = 0x80000000000000 then t.health else s.health
    nor := if 0x100000000000000 &&& w = 0x100000000000000 then t.nor else s.nor
    clk := if 0x200000000000000 &&& w = 0x200000000000000 then t.clk else s.clk
    sec := if 0x400000000000000 &&& w = 0x400000000000000 then t.sec else s.sec
    snap := if 0x800000000000000 &&& w = 0x800000000000000 then t.snap else s.snap
    side := if 0x1000000000000000 &&& w = 0x1000000000000000 then t.side else s.side
    tx := if 0x2000000000000000 &&& w = 0x2000000000000000 then t.tx else s.tx
  }

/-- A field that stays unless its bit is in the mask. -/
theorem eq_pick_of_sub {α : Type} {a w : Nat} {x y : α} (h : Sub a w ∨ x = y) : x = if a &&& w = a then x else y := by
  rcases h with h | rfl
  · exact (if_pos h).symm
  · exact (ite_self _).symm

theorem Frame.eq_taking {w : Nat} {s t : State} (h : Frame w s t) : t = s.taking w t :=
  (State.mk.injEq ..).mpr ⟨h.pending, eq_pick_of_sub h.fresh, eq_pick_of_sub h.now, eq_pick_of_sub h.mem, eq_pick_of_sub h.hostA, eq_pick_of_sub h.hostB,
    eq_pick_of_sub h.pa, eq_pick_of_sub h.pb, eq_pick_of_sub h.cmds, eq_pick_of_sub h.cmdNo, eq_pick_of_sub h.lastFetch,
    eq_pick_of_sub h.msPortA, eq_pick_of_sub h.msPortB, eq_pick_of_sub h.msSide, eq_pick_of_sub h.msEasel, eq_pick_of_sub h.accs,
    eq_pick_of_sub h.accNo, eq_pick_of_sub h.sq, eq_pick_of_sub h.seqMiss, eq_pick_of_sub h.lkIgnore, eq_pick_of_sub h.regFix,
    eq_pick_of_sub h.upsets, eq_pick_of_sub h.objs, eq_pick_of_sub h.sysExts, eq_pick_of_sub h.pfEnts, eq_pick_of_sub h.pfNo,
    eq_pick_of_sub h.seqs, eq_pick_of_sub h.commitNo, eq_pick_of_sub h.commitC, eq_pick_of_sub h.applying,
    eq_pick_of_sub h.spillPool, eq_pick_of_sub h.models, eq_pick_of_sub h.slices, eq_pick_of_sub h.steps, eq_pick_of_sub h.mst,
    eq_pick_of_sub h.joinQ, eq_pick_of_sub h.tenQ, eq_pick_of_sub h.tenC, eq_pick_of_sub h.curTenant, eq_pick_of_sub h.lastTenant,
    eq_pick_of_sub h.turnStart, eq_pick_of_sub h.turnEnd, eq_pick_of_sub h.turnSteps, eq_pick_of_sub h.dies, eq_pick_of_sub h.d2d,
    eq_pick_of_sub h.noc, eq_pick_of_sub h.pals, eq_pick_of_sub h.chans, eq_pick_of_sub h.grps, eq_pick_of_sub h.flash,
    eq_pick_of_sub h.links, eq_pick_of_sub h.bundleW, eq_pick_of_sub h.router, eq_pick_of_sub h.coord, eq_pick_of_sub h.power,
    eq_pick_of_sub h.mon, eq_pick_of_sub h.health, eq_pick_of_sub h.nor, eq_pick_of_sub h.clk, eq_pick_of_sub h.sec,
    eq_pick_of_sub h.snap, eq_pick_of_sub h.side, eq_pick_of_sub h.tx⟩

/-- What a command answers, as an equation. -/
theorem FrameO.eq_taking {w : Nat} {s t : State} {o : Host.Outcome State Fault Refusal} (h : FrameO w s o) (e : o = .next t) : t = s.taking w t :=
  (h.of_next t e).eq_taking


/-! ### Steps -/

/-- A step's frame, whether it runs a command or counts a SLOW cycle: it stands beside the state whose queue has lost the command. -/
theorem exists_frame_of_step {s t : State} (h : step s = .next t) : ∃ q, Frame 0x3fffffffffffffff { s with pending := q } t := by
  unfold step at h
  split at h
  next empty => exact ⟨s.pending, (idle_next_frame s t h).weaken (Sub.mk (by decide))⟩
  next c rest _ => exact ⟨rest, exec_next_frame c _ t h⟩

theorem State.memOk_iff {s : State} : s.memOk = true ↔ Memory.wf s.mem = true ∧ Memory.wf s.hostA = true ∧ Memory.wf s.hostB = true := by
  simp [State.memOk, and_assoc]

/-- Settles O51: every operation that writes a memory keeps its canonical form, and a step's frame collects what they keep. -/
theorem everyStepKeepsMemoryCanonical : Obligations.EveryStepKeepsMemoryCanonical := by
  intro s t ok h
  obtain ⟨q, frame⟩ := exists_frame_of_step h
  obtain ⟨mem, hostA, hostB⟩ := State.memOk_iff.mp ok
  exact State.memOk_iff.mpr ⟨frame.okMem mem, frame.okA hostA, frame.okB hostB⟩

/-- Settles O52: the shape is part of every operation's frame, since each changes lists of parts in place. -/
theorem everyStepKeepsTheParts : Obligations.EveryStepKeepsTheParts := by
  intro s t ok h
  obtain ⟨q, frame⟩ := exists_frame_of_step h
  exact frame.okShape ok

/-- Settles O53: what every operation keeps of the fuses (`SecKeep`) is part of its frame. -/
theorem fusesOnlyBurn : Obligations.FusesOnlyBurn := by
  intro s t h
  obtain ⟨q, frame⟩ := exists_frame_of_step h
  obtain ⟨fixed, svn, rev, keys⟩ := frame.okSec
  exact ⟨fixed, svn, rev, keys⟩

/-- Each meaning ends in a next state on all its branches; most have the one. -/
theorem exists_next_of_exec (c : Instr) (s : State) : ∃ t, exec c s = .next t := by
  cases c
  case pageShareAct | fencedCommandExecute | coalTimerExpire | generationApply | pwWrite | pwWriteLand | registerWrite | bar4Read | bar4Write |
    pcieLinkUp | ideFail | ideKeyProgram | appendStallResume | moeCtxDeferredOpen | sendMessage | claimGrant | nopTileComplete | abandonConfirm |
    coreLost | seqWatchdog | dmaComplete | paletteSlotLoadDone | coreStoreEccError | unpackError | unpackRereadDone | nextRound | tailCopyDone |
    spillStart | spillWriteDone | pageReturnStart | pageReturnDone | departWriteoutDone | departRelease | flashCopyDurable | stageCopyWrite |
    coldTileLand | tileRepair | memReadUncorrectable | patrolScrubMismatch | nandProgramFail | nandRebuildDone | relocationDone | nandOvertemp |
    nandTempOk | linkTrainDone | identReceived | miswireRecheck | dataFlitReceived | laneFault | twinTileRequest | stillToken | d2dCrcError |
    nodCrcError | diePoolUncorrectable | healthMessage | healthAck | recoveryImageMessage | sidebandAttestRequest | millpondTick | phaseFail |
    railShort | thermalSample | thermtrip | coolantEstimate | pllUnlock | moduleResetEnd | bootStageDone | memoryTrainingDone | ftlReady |
    configurationRequest | refClockReturn | quotaReturn | noSourceAnswer | reportSigned | updateDone =>
    simp only [exec, execPageShareAct, execFencedCommandExecute, execCoalTimerExpire, execGenerationApply, execPwWrite, execPwWriteLand, execRegisterWrite,
      execBar4Read, execBar4Write, execPcieLinkUp, execIdeFail, execIdeKeyProgram, execAppendStallResume, execMoeCtxDeferredOpen,
      execSendMessage, execClaimGrant, execNopTileComplete, execAbandonConfirm, execCoreLost, execSeqWatchdog, execDmaComplete,
      execPaletteSlotLoadDone, execCoreStoreEccError, execUnpackError, execUnpackRereadDone, execNextRound, execTailCopyDone, execSpillStart,
      execSpillWriteDone, execPageReturnStart, execPageReturnDone, execDepartWriteoutDone, execDepartRelease, execFlashCopyDurable,
      execStageCopyWrite, execColdTileLand, execTileRepair, execMemReadUncorrectable, execPatrolScrubMismatch, execNandProgramFail,
      execNandRebuildDone, execRelocationDone, execNandOvertemp, execNandTempOk, execLinkTrainDone, execIdentReceived, execMiswireRecheck,
      execDataFlitReceived, execLaneFault, execTwinTileRequest, execStillToken, execD2dCrcError, execNodCrcError, execDiePoolUncorrectable,
      execHealthMessage, execHealthAck, execRecoveryImageMessage, execSidebandAttestRequest, execMillpondTick, execPhaseFail, execRailShort,
      execThermalSample, execThermtrip, execCoolantEstimate, execPllUnlock, execModuleResetEnd, execBootStageDone, execMemoryTrainingDone,
      execFtlReady, execConfigurationRequest, execRefClockReturn, execQuotaReturn, execNoSourceAnswer, execReportSigned, execUpdateDone]
    repeat' split
    all_goals exact ⟨_, rfl⟩
  all_goals exact ⟨_, rfl⟩

/-- Settles O54: no arm of the dispatch faults or refuses, and the queue is outside every operation's frame. -/
theorem everyCommandGoesOn : Obligations.EveryCommandGoesOn := by
  intro c s
  obtain ⟨t, h⟩ := exists_next_of_exec c s
  exact ⟨t, h, (exec_next_frame c s t h).pending⟩

/-- Settles O46: a step takes the front command off the queue and runs it. -/
theorem stepRunsTheFrontCommand : Obligations.StepRunsTheFrontCommand := by
  intro s c rest
  rfl

/-- Settles O47: an empty queue is the idle tick, which looks at the module reset. -/
theorem emptyQueueCountsOneTick : Obligations.EmptyQueueCountsOneTick := by
  have idle {s : State} (empty : s.pending = []) : step s = idleTick s := by
    simp [step, empty]
  refine ⟨?outside, ?inside⟩
  case outside =>
    intro s empty up
    simp [idle empty, idleTick, up]
  case inside =>
    intro s empty inReset
    simp [idle empty, idleTick, inReset]

/-- Settles O48: the table gives no row any bits, so no word is looked at. -/
theorem tableWordsSpellNothing : Obligations.TableWordsSpellNothing := by
  intro s n w
  exact ⟨rfl, rfl⟩

/-! ### Reset -/

theorem State.dies_reset : State.reset.dies = List.replicate 8 State.die0 := rfl

theorem State.links_reset : State.reset.links = (List.range 30).map State.link0 := rfl

theorem State.grps_reset :
    State.reset.grps = List.replicate 16 { protGib := 8, recon := false, lost := false, outOfService := false, parityErr := 0 } := rfl

theorem State.link_reset {i : Nat} (h : i < 30) : State.reset.link i = State.link0 i := by
  simp [State.link, State.links_reset, h]

theorem State.protGib_grp_reset {g : Nat} (h : g < 16) : (State.reset.grp g).protGib = 8 := by
  simp [State.grp, State.grps_reset, h, -List.reduceReplicate]

theorem State.core_reset {k j : Nat} (hk : k < 8) (hj : j < 120) : State.reset.core k j = State.core0 := by
  simp [State.core, State.die, State.dies_reset, State.die0, hk, hj, -List.reduceReplicate]

/-- Settles O50: nothing is written, every part is listed and no key slot is revoked. -/
theorem resetMeetsTheInvariants : Obligations.ResetMeetsTheInvariants := by
  refine ⟨?mem, ?shape, ?keys⟩
  case mem => rfl
  case shape => rw [State.shapeOk, State.dies_reset, State.grps_reset, State.links_reset]; simp [State.reset, -List.reduceReplicate]
  case keys => decide

/-- Settles O49: the values stand in `State.reset`, the same for every port, link, group and core. -/
theorem resetValues : Obligations.ResetValues := by
  have ports : ∀ p, State.reset.down p = true ∧ (State.reset.port p).nextCseq = 1 ∧ (State.reset.port p).ring = none ∧ (State.reset.port p).bar4Log2 = 34 := by
    intro p
    cases p <;> exact ⟨rfl, rfl, rfl, rfl⟩
  have links : ∀ i, i < 30 → (State.reset.link i).state = .waitCoord ∧ (State.reset.link i).en = true := by
    intro i hi
    rw [State.link_reset hi]
    exact ⟨rfl, rfl⟩
  have cores : ∀ k j, k < 8 → j < 120 → (State.reset.core k j).mask = 1 := by
    intro k j hk hj
    rw [State.core_reset hk hj, State.core0]
  unfold Obligations.ResetValues
  exact ⟨rfl, rfl, rfl, rfl, rfl, rfl, rfl, rfl, rfl, rfl, rfl, rfl, rfl, rfl, rfl, rfl, rfl, rfl, ports, links, fun _ => State.protGib_grp_reset, cores, rfl, rfl, rfl, rfl, rfl⟩

end Sys2Proof.Machine
end

section
/-! Frames of register accesses: beside the fields that an access may change (`Frame`), what it leaves of the masters, links and fuses. -/

namespace Sys2Proof.Machine

open Sys2Proof

theorem eq_of_exec {i : Instr} {s t u : State} (h : exec i s = .next t) (hu : exec i s = .next u) : t = u :=
  Host.Outcome.next.inj (h.symm.trans hu)

theorem State.master_modMaster_ne (s : State) {m n : Master} (f : MasterSt → MasterSt) (h : n ≠ m) : (s.modMaster m f).master n = s.master n := by
  cases m <;> cases n <;> first | rfl | exact absurd rfl h

theorem State.port_modPort_ne (s : State) {p q : Port} (f : PortSt → PortSt) (h : q ≠ p) : (s.modPort p f).port q = s.port q := by
  cases p <;> cases q <;> first | rfl | exact absurd rfl h

/-! ### Security registers -/

/-- The measurement log with one entry more: dropped and counted when the log is full, extended into the aggregate all the same (R518). -/
def Sec.logged (c : Sec) (e : LogEnt) : Sec :=
  { c with
    log := if decide (4096 ≤ c.log.length) then c.log else c.log ++ [e], logCount := c.logCount + 1,
    logLost := if decide (4096 ≤ c.log.length) then satAdd 19 c.logLost 1 else c.logLost, aggregate := shake256 (c.aggregate ++ e.bytes) }

@[simp] theorem State.measure_sec (s : State) (kind detail : Nat) (digest : List Byte) : (s.measure kind detail digest).sec =
    s.sec.logged { index := s.sec.logCount, kind := kind, time := s.now, detail := detail, digest := digest } := by
  simp [State.measure, Sec.logged]

theorem State.svnCommit_sec (s : State) : s.svnCommit.sec = { s.sec with
    svn := s.svnCommit.sec.svn, log := s.svnCommit.sec.log, logCount := s.svnCommit.sec.logCount, logLost := s.svnCommit.sec.logLost,
    aggregate := s.svnCommit.sec.aggregate } := by
  unfold State.svnCommit
  split
  · split
    · rfl
    · simp only [State.raise_sec, State.measure_sec]
      rfl
  · rfl

theorem State.keyRevoke_sec (s : State) (k : Nat) : (s.keyRevoke k).sec = { s.sec with
    revoked := (s.keyRevoke k).sec.revoked, log := (s.keyRevoke k).sec.log, logCount := (s.keyRevoke k).sec.logCount,
    logLost := (s.keyRevoke k).sec.logLost, aggregate := (s.keyRevoke k).sec.aggregate } := by
  by_cases ignored : s.sec.ignoresRevoke k
  · rw [State.keyRevoke_of_ignored ignored]
  · have burns : ∃ digest, s.keyRevoke k =
        ((s.modSec fun c => { c with revoked := c.revoked ||| 1 <<< k }).measure 7 k digest).raise .sec 4 := ⟨_, if_neg ignored⟩
    obtain ⟨digest, burns⟩ := burns
    rw [burns, State.raise_sec, State.measure_sec]
    rfl

theorem State.alChange_sec (s : State) (man : Bool) (l : List (List Byte)) : (s.alChange man l).sec = { s.sec with
    palAl := (s.alChange man l).sec.palAl, manAl := (s.alChange man l).sec.manAl, log := (s.alChange man l).sec.log,
    logCount := (s.alChange man l).sec.logCount, logLost := (s.alChange man l).sec.logLost, aggregate := (s.alChange man l).sec.aggregate } := by
  cases man <;> (simp only [State.alChange, State.raise_sec, State.measure_sec]; rfl)

theorem State.alAdd_sec (s : State) (man : Bool) : (s.alAdd man).sec = { s.sec with
    palAl := (s.alAdd man).sec.palAl, manAl := (s.alAdd man).sec.manAl, full := (s.alAdd man).sec.full, log := (s.alAdd man).sec.log,
    logCount := (s.alAdd man).sec.logCount, logLost := (s.alAdd man).sec.logLost, aggregate := (s.alAdd man).sec.aggregate } := by
  unfold State.alAdd
  dsimp only
  split
  · rfl
  · rw [State.alChange_sec]
    rfl

theorem State.alRemove_sec (s : State) (man : Bool) : (s.alRemove man).sec = { s.sec with
    palAl := (s.alRemove man).sec.palAl, manAl := (s.alRemove man).sec.manAl, log := (s.alRemove man).sec.log,
    logCount := (s.alRemove man).sec.logCount, logLost := (s.alRemove man).sec.logLost, aggregate := (s.alRemove man).sec.aggregate } := by
  unfold State.alRemove
  dsimp only
  split
  · exact State.alChange_sec s man _
  · rfl

theorem State.alClear_sec (s : State) (man : Bool) : (s.alClear man).sec = { s.sec with
    palAl := (s.alClear man).sec.palAl, manAl := (s.alClear man).sec.manAl, log := (s.alClear man).sec.log,
    logCount := (s.alClear man).sec.logCount, logLost := (s.alClear man).sec.logLost, aggregate := (s.alClear man).sec.aggregate } := by
  unfold State.alClear
  split
  · rfl
  · exact State.alChange_sec s man _

/-! ### Locks -/

/-- LOCK sets the lock of a link that was open, and touches nothing else of the link. -/
theorem State.link_lock (s : State) (i n : Nat) :
    { (s.modLink i fun l => { l with lock := true }).link n with lock := (s.link n).lock } = s.link n := by
  rcases eq_or_ne i n with rfl | other
  · rcases Nat.lt_or_ge i s.links.length with inside | outside
    · rw [State.link_modLink s i _ inside]
    · rw [State.modLink, List.modify_eq_self outside]
  · rw [State.link_modLink_ne s i n _ other]

theorem State.lockSet_frame (s : State) (m : Master) (off : Nat) : (∀ n, { (s.lockSet m off).link n with lock := (s.link n).lock } = s.link n) ∧
    { (s.lockSet m off).coord with lock := s.coord.lock } = s.coord ∧ { (s.lockSet m off).sec with lock := s.sec.lock } = s.sec := by
  unfold State.lockSet
  dsimp only
  repeat' split
  all_goals first | exact ⟨fun _ => rfl, rfl, rfl⟩ | exact ⟨s.link_lock _, rfl, rfl⟩

/-- Settles O41: each access's frame, with what the change of one master, link or register leaves of the same part. -/
theorem registerFrame : Obligations.RegisterFrame := by
  unfold Obligations.RegisterFrame
  refine ⟨?accDrop, ?rearm, ?trig, ?alAdd, ?alRemove, ?alClear, ?keyRevoke, ?svnCommit, ?pwWrite, ?scrub, ?sqRead, ?sqClear, ?bfWrite, ?discard, ?go,
    ?timeLo, ?lock⟩
  case accDrop => exact fun _ _ m blk h => (execAccDropClear_fr m blk Frame.rfl Sub.rfl).eq_taking h
  case rearm => exact fun _ _ m h => (execSnapRearm_fr m Frame.rfl Sub.rfl).eq_taking h
  case trig => exact fun _ _ m h => (execSnapTrig_fr m Frame.rfl Sub.rfl).eq_taking h
  case alAdd =>
    intro s t m man h
    refine ⟨(execAllowlistAdd_fr m man Frame.rfl Sub.rfl).eq_taking h, ?_⟩
    rw [eq_of_exec h rfl]
    split
    · exact s.alAdd_sec man
    · rfl
  case alRemove =>
    intro s t m man h
    refine ⟨(execAllowlistRemove_fr m man Frame.rfl Sub.rfl).eq_taking h, ?_⟩
    rw [eq_of_exec h rfl]
    split
    · exact s.alRemove_sec man
    · rfl
  case alClear =>
    intro s t m man h
    refine ⟨(execAllowlistClear_fr m man Frame.rfl Sub.rfl).eq_taking h, ?_⟩
    rw [eq_of_exec h rfl]
    split
    · exact s.alClear_sec man
    · rfl
  case keyRevoke =>
    intro s t m k h
    refine ⟨(execKeyRevoke_fr m k Frame.rfl Sub.rfl).eq_taking h, ?_⟩
    rw [eq_of_exec h rfl]
    split
    · exact s.keyRevoke_sec k
    · rfl
  case svnCommit =>
    intro s t m h
    refine ⟨(execSvnCommit_fr m Frame.rfl Sub.rfl).eq_taking h, ?_⟩
    rw [eq_of_exec h rfl]
    split
    · exact s.svnCommit_sec
    · rfl
  case pwWrite => exact fun _ _ m off v h => (execPwWrite_fr m off v Frame.rfl Sub.rfl).eq_taking h
  case scrub => exact fun _ _ h => (execRegisterScrub_fr Frame.rfl Sub.rfl).eq_taking h
  case sqRead => exact fun _ _ m r h => (execSqEventRead_fr m r Frame.rfl Sub.rfl).eq_taking h
  case sqClear => exact fun _ _ m r v h => (execSqEventClear_fr m r v Frame.rfl Sub.rfl).eq_taking h
  case bfWrite =>
    intro s t m off v h
    refine ⟨(execBfWrite_fr m off v Frame.rfl Sub.rfl).eq_taking h, fun n other => ?_⟩
    rw [eq_of_exec h rfl]
    split
    · exact s.master_modMaster_ne _ other
    · rfl
  case discard =>
    intro s t m h
    refine ⟨(execCfgCommitDiscard_fr m Frame.rfl Sub.rfl).eq_taking h, fun n other => ?_⟩
    rw [eq_of_exec h rfl]
    split
    · exact s.master_modMaster_ne _ other
    · rfl
  case go => exact fun _ _ m h => (execCfgCommitGo_fr m Frame.rfl Sub.rfl).eq_taking h
  case timeLo =>
    intro s t m h
    refine ⟨(execTimeLoRead_fr m Frame.rfl Sub.rfl).eq_taking h, fun n other => ?_⟩
    rw [eq_of_exec h rfl]
    split
    · exact s.master_modMaster_ne _ other
    · rfl
  case lock =>
    intro s t m off h
    refine ⟨(execLockSet_fr m off Frame.rfl Sub.rfl).eq_taking h, ?_⟩
    rw [eq_of_exec h rfl]
    split
    · exact s.lockSet_frame m off
    · exact ⟨fun _ => rfl, rfl, rfl⟩

end Sys2Proof.Machine
end

section
/-! Frames of pin, port, flash, link, tile and page events: each event's `Frame`, and what an event of one part leaves of its likes. -/

namespace Sys2Proof.Machine

open Sys2Proof

/-- A change of one port leaves the other one. -/
theorem State.port_sqTail_ne (s : State) {p q : Port} (v : Nat) (h : q ≠ p) : (s.sqTail p v).port q = s.port q := by
  unfold State.sqTail
  split
  · rfl
  · split <;> exact s.port_modPort_ne _ h

theorem State.port_draw (s : State) (p : Port) : s.draw.2.port p = s.port p := by
  cases p <;> rfl

theorem State.grp_modGrp_ne (s : State) {g n : Nat} (f : Grp → Grp) (h : n ≠ g) : (s.modGrp g f).grp n = s.grp n := by
  simp [State.grp, State.modGrp, List.getD_eq_getElem?_getD, h.symm]

theorem State.die_modCore_ne (s : State) {k n : Nat} (j : Nat) (f : Core → Core) (h : n ≠ k) : (s.modCore k j f).die n = s.die n :=
  s.die_modDie_ne k n _ h.symm

theorem port_of_configurationRequest {s t : State} {p q : Port} {r : CfgReq} (h : exec (.configurationRequest p r) s = .next t) (other : q ≠ p) :
    t.port q = s.port q := by
  change execConfigurationRequest p r s = .next t at h
  unfold execConfigurationRequest at h
  dsimp only at h
  repeat' split at h
  all_goals
    obtain rfl := Host.Outcome.next.inj h
    simp only [State.port_modPort_ne _ _ other, State.port_draw]

theorem grp_of_patrolScrubMismatch {s t : State} {g st n : Nat} {persists : Bool} {unit : Option Nat}
    (h : exec (.patrolScrubMismatch g st persists unit) s = .next t) (other : n ≠ g) : t.grp n = s.grp n := by
  change execPatrolScrubMismatch g st persists unit s = .next t at h
  unfold execPatrolScrubMismatch at h
  split at h
  · rw [Host.Outcome.next.inj h]
  · rw [← Host.Outcome.next.inj h]
    exact s.grp_modGrp_ne _ other

theorem die_of_paletteSlotLoadDone {s t : State} {k j n : Nat} (h : exec (.paletteSlotLoadDone k j) s = .next t) (other : n ≠ k) :
    t.die n = s.die n := by
  change execPaletteSlotLoadDone k j s = .next t at h
  unfold execPaletteSlotLoadDone at h
  dsimp only at h
  split at h
  · rw [Host.Outcome.next.inj h]
  · rw [← Host.Outcome.next.inj h]
    exact s.die_modCore_ne j _ other

/-- Settles O42: each event's frame; an event of one port changes that port alone. -/
theorem pinAndPortFrame : Obligations.PinAndPortFrame := by
  unfold Obligations.PinAndPortFrame
  refine ⟨?d3hotExit, ?perstDeassert, ?sqTailWrite, ?coalTimerExpire, ?configurationRequest, ?bar4Read, ?spdmRequest, ?dynamicAddressAssign,
    ?dynamicAddressReset, ?sidebandBusStuck, ?sidebandLinesHigh, ?tapInstruction, ?faultPulseEnd, ?healthMessage, ?healthRepeatTimer, ?ceSample,
    ?stillOutPulseEnd, ?stillInFall, ?stillToken, ?droopTrip, ?inputSag, ?millpondTick, ?voltageStageSettle, ?phaseFail, ?refClockLoss, ?refClockReturn,
    ?flashResetDone, ?dieResetDone, ?lockstepMismatch, ?easelSramError⟩
  case d3hotExit =>
    intro s t p h
    refine ⟨(execD3hotExit_fr p Frame.rfl Sub.rfl).eq_taking h, ?_⟩
    intro q other
    rw [eq_of_exec h rfl]
    exact s.port_modPort_ne _ other
  case perstDeassert =>
    intro s t p h
    refine ⟨(execPerstDeassert_fr p Frame.rfl Sub.rfl).eq_taking h, ?_⟩
    intro q other
    rw [eq_of_exec h rfl]
    exact s.port_modPort_ne _ other
  case sqTailWrite =>
    intro s t p v h
    refine ⟨(execSqTailWrite_fr p v Frame.rfl Sub.rfl).eq_taking h, ?_⟩
    intro q other
    rw [eq_of_exec h rfl]
    split
    · exact s.port_sqTail_ne _ other
    · rfl
  case coalTimerExpire => exact fun _ _ p h => (execCoalTimerExpire_fr p Frame.rfl Sub.rfl).eq_taking h
  case configurationRequest =>
    intro s t p r h
    refine ⟨(execConfigurationRequest_fr p r Frame.rfl Sub.rfl).eq_taking h, ?_⟩
    exact fun q other => port_of_configurationRequest h other
  case bar4Read => exact fun _ _ p off n h => (execBar4Read_fr p off n Frame.rfl Sub.rfl).eq_taking h
  case spdmRequest =>
    intro s t p nonce h
    refine ⟨(execSpdmRequest_fr p nonce Frame.rfl Sub.rfl).eq_taking h, ?_⟩
    rw [eq_of_exec h rfl]
    split <;> rfl
  case dynamicAddressAssign => exact fun _ _ addr h => (execDynamicAddressAssign_fr addr Frame.rfl Sub.rfl).eq_taking h
  case dynamicAddressReset => exact fun _ _ h => (execDynamicAddressReset_fr Frame.rfl Sub.rfl).eq_taking h
  case sidebandBusStuck => exact fun _ _ h => (execSidebandBusStuck_fr Frame.rfl Sub.rfl).eq_taking h
  case sidebandLinesHigh => exact fun _ _ h => (execSidebandLinesHigh_fr Frame.rfl Sub.rfl).eq_taking h
  case tapInstruction => exact fun _ _ ir h => (execTapInstruction_fr ir Frame.rfl Sub.rfl).eq_taking h
  case faultPulseEnd => exact fun _ _ h => (execFaultPulseEnd_fr Frame.rfl Sub.rfl).eq_taking h
  case healthMessage => exact fun _ _ h => (execHealthMessage_fr Frame.rfl Sub.rfl).eq_taking h
  case healthRepeatTimer => exact fun _ _ h => (execHealthRepeatTimer_fr Frame.rfl Sub.rfl).eq_taking h
  case ceSample => exact fun _ _ h => (execCeSample_fr Frame.rfl Sub.rfl).eq_taking h
  case stillOutPulseEnd => exact fun _ _ h => (execStillOutPulseEnd_fr Frame.rfl Sub.rfl).eq_taking h
  case stillInFall => exact fun _ _ highNs h => (execStillInFall_fr highNs Frame.rfl Sub.rfl).eq_taking h
  case stillToken => exact fun _ _ tag origin capNo h => (execStillToken_fr tag origin capNo Frame.rfl Sub.rfl).eq_taking h
  case droopTrip => exact fun _ _ die h => (execDroopTrip_fr die Frame.rfl Sub.rfl).eq_taking h
  case inputSag => exact fun _ _ h => (execInputSag_fr Frame.rfl Sub.rfl).eq_taking h
  case millpondTick => exact fun _ _ p1ms p10ms v1ms coresFull h => (execMillpondTick_fr p1ms p10ms v1ms coresFull Frame.rfl Sub.rfl).eq_taking h
  case voltageStageSettle => exact fun _ _ h => (execVoltageStageSettle_fr Frame.rfl Sub.rfl).eq_taking h
  case phaseFail => exact fun _ _ r h => (execPhaseFail_fr r Frame.rfl Sub.rfl).eq_taking h
  case refClockLoss => exact fun _ _ h => (execRefClockLoss_fr Frame.rfl Sub.rfl).eq_taking h
  case refClockReturn => exact fun _ _ h => (execRefClockReturn_fr Frame.rfl Sub.rfl).eq_taking h
  case flashResetDone => exact fun _ _ h => (execFlashResetDone_fr Frame.rfl Sub.rfl).eq_taking h
  case dieResetDone => exact fun _ _ die h => (execDieResetDone_fr die Frame.rfl Sub.rfl).eq_taking h
  case lockstepMismatch => exact fun _ _ h => (execLockstepMismatch_fr Frame.rfl Sub.rfl).eq_taking h
  case easelSramError => exact fun _ _ h => (execEaselSramError_fr Frame.rfl Sub.rfl).eq_taking h

/-- Settles O43: each event's frame; a mismatch changes its own group and a credit flit its own link. -/
theorem flashAndLinkFrame : Obligations.FlashAndLinkFrame := by
  unfold Obligations.FlashAndLinkFrame
  refine ⟨?flashScrubPass, ?nandOpDone, ?nandTempOk, ?nandOvertemp, ?readDisturbDue, ?thermalAgeTick, ?ftlReady, ?departWriteoutDone,
    ?twinTileRequest, ?patrolScrubMismatch, ?creditReceived, ?creditTimer, ?packetRoute, ?transitWindow, ?dataFlitReceived, ?join⟩
  case flashScrubPass => exact fun _ _ die block corrected h => (execFlashScrubPass_fr die block corrected Frame.rfl Sub.rfl).eq_taking h
  case nandOpDone => exact fun _ _ die h => (execNandOpDone_fr die Frame.rfl Sub.rfl).eq_taking h
  case nandTempOk => exact fun _ _ pkg h => (execNandTempOk_fr pkg Frame.rfl Sub.rfl).eq_taking h
  case nandOvertemp => exact fun _ _ pkg h => (execNandOvertemp_fr pkg Frame.rfl Sub.rfl).eq_taking h
  case readDisturbDue => exact fun _ _ die block reads h => (execReadDisturbDue_fr die block reads Frame.rfl Sub.rfl).eq_taking h
  case thermalAgeTick => exact fun _ _ minutes h => (execThermalAgeTick_fr minutes Frame.rfl Sub.rfl).eq_taking h
  case ftlReady => exact fun _ _ h => (execFtlReady_fr Frame.rfl Sub.rfl).eq_taking h
  case departWriteoutDone => exact fun _ _ obj h => (execDepartWriteoutDone_fr obj Frame.rfl Sub.rfl).eq_taking h
  case twinTileRequest => exact fun _ _ obj tile h => (execTwinTileRequest_fr obj tile Frame.rfl Sub.rfl).eq_taking h
  case patrolScrubMismatch =>
    intro s t group stripe persists unit h
    refine ⟨(execPatrolScrubMismatch_fr group stripe persists unit Frame.rfl Sub.rfl).eq_taking h, ?_⟩
    intro n other
    exact grp_of_patrolScrubMismatch h other
  case creditReceived => exact fun _ _ link ack c0 c1 c2 h => (execCreditReceived_fr ⟨link, ack⟩ c0 c1 c2 Frame.rfl Sub.rfl).eq_taking h
  case creditTimer =>
    intro s t link h
    refine ⟨(execCreditTimer_fr link Frame.rfl Sub.rfl).eq_taking h, ?_⟩
    intro n other
    rw [eq_of_exec h rfl]
    split
    · exact State.link_modLink_ne _ link n _ other.symm
    · rfl
  case packetRoute => exact fun _ _ p h => (execPacketRoute_fr p Frame.rfl Sub.rfl).eq_taking h
  case transitWindow => exact fun _ _ h => (execTransitWindow_fr Frame.rfl Sub.rfl).eq_taking h
  case dataFlitReceived => exact fun _ _ link f intact h => (execDataFlitReceived_fr link f intact Frame.rfl Sub.rfl).eq_taking h
  case join => exact fun _ _ m h => (execJoin_fr m Frame.rfl Sub.rfl).eq_taking h

/-- Settles O44: each event's frame; an event of one core changes its own die. -/
theorem tileAndPageFrame : Obligations.TileAndPageFrame := by
  unfold Obligations.TileAndPageFrame
  refine ⟨?gtForceTimer, ?heartbeat, ?paletteSlotLoadDone, ?preparedSend, ?sendMessage, ?failedTileDecide, ?nopTileComplete, ?unpackRereadDone,
    ?moeCtxDeferredOpen, ?nextRound, ?appendStallResume, ?pageReturnStart, ?spillStart, ?quotaReturn⟩
  case gtForceTimer =>
    intro s t die core engine cell h
    refine ⟨(execGtForceTimer_fr die core engine cell Frame.rfl Sub.rfl).eq_taking h, ?_⟩
    intro n other
    rw [eq_of_exec h rfl]
    exact s.die_modDie_ne _ _ _ other.symm
  case heartbeat =>
    intro s t die core h
    refine ⟨(execHeartbeat_fr die core Frame.rfl Sub.rfl).eq_taking h, ?_⟩
    intro n other
    rw [eq_of_exec h rfl]
    exact s.die_modDie_ne _ _ _ other.symm
  case paletteSlotLoadDone =>
    intro s t die core h
    refine ⟨(execPaletteSlotLoadDone_fr die core Frame.rfl Sub.rfl).eq_taking h, ?_⟩
    intro n other
    exact die_of_paletteSlotLoadDone h other
  case preparedSend => exact fun _ _ slice stepId h => (execPreparedSend_fr slice stepId Frame.rfl Sub.rfl).eq_taking h
  case sendMessage => exact fun _ _ die slot idx h => (execSendMessage_fr die slot idx Frame.rfl Sub.rfl).eq_taking h
  case failedTileDecide => exact fun _ _ die entry h => (execFailedTileDecide_fr die entry Frame.rfl Sub.rfl).eq_taking h
  case nopTileComplete => exact fun _ _ die entry h => (execNopTileComplete_fr die entry Frame.rfl Sub.rfl).eq_taking h
  case unpackRereadDone => exact fun _ _ die entry h => (execUnpackRereadDone_fr die entry Frame.rfl Sub.rfl).eq_taking h
  case moeCtxDeferredOpen => exact fun _ _ die slot h => (execMoeCtxDeferredOpen_fr die slot Frame.rfl Sub.rfl).eq_taking h
  case nextRound => exact fun _ _ die slot layer h => (execNextRound_fr die slot layer Frame.rfl Sub.rfl).eq_taking h
  case appendStallResume => exact fun _ _ die slot h => (execAppendStallResume_fr die slot Frame.rfl Sub.rfl).eq_taking h
  case pageReturnStart => exact fun _ _ pool page h => (execPageReturnStart_fr pool page Frame.rfl Sub.rfl).eq_taking h
  case spillStart => exact fun _ _ pool h => (execSpillStart_fr pool Frame.rfl Sub.rfl).eq_taking h
  case quotaReturn => exact fun _ _ pool h => (execQuotaReturn_fr pool Frame.rfl Sub.rfl).eq_taking h

end Sys2Proof.Machine
end

section
/-! Ring commands whose turn has come: what executing them at once comes to, and their frames. -/

namespace Sys2Proof.Machine

open Sys2Proof

/-- A row that fetches a command whose turn has come answers the state that the rules of its opcode give. -/
theorem exec_of_turn {i : Instr} {s : State} {src : Src} {b : List Byte} (turn : s.turn src = true) (len : b.length = 112) (op : Nat)
    (fetch : exec i s = .next (s.command src op b)) (known : opcodeOk op = true) (early : op ≠ 0x33 ∨ s.coord.valid = true) :
    exec i s = .next (opOf op (s.refFor src op) b (s.started src op b)) := by
  rw [fetch, command_runs op b turn len known early]

/-- Taking a COMMANDS slot changes the slots and their counter. -/
theorem State.frame_started {w : Nat} (s : State) (src : Src) (op : Nat) (b : List Byte) (hw : Sub 0x180 w) : Frame w s (s.started src op b) :=
  Frame.upd_cmds_cmdNo Frame.rfl hw

theorem ring_eq_taking {w : Nat} {i : Instr} {s t : State} {src : Src} {b : List Byte} (turn : s.turn src = true) (len : b.length = 112) (op : Nat)
    (fetch : exec i s = .next (s.command src op b)) (known : opcodeOk op = true) (h : exec i s = .next t) (notBundle : op ≠ 0x33)
    (frame : Frame w s (opOf op (s.refFor src op) b (s.started src op b))) : t = s.taking w t := by
  rw [eq_of_exec h (exec_of_turn turn len op fetch known (Or.inl notBundle))]
  exact frame.eq_taking

/-! ### Objects that a command does not name -/

/-- A field outside the mask of a frame is as it was. -/
theorem eq_of_outside {α : Type} {a w : Nat} {x y : α} (h : Sub a w ∨ x = y) (outside : a &&& w ≠ a) : x = y :=
  h.resolve_left outside

@[simp] theorem State.finishObj_objs (s : State) (r : Ref) (id st : Nat) : (s.finishObj r id st).objs = s.objs :=
  eq_of_outside (State_finishObj_fr r id st Frame.rfl Sub.rfl).objs (by decide)

@[simp] theorem State.finish_objs (s : State) (r : Ref) (st : Nat) (x : List Byte) : (s.finish r st x).objs = s.objs :=
  eq_of_outside (State_finish_fr r st x Frame.rfl Sub.rfl).objs (by decide)

@[simp] theorem State.finishWaiters_objs (s : State) (l : List Waiter) (id st : Nat) : (s.finishWaiters l id st).objs = s.objs :=
  eq_of_outside (State_finishWaiters_fr l id st Frame.rfl Sub.rfl).objs (by decide)

theorem State.obj_congr {s t : State} (h : t.objs = s.objs) (i : Nat) : t.obj i = s.obj i := by
  rw [State.obj, h, State.obj]

/-- A change of one object that keeps its identifier leaves the objects of every other identifier. -/
theorem State.obj_modObj_ne (s : State) {id i : Nat} (f : Obj → Obj) (h : i ≠ id)
    (keeps : ∀ o, (f o).id = o.id := by exact fun _ => rfl) : (s.modObj id f).obj i = s.obj i := by
  have same : (fun o : Obj => o.id == i) ∘ (fun o => if o.id == id then f o else o) = fun o => o.id == i := by
    funext o
    simp only [Function.comp_apply]
    split <;> simp [keeps]
  simp only [State.obj, State.modObj, List.find?_map, same]
  cases found : s.objs.find? fun o => o.id == i with
  | none => rfl
  | some o =>
    have named : o.id = i := by simpa using List.find?_some found
    simp [named, h]

theorem State.obj_cancelDepart_ne (s : State) {id i : Nat} (h : i ≠ id) : (s.cancelDepart id).obj i = s.obj i := by
  unfold State.cancelDepart
  split
  · rfl
  · refine (State.obj_congr (State.finishWaiters_objs ..) i).trans ((State.obj_modObj_ne _ _ h).trans (State.obj_congr ?_ i))
    split <;> rfl

theorem obj_of_objPin_ne {s t : State} {src : Src} {b : List Byte} (turn : s.turn src = true) (len : b.length = 112)
    (h : exec (.objPin src b) s = .next t) {i : Nat} (other : i ≠ fld b 0 4) : t.obj i = s.obj i := by
  rw [eq_of_exec h (exec_of_turn turn len 0x15 rfl rfl (Or.inl (by decide)))]
  change (opObjPin _ b _).obj i = (s.started src 0x15 b).obj i
  unfold opObjPin
  dsimp only
  repeat' split
  all_goals
    simp only [State.obj_congr (State.finish_objs ..), State.obj_congr (State.finishObj_objs ..)]
  all_goals
    rw [State.obj_modObj_ne _ _ other]
  exact State.obj_cancelDepart_ne _ other

theorem obj_of_objUnpin_ne {s t : State} {src : Src} {b : List Byte} (turn : s.turn src = true) (len : b.length = 112)
    (h : exec (.objUnpin src b) s = .next t) {i : Nat} (other : i ≠ fld b 0 4) : t.obj i = s.obj i := by
  rw [eq_of_exec h (exec_of_turn turn len 0x16 rfl rfl (Or.inl (by decide)))]
  change (opObjUnpin _ b _).obj i = (s.started src 0x16 b).obj i
  unfold opObjUnpin
  dsimp only
  repeat' split
  all_goals
    simp only [State.obj_congr (State.finish_objs ..), State.obj_congr (State.finishObj_objs ..)]
  rw [State.obj_modObj_ne _ _ other]

/-- Settles O45: a command runs at once when its turn has come, so its frame is that of the rules of its opcode, with the slot that it takes. -/
theorem ringCommandFrame : Obligations.RingCommandFrame := by
  intro s t src b turn len
  refine ⟨?objPin, ?objUnpin, ?objQuery, ?objCreate, ?objLoadHost, ?objStageFlash, ?objPromote, ?objEvict, ?modelBind, ?viewSwitch, ?layerSwap,
    ?modelRelease, ?sliceJoin, ?sliceLeave, ?routeLoad, ?stepSubmit, ?stepKill, ?seqOpen, ?seqClose, ?pageShare, ?prefetchSched, ?spillPolicy,
    ?paletteLoad, ?stateDump, ?snapRead, ?fwUpdate, ?attest, ?devInfo, ?resetScope, ?powerPolicy⟩
  case objPin =>
    refine fun h => ⟨ring_eq_taking (s := s) (w := 0x20010000002101f8) turn len 0x15 rfl rfl h (by decide)
      (opObjPin_fr _ b (s.frame_started src 0x15 b (Sub.mk (by decide))) (Sub.mk (by decide))), fun i other => ?_⟩
    exact obj_of_objPin_ne turn len h other
  case objUnpin =>
    refine fun h => ⟨ring_eq_taking (s := s) (w := 0x20000000002101f8) turn len 0x16 rfl rfl h (by decide)
      (opObjUnpin_fr _ b (s.frame_started src 0x16 b (Sub.mk (by decide))) (Sub.mk (by decide))), fun i other => ?_⟩
    exact obj_of_objUnpin_ne turn len h other
  case objQuery =>
    exact fun h => ring_eq_taking (s := s) (w := 0x20000000000101f8) turn len 0x17 rfl rfl h (by decide)
      (opObjQuery_fr _ b (s.frame_started src 0x17 b (Sub.mk (by decide))) (Sub.mk (by decide)))
  case objCreate =>
    exact fun h => ring_eq_taking (s := s) (w := 0x20010000006101f9) turn len 0x10 rfl rfl h (by decide)
      (opObjCreate_fr _ b (s.frame_started src 0x10 b (Sub.mk (by decide))) (Sub.mk (by decide)))
  case objLoadHost =>
    exact fun h => ring_eq_taking (s := s) (w := 0x20010000002101f8) turn len 0x11 rfl rfl h (by decide)
      (opObjLoadHost_fr _ b (s.frame_started src 0x11 b (Sub.mk (by decide))) (Sub.mk (by decide)))
  case objStageFlash =>
    exact fun h => ring_eq_taking (s := s) (w := 0x20010000002101f9) turn len 0x12 rfl rfl h (by decide)
      (opObjStageFlash_fr _ b (s.frame_started src 0x12 b (Sub.mk (by decide))) (Sub.mk (by decide)))
  case objPromote =>
    exact fun h => ring_eq_taking (s := s) (w := 0x20010000002101f8) turn len 0x13 rfl rfl h (by decide)
      (opObjPromote_fr _ b (s.frame_started src 0x13 b (Sub.mk (by decide))) (Sub.mk (by decide)))
  case objEvict =>
    exact fun h => ring_eq_taking (s := s) (w := 0x20010400006101f9) turn len 0x14 rfl rfl h (by decide)
      (opObjEvict_fr _ b (s.frame_started src 0x14 b (Sub.mk (by decide))) (Sub.mk (by decide)))
  case modelBind =>
    exact fun h => ring_eq_taking (s := s) (w := 0x24000000404101f9) turn len 0x20 rfl rfl h (by decide)
      (opModelBind_fr _ b (s.frame_started src 0x20 b (Sub.mk (by decide))) (Sub.mk (by decide)))
  case viewSwitch =>
    exact fun h => ring_eq_taking (s := s) (w := 0x24010400406101f9) turn len 0x21 rfl rfl h (by decide)
      (opViewSwitch_fr _ b (s.frame_started src 0x21 b (Sub.mk (by decide))) (Sub.mk (by decide)))
  case layerSwap =>
    exact fun h => ring_eq_taking (s := s) (w := 0x24010400406101f9) turn len 0x22 rfl rfl h (by decide)
      (opLayerSwap_fr _ b (s.frame_started src 0x22 b (Sub.mk (by decide))) (Sub.mk (by decide)))
  case modelRelease =>
    exact fun h => ring_eq_taking (s := s) (w := 0x2001040040e101f9) turn len 0x23 rfl rfl h (by decide)
      (opModelRelease_fr _ b (s.frame_started src 0x23 b (Sub.mk (by decide))) (Sub.mk (by decide)))
  case sliceJoin =>
    exact fun h => ring_eq_taking (s := s) (w := 0x20000004800101f8) turn len 0x30 rfl rfl h (by decide)
      (opSliceJoin_fr _ b (s.frame_started src 0x30 b (Sub.mk (by decide))) (Sub.mk (by decide)))
  case sliceLeave =>
    exact fun h => ring_eq_taking (s := s) (w := 0x28a187fbe2e13dff) turn len 0x31 rfl rfl h (by decide)
      (opSliceLeave_fr _ b (s.frame_started src 0x31 b (Sub.mk (by decide))) (Sub.mk (by decide)))
  case routeLoad =>
    exact fun h => ring_eq_taking (s := s) (w := 0x20080000800101f8) turn len 0x32 rfl rfl h (by decide)
      (opRouteLoad_fr _ b (s.frame_started src 0x32 b (Sub.mk (by decide))) (Sub.mk (by decide)))
  case stepSubmit =>
    exact fun h => ring_eq_taking (s := s) (w := 0x28a187fbe6e13dff) turn len 0x40 rfl rfl h (by decide)
      (opStepSubmit_fr _ b (s.frame_started src 0x40 b (Sub.mk (by decide))) (Sub.mk (by decide)))
  case stepKill =>
    exact fun h => ring_eq_taking (s := s) (w := 0x20000001000101f8) turn len 0x41 rfl rfl h (by decide)
      (opStepKill_fr _ b (s.frame_started src 0x41 b (Sub.mk (by decide))) (Sub.mk (by decide)))
  case seqOpen =>
    exact fun h => ring_eq_taking (s := s) (w := 0x20000000022101f8) turn len 0x42 rfl rfl h (by decide)
      (opSeqOpen_fr _ b (s.frame_started src 0x42 b (Sub.mk (by decide))) (Sub.mk (by decide)))
  case seqClose =>
    exact fun h => ring_eq_taking (s := s) (w := 0x2001000022e101f9) turn len 0x43 rfl rfl h (by decide)
      (opSeqClose_fr _ b (s.frame_started src 0x43 b (Sub.mk (by decide))) (Sub.mk (by decide)))
  case pageShare =>
    exact fun h => ring_eq_taking (s := s) (w := 0x20000000022101f8) turn len 0x44 rfl rfl h (by decide)
      (opPageShare_fr _ b (s.frame_started src 0x44 b (Sub.mk (by decide))) (Sub.mk (by decide)))
  case prefetchSched =>
    exact fun h => ring_eq_taking (s := s) (w := 0x2000040001e101f9) turn len 0x45 rfl rfl h (by decide)
      (opPrefetchSched_fr _ b (s.frame_started src 0x45 b (Sub.mk (by decide))) (Sub.mk (by decide)))
  case spillPolicy =>
    exact fun h => ring_eq_taking (s := s) (w := 0x20000000202101f8) turn len 0x46 rfl rfl h (by decide)
      (opSpillPolicy_fr _ b (s.frame_started src 0x46 b (Sub.mk (by decide))) (Sub.mk (by decide)))
  case paletteLoad =>
    exact fun h => ring_eq_taking (s := s) (w := 0x24002400000101f8) turn len 0x50 rfl rfl h (by decide)
      (opPaletteLoad_fr _ b (s.frame_started src 0x50 b (Sub.mk (by decide))) (Sub.mk (by decide)))
  case stateDump =>
    exact fun h => ring_eq_taking (s := s) (w := 0x20000000000101f8) turn len 0x60 rfl rfl h (by decide)
      (opStateDump_fr _ b (s.frame_started src 0x60 b (Sub.mk (by decide))) (Sub.mk (by decide)))
  case snapRead =>
    exact fun h => ring_eq_taking (s := s) (w := 0x20000000000101f8) turn len 0x61 rfl rfl h (by decide)
      (opSnapRead_fr _ b (s.frame_started src 0x61 b (Sub.mk (by decide))) (Sub.mk (by decide)))
  case fwUpdate =>
    exact fun h => ring_eq_taking (s := s) (w := 0x24218008004101ff) turn len 0x70 rfl rfl h (by decide)
      (opFwUpdate_fr _ b (s.frame_started src 0x70 b (Sub.mk (by decide))) (Sub.mk (by decide)))
  case attest =>
    exact fun h => ring_eq_taking (s := s) (w := 0x24000000000101f8) turn len 0x71 rfl rfl h (by decide)
      (opAttest_fr _ b (s.frame_started src 0x71 b (Sub.mk (by decide))) (Sub.mk (by decide)))
  case devInfo =>
    exact fun h => ring_eq_taking (s := s) (w := 0x20000000000101f8) turn len 0x01 rfl rfl h (by decide)
      (opDevInfo_fr _ b (s.frame_started src 0x01 b (Sub.mk (by decide))) (Sub.mk (by decide)))
  case resetScope =>
    exact fun h => ring_eq_taking (s := s) (w := 0x22010400000101f8) turn len 0x02 rfl rfl h (by decide)
      (opResetScope_fr _ b (s.frame_started src 0x02 b (Sub.mk (by decide))) (Sub.mk (by decide)))
  case powerPolicy =>
    exact fun h => ring_eq_taking (s := s) (w := 0x28a187fbe2e13dff) turn len 0x80 rfl rfl h (by decide)
      (opPowerPolicy_fr _ b (s.frame_started src 0x80 b (Sub.mk (by decide))) (Sub.mk (by decide)))

end Sys2Proof.Machine
end

section
/-! Vector instructions that a core issues at once, and a store whose register holds more lanes than a vector register has. -/

namespace Sys2Proof.Machine

open Sys2Proof

theorem State.issues_iff {s : State} {k j : Nat} : s.issues k j = true ↔ k < s.dies.length ∧ j < (s.die k).cores.length ∧ j < 120 ∧
    (s.core k j).able = true ∧ (s.core k j).seqQ = [] ∧ s.power.held = false := by
  simp [State.issues, and_assoc]

/-- A vector instruction that the sequencer issues with nothing before it retires at once, for the running tile (R97). -/
theorem exec_vector {s : State} {k j : Nat} (op : VecOp) (h : s.issues k j = true) :
    exec (.vectorInstruction k j op) s = .next (s.vector k j (s.core k j).running op) :=
  congrArg Host.Outcome.next (Laws.sequence_at_once s k j false (.vec op) h rfl)

theorem exec_vectorStore {s : State} {k j r a : Nat} (h : s.issues k j = true) (fits : a + 256 ≤ storeBytes) :
    exec (.vectorInstruction k j (.store r a)) s = .next (s.modCore k j fun c => { c with
      store := Memory.write c.store a ((c.vreg r).flatMap fun x => leBytes 4 x.toNat), lastProgress := s.now }) := by
  rw [exec_vector _ h]
  exact congrArg Host.Outcome.next (if_neg (Nat.not_lt.mpr fits))

/-! ### A register of 65 lanes -/

/-- The machine after reset, but register 0 of the first core holds 65 lanes of 1. -/
def wideRegister : State := State.reset.modCore 0 0 fun c => { c with vregs := [(0, List.replicate 65 1)] }

theorem core_wideRegister : wideRegister.core 0 0 = { State.core0 with vregs := [(0, List.replicate 65 1)] } := by
  rw [wideRegister, Laws.core_modCore _ _ _ _ (by decide) (by decide), State.core_reset (by decide) (by decide)]

theorem issues_wideRegister : wideRegister.issues 0 0 = true := by
  rw [State.issues_iff, core_wideRegister]
  exact ⟨by decide, by decide, by decide, rfl, rfl, rfl⟩

/-- Refutes O60: nothing in the statement bounds the lanes of a register, and a store of 65 lanes at 0 writes the byte at 256 too. -/
theorem not_memoryFrame : ¬ Obligations.MemoryFrame := by
  unfold Obligations.MemoryFrame
  rintro ⟨-, -, -, -, -, -, store⟩
  have fits : 0 + 256 ≤ storeBytes := by decide
  have wf : Memory.wf (wideRegister.core 0 0).store = true := by
    rw [core_wideRegister]
    rfl
  obtain ⟨outside, -⟩ := store wideRegister _ 0 0 0 0 issues_wideRegister fits wf (exec_vectorStore issues_wideRegister fits)
  have kept := outside 256 (Or.inr (Nat.le_refl _))
  rw [Laws.core_modCore _ _ _ _ (by decide) (by decide), core_wideRegister] at kept
  revert kept
  decide +kernel

end Sys2Proof.Machine
end

section
/-! Registers: sequenced status, posted writes, buffered configuration, and the writes that act where they land (O8 to O11). -/

namespace Sys2Proof.Machine

open Sys2Proof

/-! ### Association lists -/

@[simp] theorem assocGet_assocSet {κ ν : Type} [BEq κ] [LawfulBEq κ] (l : List (κ × ν)) (k : κ) (v : ν) : assocGet (assocSet l k v) k = some v := by
  unfold assocGet assocSet
  split
  next known =>
    have image : ((fun p : κ × ν => p.1 == k) ∘ fun p => if p.1 == k then (k, v) else p) = fun p => p.1 == k := by
      funext p
      by_cases h : p.1 == k <;> simp [h]
    rw [List.find?_map, image]
    have listed : (l.find? fun p => p.1 == k).isSome = true := by
      rw [List.find?_isSome]
      exact List.any_eq_true.mp known
    obtain ⟨p, found⟩ := Option.isSome_iff_exists.mp listed
    have named := List.find?_some found
    simp [found, named]
  next unknown =>
    have absent : l.find? (fun p => p.1 == k) = none := by
      rw [List.find?_eq_none]
      exact fun p hp named => unknown (List.any_eq_true.mpr ⟨p, hp, named⟩)
    simp [List.find?_append, absent]

/-! ### Sequenced status (R424 to R426) -/

@[simp] theorem State.sqGet_set (s : State) (r : SqReg) (q : SqState) : ({ s with sq := assocSet s.sq r q } : State).sqGet r = q := by
  simp [State.sqGet]

theorem State.sqGet_raise_of_clear {s : State} {r : SqReg} {b : Nat} (clear : (s.sqGet r).ev.getLsbD b = false) :
    (s.raise r b).sqGet r = { ev := (s.sqGet r).ev ||| (1 <<< b), seq := (s.sqGet r).seq + 1, perm := [] } := by
  simp [State.raise, clear]

/-- Settles O8: an event, a read and a write each replace the register's own state, and a write that misses leaves it and counts. -/
theorem sequencedStatus : Obligations.SequencedStatus := by
  unfold Obligations.SequencedStatus
  refine ⟨?event, ?read, ?clears, ?misses⟩
  case event => exact fun s r b clear => State.sqGet_raise_of_clear clear
  case read =>
    intro s m r reaches seen
    refine ⟨s.sqRead m r, congrArg Host.Outcome.next (if_pos reaches), ?_⟩
    rw [State.sqRead, if_pos seen]
    exact ⟨rfl, State.sqGet_set s r _⟩
  case clears =>
    intro s m r v reaches seen seq perm
    refine ⟨s.sqClear m r v, congrArg Host.Outcome.next (if_pos reaches), ?_⟩
    have taken : (v.toNat / 2 ^ 24 == (s.sqGet r).seq.toNat && (s.sqGet r).perm.contains m) = true := by
      rw [seq, List.contains_iff_mem.mpr perm, BEq.rfl, Bool.and_self]
    rw [State.sqClear]
    simp only [seen, taken]
    exact ⟨State.sqGet_set s r _, rfl⟩
  case misses =>
    intro s m r v reaches seen stale
    refine ⟨s.sqClear m r v, congrArg Host.Outcome.next (if_pos reaches), ?_⟩
    have refused : (v.toNat / 2 ^ 24 == (s.sqGet r).seq.toNat && (s.sqGet r).perm.contains m) = false := by
      rcases stale with old | unread
      · rw [beq_eq_false_iff_ne.mpr old, Bool.false_and]
      · simp [unread]
    rw [State.sqClear]
    simp only [seen, refused]
    exact ⟨rfl, rfl⟩

/-! ### Posted writes (R427, R428) -/

@[simp] theorem State.accOf_setAcc (s : State) (m : Master) (k : PwBlk) (a : AccState) : (s.setAcc m k a).accOf m k = a := by
  have absent : (s.accs.filter fun (m', b', _) => !(m' == m && b' == k)).find? (fun (m', b', _) => m' == m && b' == k) = none := by
    simp only [List.find?_eq_none, List.mem_filter]
    rintro ⟨m', b', x⟩ ⟨-, other⟩
    simpa [imp_iff_not_or] using other
  rw [State.setAcc, State.accOf, List.find?_append, absent]
  simp

/-- A write of a register of a PW block, not its ACC word, goes to its master's slot of the block. -/
theorem exec_pwWrite {s : State} {m : Master} {off : Nat} {k : PwBlk} (v : W32) (reaches : s.reaches m = true) (block : pwAt off = some k)
    (aligned : off % 4 = 0) (notAcc : off ≠ pwBase k) (register : regOffsets.contains off = true) :
    exec (.pwWrite m off v) s = .next (s.postWrite m k off v) := by
  change execPwWrite m off v s = _
  simp [execPwWrite, block, reaches, aligned, State.pwWrite, notAcc, List.contains_iff_mem.mp register]

/-- Settles O9: a slot takes one write at a time, the earliest of its block lands, and ACC_DROP alone is cleared. -/
theorem postedWrites : Obligations.PostedWrites := by
  unfold Obligations.PostedWrites
  refine ⟨?taken, ?dropped, ?lands, ?cleared⟩
  case taken =>
    intro s m off v k reaches block aligned notAcc register free
    refine ⟨_, exec_pwWrite v reaches block aligned notAcc register, ?_⟩
    rw [State.postWrite]
    simp only [free]
    exact ⟨State.accOf_setAcc _ m k _, rfl⟩
  case dropped =>
    intro s m off v k reaches block aligned notAcc register busy
    refine ⟨_, exec_pwWrite v reaches block aligned notAcc register, ?_⟩
    rw [State.postWrite]
    simp only [busy]
    exact ⟨State.accOf_setAcc _ m k _, rfl⟩
  case lands =>
    intro s m k busy first
    change execPwWriteLand m k s = _
    unfold execPwWriteLand
    simp [busy, first]
  case cleared =>
    intro s m k reaches
    exact ⟨s.accClear m k, congrArg Host.Outcome.next (if_pos reaches), State.accOf_setAcc s m k _⟩

/-! ### Buffered configuration (R430, R431, R434) -/

/-- Settles O10: writes collect in the shadow, GO takes it unless a generation is pending, DISCARD empties it, and the generation that has passed
its checks is the earliest of its scope when it applies. -/
theorem generations : Obligations.Generations := by
  unfold Obligations.Generations
  refine ⟨?collect, ?second, ?go, ?discard, ?apply⟩
  case collect =>
    intro s m off v reaches scope
    refine ⟨s.bfWrite m off v false, congrArg Host.Outcome.next (if_pos (by simp [reaches, scope])), ?_⟩
    simp [State.bfWrite, addShadow]
  case second =>
    intro s m reaches pending
    refine ⟨s.cfgGo m, congrArg Host.Outcome.next (if_pos reaches), ?_⟩
    simp [State.cfgGo, pending]
  case go =>
    intro s m reaches idle
    have go : s.cfgGo m = _ := if_neg (by simp [idle])
    exact congrArg Host.Outcome.next ((if_pos reaches).trans go)
  case discard =>
    intro s m reaches
    exact ⟨s.cfgDiscard m, congrArg Host.Outcome.next (if_pos reaches), by simp [State.cfgDiscard]⟩
  case apply =>
    intro s m sc l scope tenant first taken
    have checked : ((s.master m).pending && (s.master m).checked) = true := by
      by_contra not
      simp [State.genScope, not] at scope
    have free : (decide (sc.1 = 4) && s.curTenant.isSome) = false := by
      by_cases four : sc.1 = 4 <;> simp [four, tenant]
    have applies : s.applyGen m = (l.foldl State.activate s).modMaster m fun b => { b with
        taken := none, pending := false, checked := false, gen := (b.gen + 1) % 65536 } := by
      simp [State.applyGen, taken, checked]
    change execGenerationApply m s = _
    simp [execGenerationApply, scope, free, first, applies]

/-! ### Writes that act where they land -/

@[simp] theorem State.master_emit (s : State) (x : Tx) (m : Master) : (s.emit x).master m = s.master m := by
  cases m <;> rfl

/-- The LNK_CTL word of each link lies in the link's own block. -/
theorem pwAt_lnkCtl {i : Nat} (h : i < 30) : pwAt (0x100004 + 0x1000 * i) = some (.lnk i) := by
  interval_cases i <;> decide

/-- Settles O11: a lock sets its own bit, the caps pass through `pwrUpdate`, and a Still write is a trigger or REARM. -/
theorem registerWritesTakeEffect : Obligations.RegisterWritesTakeEffect := by
  unfold Obligations.RegisterWritesTakeEffect
  refine ⟨?lockRte, ?lockSec, ?lockLnk, ?timeLo, ?rack, ?rackPlain, ?host, ?missed, ?captured, ?rearm⟩
  case lockRte =>
    intro s m reaches priv
    refine ⟨_, congrArg Host.Outcome.next (if_pos reaches), ?_⟩
    simp [State.lockSet, priv]
  case lockSec =>
    intro s m reaches priv open_
    refine ⟨_, congrArg Host.Outcome.next (if_pos reaches), ?_⟩
    simp [State.lockSet, priv, open_]
  case lockLnk =>
    intro s m i reaches hi open_ listed
    refine ⟨_, congrArg Host.Outcome.next (if_pos reaches), ?_⟩
    have locked : s.lockSet m (0x100004 + 0x1000 * i) = s.modLink i fun l => { l with lock := true } := by
      have notRte : 0x100004 + 0x1000 * i ≠ 0x140004 := by omega
      have notSec : 0x100004 + 0x1000 * i ≠ 0x70004 := by omega
      have ctl : (0x100004 + 0x1000 * i != pwBase (.lnk i) + 4) = false := by
        simp only [pwBase, bne_eq_false_iff_eq]
        omega
      simp only [State.lockSet, if_neg notRte, if_neg notSec, pwAt_lnkCtl hi, ctl, open_]
      rfl
    rw [locked, State.link_modLink s i _ listed]
  case timeLo =>
    intro s m reaches
    exact ⟨_, congrArg Host.Outcome.next (if_pos reaches), by simp, by simp⟩
  case rack =>
    intro s m v reaches priv
    exact congrArg Host.Outcome.next (if_pos (by simp [reaches, priv]))
  case rackPlain =>
    intro s m v plain
    exact congrArg Host.Outcome.next (if_neg (by simp [plain]))
  case host =>
    intro s m v reaches
    exact congrArg Host.Outcome.next (if_pos reaches)
  case missed =>
    intro s m reaches disarmed
    exact ⟨_, congrArg Host.Outcome.next (if_pos reaches), State.trigger_snap_of_disarmed 0 0 disarmed⟩
  case captured =>
    intro s m reaches armed quiet
    refine ⟨_, congrArg Host.Outcome.next (if_pos reaches), ?_⟩
    obtain ⟨pairs, snap⟩ := State.trigger_snap_of_armed 0 0 armed
    rw [snap]
    exact ⟨rfl, rfl, rfl, rfl, rfl, rfl, rfl⟩
  case rearm =>
    intro s m reaches
    exact ⟨_, exec_snapRearm reaches, rfl⟩

end Sys2Proof.Machine
end

section
/-! Registers of the fabric and of security: RTE_COORD, LNK_CTL, the fused counts and the allowlists (O12, O13). -/

namespace Sys2Proof.Machine

open Sys2Proof

/-! ### RTE_COORD (R364, R365) -/

@[simp] theorem State.linksAgain_coord (s : State) : s.linksAgain.coord = s.coord :=
  eq_of_outside (State_linksAgain_fr Frame.rfl Sub.rfl).coord (by decide)

theorem exec_rteCoordWrite {s : State} {m : Master} (v : W32) (reaches : s.reaches m = true) (priv : masterPriv m = true) :
    exec (.rteCoordWrite m v) s = .next (s.writeCoord v.toNat) :=
  congrArg Host.Outcome.next (if_pos (by rw [priv, reaches]; rfl))

/-- A coordinate that is locked or in use keeps its value; the write is recorded and may only lock it. -/
theorem State.writeCoord_of_frozen {s : State} (v : Nat) (frozen : (s.coord.lock || s.slices.any fun x => x.state == .joined) = true) :
    s.writeCoord v = ({ s with coord := { s.coord with lock := s.coord.lock || bitOf v 31 } } : State).raise .rte 2 :=
  if_pos frozen

theorem State.coord_writeCoord_of_good {s : State} {v : Nat} (open_ : (s.coord.lock || s.slices.any fun x => x.state == .joined) = false)
    (good : (bitsOf v 13 8 == 63 - bitsOf v 5 0 && decide (bitsOf v 5 0 < 2 ^ bitsOf v 16 14) && decide (1 ≤ bitsOf v 16 14) &&
      decide (bitsOf v 16 14 ≤ 6) && s.coord.rackWritten) = true) :
    (s.writeCoord v).coord = { s.coord with
      coordW := bitsOf v 5 0, coordN := bitsOf v 13 8, dimsW := bitsOf v 16 14, lock := bitOf v 31, valid := true, coord := bitsOf v 5 0,
      dims := bitsOf v 16 14, foldMask := if bitsOf v 16 14 < 6 then 2 ^ bitsOf v 16 14 - 1 else s.coord.foldMask } := by
  rw [State.writeCoord]
  simp only [open_, good, Bool.false_eq_true, if_false, if_true]
  split
  · exact State.raise_coord ..
  · exact (State.linksAgain_coord _).trans (State.raise_coord ..)

theorem State.coord_writeCoord_of_bad {s : State} {v : Nat} (open_ : (s.coord.lock || s.slices.any fun x => x.state == .joined) = false)
    (bad : (bitsOf v 13 8 == 63 - bitsOf v 5 0 && decide (bitsOf v 5 0 < 2 ^ bitsOf v 16 14) && decide (1 ≤ bitsOf v 16 14) &&
      decide (bitsOf v 16 14 ≤ 6) && s.coord.rackWritten) = false) :
    (s.writeCoord v).coord = { s.coord with
      coordW := bitsOf v 5 0, coordN := bitsOf v 13 8, dimsW := bitsOf v 16 14, lock := bitOf v 31, valid := false, coord := 0, dims := 0 } := by
  rw [State.writeCoord]
  simp only [open_, bad, Bool.false_eq_true, if_false]
  split
  · exact (State.linksAgain_coord _).trans (State.raise_coord ..)
  · exact State.raise_coord ..

/-! ### LNK_CTL -/

theorem exec_lnkEnableWrite {s : State} {m : Master} (i : Nat) (en : Bool) (reaches : s.reaches m = true) :
    exec (.lnkEnableWrite m i en) s = .next (s.lnkEnable i en) :=
  congrArg Host.Outcome.next (if_pos reaches)

theorem exec_lnkRetrain {s : State} {m : Master} (i : Nat) (reaches : s.reaches m = true) : exec (.lnkRetrain m i) s = .next (s.lnkRetrain i) :=
  congrArg Host.Outcome.next (if_pos reaches)

/-- Settles O12: RTE_COORD is frozen, good or bad; EN and RETRAIN go by the link's state. -/
theorem fabricRegisterWrites : Obligations.FabricRegisterWrites := by
  unfold Obligations.FabricRegisterWrites
  refine ⟨?good, ?bad, ?locked, ?inUse, ?plain, ?lnkLocked, ?off, ?stillOff, ?on, ?retrain, ?idle⟩
  case good =>
    intro s m v reaches priv unlocked unused rack complement inside one six
    refine ⟨_, exec_rteCoordWrite v reaches priv, ?_⟩
    rw [State.coord_writeCoord_of_good (by rw [unlocked, unused]; rfl) (by simp [complement, inside, one, six, rack])]
    exact ⟨rfl, rfl, rfl, rfl, rfl⟩
  case bad =>
    intro s m v reaches priv unlocked unused wrong
    refine ⟨_, exec_rteCoordWrite v reaches priv, ?_⟩
    rw [State.coord_writeCoord_of_bad (by rw [unlocked, unused]; rfl) (by
      rcases wrong with h | h | h | h | h
      · simp [h]
      · simp [h]
      · simp [Nat.not_lt.mpr h]
      · simp [h]
      · simp [Nat.not_le.mpr h])]
    exact ⟨rfl, rfl, rfl⟩
  case locked =>
    intro s m v reaches priv locked
    have same : ({ s.coord with lock := s.coord.lock || bitOf v.toNat 31 } : Coord) = s.coord := by rw [locked, Bool.true_or, ← locked]
    rw [exec_rteCoordWrite v reaches priv, State.writeCoord_of_frozen _ (by rw [locked]; rfl), same]
  case inUse =>
    intro s m v reaches priv used
    refine ⟨_, exec_rteCoordWrite v reaches priv, ?_⟩
    rw [State.writeCoord_of_frozen _ (by rw [used, Bool.or_true])]
    exact ⟨by simp, by simp⟩
  case plain =>
    intro s m v plain
    exact congrArg Host.Outcome.next (if_neg (by simp [plain]))
  case lnkLocked =>
    intro s m i reaches locked en
    refine ⟨_, exec_lnkEnableWrite i en reaches, ?_⟩
    simp [State.lnkEnable, locked, satAdd]
  case off =>
    intro s m i reaches unlocked on
    rw [exec_lnkEnableWrite i false reaches]
    simp [State.lnkEnable, unlocked, on]
  case stillOff =>
    intro s m i reaches unlocked off
    rw [exec_lnkEnableWrite i false reaches]
    simp [State.lnkEnable, unlocked, off]
  case on =>
    intro s m i reaches unlocked
    rw [exec_lnkEnableWrite i true reaches]
    simp [State.lnkEnable, unlocked]
  case retrain =>
    intro s m i reaches on coordKnown
    rw [exec_lnkRetrain i reaches, State.lnkRetrain]
    split <;> first | contradiction | rfl
  case idle =>
    intro s m i reaches off
    rw [exec_lnkRetrain i reaches, State.lnkRetrain]
    rcases off with off | off <;> rw [off]

/-! ### Security (R509, R514, R515, R524) -/

theorem State.alOf_alChange (s : State) (man : Bool) (l : List (List Byte)) : (s.alChange man l).sec.alOf man = l := by
  cases man <;> simp [State.alChange, Sec.logged, Sec.alOf]

theorem exec_svnCommit {s : State} {m : Master} (reaches : s.reaches m = true) (priv : masterPriv m = true) :
    exec (.svnCommit m) s = .next s.svnCommit :=
  congrArg Host.Outcome.next (if_pos (by rw [priv, reaches]; rfl))

/-- Settles O13: each write passes the master's check and then changes the one field that it names, beside the measurement log. -/
theorem securityRegisterWrites : Obligations.SecurityRegisterWrites := by
  unfold Obligations.SecurityRegisterWrites
  refine ⟨?svn, ?revoke, ?add, ?remove, ?clear⟩
  case svn =>
    intro s m x reaches priv running up older
    refine ⟨_, exec_svnCommit reaches priv, ?_⟩
    have commits : ¬ (s.clk.stage < 5 ∨ x.svn ≤ s.sec.svn) := by omega
    simp [State.svnCommit, running, commits, Sec.logged]
  case revoke =>
    intro s m k reaches priv hk unburnt other idle
    exact ⟨_, exec_keyRevoke k reaches priv, State.keyRevoke_revoked hk other fun h => idle h.1 h.2⟩
  case add =>
    intro s m man reaches priv room absent
    refine ⟨s.alAdd man, congrArg Host.Outcome.next (if_pos (by rw [priv, reaches]; rfl)), ?_⟩
    have adds : s.alAdd man = ((s.modSec fun c => { c with full := false }).alChange man (s.sec.alOf man ++ [s.sec.alDigest])) := by
      have notFull : decide (256 ≤ (s.sec.alOf man).length) = false := decide_eq_false (Nat.not_le.mpr room)
      have new : (s.sec.alOf man).contains s.sec.alDigest = false := by simpa using absent
      have test : (false || (s.sec.alOf man).contains (s.modSec fun c => { c with full := false }).sec.alDigest) = false := new
      rw [State.alAdd]
      simp only [notFull, test, Bool.false_eq_true, if_false]
      rfl
    rw [adds]
    refine ⟨State.alOf_alChange _ man _, ?_⟩
    rw [State.alChange_sec]
    rfl
  case remove =>
    intro s m man reaches priv listed
    refine ⟨s.alRemove man, congrArg Host.Outcome.next (if_pos (by rw [priv, reaches]; rfl)), ?_⟩
    rw [State.alRemove, if_pos (List.contains_iff_mem.mpr listed), State.alOf_alChange]
  case clear =>
    intro s m man reaches priv some_
    refine ⟨s.alClear man, congrArg Host.Outcome.next (if_pos (by rw [priv, reaches]; rfl)), ?_⟩
    rw [State.alClear, if_neg (by simpa using some_), State.alOf_alChange]

end Sys2Proof.Machine
end

section
/-! The host ports' accesses: plain register and memory-window accesses, the mailbox, doorbells and fetch (O7, O14). -/

namespace Sys2Proof.Machine

open Sys2Proof

/-! ### BAR4 (R391 to R393) -/

/-- An access that lies within one 64-byte unit is judged as that unit alone. -/
theorem unitsOf_within {a n : Nat} (inside : a % 64 + n ≤ 64) (some_ : 1 ≤ n) : unitsOf a n = [(a, n)] := by
  have one : (a % 64 + n + 63) / 64 = 1 := by omega
  have low : max a ((a / 64 + 0) * 64) = a := by omega
  have high : min (a + n) ((a / 64 + 0 + 1) * 64) - a = n := by omega
  rw [unitsOf, one, List.range_one, List.map_singleton]
  simp only [low, high]

theorem PortSt.winAddr_mod_64 {x : PortSt} (off : Nat) (wide : 64 ≤ 2 ^ x.bar4Log2) : x.winAddr off % 64 = off % 64 := by
  have six : 6 ≤ x.bar4Log2 := (Nat.pow_le_pow_iff_right (by decide : 1 < 2)).mp (show 2 ^ 6 ≤ _ from wide)
  obtain ⟨k, hk⟩ := pow_dvd_pow 2 six
  rw [PortSt.winAddr, hk, ← mul_assoc, mul_comm _ (2 ^ 6), mul_assoc]
  exact Nat.mul_add_mod _ _ _

theorem unitsOf_winAddr {x : PortSt} {off n : Nat} (wide : 64 ≤ 2 ^ x.bar4Log2) (inside : off % 64 + n ≤ 64) (some_ : 1 ≤ n) :
    unitsOf (x.winAddr off) n = [(x.winAddr off, n)] :=
  unitsOf_within (by rwa [PortSt.winAddr_mod_64 off wide]) some_

/-- Settles O14: a unit that is served moves its bytes; one that is not reads as ones. -/
theorem plainAccesses : Obligations.PlainAccesses := by
  unfold Obligations.PlainAccesses
  refine ⟨?bar0, ?mbCmd, ?read, ?ones, ?write⟩
  case bar0 =>
    intro s m off v reaches aligned inside
    change execRegisterWrite m .bar0 off 4 v s = _
    simp only [execRegisterWrite, reaches, State.bar0Write, aligned, Nat.not_le.mpr inside]
    rfl
  case mbCmd =>
    intro s off size v serve inside idle up
    have reaches : s.reaches .portA = true := by simp [State.reaches, serve]
    refine ⟨s.bar2Write .a off size v, ?_, ?_⟩
    · change execRegisterWrite .portA .bar2 off size v s = _
      simp [execRegisterWrite, reaches]
    · simp [State.bar2Write, inside, State.modPort, State.setPort, State.port, idle, up]
  case read =>
    intro s p off n serve inside within some_ ready wide ok
    change execBar4Read p off n s = _
    simp [execBar4Read, serve, Nat.not_lt.mpr inside, unitsOf_winAddr wide within some_, ready, ok]
  case ones =>
    intro s p off n serve inside within some_ unready wide
    change execBar4Read p off n s = _
    simp [execBar4Read, serve, Nat.not_lt.mpr inside, unitsOf_winAddr wide within some_, unready]
  case write =>
    intro s p off b serve inside within some_ ready wide buffer ok
    change execBar4Write p off b s = _
    simp [execBar4Write, serve, Nat.not_lt.mpr inside, unitsOf_winAddr wide within some_, ready, buffer, ok]

/-! ### Mailbox, doorbells and fetch -/

theorem State.up_iff {s : State} : s.easelUp = true ↔ s.clk.inReset = false ∧ 3 ≤ s.clk.stage ∧ s.health.failed = false := by
  simp [State.easelUp, and_assoc]

/-- A mailbox command completes in MB_CPL. -/
theorem State.finish_of_mailbox {s : State} {r : Ref} (st : Nat) (x : List Byte) (alive : s.health.failed = false) (mailbox : r.src.mailbox = true) :
    s.finish r st x = s.modPort r.src.port fun y => { y with
      mbBusy := false, mbDone := true,
      mbCpl := some { tag := r.src.tag, cseq := 0, status := st, opcode := r.opcode, orig := r.src.port, held := false, hostLost := false,
                      result := padTo 48 x, slot := none, names := none } } := by
  simp [State.finish, State.finishWith, alive, mailbox]

/-- A mailbox that is free and a command that may run this early go to the rules of the opcode. -/
theorem State.mailbox_runs {s : State} {src : Src} {op : Nat} {b : List Byte} (up : s.easelUp = true) (idle : (s.port src.port).mbBusy = false)
    (known : (!opcodeOk op || (src.mailbox && !mailboxOk op)) = false) (early : earlyOk op = true) (notBundle : (op == 0x33) = false)
    (len : b.length = 112) : s.mailbox src op b =
      opOf op { src := src, opcode := op, slot := none } b (s.modPort src.port fun x => { x with mbDone := false, mbDropped := false, mbBusy := true }) := by
  simp [State.mailbox, up, idle, runOp, known, State.tooEarly, early, notBundle, len]

/-- Settles O7: MB_GO completes DEV_INFO in MB_CPL, a doorbell within its ring moves an index, and fetch and fence run what their turn allows. -/
theorem ringTransportTakesEffect : Obligations.RingTransportTakesEffect := by
  unfold Obligations.RingTransportTakesEffect
  refine ⟨?mbGo, ?sqTail, ?cqHead, ?fetch, ?fenced, ?coal⟩
  case mbGo =>
    intro s p serve up idle op len uses
    refine ⟨_, congrArg Host.Outcome.next (if_pos (by simp [serve])), ?_⟩
    obtain ⟨-, -, alive⟩ := State.up_iff.mp up
    rw [State.mbGo, op, State.mailbox_runs up idle rfl rfl rfl len]
    change (State.port (opDevInfo _ _ _) p).mbDone = true ∧ (State.port (opDevInfo _ _ _) p).mbBusy = false ∧
      ∃ c, (State.port (opDevInfo _ _ _) p).mbCpl = some c ∧ _
    rw [opDevInfo, uses]
    simp [State.finish_of_mailbox, alive]
  case sqTail =>
    intro s p v r serve ring
    refine congrArg Host.Outcome.next ((if_pos (by simp [serve])).trans ?_)
    simp only [State.sqTail, ring]
    split <;> simp [State.modPort]
  case cqHead =>
    intro s p v r serve ring inside empty
    refine congrArg Host.Outcome.next ((if_pos (by simp [serve])).trans ?_)
    simp [State.cqHead, ring, Nat.not_le.mpr inside, empty, State.flushHeld]
  case fetch =>
    intro s turn
    exact congrArg Host.Outcome.next (if_pos turn)
  case fenced =>
    intro s slot c found up turn
    change execFencedCommandExecute slot s = _
    simp [execFencedCommandExecute, found, up, turn, State.runSlot]
  case coal =>
    intro s p r ring run posted
    change execCoalTimerExpire p s = _
    simp [execCoalTimerExpire, ring, run, posted]

end Sys2Proof.Machine
end

section
/-! Events of the host ports, reports and updated images (O15, O16, O17). -/

namespace Sys2Proof.Machine

open Sys2Proof

/-! ### Port events -/

@[simp] theorem State.port_raise (s : State) (r : SqReg) (b : Nat) (p : Port) : (s.raise r b).port p = s.port p := by cases p <;> simp [State.port]

@[simp] theorem State.port_raiseIf (s : State) (c : Bool) (r : SqReg) (b : Nat) (p : Port) : (s.raiseIf c r b).port p = s.port p := by
  cases c <;> simp [State.raiseIf]

theorem State.down_modPort (s : State) (p : Port) (f : PortSt → PortSt) : (s.modPort p f).down p = (f (s.port p)).down := by
  rw [State.down, State.port_modPort]

theorem filter_ne_eq_nil {l : List Nat} {k : Nat} (all : ∀ j ∈ l, j = k) : (l.filter fun j => j != k) = [] :=
  List.filter_eq_nil_iff.mpr fun j h => by simp [all j h]

theorem mem_filter_ne {l : List Nat} {j k : Nat} (h : j ∈ l) (ne : j ≠ k) : j ∈ l.filter fun i => i != k :=
  List.mem_filter.mpr ⟨h, by simp [ne]⟩

/-- A function that is ready and not under FLR serves a configuration request at once. -/
theorem exec_configurationRequest {s : State} {p : Port} (r : CfgReq) (reaches : (s.port p).cfgReaches = true) (run : s.clk.inReset = false)
    (noFlr : (s.port p).flr = false) (ready : (s.port p).cfgReady = true) : exec (.configurationRequest p r) s = .next (match r with
      | .memEnable on => s.modPort p fun x => { x with memEn := on }
      | .bar4Size l => if 30 ≤ l ∧ l ≤ 42 then s.modPort p fun x => { x with bar4Log2 := l } else s) := by
  change execConfigurationRequest p r s = _
  cases r <;> simp [execConfigurationRequest, reaches, run, noFlr, ready]

/-- Settles O15: most events are one update of the port; keys and configuration requests change it when the link serves them. -/
theorem portEventsTakeEffect : Obligations.PortEventsTakeEffect := by
  unfold Obligations.PortEventsTakeEffect
  refine ⟨fun _ _ => rfl, fun s p => ⟨_, rfl, State.port_modPort s p _⟩, fun _ _ _ => rfl, fun _ _ => rfl, ?linkUp, fun _ _ => rfl, fun _ _ => rfl,
    fun s p => ⟨_, rfl, State.port_modPort s p _⟩, ?ideFail, ?lastKey, ?otherKey, ?memory, ?size⟩
  case linkUp =>
    intro s p rate width flit rev best noPerst run hr hw
    refine ⟨_, if_neg (by simp [noPerst, run]), ?_⟩
    simp [Nat.mod_eq_of_lt hr, Nat.mod_eq_of_lt hw]
  case ideFail =>
    intro s p k keyed up
    exact if_neg (by simp [keyed, up])
  case lastKey =>
    intro s p k up ready stream all
    refine ⟨_, if_neg (by simp [up, ready, stream]), ?_⟩
    simpa [filter_ne_eq_nil all] using all
  case otherKey =>
    intro s p k j up ready stream failed ne
    refine ⟨_, if_neg (by simp [up, ready, stream]), ?_⟩
    have left := mem_filter_ne failed ne
    rw [State.port_modPort]
    exact ⟨if_neg (by simpa using ⟨j, failed, ne⟩), left⟩
  case memory =>
    intro s p on reaches run noFlr ready
    exact ⟨_, exec_configurationRequest (.memEnable on) reaches run noFlr ready, State.port_modPort s p _⟩
  case size =>
    intro s p l reaches run noFlr ready low high
    refine ⟨_, (exec_configurationRequest (.bar4Size l) reaches run noFlr ready).trans (congrArg _ (if_pos ⟨low, high⟩)), State.port_modPort s p _⟩

/-- Settles O16: only the change from up to down records DOWN and has the effects of Table 16-2. -/
theorem portGoingDown : Obligations.PortGoingDown := by
  unfold Obligations.PortGoingDown
  refine ⟨?already, ?falls, ?effects⟩
  case already =>
    intro s p f down
    simp [State.portChange, down]
  case falls =>
    intro s p f up down
    simp [State.portChange, up, State.down_modPort, down]
  case effects =>
    intro s p none
    simp [State.portDownEffects, none]

/-! ### Reports and updated images -/

@[simp] theorem State.finish_sec (s : State) (r : Ref) (st : Nat) (x : List Byte) : (s.finish r st x).sec = s.sec :=
  eq_of_outside (State_finish_fr r st x Frame.rfl Sub.rfl).sec (by decide)

/-- Settles O17: a request joins the reports, the first report goes out signed, and a written slot is judged by its image. -/
theorem reportsAndUpdates : Obligations.ReportsAndUpdates := by
  unfold Obligations.ReportsAndUpdates
  refine ⟨?spdm, ?sideband, ?signed, ?update⟩
  case spdm =>
    intro s p nonce reaches ready up room
    refine ⟨_, congrArg Host.Outcome.next (if_neg (by simp [reaches, ready, up, room])), ?_⟩
    simp [State.askReport]
  case sideband =>
    intro s nonce up alive room
    refine ⟨_, (if_neg (by simp [up, alive])).trans (congrArg Host.Outcome.next (if_neg (by simp [room]))), ?_⟩
    simp [State.askReport]
  case signed =>
    intro s q rest queue up noRef spdm
    refine ⟨(s.modSec fun c => { c with rpts := rest }).emit (.spdm (Config.spdmFrame (q.unsigned ++ padTo rptSigBytes (Config.slhSign q.unsigned)))), ?_, rfl, rfl⟩
    change execReportSigned s = _
    simp [execReportSigned, queue, up, noRef, spdm]
  case update =>
    intro s u upd up ok slotB
    refine ⟨_, by change execUpdateDone s = _; simp only [execUpdateDone, upd, up, ok]; rfl, ?_⟩
    simp [slotB]

end Sys2Proof.Machine
end

section
/-! Faults inside the module, health messages and the sideband (O18, O19). -/

namespace Sys2Proof.Machine

open Sys2Proof

/-! ### The Easel's stop -/

@[simp] theorem State.hltRaise_failed (s : State) (b : Nat) : (s.hltRaise b).health.failed = s.health.failed := by simp [State.hltRaise]

@[simp] theorem State.hltRaise_easelStop (s : State) (b : Nat) : (s.hltRaise b).health.easelStop = s.health.easelStop := by simp [State.hltRaise]

@[simp] theorem State.hltUpdate_failed (s : State) : s.hltUpdate.health.failed = s.health.failed := by
  unfold State.hltUpdate; dsimp only; split <;> simp

@[simp] theorem State.hltUpdate_easelStop (s : State) : s.hltUpdate.health.easelStop = s.health.easelStop := by
  unfold State.hltUpdate; dsimp only; split <;> simp

@[simp] theorem State.jobStopPins_failed (s : State) : s.jobStopPins.health.failed = s.health.failed := by simp [State.jobStopPins]

@[simp] theorem State.jobStopPins_easelStop (s : State) : s.jobStopPins.health.easelStop = s.health.easelStop := by simp [State.jobStopPins]

@[simp] theorem State.faultTrigger_health (s : State) (cls : Nat) : (s.faultTrigger cls).health = s.health :=
  eq_of_outside (State_faultTrigger_fr cls Frame.rfl Sub.rfl).health (by decide)

theorem State.sendSlice_health (s : State) (k : SlcKind) (dst : List Nat) (m : SliceMsg) : (s.sendSlice k dst m).health = s.health :=
  eq_of_outside (State_sendSlice_fr k dst m Frame.rfl Sub.rfl).health (by decide)

theorem State.foldl_health {α : Type} (f : State → α → State) (keeps : ∀ s x, (f s x).health = s.health) (l : List α) (s : State) :
    (l.foldl f s).health = s.health := by
  induction l generalizing s with
  | nil => rfl
  | cons x l ih => rw [List.foldl_cons, ih, keeps]

/-- The module has failed after FAILED began, and its Easel has stopped as said. -/
theorem State.fail_health (s : State) (easel : Bool) :
    (s.fail easel).health.failed = true ∧ (s.fail easel).health.easelStop = (s.health.easelStop || easel) := by
  unfold State.fail
  split
  · exact ⟨by simpa, by simp⟩
  · lift_lets
    intro joined sent stopped
    have same : sent.health = s.health := State.foldl_health _ (fun s _ => s.sendSlice_health _ _ _) joined s
    split <;> simp [stopped, same]

@[simp] theorem State.fail_nor (s : State) (easel : Bool) : (s.fail easel).nor = s.nor :=
  eq_of_outside (State_fail_fr easel Frame.rfl Sub.rfl).nor (by decide)

theorem State.mismatch_stops {s : State} (run : s.clk.inReset = false) (first : s.health.easelStop = false) :
    s.mismatch.nor.mismatches = s.nor.mismatches + 1 ∧ s.mismatch.health.failed = true ∧ s.mismatch.health.easelStop = true := by
  have h := (s.modNor fun n => { n with mismatches := n.mismatches + 1 }).fail_health true
  simpa [State.mismatch, run, first] using h

/-! ### Die-to-die ports and dies -/

@[simp] theorem State.nextInRow_d2d (s : State) (n : Nat) : (s.nextInRow n).2.d2d = s.d2d := by
  unfold State.nextInRow; split <;> rfl

@[simp] theorem State.nextInRow_dies (s : State) (n : Nat) : (s.nextInRow n).2.dies = s.dies := by
  unfold State.nextInRow; split <;> rfl

theorem State.d2dAt_modD2d {s : State} {k : Nat} (f : D2d → D2d) (here : k < s.d2d.length) : (s.modD2d k f).d2dAt k = f (s.d2dAt k) := by
  simp [State.modD2d, State.d2dAt, List.getD_eq_getElem?_getD, here]

@[simp] theorem State.stopAll_nor (s : State) (cause : Nat) : (s.stopAll cause).nor = s.nor :=
  eq_of_outside (State_stopAll_fr cause Frame.rfl Sub.rfl).nor (by decide)

@[simp] theorem State.setCause_nor (s : State) (b : Nat) : (s.setCause b).nor = s.nor :=
  eq_of_outside (State_setCause_fr b Frame.rfl Sub.rfl).nor (by decide)

@[simp] theorem State.loseMemory_nor (s : State) (hit : Obj → Bool) (dead : Nat → Bool) : (s.loseMemory hit dead).nor = s.nor :=
  eq_of_outside (State_loseMemory_fr hit dead Frame.rfl Sub.rfl).nor (by decide)

theorem mem_addNew (l : List Nat) (k : Nat) : k ∈ addNew l k := by
  unfold addNew; split <;> simp_all

theorem State.dieLose_lostDies {s : State} {k : Nat} (present : (s.die k).lost = false) (here : k < 8) (run : s.clk.inReset = false) :
    k ∈ (s.dieLose k).nor.lostDies := by
  simp [State.dieLose, present, run, Nat.not_le.mpr here, mem_addNew]

/-- A CRC error of a port that is up replays, or fails the port after eight replays of one flit. -/
theorem exec_d2dCrcError {s : State} {k : Nat} (up : (s.d2dAt k).down = false) (inRange : k < 22) (run : s.clk.inReset = false) :
    exec (.d2dCrcError k) s = .next (if 8 < (s.nextInRow (s.d2dAt k).inRow).1 then (s.nextInRow (s.d2dAt k).inRow).2.d2dFail k
      else (s.nextInRow (s.d2dAt k).inRow).2.modD2d k fun d => { d with
        inRow := (s.nextInRow (s.d2dAt k).inRow).1, replays := satAdd (if k < 10 then 31 else 32) d.replays 1 }) := by
  change execD2dCrcError k s = _
  simp only [execD2dCrcError, up, run, Nat.not_le.mpr inRange, decide_false, Bool.or_self, Bool.false_eq_true, if_false]
  split <;> rfl

/-- A NoD CRC error of a die that is present replays, or loses the die after eight replays of one flit. -/
theorem exec_nodCrcError {s : State} {k : Nat} (present : (s.die k).lost = false) (inRange : k < 8) :
    exec (.nodCrcError k) s = .next (if 8 < (s.nextInRow (s.die k).nodRow).1 then (s.nextInRow (s.die k).nodRow).2.dieLose k
      else (s.nextInRow (s.die k).nodRow).2.modDie k fun d => { d with nodRow := (s.nextInRow (s.die k).nodRow).1 }) := by
  change execNodCrcError k s = _
  simp only [execNodCrcError, present, Nat.not_le.mpr inRange, decide_false, Bool.or_self, Bool.false_eq_true, if_false]
  split <;> rfl

/-- Settles O18: each fault has the stated effect where its guard lets it through. -/
theorem faultsTakeEffect : Obligations.FaultsTakeEffect := by
  unfold Obligations.FaultsTakeEffect
  refine ⟨?d2d, ?nod, ?watchdog, ?held, ?pool, ?die, ?lockstep, ?sram, ?scrub, ?sample⟩
  case d2d =>
    intro s k up inRange run here
    refine ⟨_, exec_d2dCrcError up inRange run, fun few => ?_, fun many => if_pos many⟩
    rw [if_neg (Nat.not_lt.mpr few), State.d2dAt_modD2d _ (by simpa using here)]
    simp [State.d2dAt]
  case nod =>
    intro s k present inRange here
    refine ⟨_, exec_nodCrcError present inRange, fun few => ?_, fun many => if_pos many⟩
    rw [if_neg (Nat.not_lt.mpr few), State.die_modDie _ _ _ (by simpa using here)]
  case watchdog =>
    intro s k run
    exact congrArg Host.Outcome.next (if_neg (by simp [run]))
  case held =>
    intro s k held
    exact congrArg Host.Outcome.next (if_pos held)
  case pool =>
    intro s k off o present inRange low high found kind
    change execDiePoolUncorrectable k off s = _
    simp [execDiePoolUncorrectable, present, Nat.not_le.mpr inRange, Nat.not_le.mpr high, Nat.not_lt.mpr low, found, kind]
  case die =>
    intro s k present inRange run
    exact ⟨_, rfl, State.dieLose_lostDies present inRange run⟩
  case lockstep =>
    intro s run first
    exact ⟨_, rfl, State.mismatch_stops run first⟩
  case sram =>
    intro s run first
    exact ⟨_, rfl, State.mismatch_stops run first⟩
  case scrub =>
    intro s up
    exact ⟨_, congrArg Host.Outcome.next (if_pos up), rfl, rfl⟩
  case sample =>
    intro s up
    exact congrArg Host.Outcome.next (if_pos up)

/-- Settles O19: health messages, heartbeats, the sideband's lines and the test port. -/
theorem healthAndSideband : Obligations.HealthAndSideband := by
  unfold Obligations.HealthAndSideband
  refine ⟨?message, ?again, ?ack, fun s => ⟨_, rfl, rfl⟩, ?beat, ?orphan, fun s => ⟨_, rfl, rfl⟩, fun s => ⟨_, rfl, rfl⟩, ?assign, ?unassign, ?tap⟩
  case message =>
    intro s due up
    exact if_neg (by simp [due, up])
  case again =>
    intro s out up
    exact congrArg Host.Outcome.next (if_pos (by simp [out, up]))
  case ack =>
    intro s n up out seq
    refine ⟨_, (if_neg (by simp [up])).trans (congrArg Host.Outcome.next (if_pos (by simp [out, seq]))), rfl, ?_⟩
    simpa using seq
  case beat =>
    intro s up
    exact congrArg Host.Outcome.next (if_pos up)
  case orphan =>
    intro s run first
    exact congrArg Host.Outcome.next (if_neg (by simp [run, first]))
  case assign =>
    intro s a up small
    refine ⟨_, congrArg Host.Outcome.next (if_pos up), ?_⟩
    simp [Nat.mod_eq_of_lt small]
  case unassign =>
    intro s up
    exact ⟨_, congrArg Host.Outcome.next (if_pos up), rfl⟩
  case tap =>
    intro s
    refine ⟨({ s with side := { s.side with tapIr := 1 } } : State).emit (.tap 0x0D2EA001), ?_, rfl, rfl⟩
    change execTapInstruction 1 s = _
    simp [execTapInstruction, tapRuns]

end Sys2Proof.Machine
end

section
/-! The module counter: the operations that end a hold keep it (for O20). `State.activate` binds a local of that name, so the frames of the
earlier sittings count the counter among the parts that these operations may change. -/

namespace Sys2Proof.Machine

open Sys2Proof

theorem State.foldl_now {α : Type} (f : State → α → State) (keeps : ∀ s x, (f s x).now = s.now) (l : List α) (s : State) :
    (l.foldl f s).now = s.now := by
  induction l generalizing s with
  | nil => rfl
  | cons x l ih => rw [List.foldl_cons, ih, keeps]

/-! ### By their frames -/

@[simp] theorem State.mendSys_now (s : State) : s.mendSys.now = s.now :=
  eq_of_outside (State_mendSys_fr Frame.rfl Sub.rfl).now (by decide)

@[simp] theorem State.divide_now (s : State) (g p : Nat) : (s.divide g p).now = s.now :=
  eq_of_outside (State_divide_fr g p Frame.rfl Sub.rfl).now (by decide)

@[simp] theorem State.releaseStart_now (s : State) (m : MasterStep) (t : Step) : (s.releaseStart m t).now = s.now :=
  eq_of_outside (State_releaseStart_fr m t Frame.rfl Sub.rfl).now (by decide)

@[simp] theorem State.pickTurn_now (s : State) (ready : List Nat) (fuel : Nat) : (s.pickTurn ready fuel).now = s.now :=
  eq_of_outside (State_pickTurn_fr ready fuel Frame.rfl Sub.rfl).now (by decide)

@[simp] theorem State.routeWake_now (s : State) (h : Nat) : (s.routeWake h).now = s.now :=
  eq_of_outside (State_routeWake_fr h Frame.rfl Sub.rfl).now (by decide)

@[simp] theorem State.finishWith_now (s : State) (r : Ref) (st : Nat) (x : List Byte) (lost : Bool) (n : Option Blame) : (s.finishWith r st x lost n).now = s.now :=
  eq_of_outside (State_finishWith_fr r st x lost n Frame.rfl Sub.rfl).now (by decide)

@[simp] theorem State.endStep_now (s : State) (t : Step) : (s.endStep t).now = s.now :=
  eq_of_outside (State_endStep_fr t Frame.rfl Sub.rfl).now (by decide)

@[simp] theorem State.freeStepPages_now (s : State) (t : Step) : (s.freeStepPages t).now = s.now :=
  eq_of_outside (State_freeStepPages_fr t Frame.rfl Sub.rfl).now (by decide)

@[simp] theorem State.toMaster_now (s : State) (h : Nat) (k : TokKind) (t : Token) (f : BitVec 5) (op or : Nat) : (s.toMaster h k t f op or).now = s.now :=
  eq_of_outside (State_toMaster_fr h k t f op or Frame.rfl Sub.rfl).now (by decide)

@[simp] theorem State.freeCore_now (s : State) (k core i : Nat) : (s.freeCore k core i).now = s.now :=
  eq_of_outside (State_freeCore_fr k core i Frame.rfl Sub.rfl).now (by decide)

@[simp] theorem State.tileFailed_now (s : State) (k i status : Nat) : (s.tileFailed k i status).now = s.now :=
  eq_of_outside (State_tileFailed_fr k i status Frame.rfl Sub.rfl).now (by decide)

@[simp] theorem State.toFailed_now (s : State) (k i status : Nat) : (s.toFailed k i status).now = s.now :=
  eq_of_outside (State_toFailed_fr k i status Frame.rfl Sub.rfl).now (by decide)

@[simp] theorem State.failSlot_now (s : State) (slot status : Nat) : (s.failSlot slot status).now = s.now :=
  eq_of_outside (State_failSlot_fr slot status Frame.rfl Sub.rfl).now (by decide)

@[simp] theorem State.owe_now (s : State) (k core engine cell entry : Nat) : (s.owe k core engine cell entry).now = s.now :=
  eq_of_outside (State_owe_fr k core engine cell entry Frame.rfl Sub.rfl).now (by decide)

@[simp] theorem State.turnDone_now (s : State) (h id : Nat) : (s.turnDone h id).now = s.now :=
  eq_of_outside (State_turnDone_fr h id Frame.rfl Sub.rfl).now (by decide)

@[simp] theorem State.finishAll_now (s : State) (l : List Ref) (st : Nat) : (s.finishAll l st).now = s.now :=
  eq_of_outside (State_finishAll_fr l st Frame.rfl Sub.rfl).now (by decide)

@[simp] theorem State.jobStopPins_now (s : State) : s.jobStopPins.now = s.now :=
  eq_of_outside (State_jobStopPins_fr Frame.rfl Sub.rfl).now (by decide)

@[simp] theorem State.faultTrigger_now (s : State) (cls : Nat) : (s.faultTrigger cls).now = s.now :=
  eq_of_outside (State_faultTrigger_fr cls Frame.rfl Sub.rfl).now (by decide)

@[simp] theorem State.sendSlice_now (s : State) (k : SlcKind) (dst : List Nat) (m : SliceMsg) : (s.sendSlice k dst m).now = s.now :=
  eq_of_outside (State_sendSlice_fr k dst m Frame.rfl Sub.rfl).now (by decide)

@[simp] theorem State.stretch_now (s : State) : s.stretch.now = s.now :=
  eq_of_outside (State_stretch_fr Frame.rfl Sub.rfl).now (by decide)

@[simp] theorem State.sendStart_now (s : State) (h id : Nat) : (s.sendStart h id).now = s.now :=
  eq_of_outside (State_sendStart_fr h id Frame.rfl Sub.rfl).now (by decide)

@[simp] theorem State.modCore_now (s : State) (k j : Nat) (f : Core → Core) : (s.modCore k j f).now = s.now := by simp [State.modCore]

/-! ### From the generations up to the end of a hold -/

@[simp] theorem State.activate_now (s : State) (w : ShadowW) : (s.activate w).now = s.now := by
  simp [State.activate, apply_ite State.now]

@[simp] theorem State.applyGen_now (s : State) (m : Master) : (s.applyGen m).now = s.now := by
  unfold State.applyGen
  dsimp only
  repeat' split
  all_goals simp [State.foldl_now]

@[simp] theorem State.applyQuanta_now (s : State) : s.applyQuanta.now = s.now := State.foldl_now _ State.applyGen_now _ s

@[simp] theorem State.passTurn_now (s : State) : s.passTurn.now = s.now := by simp [State.passTurn]

@[simp] theorem State.schedule_now (s : State) : s.schedule.now = s.now := by
  unfold State.schedule
  extract_lets turn sliced fuel picked released
  have hturn : turn.now = s.now := by
    simp only [turn]
    repeat' split
    all_goals simp
  have hpicked : picked.now = s.now := by
    simp only [picked]
    split <;> simp [hturn]
  have released_keep : ∀ (l : List (MasterStep × Step)) (s : State), (l.foldl (fun s (m, t) => s.releaseStart m t) s).now = s.now :=
    State.foldl_now _ fun s x => s.releaseStart_now x.1 x.2
  have hreleased : released.now = s.now := (released_keep _ _).trans hpicked
  split
  · exact hreleased
  · exact (released_keep _ _).trans hreleased

@[simp] theorem State.dropStep_now (s : State) (h id : Nat) : (s.dropStep h id).now = s.now := by simp [State.dropStep]

@[simp] theorem State.postStep_now (s : State) (t : Step) (status mask : Nat) (lost : Bool) : (s.postStep t status mask lost).now = s.now := by
  simp [State.postStep]

@[simp] theorem State.finishKill_now (s : State) (t : Step) : (s.finishKill t).now = s.now := by
  unfold State.finishKill
  dsimp only
  repeat' split
  all_goals simp

@[simp] theorem State.killCheck_now (s : State) (h id : Nat) : (s.killCheck h id).now = s.now := by
  unfold State.killCheck
  repeat' split
  all_goals simp

@[simp] theorem State.killChecks_now (s : State) : s.killChecks.now = s.now := by
  unfold State.killChecks
  exact State.foldl_now _ (fun s (t : Step) => s.killCheck_now t.slice t.id) _ s

@[simp] theorem State.killLocal_now (s : State) (t : Step) (cause status : Nat) : (s.killLocal t cause status).now = s.now := by simp [State.killLocal]

@[simp] theorem State.stopStep_now (s : State) (t : Step) (status : Nat) : (s.stopStep t status).now = s.now := by
  unfold State.stopStep
  dsimp only
  repeat' split
  all_goals simp

@[simp] theorem State.stopJob_now (s : State) (h cause coord : Nat) : (s.stopJob h cause coord).now = s.now := by
  unfold State.stopJob State.stopJobAs
  dsimp only
  repeat' split
  all_goals simp [State.foldl_now]

@[simp] theorem State.abandon_now (s : State) (k core i : Nat) : (s.abandon k core i).now = s.now := by simp [State.abandon]

@[simp] theorem State.failEntry_now (s : State) (k core i status : Nat) : (s.failEntry k core i status).now = s.now := by
  unfold State.failEntry
  repeat' split
  all_goals simp

@[simp] theorem State.answer_now (s : State) (t : Step) (k : Nat) (e : Tile) (c : Chk) : (s.answer t k e c).now = s.now := by
  cases c <;> simp [State.answer]

@[simp] theorem State.dispatch_now (s : State) (k core engine entry : Nat) (j : CellJob) : (s.dispatch k core engine entry j).now = s.now := by
  unfold State.dispatch
  dsimp only
  repeat' split
  all_goals simp

@[simp] theorem State.startJob_now (s : State) (k core engine entry : Nat) (j : CellJob) : (s.startJob k core engine entry j).now = s.now := by
  unfold State.startJob
  dsimp only
  split <;> simp

@[simp] theorem State.nextJob_now (s : State) (k core engine : Nat) : (s.nextJob k core engine).now = s.now := by
  unfold State.nextJob
  dsimp only
  split <;> simp

@[simp] theorem State.startDma_now (s : State) (k core entry : Nat) (d : Dma) : (s.startDma k core entry d).now = s.now := by
  unfold State.startDma
  dsimp only
  repeat' split
  all_goals simp

@[simp] theorem State.vector_now (s : State) (k core : Nat) (entry : Option Nat) (op : VecOp) : (s.vector k core entry op).now = s.now := by
  unfold State.vector
  dsimp only
  repeat' split
  all_goals simp

@[simp] theorem State.issue_now (s : State) (k core : Nat) (entry : Option Nat) (x : SeqCmd) : (s.issue k core entry x).now = s.now := by
  unfold State.issue
  repeat' split
  all_goals simp

@[simp] theorem State.drain_now (s : State) (k core n : Nat) : (s.drain k core n).now = s.now := by
  induction n generalizing s with
  | zero => rfl
  | succ n ih =>
    rw [State.drain]
    repeat' split
    all_goals simp [ih]

/-- `t` counts the cycle that `s` counts: a name that keeps the kernel from running the two folds below to compare a field. -/
structure State.SameNow (s t : State) : Prop where
  eq : t.now = s.now

theorem State.SameNow.foldl {α : Type} {s t : State} {f : State → α → State} (keeps : ∀ t x, s.SameNow t → s.SameNow (f t x)) (l : List α)
    (h : s.SameNow t) : s.SameNow (l.foldl f t) := by
  induction l generalizing t with
  | nil => exact h
  | cons x l ih => exact ih (keeps t x h)

theorem State.heldEnd_sameNow (s : State) : s.SameNow s.heldEnd := by
  unfold State.heldEnd
  refine .foldl (fun t k ht => .foldl (fun t j ht => ⟨(State.drain_now _ k j _).trans (State.SameNow.eq ?_)⟩) _ ht) _
    (.foldl (fun t x ht => ⟨(t.sendStart_now _ _).trans ht.eq⟩) _ ⟨rfl⟩)
  exact .foldl (fun t e ht => .foldl (fun t _ ht => ⟨(t.nextJob_now k j e).trans ht.eq⟩) _ ht) _ ht

@[simp] theorem State.heldEnd_now (s : State) : s.heldEnd.now = s.now := s.heldEnd_sameNow.eq

@[simp] theorem State.holdCheck_now (s : State) : s.holdCheck.now = s.now := by
  unfold State.holdCheck
  dsimp only
  repeat' split
  all_goals simp

theorem State.pwrUpdate_now (s : State) : s.pwrUpdate.now = s.now := by simp [State.pwrUpdate]

end Sys2Proof.Machine
end

section
/-! Resets, clocks and boot (O20, O21). -/

namespace Sys2Proof.Machine

open Sys2Proof

/-! ### Resets, supplies and clocks -/

@[simp] theorem State.pwrUpdate_clk (s : State) : s.pwrUpdate.clk = s.clk :=
  eq_of_outside (State_pwrUpdate_fr Frame.rfl Sub.rfl).clk (by decide)

@[simp] theorem State.die_raise (s : State) (r : SqReg) (b k : Nat) : (s.raise r b).die k = s.die k := by simp [State.die]

/-- What an event leaves in the status registers depends on those registers only. -/
theorem State.sqGet_raise_congr {s t : State} (same : s.sq = t.sq) (r q : SqReg) (b : Nat) : (s.raise r b).sqGet q = (t.raise r b).sqGet q := by
  unfold State.raise State.sqGet
  simp only [same]
  split
  · rw [same]
  · rfl

/-- A PLL that loses lock while its clock runs takes its die, or its I/O die, with it. -/
theorem exec_pllUnlock {s : State} {k : Nat} (run : s.clk.inReset = false) (ref : s.clk.refOk = true) (inRange : k < 12) :
    exec (.pllUnlock k) s = .next (
      if k < 8 then ((s.modClk fun c => { c with pllLock := c.pllLock &&& ~~~((1 : BitVec 12) <<< k) }).raise .clk 0).dieLose k
      else ((s.modClk fun c => { c with pllLock := c.pllLock &&& ~~~((1 : BitVec 12) <<< k) }).raise .clk 0).ioLose (k - 8)) :=
  if_neg (by simp [run, ref, inRange])

/-- Settles O20: the guards pass in the stated states, and each event then is its own update of the clocks. -/
theorem resetsAndClocks : Obligations.ResetsAndClocks := by
  unfold Obligations.ResetsAndClocks
  refine ⟨?modRst, ?scope, ?holdover, fun s => ⟨_, rfl, rfl, rfl, rfl, rfl⟩, ?powerOn, ?resetEnd, fun s => ⟨_, rfl, rfl⟩, ?refReturn, ?pllDie, ?pllIo, ?dieReset, ?flashReset⟩
  case modRst =>
    intro s powered
    exact congrArg Host.Outcome.next (if_pos powered)
  case scope =>
    intro s due
    exact congrArg Host.Outcome.next (if_pos due)
  case holdover =>
    intro s lost run
    exact congrArg Host.Outcome.next (if_pos (by simp [lost, run]))
  case powerOn =>
    intro s off
    exact ⟨_, congrArg Host.Outcome.next (if_neg (by simp [off])), rfl, rfl, rfl⟩
  case resetEnd =>
    intro s held powered ref cool
    refine ⟨_, if_neg (by simp [held, powered, ref, cool]), ?_, ?_⟩
    · rw [State.pwrUpdate_now]
      rfl
    · rw [State.pwrUpdate_clk]
      rfl
  case refReturn =>
    intro s lost run
    exact (if_neg (by simp [lost])).trans (if_neg (by simp [run]))
  case pllDie =>
    intro s k run ref die
    rw [exec_pllUnlock run ref (by omega), if_pos die]
  case pllIo =>
    intro s k run ref io
    rw [exec_pllUnlock run ref (by omega), if_neg (by omega), Nat.add_sub_cancel_left]
  case dieReset =>
    intro s k held here
    refine ⟨_, congrArg Host.Outcome.next (if_pos held), ?_, ?_⟩
    · rw [State.die_raise, State.die_modDie _ _ _ here]
    · exact State.sqGet_raise_congr (State.modDie_sq _ _ _) _ _ _
  case flashReset =>
    intro s held
    refine ⟨_, congrArg Host.Outcome.next (if_pos held), by simp, by simp, ?_⟩
    exact State.sqGet_raise_congr (by simp) _ _ _

/-! ### Boot -/

/-- A module whose flash tier is not ready, after the Easel came up and with I/O die 0 lost. -/
def ftlBehindLostDie : State :=
  { State.reset with
    clk := { State.reset.clk with inReset := false, stage := 3, flsRst := false }
    flash := { State.reset.flash with ready := false }
    health := { State.reset.health with ioLost := [0] } }

/-- Refutes O21: FTL_READY does nothing while an I/O die is lost (`ftlBehindLostDie`), and its clause does not exclude that. -/
theorem not_bootStages : ¬ Obligations.BootStages := by
  unfold Obligations.BootStages
  intro ⟨_, _, _, _, _, _, ftl, _, _⟩
  obtain ⟨t, ran, ready, -⟩ := ftl ftlBehindLostDie rfl (Nat.le_refl 3) rfl rfl
  have unchanged : exec .ftlReady ftlBehindLostDie = .next ftlBehindLostDie := rfl
  obtain rfl : ftlBehindLostDie = t := by simpa [unchanged] using ran
  exact Bool.false_ne_true ready

end Sys2Proof.Machine
end

section
/-! Power and the input (O22). -/

namespace Sys2Proof.Machine

open Sys2Proof

/-! ### Holds -/

@[simp] theorem State.raiseIf_true (s : State) (r : SqReg) (b : Nat) : s.raiseIf true r b = s.raise r b := rfl

@[simp] theorem State.raiseIf_false (s : State) (r : SqReg) (b : Nat) : s.raiseIf false r b = s := rfl

/-- A module that must hold and is not held yet begins to. -/
theorem State.holdCheck_begins {s : State} (must : s.power.mustHold = true) (first : s.power.held = false) (cap : 420 ≤ s.power.effCap) :
    s.holdCheck = (s.modPower fun p => { p with held := true, ballast := false }).raise .pwr 5 := by
  simp [State.holdCheck, must, first, Nat.not_lt.mpr cap]

/-- A held module that need not hold any longer goes on. -/
theorem State.holdCheck_ends {s : State} (free : s.power.mustHold = false) (held : s.power.held = true) : s.holdCheck = s.heldEnd := by
  simp [State.holdCheck, free, held]

/-! ### Stretching and settling -/

theorem State.setPulses_power (s : State) (k n : Nat) : (s.setPulses k n).power = s.power := rfl

theorem State.foldl_power {α : Type} (f : State → α → State) (keeps : ∀ s x, (f s x).power = s.power) (l : List α) (s : State) :
    (l.foldl f s).power = s.power := by
  induction l generalizing s with
  | nil => rfl
  | cons x l ih => rw [List.foldl_cons, ih, keeps]

theorem State.setThrottled_power (s : State) (on : Bool) : (s.setThrottled on).power = { s.power with throttled := on } := by
  simp [State.setThrottled]

theorem State.setThrottled_die (s : State) (on : Bool) (k : Nat) : (s.setThrottled on).die k = s.die k := by
  simp [State.setThrottled, State.die]

/-- Stretching changes nothing of the power settings but THROTTLED. -/
theorem State.stretch_power (s : State) : ∃ on, s.stretch.power = { s.power with throttled := on } := by
  unfold State.stretch
  split
  · exact ⟨_, rfl⟩
  · rw [State.setThrottled_power, State.foldl_power _ fun s k => s.setPulses_power k _]
    exact ⟨_, rfl⟩

/-- Die `k` settles at its full rate. -/
def State.settleFull (s : State) (k : Nat) : State := (s.setPulses k 16).modDie k fun d => { d with point := pointFor d.pulses }

theorem State.dieLimit_le (s : State) (k : Nat) : s.dieLimit k ≤ 16 := by
  unfold State.dieLimit
  dsimp only
  split <;> omega

theorem State.die_settleFull {s : State} {k : Nat} (here : k < s.dies.length) :
    (s.settleFull k).die k = { s.die k with pulses := s.dieLimit k, point := pointFor (s.dieLimit k) } := by
  rw [State.settleFull, State.die_modDie _ _ _ (by simpa [State.setPulses] using here), State.setPulses, State.die_modDie _ _ _ here, min_eq_right (s.dieLimit_le k)]

theorem State.die_settleFull_ne (s : State) {k j : Nat} (ne : j ≠ k) : (s.settleFull k).die j = s.die j := by
  simp [State.settleFull, State.setPulses, State.die, State.modDie, List.getD_eq_getElem?_getD, Ne.symm ne]

/-- After the dies below `n` have settled, they stand at their limits and the others as before. -/
theorem State.die_settled {s : State} (n : Nat) (here : n ≤ s.dies.length) :
    ((List.range n).foldl State.settleFull s).dies.length = s.dies.length ∧ ((List.range n).foldl State.settleFull s).mon = s.mon ∧
    ∀ k, ((List.range n).foldl State.settleFull s).die k =
      if k < n then { s.die k with pulses := s.dieLimit k, point := pointFor (s.dieLimit k) } else s.die k := by
  induction n with
  | zero => exact ⟨rfl, rfl, fun k => by simp⟩
  | succ n ih =>
    obtain ⟨len, mon, dies⟩ := ih (by omega)
    rw [List.range_succ, List.foldl_append]
    generalize (List.range n).foldl State.settleFull s = t at *
    change (t.settleFull n).dies.length = _ ∧ (t.settleFull n).mon = _ ∧ ∀ k, (t.settleFull n).die k = _
    refine ⟨by simpa [State.settleFull, State.setPulses, State.modDie] using len, mon, fun k => ?_⟩
    by_cases at_n : k = n
    · subst at_n
      have same : t.die k = s.die k := (dies k).trans (if_neg (lt_irrefl k))
      have lim : t.dieLimit k = s.dieLimit k := by simp [State.dieLimit, same, mon]
      rw [State.die_settleFull (by omega), if_pos (Nat.lt_succ_self k), same, lim]
    · rw [State.die_settleFull_ne t at_n, dies k]
      simp only [show (k < n + 1) = (k < n) from propext (by omega)]

/-- With no limit in force the dies settle at full rate. -/
theorem exec_voltageStageSettle_full {s : State} (free : 4000 ≤ s.power.limit) :
    exec .voltageStageSettle s = .next (((List.range 8).foldl State.settleFull s).setThrottled false) := by
  change execVoltageStageSettle s = _
  simp only [execVoltageStageSettle, free, decide_true, Bool.true_or, if_true, Bool.not_true, Bool.false_and]
  rfl

/-! ### Rails -/

theorem railSpares_lt_railPhases (r : Rail) : railSpares r < railPhases r := by cases r <;> simp [railSpares, railPhases]

theorem compute_mem_railAll {k : Nat} (h : k < 8) : Rail.compute k ∈ railAll := by
  simp [railAll, h]

/-- Settles O22: caps come into force through `pwrUpdate`, a hold begins and ends in `holdCheck`, and stretching keeps what Millpond reports. -/
theorem powerEventsTakeEffect : Obligations.PowerEventsTakeEffect := by
  unfold Obligations.PowerEventsTakeEffect
  refine ⟨?brake, fun _ => rfl, ?sag, ?sagCap, ?sagHold, fun _ => rfl, ?overvoltage, ?heldExit, ?phase, ?short, ?millpond, ?settle⟩
  case brake =>
    intro s run first
    exact congrArg Host.Outcome.next (if_neg (by simp [run, first]))
  case sag =>
    intro s none run
    refine congrArg Host.Outcome.next ((if_pos none).trans ?_)
    rw [run]
    rfl
  case sagCap =>
    intro s one
    exact congrArg Host.Outcome.next (if_pos one)
  case sagHold =>
    intro s two
    exact congrArg Host.Outcome.next (if_pos two)
  case overvoltage =>
    intro s run first cap
    refine ⟨_, congrArg Host.Outcome.next ((if_neg (by simp [run])).trans (State.holdCheck_begins (by simp [Power.mustHold]) first cap)), by simp, ?_⟩
    exact State.sqGet_raise_congr (by simp) _ _ _
  case heldExit =>
    intro s held sag cap
    exact congrArg Host.Outcome.next (State.holdCheck_ends (by simp [Power.mustHold, sag, Nat.not_lt.mpr cap]) held)
  case phase =>
    intro s r known spare
    have carried := railSpares_lt_railPhases r
    exact (if_neg (by simp [known]; omega)).trans (if_pos spare)
  case short =>
    intro s k run die first
    exact if_neg (by simp [run, compute_mem_railAll die, first])
  case millpond =>
    intro s p1 p10 v full run
    obtain ⟨on, power⟩ := State.stretch_power (s.modPower fun p => { p with
      pIn := p1, vIn := v, p10 := p10, ceiling := p.nextCeiling p1 p10, trough := s.power.fill && decide (p1 < s.power.bandLo) && !full && !s.power.held,
      ballast := ((s.power.balEn && decide (p1 < min s.power.floor (min s.power.bandHi s.power.effCap)) && !s.power.held) ||
        (p.ballast && p.balEn && !p.held && decide (p1 ≤ min p.floor (min p.bandHi p.effCap)))) &&
        (!(s.power.fill && decide (p1 < s.power.bandLo) && !full && !s.power.held) || p.trough) })
    refine ⟨_, if_neg (by simp [run]), ?_⟩
    rw [power]
    exact ⟨rfl, rfl, rfl, rfl, rfl⟩
  case settle =>
    intro s free len
    refine ⟨_, exec_voltageStageSettle_full free, by rw [State.setThrottled_power], fun k die => ?_⟩
    rw [State.setThrottled_die, (State.die_settled 8 len.ge).2.2 k, if_pos die]

end Sys2Proof.Machine
end

section
/-! Temperature and coolant (O23). -/

namespace Sys2Proof.Machine

open Sys2Proof

/-! ### The flags that only a reset clears -/

/-- FAILED, the Easel's stop and THERMTRIP_N. -/
def Health.flags (h : Health) : Bool × Bool × Bool := (h.failed, h.easelStop, h.thermtripN)

theorem Health.of_flags {h k : Health} (same : h.flags = k.flags) : h.failed = k.failed ∧ h.easelStop = k.easelStop ∧ h.thermtripN = k.thermtripN := by
  simpa [Health.flags] using same

@[simp] theorem State.hltRaise_flags (s : State) (b : Nat) : (s.hltRaise b).health.flags = s.health.flags := by simp [State.hltRaise, Health.flags]

@[simp] theorem State.hltUpdate_flags (s : State) : s.hltUpdate.health.flags = s.health.flags := by
  unfold State.hltUpdate
  dsimp only
  split
  · rw [State.hltRaise_flags]
    rfl
  · rfl

@[simp] theorem State.jobStopPins_flags (s : State) : s.jobStopPins.health.flags = s.health.flags := (State.hltRaise_flags _ 3).trans rfl

@[simp] theorem State.contentLost_flags (s : State) : s.contentLost.health.flags = s.health.flags := (State.hltUpdate_flags _).trans rfl

theorem State.foldl_flags {α : Type} (f : State → α → State) (keeps : ∀ s x, (f s x).health.flags = s.health.flags) (l : List α) (s : State) :
    (l.foldl f s).health.flags = s.health.flags := by
  induction l generalizing s with
  | nil => rfl
  | cons x l ih => rw [List.foldl_cons, ih, keeps]

@[simp] theorem State.schedule_health (s : State) : s.schedule.health = s.health :=
  eq_of_outside (State_schedule_fr Frame.rfl Sub.rfl).health (by decide)

@[simp] theorem State.finishAll_health (s : State) (l : List Ref) (st : Nat) : (s.finishAll l st).health = s.health :=
  eq_of_outside (State_finishAll_fr l st Frame.rfl Sub.rfl).health (by decide)

@[simp] theorem State.stopStep_health (s : State) (t : Step) (st : Nat) : (s.stopStep t st).health = s.health :=
  eq_of_outside (State_stopStep_fr t st Frame.rfl Sub.rfl).health (by decide)

@[simp] theorem State.turnDone_health (s : State) (h id : Nat) : (s.turnDone h id).health = s.health :=
  eq_of_outside (State_turnDone_fr h id Frame.rfl Sub.rfl).health (by decide)

@[simp] theorem State.stopJob_flags (s : State) (h cause coord : Nat) : (s.stopJob h cause coord).health.flags = s.health.flags := by
  unfold State.stopJob State.stopJobAs
  dsimp only
  repeat' split
  all_goals simp [State.foldl_health, State.sendSlice_health]

theorem State.lossChecks_flags (s : State) : s.lossChecks.health.flags = s.health.flags := by
  unfold State.lossChecks
  refine State.foldl_flags _ (fun s t => ?_) _ s
  dsimp only
  split
  · exact State.stopJob_flags s _ _ _
  · rfl

@[simp] theorem State.loseObj_health (s : State) (id : Nat) : (s.loseObj id).health = s.health :=
  eq_of_outside (State_loseObj_fr id Frame.rfl Sub.rfl).health (by decide)

@[simp] theorem State.failSlot_health (s : State) (slot st : Nat) : (s.failSlot slot st).health = s.health :=
  eq_of_outside (State_failSlot_fr slot st Frame.rfl Sub.rfl).health (by decide)

@[simp] theorem State.sysLost_health (s : State) (x : SysExt) : (s.sysLost x).health = s.health :=
  eq_of_outside (State_sysLost_fr x Frame.rfl Sub.rfl).health (by decide)

@[simp] theorem State.mendSys_health (s : State) : s.mendSys.health = s.health :=
  eq_of_outside (State_mendSys_fr Frame.rfl Sub.rfl).health (by decide)

@[simp] theorem State.swapChecks_health (s : State) : s.swapChecks.health = s.health :=
  eq_of_outside (State_swapChecks_fr Frame.rfl Sub.rfl).health (by decide)

@[simp] theorem State.killChecks_health (s : State) : s.killChecks.health = s.health :=
  eq_of_outside (State_killChecks_fr Frame.rfl Sub.rfl).health (by decide)

/-- Losing memory clears none of the flags. -/
theorem State.loseMemory_flags (s : State) (hit : Obj → Bool) (dead : Nat → Bool) : (s.loseMemory hit dead).health.flags = s.health.flags := by
  simp [State.loseMemory, State.lossChecks_flags, State.foldl_health, State.foldl_flags]

@[simp] theorem State.loseMemory_failed (s : State) (hit : Obj → Bool) (dead : Nat → Bool) : (s.loseMemory hit dead).health.failed = s.health.failed :=
  (Health.of_flags (s.loseMemory_flags hit dead)).1

@[simp] theorem State.loseMemory_thermtripN (s : State) (hit : Obj → Bool) (dead : Nat → Bool) :
    (s.loseMemory hit dead).health.thermtripN = s.health.thermtripN :=
  (Health.of_flags (s.loseMemory_flags hit dead)).2.2

@[simp] theorem State.portChange_health (s : State) (p : Port) (f : PortSt → PortSt) : (s.portChange p f).health = s.health :=
  eq_of_outside (State_portChange_fr p f Frame.rfl Sub.rfl).health (by decide)

@[simp] theorem State.portChange_nor (s : State) (p : Port) (f : PortSt → PortSt) : (s.portChange p f).nor = s.nor :=
  eq_of_outside (State_portChange_fr p f Frame.rfl Sub.rfl).nor (by decide)

/-! ### Sensors -/

@[simp] theorem State.pwrUpdate_mon (s : State) : s.pwrUpdate.mon = s.mon := eq_of_outside (State_pwrUpdate_fr Frame.rfl Sub.rfl).mon (by decide)

@[simp] theorem State.coolCause_mon (s : State) : s.coolCause.mon = s.mon := eq_of_outside (State_coolCause_fr Frame.rfl Sub.rfl).mon (by decide)

@[simp] theorem State.thermDie_mon (s : State) (k : Nat) : (s.thermDie k).mon = s.mon := eq_of_outside (State_thermDie_fr k Frame.rfl Sub.rfl).mon (by decide)

@[simp] theorem State.apart_mon (s : State) (i : Nat) : (s.apart i).2.mon = s.mon :=
  eq_of_outside (State_apart_fr i Frame.rfl Sub.rfl).mon (by decide)

theorem State.foldl_mon {α β : Type} (part : Mon → β) (f : State → α → State) (keeps : ∀ s x, part (f s x).mon = part s.mon) (l : List α) (s : State) :
    part (l.foldl f s).mon = part s.mon := by
  induction l generalizing s with
  | nil => rfl
  | cons x l ih => rw [List.foldl_cons, ih, keeps]

theorem State.readSpeed_sense (s : State) : s.readSpeed.mon.sense = s.mon.sense := by
  unfold State.readSpeed
  refine State.foldl_mon Mon.sense _ (fun s k => ?_) _ s
  simp

theorem State.judgeSensor_sense (s : State) (i : Nat) : (s.judgeSensor i).mon.sense = s.mon.sense := by
  unfold State.judgeSensor
  dsimp only
  repeat' split
  all_goals simp

theorem State.judgeSensor_fails {s : State} {i : Nat} (out : outOfRange (s.mon.reading i) = true) : i ∈ (s.judgeSensor i).mon.fail := by
  unfold State.judgeSensor
  split
  case isTrue failed => simpa using failed
  case isFalse first => simp

/-- What follows on the judging of the sensors keeps their readings and failures. -/
theorem State.thermRest_mon (s : State) : ((List.range 8).foldl (fun s k => if (s.die k).lost then s else s.thermDie k) s).mon = s.mon :=
  State.foldl_mon id _ (fun s k => by split <;> simp) _ s

/-! ### Thermistors -/

/-- The four thermistors and which of them fail. -/
def Mon.pairs (m : Mon) : (Int × Int × Int × Int) × Bool × Bool × Bool × Bool :=
  ((m.inA, m.inB, m.outA, m.outB), m.inFailA, m.inFailB, m.outFailA, m.outFailB)

theorem Mon.pairs_revRule (m : Mon) (p : Nat) (i o : Option Int) : (m.revRule p i o).pairs = m.pairs := by
  unfold Mon.revRule
  split <;> rfl

theorem Mon.pairs_lowRule (m : Mon) (c : Option Nat) : (m.lowRule c).pairs = m.pairs := by
  unfold Mon.lowRule
  split <;> rfl

theorem Mon.pairs_lossRule (m : Mon) (p : Nat) (i o : Option Int) (c : Option Nat) : (m.lossRule p i o c).pairs = m.pairs := by
  unfold Mon.lossRule
  dsimp only
  repeat' split
  all_goals rfl

/-- Settles O23: the readings stand through the judging of the sensors, and the trip's flags through the loss of memory. -/
theorem thermalEventsTakeEffect : Obligations.ThermalEventsTakeEffect := by
  unfold Obligations.ThermalEventsTakeEffect
  refine ⟨?sample, ?trip, ?coolant, ?droop⟩
  case sample =>
    intro s i v run inRange
    refine ⟨_, if_neg (by simp [run]), ?_⟩
    simp only [State.pwrUpdate_mon, State.modMon_mon, State.raiseIf_mon, State.thermRest_mon, List.filter_cons, inRange, decide_true, if_true,
      List.filter_nil, List.map_cons, List.map_nil, List.foldl_cons, List.foldl_nil]
    refine ⟨?_, fun out => State.judgeSensor_fails ?_⟩
    · rw [State.judgeSensor_sense, State.modMon_mon, State.readSpeed_sense]
    · simpa [Mon.reading, assocGet_assocSet] using out
  case trip =>
    intro s i run first inRange
    refine ⟨_, if_neg (by simp [run, first, inRange]), rfl, ?_, ?_⟩
    · simp
    · simp [(s.modNor fun n => { n with trips := n.trips + 1 }).fail_health true]
  case coolant =>
    intro s a b c d p run
    refine ⟨_, if_neg (by simp [run]), ?_⟩
    have rules (m : Mon) (i o j u w : Option Int) (e f : Option Nat) : ((((m.revRule p i o).inletRules u).lowRule e).lossRule p j w f).pairs = m.pairs := by
      rw [Mon.pairs_lossRule, Mon.pairs_lowRule]
      exact Mon.pairs_revRule m p i o
    simp only [State.pwrUpdate_mon, State.coolCause_mon, State.raiseIf_mon, State.modPower_mon, State.modMon_mon]
    exact Prod.ext_iff.mp (rules _ _ _ _ _ _ _ _)
  case droop =>
    intro s k run
    exact ⟨_, congrArg Host.Outcome.next (if_neg (by simp [run])), rfl⟩

end Sys2Proof.Machine
end

section
/-! Link states, flits and credits (O24, O25). -/

namespace Sys2Proof.Machine

open Sys2Proof

@[simp] theorem State.narrowCause_links (s : State) : s.narrowCause.links = s.links :=
  eq_of_outside (State_narrowCause_fr Frame.rfl Sub.rfl).links (by decide)

theorem State.link_congr {s t : State} (same : s.links = t.links) (i : Nat) : s.link i = t.link i := by rw [State.link, State.link, same]

/-- A link that is neither down already nor waits for a coordinate fails. -/
theorem State.linkFail_of_active {s : State} {i : Nat} (active : (s.link i).state = .up ∨ (s.link i).state = .retrain) :
    s.linkFail i = ((s.linkGone i .failed).raise (.lnk i) 3).faultTrigger 3 := by
  unfold State.linkFail
  obtain up | again := active <;> simp [*]

/-- A link in training whose lanes all train goes on to the check of its neighbour. -/
theorem exec_linkTrainDone_all {s : State} {i good pol : Nat} (rev : Bool) (train : (s.link i).state = .train)
    (all : laneCount (good % 2 ^ (if i < 28 then 4 else 8)) = (if i < 28 then 4 else 8)) :
    exec (.linkTrainDone i good pol rev) s = .next (((s.modLink i fun l => { l with
      lanes := good % 2 ^ (if i < 28 then 4 else 8), narrow := false, pol := pol % 2 ^ (if i < 28 then 4 else 8), reversed := rev, state := .check }).sendIdent i
        ((s.modLink i fun l => { l with
      lanes := good % 2 ^ (if i < 28 then 4 else 8), narrow := false, pol := pol % 2 ^ (if i < 28 then 4 else 8), reversed := rev, state := .check }).ownIdent i)).narrowCause) := by
  have enough : ¬ (if i < 28 then 4 else 8) < (if i < 28 then 4 else 8) / 2 := by split <;> decide
  change execLinkTrainDone i good pol rev s = _
  have slow : (LState.train == LState.retrain) = false := rfl
  simp only [execLinkTrainDone, train, all, enough, if_false, slow]
  simp

/-- Settles O24: training sets the lanes, the IDENT decides between UP and MISWIRE, and the remaining events follow the link's state. -/
theorem linkStates : Obligations.LinkStates := by
  unfold Obligations.LinkStates
  refine ⟨?trained, ?few, ?timeout, ?passes, ?miswire, ?recheck, ?lane, ?fails, ?retry, ?restore⟩
  case trained =>
    intro s i good pol rev train here all
    refine ⟨_, exec_linkTrainDone_all rev train all, ?_⟩
    rw [State.link_congr (State.narrowCause_links _)]
    exact State.link_modLink _ _ _ here
  case few =>
    intro s i good pol rev train bad
    change execLinkTrainDone i good pol rev s = _
    simp only [execLinkTrainDone, train, bad]
    rfl
  case timeout =>
    intro s i again
    exact congrArg Host.Outcome.next (if_pos (by simp [again]))
  case passes =>
    intro s i ack x check ok
    change execIdentReceived ⟨i, ack⟩ x s = _
    simp [execIdentReceived, check, ok]
  case miswire =>
    intro s i ack x check bad
    change execIdentReceived ⟨i, ack⟩ x s = _
    simp [execIdentReceived, check, bad]
  case recheck =>
    intro s i x miswire peer ok
    change execMiswireRecheck i s = _
    simp [execMiswireRecheck, miswire, peer, ok]
  case lane =>
    intro s i lane up used wide here
    refine ⟨((s.draw.2.raiseIf (s.draw.1 % 2 == 1) (.lnk i) 5).linkTo i .retrain).modLink i fun l => { l with lanes := 0 }, ?_, ?_⟩
    · change execLaneFault i lane s = _
      simp [execLaneFault, up, used, wide]
    · rw [State.link_modLink _ _ _ (by simpa [State.linkTo] using here)]
      simp [State.linkTo, State.link, here]
  case fails =>
    intro s i up
    exact congrArg Host.Outcome.next (State.linkFail_of_active (.inl up))
  case retry =>
    intro s i failed free
    exact congrArg Host.Outcome.next (if_pos (by simp [failed, free]))
  case restore =>
    intro s i up narrow free
    exact congrArg Host.Outcome.next (if_pos (by simp [up, narrow, free]))

/-- An intact flit on a link that is up acknowledges first. -/
theorem exec_dataFlitReceived {s : State} {i : Nat} {f : Flit} (up : (s.link i).state = .up) :
    exec (.dataFlitReceived i f true) s = .next (
      if f.seq = (s.link i).rxNext then
        if 3 ≤ f.cls then (s.flitIn i f.ack).modLink i fun l => { l with rxNext := (l.rxNext + 1) % 4096, nakSent := false }
        else if f.part + 1 = pktFlits f.pkt then
          ((s.flitIn i f.ack).modLink i fun l => { l with rxNext := (l.rxNext + 1) % 4096, nakSent := false }).takePacket i f.pkt
        else if rxBuf f.cls < pktFlits f.pkt then
          ((s.flitIn i f.ack).modLink i fun l => { l with rxNext := (l.rxNext + 1) % 4096, nakSent := false }).giveBack i f.cls 1
        else (s.flitIn i f.ack).modLink i fun l => { l with rxNext := (l.rxNext + 1) % 4096, nakSent := false }
      else if (f.seq + 4096 - (s.link i).rxNext) % 4096 < 2048 then (s.flitIn i f.ack).sendNak i
      else s.flitIn i f.ack) := by
  change execDataFlitReceived i f true s = _
  simp only [execDataFlitReceived, up, bne_self_eq_false, Bool.not_true, Bool.false_eq_true, if_false]
  by_cases next : f.seq = (s.link i).rxNext
  · rw [if_pos next, if_pos next]
    rfl
  · rw [if_neg next, if_neg next]
    split <;> rfl

/-- Settles O25: the cases of a data flit, replay, and credits. -/
theorem flitsAndCredits : Obligations.FlitsAndCredits := by
  unfold Obligations.FlitsAndCredits
  refine ⟨?last, ?part, ?tooLong, ?gap, ?nak, ?timeout, ?credits, ?timer, ?sent⟩
  case last =>
    intro s i f up next cls last
    rw [exec_dataFlitReceived up, if_pos next, if_neg (by omega), if_pos last]
  case part =>
    intro s i f up next cls more fits
    rw [exec_dataFlitReceived up, if_pos next, if_neg (by omega), if_neg more, if_neg (by omega)]
  case tooLong =>
    intro s i f up next cls more tooLong
    rw [exec_dataFlitReceived up, if_pos next, if_neg (by omega), if_neg more, if_pos tooLong]
  case gap =>
    intro s i f up gap ahead
    rw [exec_dataFlitReceived up, if_neg gap, if_pos ahead]
  case nak =>
    intro s i ack n up
    exact congrArg Host.Outcome.next (if_pos (by simp [up]))
  case timeout =>
    intro s i up
    exact congrArg Host.Outcome.next (if_pos (by simp [up]))
  case credits =>
    intro s i ack c0 c1 c2 h0 h1 h2
    change execCreditReceived ⟨i, ack⟩ c0 c1 c2 s = _
    simp only [execCreditReceived, Nat.mod_eq_of_lt h0, Nat.mod_eq_of_lt h1, Nat.mod_eq_of_lt h2]
  case timer =>
    intro s i a b c owed some_
    exact congrArg Host.Outcome.next (if_pos (by simp [owed]; omega))
  case sent =>
    intro s i here
    exact ⟨congrArg Link.owed (State.link_modLink _ _ _ here), _, rfl⟩

end Sys2Proof.Machine
end

section
/-! The router and the twin, slice messages and Stills (O26, O27, O28). -/

namespace Sys2Proof.Machine

open Sys2Proof

/-! ### Routing -/

theorem State.route_of_routePacket {s t : State} {p : Packet} (i : Nat) (goes : s.routePacket p = (t, false)) : s.route i p = (t, false) := by
  simp [State.route, goes]

theorem exec_packetRoute {s t : State} {p : Packet} (goes : s.routePacket p = (t, false)) : exec (.packetRoute p) s = .next t :=
  congrArg Host.Outcome.next (congrArg Prod.fst (State.route_of_routePacket 30 goes))

/-- Settles O26: a packet of a held slice is never held back, and the twin is answered from a resident object. -/
theorem routerTakesEffect : Obligations.RouterTakesEffect := by
  unfold Obligations.RouterTakesEffect
  refine ⟨?here, ?forward, ?dropped, ?empty, ?window, ?absent, ?resident, ?noSource⟩
  case here =>
    intro s p h slice here
    exact exec_packetRoute (by simp [State.routePacket, slice, here])
  case forward =>
    intro s p q h b slice away hop
    exact exec_packetRoute (by simp [State.routePacket, slice, away, hop])
  case dropped =>
    intro s p h slice away hop
    exact exec_packetRoute (by simp [State.routePacket, slice, away, hop])
  case empty =>
    intro s none
    refine ⟨_, ?_, rfl⟩
    change execTransitWindow s = _
    simp [execTransitWindow, none]
  case window =>
    intro s t i p held link goes
    change execTransitWindow s = _
    simp [execTransitWindow, held, goes, Nat.not_le.mpr link]
  case absent =>
    intro s obj tile absent
    change execTwinTileRequest obj tile s = _
    simp [execTwinTileRequest, absent]
  case resident =>
    intro s obj tile o found resident kept movable whole
    change execTwinTileRequest obj tile s = _
    simp [execTwinTileRequest, found, resident, kept, movable, whole]
  case noSource =>
    intro s obj o found arriving twin
    change execNoSourceAnswer obj s = _
    simp [execNoSourceAnswer, found, arriving, twin]

/-! ### Slice messages -/

/-- A handle that is joining is freed, and its SLICE_JOIN ends with the status. -/
theorem State.endJoin_of_joining {s : State} {h : Nat} {r : Ref} (st : Nat) (joining : (s.slc h).state = .joining) (ref : (s.slc h).ref = some r)
    (none_ : (s.slc h).waitLoads = []) :
    s.endJoin h st = (((s.modSlc h fun _ => State.slice0).raise .rte 3).finishAll [] stNotFound).finish r st := by
  simp [State.endJoin, joining, ref, none_]

/-- Settles O27: a member's messages act on the handle of their tag while it is joining. -/
theorem sliceMessages : Obligations.SliceMessages := by
  unfold Obligations.SliceMessages
  refine ⟨?join, ?early, ?ack, ?fail, ?expire⟩
  case join =>
    intro s m h up slice joining master
    refine congrArg Host.Outcome.next ((if_pos up).trans ?_)
    simp [State.takeJoin, slice, joining, master]
  case early =>
    intro s m up none
    refine ⟨_, congrArg Host.Outcome.next (if_pos up), ?_⟩
    simp [State.takeJoin, none]
  case ack =>
    intro s m h r up slice joining ref
    refine congrArg Host.Outcome.next ((if_pos up).trans ?_)
    simp [State.takeAck, slice, joining, ref]
  case fail =>
    intro s m h r up slice joining ref none
    refine congrArg Host.Outcome.next ((if_pos up).trans ?_)
    simp only [State.takeJoinFail, slice, State.endJoin_of_joining _ joining ref none]
  case expire =>
    intro s h r up joining ref none
    exact congrArg Host.Outcome.next ((if_pos up).trans (State.endJoin_of_joining _ joining ref none))

/-! ### Stills -/

/-- Settles O28: a new token of a joined slice is passed on, and captures or counts as missed. -/
theorem stillsTakeEffect : Obligations.StillsTakeEffect := by
  unfold Obligations.StillsTakeEffect
  refine ⟨?captures, ?missed, ?high, fun s => ⟨_, rfl, rfl⟩⟩
  case captures =>
    intro s tag origin n h slice joined new armed
    change execStillToken tag origin n s = _
    simp [execStillToken, slice, joined, new, armed]
    rfl
  case missed =>
    intro s tag origin n h slice joined new unarmed
    refine ⟨((s.modSnap fun x => { x with pairs := keepPair x.pairs (origin, n), fwd := satAdd 16 x.fwd 1 }).emits
      ((s.neighbours h).map fun c => .still c tag origin n)).modSnap fun x => { x with missed := satAdd 16 x.missed 1 }, ?_, rfl, rfl, rfl⟩
    change execStillToken tag origin n s = _
    simp [execStillToken, slice, joined, new, unarmed]
    rfl
  case high =>
    intro s ns high run
    exact congrArg Host.Outcome.next (if_pos (by simp [high, run]))

end Sys2Proof.Machine
end

section
/-! Movement of objects and tiles, and memory faults (O29, O30). -/

namespace Sys2Proof.Machine

open Sys2Proof

/-! ### Tiles of an arrival -/

/-- A tile whose turn has come, with its source's bytes: it lands when they pass, and else is read once more or ends the arrival. -/
theorem State.landTile_of_next {s : State} {id i : Nat} {o : Obj} {src : LoadSrc} {rd : Nat → Nat → List Byte} {t : TileDir} (b : List Byte)
    (found : s.obj id = some o) (source : o.src = some src) (arriving : o.res = .arriving) (local_ : src ≠ .twin) (tiled : o.tiles ≠ 0)
    (next : s.landNext o src i = true) (dir : o.dir[i]? = some t) (read : s.sourceRead o src i = some rd) :
    s.landTile id i b =
      let u := (s.readSource src id (s.wanted o.id i) t.off t.bytes).readSource src id (s.wanted o.id i) t.scaleOff t.scaleBytes
      if (tileBytes rd t).length = t.bytes + t.scaleBytes ∧ tilePasses t (tileBytes rd t) = true then
        let v := ((u.objWrite o t.off ((tileBytes rd t).take t.bytes)).objWrite o t.scaleOff ((tileBytes rd t).drop t.bytes)).modObj id
          fun o => { o with landed := o.landed ++ [i] }
        if o.landed.length + 1 = o.tiles then v.arrivalWhole id else v
      else if i ∈ o.retried then u.arrivalLost id
      else u.modObj id fun o => { o with retried := o.retried ++ [i] } := by
  simp [State.landTile, found, source, arriving, local_, tiled, next, dir, read]

/-- An untiled object arrives whole from a source that can be read. -/
theorem State.landTile_untiled {s : State} {id : Nat} {o : Obj} {src : LoadSrc} {rd : Nat → Nat → List Byte} (i : Nat) (b : List Byte)
    (found : s.obj id = some o) (source : o.src = some src) (arriving : o.res = .arriving) (local_ : src ≠ .twin) (untiled : o.tiles = 0)
    (read : s.sourceRead o src 0 = some rd) :
    s.landTile id i b = ((s.readSource src id (!(s.waiters id).isEmpty) 0 o.size).objWrite o 0 (padTo o.size (rd 0 o.size))).arrivalWhole id := by
  simp [State.landTile, found, source, arriving, local_, untiled, read]

/-! ### Stage copies -/

@[simp] theorem State.die_readTileCopy (s : State) (demand : Bool) (id : Nat) (t : TileDir) (k : Nat) : (s.readTileCopy demand id t).die k = s.die k := by
  have dies : (s.readTileCopy demand id t).dies = s.dies := eq_of_outside (State_readTileCopy_fr demand id t Frame.rfl Sub.rfl).dies (by decide)
  rw [State.die, dies, State.die]

/-- A change that leaves the die as it is changes nothing. -/
theorem State.modDie_eq_self {s : State} {k : Nat} {f : Die → Die} (same : f (s.die k) = s.die k) : s.modDie k f = s := by
  have dies : s.dies.modify k f = s.dies := by
    refine List.ext_getElem (by simp) fun j h₁ h₂ => ?_
    rw [List.getElem_modify]
    split
    case isTrue at_ =>
      subst at_
      simpa [State.die, List.getD_eq_getElem?_getD, h₂] using same
    case isFalse => rfl
  rw [State.modDie, dies]

theorem Die.mapRoom_of_room {d : Die} (room : d.held.length < 4096) : d.mapRoom = d := by simp [Die.mapRoom, room]

/-- Settles O29: each movement takes its next step when its guards pass. -/
theorem movementTakesEffect : Obligations.MovementTakesEffect := by
  unfold Obligations.MovementTakesEffect
  refine ⟨?lands, ?again, ?lost, ?untiled, ?writeOut, ?release, ?releaseCopied, ?shared, ?durable, ?staged, ?stagedCopy, ?cold, ?swap⟩
  case lands =>
    intro s id i b o src rd t found source arriving local_ tiled next dir read len passes more
    refine congrArg Host.Outcome.next ((State.landTile_of_next b found source arriving local_ tiled next dir read).trans ?_)
    simp only [len, passes, more, and_self, if_true, if_false]
  case again =>
    intro s id i b o src rd t found source arriving local_ tiled next dir read fails new
    refine congrArg Host.Outcome.next ((State.landTile_of_next b found source arriving local_ tiled next dir read).trans ?_)
    simp only [fails, new, Bool.false_eq_true, and_false, if_false]
  case lost =>
    intro s id i b o src rd t found source arriving local_ tiled next dir read fails old
    refine congrArg Host.Outcome.next ((State.landTile_of_next b found source arriving local_ tiled next dir read).trans ?_)
    simp only [fails, old, Bool.false_eq_true, and_false, if_false, if_true]
  case untiled =>
    intro s id i b o src rd found source arriving local_ untiled read
    exact congrArg Host.Outcome.next (State.landTile_untiled i b found source arriving local_ untiled read)
  case writeOut =>
    intro s id o found departing writes none ready
    change execDepartWriteoutDone id s = _
    simp [execDepartWriteoutDone, found, departing, writes, none, ready]
  case release =>
    intro s id o found departing first written free bare
    change execDepartRelease id s = _
    simp [execDepartRelease, found, departing, first, written, free, bare, State.releaseBytes]
  case releaseCopied =>
    intro s id o found departing first written free copied
    change execDepartRelease id s = _
    simp [execDepartRelease, found, departing, first, written, free, copied, State.releaseBytes]
  case shared =>
    intro s id o found departing writes waits ready
    change execDepartWriteoutDone id s = _
    simp [execDepartWriteoutDone, found, departing, writes, waits, ready]
  case durable =>
    intro s id o c found copy fresh ready written resident
    change execFlashCopyDurable id s = _
    simp [execFlashCopyDurable, found, copy, fresh, ready, written, resident]
  case staged =>
    intro s k id tile x o t b asked found dir resident order ready bytes clear room
    change execStageCopyWrite k id tile s = _
    have same : s.modDie k Die.mapRoom = s := State.modDie_eq_self (Die.mapRoom_of_room room)
    simp [execStageCopyWrite, asked, found, dir, resident, order, ready, bytes, clear, room, same]
  case stagedCopy =>
    intro s k id tile x o t b asked found dir order ready bytes clear room
    change execStageCopyWrite k id tile s = _
    have same : (s.readTileCopy false id t).modDie k Die.mapRoom = s.readTileCopy false id t :=
      State.modDie_eq_self (Die.mapRoom_of_room (by simpa using room))
    have later : (x.order != 1) = true := bne_iff_ne.mpr order
    simp [execStageCopyWrite, asked, found, dir, order, later, ready, bytes, clear, room, same]
  case cold =>
    intro s k id tile a x o st t c mine tile_ needed found stage dir copy durable passes room held
    change execColdTileLand k id tile s = _
    have same : ((s.readTileCopy true id t).modDie k fun _ => s.die k) = s.readTileCopy true id t := State.modDie_eq_self (by simp)
    simp only [execColdTileLand, mine]
    simp [tile_, needed, found, stage, dir, copy, durable, passes, room, Nat.not_le.mpr held, Die.mapRoom_of_room held, same]
  case swap =>
    intro s h w swap first older none
    refine congrArg Host.Outcome.next (congrArg State.killChecks ?_)
    simp [State.swapStart, swap, first, older, none]

/-! ### Memory faults -/

/-- Settles O30: what one failed read, one failed channel or one bad tile does. -/
theorem memoryFaults : Obligations.MemoryFaults := by
  unfold Obligations.MemoryFaults
  refine ⟨?rebuilt, ?loses, ?channel, ?mismatch, ?repaired, ?noCopy⟩
  case rebuilt =>
    intro s a g r region works kept here parity
    change execMemReadUncorrectable a s = _
    simp [execMemReadUncorrectable, region, works, kept, here, parity]
  case loses =>
    intro s a g r region works kept here
    change execMemReadUncorrectable a s = _
    simp [execMemReadUncorrectable, region, works, kept, here]
  case channel =>
    intro s c inRange works first
    refine congrArg Host.Outcome.next ?_
    simp [State.channelFail, works, Nat.not_le.mpr inRange, first]
  case mismatch =>
    intro s g st kept here
    exact if_neg (by simp [kept, here])
  case repaired =>
    intro s id tile o t c found dir kind resident kept copy copied ready durable passes
    change execTileRepair id tile s = _
    simp [execTileRepair, found, dir, kind, resident, kept, copy, copied, ready, durable, passes]
  case noCopy =>
    intro s id tile o t found dir kind resident kept bare
    change execTileRepair id tile s = _
    cases copy : s.fcopyOf id <;> simp [execTileRepair, found, dir, kind, resident, kept, bare, copy]

end Sys2Proof.Machine
end

section
/-! The flash tier's operations, failures and care (O31). -/

namespace Sys2Proof.Machine

open Sys2Proof

/-! ### What a rebuild keeps: the dies still to rebuild and the spare blocks -/

/-- The failed dies that are not rebuilt yet and the number of spare blocks. -/
def Flash.spares (f : Flash) : List Nat × Nat := (f.unbuilt, f.spareBlocks)

theorem State.modFlash_spares {s : State} {g : Flash → Flash} (keeps : ∀ f, (g f).spares = f.spares) : (s.modFlash g).flash.spares = s.flash.spares :=
  keeps s.flash

theorem State.foldl_spares {α : Type} {f : State → α → State} (keeps : ∀ s x, (f s x).flash.spares = s.flash.spares) (l : List α) (s : State) :
    (l.foldl f s).flash.spares = s.flash.spares := by
  induction l generalizing s with
  | nil => rfl
  | cons x l ih => rw [List.foldl_cons, ih, keeps]

theorem Flash.startOp_spares (f : Flash) (d : Nat) : (f.startOp d).spares = f.spares := by
  unfold Flash.startOp
  split <;> rfl

theorem Flash.foldl_startOp_spares (l : List Nat) (f : Flash) : (l.foldl Flash.startOp f).spares = f.spares := by
  induction l generalizing f with
  | nil => rfl
  | cons d l ih => rw [List.foldl_cons, ih, Flash.startOp_spares]

theorem State.modBlock_spares (s : State) (d b : Nat) (g : NBlock → NBlock) : (s.modBlock d b g).flash.spares = s.flash.spares :=
  State.modFlash_spares fun _ => rfl

theorem State.countBlock_spares (s : State) (d b : Nat) (g : NBlock → NBlock) : (s.countBlock d b g).flash.spares = s.flash.spares := by
  unfold State.countBlock
  split
  · rw [State.raiseIf_flash]
    exact State.modBlock_spares s d b _
  · rfl

theorem State.readNand_spares (s : State) (demand : Bool) (n : Nat) (p : NPlace) : (s.readNand demand n p).flash.spares = s.flash.spares := by
  have counted := State.countBlock_spares s.draw.2 p.die p.block fun k => { k with reads := k.reads + n, due := k.due || decide (8 ≤ s.draw.1 % 256) }
  unfold State.readNand
  dsimp only
  split
  · exact (State.modFlash_spares fun _ => rfl).trans counted
  · exact counted

theorem State.readLog_spares (s : State) (demand : Bool) (inStripe : Stripe → Bool) (want : PageRef → Bool) :
    (s.readLog demand inStripe want).flash.spares = s.flash.spares := by
  unfold State.readLog
  exact State.foldl_spares (fun s (x : Nat × NPlace) => s.readNand_spares demand x.1 x.2) _ s

theorem State.nextBlock_flash (s : State) (c : Nat) : (s.nextBlock c).2.flash = s.flash :=
  eq_of_outside (State_nextBlock_fr c Frame.rfl Sub.rfl).flash (by decide)

theorem Flash.level_spares (f : Flash) : f.level.spares = f.spares := by
  unfold Flash.level
  dsimp only
  split <;> rfl

theorem State.logPage_spares (s : State) (spill : Bool) (c depth : Nat) : (s.logPage spill c depth).2.flash.spares = s.flash.spares := by
  unfold State.logPage
  split
  · exact State.modFlash_spares fun _ => rfl
  · have kept := congrArg Flash.spares (s.nextBlock_flash c)
    split
    case h_1 next => rwa [next] at kept
    case h_2 next =>
      rw [next] at kept
      exact (State.modFlash_spares fun f => f.level_spares).trans ((State.modBlock_spares _ _ _ _).trans kept)

/-- One page of each channel: what a stripe writes, and the state after it. -/
def State.stripePages (spill : Bool) (x : List NPlace × State) (c : Nat) : List NPlace × State :=
  match x.2.logPage spill c (if spill then 4 else 1) with
  | (some p, s) => (x.1 ++ [p], s)
  | (none, s) => (x.1, s)

theorem State.stripePages_spares (spill : Bool) (l : List Nat) (x : List NPlace × State) :
    (l.foldl (State.stripePages spill) x).2.flash.spares = x.2.flash.spares := by
  induction l generalizing x with
  | nil => rfl
  | cons c l ih =>
    have page := x.2.logPage_spares spill c (if spill then 4 else 1)
    rw [List.foldl_cons, ih, ← page, State.stripePages]
    split <;> simp only [*]

theorem State.logStripe_spares {s t : State} {spill : Bool} {refs : List PageRef} (done : s.logStripe spill refs = some t) :
    t.flash.spares = s.flash.spares := by
  have pages := State.stripePages_spares spill s.flash.chans ([], s)
  simp only [State.logStripe, Option.ite_none_left_eq_some] at done
  obtain ⟨-, same⟩ := done
  rw [← Option.some.inj same]
  refine (State.modFlash_spares fun f => ?_).trans pages
  exact Flash.foldl_startOp_spares _ _

theorem State.logWrite_spares {s t : State} {spill : Bool} {refs : List PageRef} (done : s.logWrite spill refs = some t) :
    t.flash.spares = s.flash.spares := by
  have steps (w : Nat) (l : List Nat) : ∀ x : Option State, (∀ u, x = some u → u.flash.spares = s.flash.spares) →
      ∀ t, l.foldl (fun (x : Option State) i => x.bind fun s => s.logStripe spill ((refs.drop (i * w)).take w)) x = some t →
        t.flash.spares = s.flash.spares := by
    induction l with
    | nil => exact fun x hx t ht => hx t ht
    | cons i l ih =>
      refine fun x hx => ih _ fun u hu => ?_
      obtain ⟨v, hv, stripe⟩ := Option.bind_eq_some_iff.mp hu
      exact (State.logStripe_spares stripe).trans (hx v hv)
  exact steps _ _ (some s) (fun u hu => by rw [Option.some.inj hu]) t done

theorem State.storeUnit_spares {s t : State} {obj unit : Nat} (done : s.storeUnit obj unit = some t) : t.flash.spares = s.flash.spares := by
  unfold State.storeUnit at done
  obtain ⟨u, written, rfl⟩ := Option.map_eq_some_iff.mp done
  exact (State.modFlash_spares fun _ => rfl).trans ((State.logWrite_spares written).trans (State.modFlash_spares fun _ => rfl))

theorem State.logSpill_spares {s t : State} {pool page n loc : Nat} (done : s.logSpill pool page n = some (loc, t)) :
    t.flash.spares = s.flash.spares := by
  unfold State.logSpill at done
  obtain ⟨u, written, found⟩ := Option.bind_eq_some_iff.mp done
  obtain ⟨x, -, same⟩ := Option.map_eq_some_iff.mp found
  obtain ⟨-, rfl⟩ := Prod.mk.inj same
  exact State.logWrite_spares written

theorem State.setLoc_spares (s : State) (pool page loc : Nat) : (s.setLoc pool page loc).flash.spares = s.flash.spares := by
  unfold State.setLoc
  dsimp only
  split <;> rfl

theorem State.readExt_spares (s : State) (demand : Bool) (pool page : Nat) : (s.readExt demand pool page).flash.spares = s.flash.spares :=
  s.readLog_spares demand _ _

theorem State.moveExt_spares (s : State) (pool page : Nat) : (s.moveExt pool page).flash.spares = s.flash.spares := by
  have read := s.readExt_spares false pool page
  unfold State.moveExt
  dsimp only
  split
  next stored => exact (State.setLoc_spares _ _ _ _).trans ((State.logSpill_spares stored).trans ((State.modFlash_spares fun _ => rfl).trans read))
  · exact read

theorem State.moveUnit_spares (s : State) (obj unit : Nat) : (s.moveUnit obj unit).flash.spares = s.flash.spares := by
  have read := s.readLog_spares false (fun t => !t.spill) fun r => r.obj == obj && r.unit == unit
  unfold State.moveUnit
  dsimp only
  split
  · exact read
  next stored => exact (State.modFlash_spares fun _ => rfl).trans ((State.storeUnit_spares stored).trans read)

theorem State.moveOwner_spares (s : State) (x : Bool × Nat × Nat) : (s.moveOwner x).flash.spares = s.flash.spares := by
  unfold State.moveOwner
  split
  · exact s.moveExt_spares _ _
  · exact s.moveUnit_spares _ _

theorem State.rebuildStripe_spares (s : State) (die : Nat) (t : Stripe) : (s.rebuildStripe die t).flash.spares = s.flash.spares := by
  unfold State.rebuildStripe
  lift_lets
  intro n read
  have kept : read.flash.spares = s.flash.spares := State.foldl_spares (fun s p => s.readNand_spares false n p) _ s
  have page := (read.logPage_spares t.spill (pkgOf die) n).trans kept
  rcases logged : read.logPage t.spill (pkgOf die) n with ⟨q, u⟩
  rw [logged] at page
  cases q with
  | none => exact page
  | some q =>
    refine (State.modFlash_spares fun f => ?_).trans page
    exact Flash.startOp_spares _ _

theorem State.rebuild_spares (s : State) (die : Nat) : (s.rebuild die).flash.spares = s.flash.spares := by
  unfold State.rebuild
  dsimp only
  split
  · refine (State.foldl_spares (fun s x => ?_) _ _).trans (State.foldl_spares (fun s t => s.rebuildStripe_spares die t) _ _)
    split
    · exact s.setLoc_spares _ _ _
    · rfl
  · exact State.foldl_spares State.moveOwner_spares _ s

/-! ### The operations -/

@[simp] theorem State.setCause_flash (s : State) (b : Nat) : (s.setCause b).flash = s.flash :=
  eq_of_outside (State_setCause_fr b Frame.rfl Sub.rfl).flash (by decide)

/-- Too few spare blocks only stop writing. -/
theorem State.spareCheck_flash (s : State) : ∃ off, s.spareCheck.flash = { s.flash with readonly := off } := by
  unfold State.spareCheck
  dsimp only
  repeat' split
  · exact ⟨true, by simp⟩
  · exact ⟨s.flash.readonly, by simp⟩
  · exact ⟨true, by simp⟩
  · exact ⟨s.flash.readonly, rfl⟩

theorem State.readTemps_blocks (s : State) : s.readTemps.flash.blocks = s.flash.blocks := by
  unfold State.readTemps
  generalize List.range 16 = pkgs
  induction pkgs generalizing s with
  | nil => rfl
  | cons p l ih => exact ih _

theorem Flash.owners_eq_nil {f : Flash} {hit : Stripe → Bool} (free : f.stripes.any hit = false) : f.owners hit = [] := by
  have none : f.stripes.filter hit = [] := List.filter_eq_nil_iff.mpr fun t ht => Bool.not_eq_true _ ▸ List.any_eq_false.mp free t ht
  rw [Flash.owners, none]
  rfl

/-- A die is rebuilt, or its rebuild runs out of spare blocks. -/
theorem exec_nandRebuildDone {s : State} {d : Nat} (ok : Bool) (waits : d ∈ s.flash.unbuilt) (runs : s.flash.rebuild = true) (cool : s.flash.paused = []) :
    exec (.nandRebuildDone d ok) s = .next (
      let u := ((if ok then s.draw.2.rebuild d else s.draw.2).modFlash fun f => { f with
        unbuilt := if ok then f.unbuilt.filter fun x => x != d else f.unbuilt
        rebuild := ok && !(f.unbuilt.filter fun x => x != d).isEmpty
        spareBlocks := if ok then s.draw.1 % (f.spareBlocks + 1) else 0 })
      if ok then (u.raise .fls 1).spareCheck
      else ((((u.raise .fls 1).spareCheck).modFlash fun f => { f with readonly := true }).raise .fls 5).setCause hcFlashRo) := by
  change execNandRebuildDone d ok s = _
  simp only [execNandRebuildDone, List.contains_iff_mem.mpr waits, runs, cool]
  rfl

/-- Settles O31: operations and failures act on the tier as stated; a rebuild frees what its die held back, or stops the writing. -/
theorem flashTierTakesEffect : Obligations.FlashTierTakesEffect := by
  unfold Obligations.FlashTierTakesEffect
  refine ⟨fun _ _ => rfl, ?program, ?die, ?rebuilt, ?stopped, ?disturb, ?age, ?erased, ?hot, ?cool, fun _ _ _ _ => rfl⟩
  case program =>
    intro s d b block works first
    change execNandProgramFail d b s = _
    have one : [b].eraseDups.length = 1 := by simp [List.eraseDups_cons]
    simp [execNandProgramFail, block, works, first, one]
  case die =>
    intro s d inRange works
    refine congrArg Host.Outcome.next ?_
    simp [State.nandFail, inRange, works]
  case rebuilt =>
    intro s d waits runs cool
    refine ⟨_, exec_nandRebuildDone true waits runs cool, ?_⟩
    obtain ⟨unbuilt, spare⟩ := Prod.mk.inj (s.draw.2.rebuild_spares d)
    simp only [if_true]
    generalize hu : State.raise _ _ _ = u
    obtain ⟨off, flash⟩ := State.spareCheck_flash u
    rw [flash, ← hu]
    simp only [State.raise_flash, State.modFlash_flash, unbuilt, spare, State.draw_flash]
    exact ⟨trivial, Nat.lt_succ_iff.mp (Nat.mod_lt _ (Nat.succ_pos _))⟩
  case stopped =>
    intro s d waits runs cool
    refine ⟨_, exec_nandRebuildDone false waits runs cool, ?_⟩
    simp only [Bool.false_eq_true, if_false]
    generalize hu : State.raise _ _ 1 = u
    obtain ⟨off, flash⟩ := State.spareCheck_flash u
    simp only [State.setCause_flash, State.raise_flash, State.modFlash_flash, flash]
    rw [← hu]
    simp
  case disturb =>
    intro s d b n block
    refine ⟨_, rfl, ?_⟩
    simp [State.countBlock, block]
  case age =>
    intro s m
    refine ⟨_, rfl, ?_⟩
    simp [State.readTemps_blocks]
  case erased =>
    intro s d b block works cool free
    change execRelocationDone d b s = _
    simp only [execRelocationDone, Flash.owners_eq_nil free, block, cool, List.contains_eq_mem, works]
    simp only [List.foldl_nil, State.modFlash_flash, free]
    rfl
  case hot =>
    intro s p inRange
    refine ⟨_, if_neg (Nat.not_le.mpr inRange), ?_, ?_, fun here => ?_⟩
    · simp [mem_addNew]
    · exact State.sqGet_raise_congr (by rfl) _ _ _
    · simp [List.getD_eq_getElem?_getD, here]
      omega
  case cool =>
    intro s p hot
    refine ⟨_, if_pos (List.contains_iff_mem.mpr hot), rfl, fun here => ?_⟩
    simp [List.getD_eq_getElem?_getD, here, Nat.mod_lt]

end Sys2Proof.Machine
end

section
/-! What a core's sequencer issues and how it ends (O32). -/

namespace Sys2Proof.Machine

open Sys2Proof

/-! ### Issued at once -/

/-- A job of a tile that the core holds goes to the engine. -/
theorem exec_cellJobStart {s : State} {k j en e : Nat} {second : Bool} {job : CellJob} (h : s.issues k j = true)
    (tile : (if second then (s.core k j).loaded else (s.core k j).running) = some e) (formed : jobStatus (s.core k j).store job = 0) :
    exec (.cellJobStart k j en ⟨second, job⟩) s = .next (s.dispatch k j en e job) := by
  refine congrArg Host.Outcome.next ((Laws.sequence_at_once s k j second (.job en job) h rfl).trans ?_)
  simp [State.issue, tile, State.startJob, formed]

/-! ### What stays behind a completion -/

theorem State.drain_of_empty {s : State} {k j : Nat} (none_ : (s.core k j).seqQ = []) : s.drain k j (s.core k j).seqQ.length = s := by
  rw [none_]
  rfl

/-- A change of a core keeps what it keeps of every core. -/
theorem State.core_modCore_of {α : Type} {s : State} {k j : Nat} {f : Core → Core} (part : Core → α) (keeps : part (f (s.core k j)) = part (s.core k j)) :
    part ((s.modCore k j f).core k j) = part (s.core k j) := by
  by_cases hk : k < s.dies.length
  · by_cases hj : j < (s.die k).cores.length
    · rw [Laws.core_modCore _ _ _ _ hk hj, keeps]
    · have : (s.modCore k j f).core k j = s.core k j := by
        rw [State.modCore, State.core, State.die_modDie _ _ _ hk, State.core]
        simp [List.getD_eq_getElem?_getD, hj]
      rw [this]
  · have : (s.modCore k j f).core k j = s.core k j := by
      simp [State.modCore, State.modDie, State.core, State.die, List.getD_eq_getElem?_getD, hk]
    rw [this]

theorem State.nextJob_of_empty {s : State} {k j : Nat} (en : Nat) (none_ : (s.core k j).jobQ = []) : s.nextJob k j en = s := by
  simp [State.nextJob, none_]

@[simp] theorem State.atomicAdd_dies (s : State) (a : Nat) (v : List W32) : (s.atomicAdd a v).1.dies = s.dies :=
  eq_of_outside (State_atomicAdd_fr a v Frame.rfl Sub.rfl).dies (by decide)

/-- Moving a transfer's bytes keeps the core's queue of commands. -/
theorem State.dmaMove_seqQ (s : State) (k j : Nat) (d : Dma) : ((s.dmaMove k j d).core k j).seqQ = (s.core k j).seqQ := by
  unfold State.dmaMove
  dsimp only
  split
  · split
    · exact (State.core_modCore_of Core.seqQ rfl).trans (State.core_modCore_of Core.seqQ rfl)
    · rfl
  · induction dmaPieces d generalizing s with
    | nil => rfl
    | cons x l ih =>
      rw [List.foldl_cons, ih]
      split
      · exact State.core_modCore_of Core.seqQ rfl
      · split <;> simp [State.core, State.die]

theorem Core.orFlags_seqQ (c : Core) (e : Option Nat) (f : Fl) : (c.orFlags e f).seqQ = c.seqQ := by
  unfold Core.orFlags
  split <;> rfl

theorem Core.orFlags_jobQ (c : Core) (e : Option Nat) (f : Fl) : (c.orFlags e f).jobQ = c.jobQ := by
  unfold Core.orFlags
  split <;> rfl

/-- A finished job of a core with nothing waiting leaves only its results. -/
theorem State.jobDone_of_empty {s : State} {k j en i : Nat} {r : JobRun} (runs : ((s.core k j).cellAt en i).job = some r)
    (noJob : (s.core k j).jobQ = []) (noCmd : (s.core k j).seqQ = []) :
    s.jobDone k j en i = s.modCore k j fun c => { (c.putCell { (s.core k j).cellAt en i with job := none }).orFlags (some r.entry) r.flags with
      store := r.bytes.foldl (fun m (a, b) => Memory.put a b m) c.store, lastProgress := s.now } := by
  simp only [State.jobDone, runs]
  rw [State.nextJob_of_empty, State.drain_of_empty]
  · exact (State.core_modCore_of Core.seqQ (Core.orFlags_seqQ _ _ _)).trans noCmd
  · exact (State.core_modCore_of Core.jobQ (Core.orFlags_jobQ _ _ _)).trans noJob

/-- Settles O32: the sequencer of a free core issues at once, and each completion leaves its result. -/
theorem coreInstructionsTakeEffect : Obligations.CoreInstructionsTakeEffect := by
  unfold Obligations.CoreInstructionsTakeEffect
  refine ⟨?load, fun s k j r a h fits => exec_vectorStore h fits, ?fadd, ?format, ?queued, ?runs, ?transfer, ?moved, ?dmaError, ?fence, ?jobDone, ?palette⟩
  case load =>
    intro s k j d a h fits
    rw [exec_vector _ h]
    exact congrArg Host.Outcome.next (if_neg (Nat.not_lt.mpr fits))
  case fadd =>
    intro s k j d a b v f h result
    obtain ⟨die, core, -⟩ := State.issues_iff.mp h
    refine ⟨s.modCore k j fun c => { (c.putReg d v).orFlags (s.core k j).running f with lastProgress := s.now }, ?_, ?_⟩
    · rw [exec_vector _ h]
      simp [State.vector, vecFormed, result]
    · rw [Laws.core_modCore _ _ _ _ die core]
      simp [Core.orFlags, Core.putReg]
  case format =>
    intro s k j fmt d a e h running bad
    rw [exec_vector _ h]
    simp [State.vector, vecFormed, running, bad]
  case queued =>
    intro s k j en e second job h tile formed busy
    rw [exec_cellJobStart h tile formed]
    simp [State.dispatch, busy]
  case runs =>
    intro s k j en e i second job x c h tile formed free cell ok ran
    subst cell
    rw [exec_cellJobStart h tile formed]
    simp [State.dispatch, free, ok, ran]
  case transfer =>
    intro s k j e i second x t d h tile entry step go ctx
    refine congrArg Host.Outcome.next ((Laws.sequence_at_once s k j second (.dma d) h (by simp [SeqCmd.ready, ctx])).trans ?_)
    simp [State.issue, tile, State.startDma, entry, step, go, ctx]
  case moved =>
    intro s k j ctx e d run free none hk hj
    change execDmaComplete k j ctx false s = _
    simp only [execDmaComplete, run, free, Bool.false_eq_true, if_false]
    rw [State.drain_of_empty]
    exact (State.dmaMove_seqQ _ k j d).trans ((State.core_modCore_of Core.seqQ rfl).trans none)
  case dmaError =>
    intro s k j ctx e d run free
    change execDmaComplete k j ctx true s = _
    simp [execDmaComplete, run, free]
  case fence =>
    intro s k j h idle
    exact congrArg Host.Outcome.next (Laws.sequence_at_once s k j false .fence h (by simp [SeqCmd.ready, idle]))
  case jobDone =>
    intro s k j en i r runs noJob noCmd
    exact congrArg Host.Outcome.next (State.jobDone_of_empty runs noJob noCmd)
  case palette =>
    intro s k j loads idle slot0 only hk hj
    refine ⟨_, if_neg loads, ?_⟩
    rw [Laws.core_modCore _ _ _ _ hk hj]
    simp [Core.slotLoaded, idle, slot0, only]

end Sys2Proof.Machine
end

section
/-! Errors and ground truth inside a core (O33). -/

namespace Sys2Proof.Machine

open Sys2Proof

/-! ### The second error within 1 s -/

@[simp] theorem State.failRunning_now (s : State) (k j st : Nat) : (s.failRunning k j st).now = s.now := by
  unfold State.failRunning
  split
  · rfl
  · split <;> simp

@[simp] theorem State.reloadSlot_now (s : State) (k j : Nat) : (s.reloadSlot k j).now = s.now :=
  eq_of_outside (State_reloadSlot_fr k j Frame.rfl Sub.rfl).now (by decide)

theorem State.again1s_congr {s t : State} (same : t.now = s.now) (last : Option Nat) : t.again1s last = s.again1s last := by
  unfold State.again1s State.within
  rw [same]

/-- What a core notes of an error after its tile failed does not change whether the error is the second within 1 s. -/
theorem State.again1s_after {s u : State} {k j : Nat} (same : u.now = s.now) (note : Core → Core) (last : Option Nat) :
    (u.modCore k j note).again1s last = s.again1s last :=
  State.again1s_congr (by rw [State.modCore_now, same]) last

/-! ### Parity errors of cells -/

/-- A change of the cores of a die keeps its tile list. -/
theorem State.entry_modCore (s : State) (k j n : Nat) (f : Core → Core) : ((s.modCore k j f).die k).entry n = (s.die k).entry n := by
  by_cases hk : k < s.dies.length
  · rw [State.modCore, State.die_modDie _ _ _ hk]
    rfl
  · simp [State.modCore, State.modDie, State.die, List.getD_eq_getElem?_getD, hk]

/-- Settles O33: the first error fails the running tile or is counted; the second within 1 s loses the core. -/
theorem coreErrorsTakeEffect : Obligations.CoreErrorsTakeEffect := by
  unfold Obligations.CoreErrorsTakeEffect
  refine ⟨?passes, ?early, ?differs, fun _ _ _ _ _ => rfl, ?job, ?forwarded, ?idle, ?again, fun _ _ _ _ => rfl, fun _ _ _ _ => rfl, fun _ _ _ => rfl,
    ?store, ?storeAgain, ?vector, ?vectorAgain, ?sequencer, ?sequencerAgain, ?unpack, ?reread⟩
  case passes =>
    intro s k j en i l expected
    exact congrArg Host.Outcome.next (if_pos expected)
  case early =>
    intro s k j en i l expected
    exact ⟨_, congrArg Host.Outcome.next (if_pos expected), rfl⟩
  case differs =>
    intro s k j en i l differs
    exact congrArg Host.Outcome.next (if_neg differs)
  case job =>
    intro s k j en i r e runs first entry works hk
    change execCellParityError k j en i s = _
    simp [execCellParityError, runs, first, works, State.entry_modCore, entry]
  case forwarded =>
    intro s k j en i f e none fwd first entry works hk
    change execCellParityError k j en i s = _
    simp [execCellParityError, none, fwd, first, works, State.entry_modCore, entry]
  case idle =>
    intro s k j en i none noFwd first works
    change execCellParityError k j en i s = _
    simp [execCellParityError, none, noFwd, first, works]
  case again =>
    intro s k j en i none noFwd again
    change execCellParityError k j en i s = _
    simp [execCellParityError, none, noFwd, again]
  case store =>
    intro s k j first
    exact congrArg Host.Outcome.next (if_neg (by rw [State.again1s_after (s.failRunning_now k j _), first]; decide))
  case storeAgain =>
    intro s k j again
    exact congrArg Host.Outcome.next (if_pos (by rw [State.again1s_after (s.failRunning_now k j _), again]))
  case vector =>
    intro s k j first
    exact congrArg Host.Outcome.next (if_neg (by rw [State.again1s_after (s.failRunning_now k j _), first]; decide))
  case vectorAgain =>
    intro s k j again
    exact congrArg Host.Outcome.next (if_pos (by rw [State.again1s_after (s.failRunning_now k j _), again]))
  case sequencer =>
    intro s k j first
    exact congrArg Host.Outcome.next (if_neg (by
      rw [State.again1s_after (((s.reloadSlot k j).failRunning_now k j _).trans (s.reloadSlot_now k j)), first]; decide))
  case sequencerAgain =>
    intro s k j again
    exact congrArg Host.Outcome.next (if_pos (by
      rw [State.again1s_after (((s.reloadSlot k j).failRunning_now k j _).trans (s.reloadSlot_now k j)), again]))
  case unpack =>
    intro s k j n e entry claimed mine
    change execUnpackError k j n s = _
    simp [execUnpackError, entry, claimed, mine]
  case reread =>
    intro s k n e entry failed unpack few
    change execUnpackRereadDone k n s = _
    simp [execUnpackRereadDone, entry, failed, unpack, few]

end Sys2Proof.Machine
end

section
/-! The tile list and the watch over the cores (O34, O35). -/

namespace Sys2Proof.Machine

open Sys2Proof

/-- Settles O34: a claim, a completion, a failure report and a reset of a group each change their entry as stated. -/
theorem tileListTakesEffect : Obligations.TileListTakesEffect := by
  unfold Obligations.TileListTakesEffect
  refine ⟨?granted, ?opened, ?nextGrant, ?complete, ?stale, ?nop, ?fail, ?corrupt, ?dma, ?group, ?abandon⟩
  case granted =>
    intro s k j e present inRange room first run none pick
    refine congrArg Host.Outcome.next ?_
    simp only [State.claim, present, room, first, Nat.not_le.mpr inRange, List.contains_eq_mem, decide_false, Bool.not_true, Bool.or_self,
      Bool.false_eq_true, if_false, run, none, Option.isSome_none, pick]
  case opened =>
    intro s k j present inRange room first none
    refine congrArg Host.Outcome.next ?_
    simp only [State.claim, present, room, first, Nat.not_le.mpr inRange, List.contains_eq_mem, decide_false, Bool.not_true, Bool.or_self,
      Bool.false_eq_true, if_false, none, ite_self]
  case nextGrant =>
    intro s k j l e run opened pick
    change execClaimGrant k s = _
    have grant : s.nextGrant k = some (j, e) := by simp [State.nextGrant, run, opened, pick]
    simp [execClaimGrant, grant]
  case complete =>
    intro s u k j n q a fl f e t current step run reports go ran
    refine congrArg Host.Outcome.next ?_
    simp only [State.complete, current, step, run, reports, go, ran]
    rfl
  case stale =>
    intro s k j n q a fl none
    refine congrArg Host.Outcome.next ?_
    simp only [State.complete, none]
    rfl
  case nop =>
    intro s k n e t entry nop ready clean step run
    change execNopTileComplete k n s = _
    simp [execNopTileComplete, entry, nop, ready, clean, step, run]
  case fail =>
    intro s k j n q e t w entry current step run
    refine congrArg Host.Outcome.next ?_
    have formed : ¬ (tsDmaErr = 0 ∨ 7 < tsDmaErr) := by decide
    have other : (tsDmaErr == tsUnpack) = false := rfl
    simp [State.takeFail, entry, current, step, run, formed, other, boolNat]
  case corrupt =>
    intro s k n e entry failed unpack many
    refine congrArg Host.Outcome.next ?_
    simp [State.decideFailed, entry, failed, unpack, many]
  case dma =>
    intro s k n e entry failed dma
    refine congrArg Host.Outcome.next ?_
    have other : tsDmaErr ≠ tsUnpack := by decide
    simp [State.decideFailed, entry, failed, dma, other]
  case group =>
    intro s k g x found poisoned alone
    refine congrArg Host.Outcome.next ?_
    have none : ((s.die k).tiles.filter fun e => e.reduce && e.group == g) = [] :=
      List.filter_eq_nil_iff.mpr fun e he => by simpa using alone e he
    simp [State.resetGroup, found, poisoned, none, Die.readyAll]
  case abandon =>
    intro s k j n e t entry claimed mine step killed
    change execAbandonConfirm k j n s = _
    have killing : t.killing.isSome = true := Option.isSome_iff_ne_none.mpr killed
    simp [execAbandonConfirm, entry, claimed, mine, step, killing]

/-! ### Heartbeats and watchdogs -/

/-- Settles O35: a heartbeat is noted, a lost core is quarantined, and the first watchdog expiry only fails the running tile. -/
theorem coreWatchTakesEffect : Obligations.CoreWatchTakesEffect := by
  unfold Obligations.CoreWatchTakesEffect
  refine ⟨?beat, ?lost, ?watchdog⟩
  case beat =>
    intro s k j opened hk hj
    refine ⟨_, rfl, (Laws.core_modCore s k j _ hk hj).trans ?_⟩
    simp [opened]
  case lost =>
    intro s k j present inRange able run
    exact if_neg (by simpa [present, inRange, run, State.core] using able)
  case watchdog =>
    intro s k j able run first
    change execSeqWatchdog k j s = _
    have able' : ((s.die k).cores.getD j State.core0).able = true := able
    have first' : ((s.die k).cores.getD j State.core0).wdAt = none := first
    simp only [execSeqWatchdog, able', run, first', State.again1s]
    rfl

end Sys2Proof.Machine
end

section
/-! Start, barriers and PREPARED (O36): a release of start that finds the step waiting for the restart of its run. -/

namespace Sys2Proof.Machine

open Sys2Proof

/-- A release of start that is addressed to a step whose run the master has just restarted restarts it here (R240). -/
theorem exec_release_of_waitRun {s : State} {k : Token} {h : Nat} {t : Step} (token : s.tokenFor k h t) (start : k.barrier = 0)
    (waits : t.waitRun = true) (run : t.killing = none) : exec (.release k) s = .next (s.restartRun t) := by
  obtain ⟨up, slice, step, joined, runNo, phase, digest⟩ := token
  refine congrArg Host.Outcome.next ((if_pos up).trans ?_)
  simp [State.takeRelease, State.forStep, slice, step, joined, runNo, Nat.not_le.mpr phase, digest, start, waits, run]

/-- Step 77 of model 3, killed and prepared for its next run, which the master has not restarted yet. -/
def waitingStep : Step :=
  { slice := 0, id := 77, run := 1, slot := 0, model := 3, view := 0, tenant := 0, program := 1, seqs := [],
    ref := { src := { port := .a, mailbox := false, tag := 7, fence := false, sqIndex := 0 }, opcode := 0x40, slot := none },
    spAddr := 0, resAddr := 0, outAddr := 0, digest := 0, rbank := 0, pbank := 0, phase := 0, flags := 0, ovfPairs := 0, ovfRounds := 0, rerun := true,
    preempts := 0, pinned := [], alloc := [], leaves := [], staged := [], copies := [], arrivedAt := [], arriveSent := [], released := [],
    prepSent := false, killing := none, swapHeld := [], status := 0, gtPending := [], sched := [], pfTrig := [], killRefs := [], commitNo := 0,
    kvRows := [], waitRun := true, blame := none }

/-- A module whose Easel is up, in a slice of tag 9, with the model and the waiting step. -/
def restarting : State :=
  { State.reset with
    clk := { State.reset.clk with inReset := false, stage := 5 }
    power := { State.reset.power with held := true }
    slices := [{ State.slice0 with tag := 9, state := .joined }]
    models := [{ h := 3, slotNo := 0, dead := false, member := 0, cur := 0, nextView := 1, releasing := none, releaseAction := 0, swap := none, swaps := [],
                 views := [{ no := 0, slot := 0, map := [], cold := [], holders := 1, state := 1, oldAction := 0, lost := false,
                             man := { nLayers := 1, spec := 0, specH := 0, hidden := 32, vocab := 1, members := 2, layers := [], sets := [], digest := [], hdrDigest := [] } }] }]
    steps := [waitingStep] }

/-- The master's release of start for the run. -/
def restartToken : Token :=
  { tag := 9, stepId := 77, run := 1, barrier := 0, member := 0, cause := 0, status := 0, batchDigest := 0, sliceDigest := restarting.stepDigest waitingStep }

theorem tokenFor_restarting : restarting.tokenFor restartToken 0 waitingStep := ⟨rfl, rfl, rfl, rfl, rfl, by decide, rfl⟩

/-- Refutes O36: a release of start restarts a step that waits for its next run (`restarting`); its clause lets the step begin as if released for the
first time, still waiting. -/
theorem not_barrierTokens : ¬ Obligations.BarrierTokens := by
  unfold Obligations.BarrierTokens
  rintro ⟨-, -, start, -⟩
  have claimed := start restarting restartToken 0 waitingStep tokenFor_restarting rfl rfl rfl rfl
  rw [exec_release_of_waitRun tokenFor_restarting rfl rfl rfl] at claimed
  have same := congrArg (fun s => s.steps.map (·.waitRun)) (Host.Outcome.next.inj claimed)
  exact absurd (show [false] = [true] from same) (by decide)

end Sys2Proof.Machine
end

section
/-! Commit, kill and turns (O37). -/

namespace Sys2Proof.Machine

open Sys2Proof

/-! ### Tokens that find their step or the master's record -/

/-- A token that is addressed to a step in its present run goes to the rules of its kind. -/
theorem State.forStep_of_tokenFor {s : State} {k : Token} {h lim : Nat} {t : Step} (f : Step → State → State) (token : s.tokenFor k h t) (early : 4 ≤ lim) :
    s.forStep k lim f = f t s := by
  obtain ⟨-, slice, step, joined, runNo, phase, digest⟩ := token
  have before : ¬ lim ≤ t.phase := by omega
  simp [State.forStep, slice, step, joined, runNo, before, digest]

/-- A token that is addressed to the master's record of a step goes to the rules of its kind. -/
theorem State.forMst_of_masterFor {s : State} {k : Token} {h : Nat} {m : MasterStep} (f : Nat → MasterStep → State → State) (token : s.masterFor k h m) :
    s.forMst k f = f h m s := by
  obtain ⟨-, slice, mst, joined, master, member, runNo, digest⟩ := token
  have same : ((s.stepOf h k.stepId).map fun t => k.sliceDigest != s.stepDigest t).getD false = false := by
    cases step : s.stepOf h k.stepId with
    | none => rfl
    | some t => simp [digest t step]
  simp [State.forMst, slice, mst, joined, master, Nat.not_le.mpr member, same]

theorem State.masterFor.runs {s : State} {k : Token} {h : Nat} {m : MasterStep} (token : s.masterFor k h m) : (m.run % 256 != k.run) = false := by
  obtain ⟨-, -, -, -, -, -, runNo, -⟩ := token
  simp [runNo]

/-! ### The master's records -/

theorem State.mstOf_eq {s : State} {h id : Nat} {m : MasterStep} (found : s.mstOf h id = some m) : m.slice = h ∧ m.id = id := by
  have := List.find?_some found
  simpa using this

/-- A change that keeps slice and id is found again. -/
theorem State.mstOf_modMst {s : State} {h id : Nat} {m : MasterStep} (f : MasterStep → MasterStep) (keeps : ∀ m, (f m).slice = m.slice ∧ (f m).id = m.id)
    (found : s.mstOf h id = some m) : (s.modMst h id f).mstOf h id = some (f m) := by
  unfold State.mstOf at found ⊢
  rw [State.modMst, List.find?_map]
  have same : ((fun m : MasterStep => m.slice == h && m.id == id) ∘ fun m => if (m.slice == h && m.id == id) = true then f m else m) =
      fun m => m.slice == h && m.id == id := by
    funext m
    simp only [Function.comp_apply]
    split
    · rw [(keeps m).1, (keeps m).2]
    · rfl
  have hit := List.find?_some found
  simp only [same, found, Option.map_some]
  rw [if_pos hit]

theorem State.stepOf_eq {s : State} {h id : Nat} {t : Step} (found : s.stepOf h id = some t) : t.slice = h ∧ t.id = id := by
  have := List.find?_some found
  simpa using this

@[simp] theorem State.slc_toMaster (s : State) (h : Nat) (k : TokKind) (t : Token) (f : BitVec 5) (op or i : Nat) :
    (s.toMaster h k t f op or).slc i = s.slc i := by
  have same : (s.toMaster h k t f op or).slices = s.slices := eq_of_outside (State_toMaster_fr h k t f op or Frame.rfl Sub.rfl).slices (by decide)
  rw [State.slc, same, State.slc]

theorem State.slc_applyCommit (s : State) (t : Step) (b : List CommitEntry) (i : Nat) : (s.applyCommit t b).slc i = s.slc i := by
  have same : (s.applyCommit t b).slices = s.slices := eq_of_outside (State_applyCommit_fr t b Frame.rfl Sub.rfl).slices (by decide)
  rw [State.slc, same, State.slc]

/-- A record whose members have not all answered the kill goes on waiting. -/
theorem State.killDone_of_waiting {s : State} {h id i : Nat} {m : MasterStep} (found : s.mstOf h id = some m) (expected : i ∈ m.expect) (missing : i ∉ m.killed) :
    s.killDone h id = s := by
  have some_ : (m.expect.all fun i => m.killed.contains i) = false := by
    simpa using ⟨i, expected, missing⟩
  simp only [State.killDone, found, some_, Bool.not_false, Bool.or_true, if_true]

theorem State.nextKill_of_none {s : State} {h id : Nat} {m : MasterStep} (found : s.mstOf h id = some m) (none_ : m.thenKill = none) : s.nextKill h id = s := by
  simp [State.nextKill, found, none_]

/-- Settles O37: each token finds its step or record, and the point of commitment is reached when every row is in. -/
theorem commitAndKillTokens : Obligations.CommitAndKillTokens := by
  unfold Obligations.CommitAndKillTokens
  refine ⟨?point, ?commit, ?committed, ?killReq, ?kill, ?rerun, ?killed, ?quantum, ?candidates, ?stop, ?tail⟩
  case point =>
    intro s h id m t ps res nv up mst step master run first all older olderMst there full params decided
    refine congrArg Host.Outcome.next ((if_pos up).trans ?_)
    have allPrepared : ((List.range (s.slc h).count).all fun i => m.prepared.contains i) = true := by simpa using all
    have noOlder : (s.steps.any fun o => o.slice == h && decide (o.id < id) && decide (o.slot < 16)) = false := by
      simpa [and_assoc] using older
    have noOlderMst : (s.mst.any fun o => o.slice == h && decide (o.id < id)) = false := by simpa using olderMst
    simp only [State.commitPoint, mst, step, master, run, first, allPrepared, noOlder, noOlderMst, there, full, params, decided]
    rfl
  case commit =>
    intro s k h t b token sent run master
    obtain ⟨rfl, -⟩ := State.stepOf_eq token.2.2.1
    refine congrArg Host.Outcome.next ((if_pos token.1).trans ((State.forStep_of_tokenFor _ token (by decide)).trans ?_))
    simp [sent, run, State.slc_applyCommit, master]
  case committed =>
    intro s k h m token decided
    refine congrArg Host.Outcome.next ((if_pos token.1).trans ((State.forMst_of_masterFor _ token).trans ?_))
    simp [decided, token.runs]
  case killReq =>
    intro s k h m token open_
    refine congrArg Host.Outcome.next ((if_pos token.1).trans ?_)
    have runs := token.runs
    have found := token
    obtain ⟨-, slice, mst, -⟩ := found
    have same : s.openKill h k = s := by simp [State.openKill, mst]
    simp only [State.takeKillReq, slice, same]
    rw [State.forMst_of_masterFor _ token]
    simp [open_, token.2.2.2.2.2.2.1]
  case kill =>
    intro s k h t token run status cause
    refine congrArg Host.Outcome.next ((if_pos token.1).trans ((State.forStep_of_tokenFor _ token le_rfl).trans ?_))
    simp [run, status, cause, killStatus]
  case rerun =>
    intro s k h t token run status cause
    refine congrArg Host.Outcome.next ((if_pos token.1).trans ((State.forStep_of_tokenFor _ token le_rfl).trans ?_))
    simp [run, status, cause]
  case killed =>
    intro s k h i m token killing noNext expected missing
    refine congrArg Host.Outcome.next ((if_pos token.1).trans ((State.forMst_of_masterFor _ token).trans ?_))
    have runs := token.runs
    obtain ⟨-, -, mst, -⟩ := token
    obtain ⟨-, id⟩ := State.mstOf_eq mst
    have found := State.mstOf_modMst (fun m => { m with killed := addNew m.killed k.member }) (fun _ => ⟨rfl, rfl⟩) mst
    simp only [killing, runs, id, Bool.not_true, Bool.or_self, Bool.false_eq_true, if_false]
    rw [State.killDone_of_waiting found expected missing, State.nextKill_of_none found noNext]
  case quantum =>
    intro s ten e up turn end_ none
    refine congrArg Host.Outcome.next ((if_pos up).trans ?_)
    have same : ({ s with turnSteps := s.turnSteps ++ [] } : State) = s := by rw [List.append_nil]
    simp only [State.quantumEnd, turn, end_, none, List.map_nil, List.foldl_nil]
    rw [← turn, ← end_]
    exact congrArg (fun s : State => s.passTurn.schedule) same
  case candidates =>
    intro s tag h c m up slice mst runNo run open_ master fine
    obtain ⟨-, id⟩ := State.mstOf_eq mst
    have found := State.mstOf_modMst (fun x => { x with cands := (m.cands.filter fun x => !(x.member == c.member && x.tile == c.tile && x.entry == c.entry &&
      x.node == c.node && x.head == c.head)) ++ [c] }) (fun _ => ⟨rfl, rfl⟩) mst
    refine ⟨_, _, congrArg Host.Outcome.next ((if_pos up).trans ?_), found, by simp⟩
    have runs : (m.run % 256 != c.run) = false := by simp [runNo]
    simp only [State.takeCands, slice, mst, runs, run, open_, master, id, Bool.not_true, Bool.or_self, Bool.false_eq_true, if_false]
    exact if_neg (Bool.eq_false_iff.mp fine)
  case stop =>
    intro s m h up slice joined
    refine congrArg Host.Outcome.next ((if_pos up).trans ?_)
    simp [State.takeStop, slice]
  case tail =>
    intro s i seq t c o p step copy obj pool live
    change execTailCopyDone i seq s = _
    simp [execTailCopyDone, step, copy, obj, pool, live]

end Sys2Proof.Machine
end

section
/-! Records of the layer program (O38). -/

namespace Sys2Proof.Machine

open Sys2Proof

/-! ### An agent at its record -/

/-- A walk that has begun has its agents. -/
theorem State.ensureAgents_of_agent {s : State} {k i : Nat} {a : Agent} (die : k < s.dies.length) (agent : s.agentOf k i = some a) : s.ensureAgents i = s := by
  have slot : (a.slot == i) = true := List.find?_some (p := fun a : Agent => a.slot == i) agent
  have here : (s.dies.any fun d => d.agents.any fun a => a.slot == i) = true :=
    List.any_eq_true.mpr ⟨s.die k, by simp [State.die, die], List.any_eq_true.mpr ⟨a, List.mem_of_find?_eq_some agent, slot⟩⟩
  unfold State.ensureAgents
  split
  · rfl
  · simp [here]

theorem State.nextRecord_agent {s : State} {k i : Nat} {t : Step} {a : Agent} {b : List Byte} (next : s.nextRecord k i = some (t, a, b)) :
    s.agentOf k i = some a := by
  unfold State.nextRecord at next
  split at next
  case h_1 t' a' _ agent =>
    simp only [Option.ite_none_right_eq_some, Option.some.injEq, Prod.mk.injEq] at next
    rw [agent, next.2.2.1]
  case h_2 => simp at next

theorem State.agentOf_slot {s : State} {k i : Nat} {a : Agent} (agent : s.agentOf k i = some a) : a.slot = i := by
  simpa using List.find?_some agent

/-- An agent that stands at a record of a kind carries it out by the rules of the kind. -/
theorem State.progRec_of_atRecord {s : State} {k i kind : Nat} {uses : List (Nat × Nat)} {t : Step} {a : Agent} {b : List Byte}
    (f : Step → Agent → List Byte → State → State)
    (record : s.atRecord k i kind uses t a b) : s.progRec k i kind uses f = f t a b s := by
  obtain ⟨die, next, moving, noWait, run, open_, low, high, isKind, ok⟩ := record
  have known : ¬ (fld b 0 1 = 0 ∨ 8 < fld b 0 1) := by omega
  have same := State.ensureAgents_of_agent die (State.nextRecord_agent next)
  subst isKind
  simp [State.progRec, same, next, moving, noWait, run, open_, known, ok]

theorem State.atRecord.slot {s : State} {k i kind : Nat} {uses : List (Nat × Nat)} {t : Step} {a : Agent} {b : List Byte}
    (record : s.atRecord k i kind uses t a b) : a.slot = i := State.agentOf_slot (State.nextRecord_agent record.2.1)

/-! ### Tiles that wait for room -/

theorem State.foldl_eq_self {α : Type} {f : State → α → State} {s : State} (l : List α) (same : ∀ x ∈ l, f s x = s) : l.foldl f s = s := by
  induction l with
  | nil => rfl
  | cons x l ih => rw [List.foldl_cons, same x List.mem_cons_self, ih fun y hy => same y (List.mem_cons_of_mem x hy)]

/-- With no expert tiles waiting and every block begun, nothing is made up for first. -/
theorem State.resumeLater_of_begun {s : State} {k i : Nat}
    (begun : ∀ c ∈ (s.die k).ctxs, c.slot = i → c.later = [] ∧ ∀ x ∈ c.blocks, x.ctr ≠ noCtr) : s.resumeLater k i = s := by
  unfold State.resumeLater
  split
  · rfl
  next t _ =>
    have mine : ∀ c ∈ (s.die k).ctxs.filter fun c => c.slot == i, c.later = [] ∧ ∀ x ∈ c.blocks, x.ctr ≠ noCtr := fun c hc =>
      begun c (List.mem_of_mem_filter hc) (by simpa using List.of_mem_filter hc)
    have blocks : (((s.die k).ctxs.filter fun c => c.slot == i).foldl (fun s c => s.startBlocks t k i c.layer) s) = s :=
      State.foldl_eq_self _ fun c _ => by
        unfold State.startBlocks
        split
        next c' found =>
          have slot : c'.slot = i := by
            have at_ := List.find?_some (p := fun x : Ctx => x.slot == i && x.layer == c.layer) found
            simp only [Bool.and_eq_true, beq_iff_eq] at at_
            exact at_.1
          have none : (c'.blocks.filter fun b => b.ctr == noCtr) = [] := List.filter_eq_nil_iff.mpr fun x hx => by
            simpa using (begun c' (List.mem_of_find?_eq_some found) slot).2 x hx
          rw [none]
          rfl
        · rfl
    dsimp only
    rw [blocks]
    exact State.foldl_eq_self _ fun c hc => by rw [(mine c hc).1]; rfl

theorem State.expertStall_of_begun {s : State} {k i : Nat}
    (begun : ∀ c ∈ (s.die k).ctxs, c.slot = i → c.later = [] ∧ ∀ x ∈ c.blocks, x.ctr ≠ noCtr) : s.expertStall k i = false := by
  simp only [State.expertStall, List.any_eq_false, Bool.and_eq_true, beq_iff_eq, Bool.not_eq_true', not_and, Bool.not_eq_false]
  intro c hc slot
  simp [(begun c hc slot).1]

/-- A tile record that is well formed and not held back by a swap appends its tile when the list has room. -/
theorem State.appendRec_of_room {s : State} {t : Step} {k : Nat} {a : Agent} {b : List Byte} (first : Bool) (ok : s.descOk t b = true)
    (free : s.swapBarred t (fld b 2 2) = false)
    (room : s.admits k (tileOfRec t a b) ((s.die k).readyNow (tileOfRec t a b) && !s.copyHeld k (tileOfRec t a b)) = true) :
    s.appendRec t k a b first =
      ((s.appendTile t k (tileOfRec t a b)).nextRec k a.slot).modAgent k a.slot fun a => { a with nextSeq := a.nextSeq + 1 } := by
  have free' : s.swapBarred t (tileOfRec t a b).layer = false := free
  have room' : s.admitsNow k (tileOfRec t a b) = true := room
  simp [State.appendRec, ok, free', room']

theorem State.core_nextRec (s : State) (k i q j : Nat) : (s.nextRec k i).core q j = s.core q j := by
  by_cases here : q = k
  · subst here
    by_cases hk : q < s.dies.length
    · rw [State.nextRec, State.modAgent, State.core, State.die_modDie _ _ _ hk, State.core]
    · simp [State.nextRec, State.modAgent, State.modDie, State.core, State.die, List.getD_eq_getElem?_getD, hk]
  · simp [State.nextRec, State.modAgent, State.modDie, State.core, State.die, List.getD_eq_getElem?_getD, Ne.symm here]

/-- Sending a message is one transmission, whether it is delivered on this module or not. -/
theorem State.sendDist_tx (s : State) (t : Step) (k kind member die : Nat) (e : Envelope) (a b : Nat) (nums : List Nat) (bytes : List Byte) :
    ∃ p, (s.sendDist t k kind member die e a b nums bytes).tx = s.tx ++ [.dist p kind member die e a b nums bytes] := by
  unfold State.sendDist
  dsimp only
  split <;> exact ⟨_, rfl⟩

/-- Settles O38: an agent at a record carries it out and goes on, unless the record has to wait. -/
theorem layerProgramTakesEffect : Obligations.LayerProgramTakesEffect := by
  unfold Obligations.LayerProgramTakesEffect
  refine ⟨?tile, ?append, ?stall, ?resume, ?counter, ?open_, ?wait, ?deferred, ?merge, ?barrier, ?poolmask, ?reduce, ?send, ?message⟩
  case tile =>
    intro s k i t a b record ok free room
    exact congrArg Host.Outcome.next ((State.progRec_of_atRecord _ record).trans (State.appendRec_of_room true ok free room))
  case append =>
    intro s t k e
    unfold State.appendTile
    dsimp only
    split <;> rfl
  case stall =>
    intro s k i t a b record ok free full
    refine congrArg Host.Outcome.next ((State.progRec_of_atRecord _ record).trans ?_)
    have free' : s.swapBarred t (tileOfRec t a b).layer = false := free
    have full' : s.admitsNow k (tileOfRec t a b) = false := full
    simp [State.appendRec, ok, free', full']
  case resume =>
    intro s k i t a b run next stalled begun ok free room
    change execAppendStallResume k i s = _
    simp only [execAppendStallResume, run, State.resumeLater_of_begun begun, next, stalled, State.expertStall_of_begun begun,
      State.appendRec_of_room false ok free room]
    simp
  case counter =>
    intro s k i t a b record small quiet
    refine congrArg Host.Outcome.next ((State.progRec_of_atRecord _ record).trans ((if_neg (Nat.not_le.mpr small)).trans ?_))
    have none : ((s.die k).tiles.any fun e => e.state == .waiting && e.waitEn && e.wait == a.ctrBase + fld b 16 2) = false := by
      simpa [and_assoc] using quiet
    simp only [State.setCtr, none]
    rfl
  case open_ =>
    intro s k i t a b record room
    exact congrArg Host.Outcome.next ((State.progRec_of_atRecord _ record).trans (if_neg (by simp [room])))
  case wait =>
    intro s k i t a b record full
    exact congrArg Host.Outcome.next ((State.progRec_of_atRecord _ record).trans (if_pos full))
  case deferred =>
    intro s k i t a b next waits room run
    change execMoeCtxDeferredOpen k i s = _
    simp [execMoeCtxDeferredOpen, next, waits, room, run]
  case merge =>
    intro s k i t a b record valid none parts few small
    refine congrArg Host.Outcome.next ((State.progRec_of_atRecord _ record).trans ?_)
    simp only [none, List.length_nil]
    refine if_neg ?_
    simp [valid, parts, few, small, slotMerges]
  case barrier =>
    intro s k i t a b record free small
    exact congrArg Host.Outcome.next ((State.progRec_of_atRecord _ record).trans (if_neg (by simp [free, small])))
  case poolmask =>
    intro s k i t a b record inRange
    refine ⟨_, congrArg Host.Outcome.next ((State.progRec_of_atRecord _ record).trans (if_neg (Nat.not_lt.mpr inRange))), fun j hj => ?_⟩
    rw [State.core_nextRec, State.core, State.die_modDie _ _ _ record.1]
    simp [State.core, List.getD_eq_getElem?_getD, hj]
  case reduce =>
    intro s k i t a b record small pool
    exact congrArg Host.Outcome.next ((State.progRec_of_atRecord _ record).trans (if_neg (by simp [small, pool])))
  case send =>
    intro s k i t a b record kind member die dctr lctr range
    refine congrArg Host.Outcome.next ((State.progRec_of_atRecord _ record).trans (if_neg ?_))
    have known : (fld b 16 1 != 6 && fld b 16 1 != 7) = false := by
      obtain six | seven := kind
      · simp [six]
      · simp [seven]
    simp [known, member, die, dctr, lctr, range]
  case message =>
    intro s k i n t a r step agent rec_ first zero run notHeld
    obtain ⟨p, sent⟩ := (s.modAgent k i fun x => { x with sends := x.sends.modify n fun r => { r with sent := true } }).sendDist_tx t k r.kind r.member r.die
      (s.envOf t k r.layer false) r.dst r.dctr [] (s.modRead r.src r.bytes)
    refine ⟨_, p, ?_, sent⟩
    change execSendMessage k i n s = _
    simp only [execSendMessage, step, agent, rec_, first, zero, run, notHeld]
    rfl

end Sys2Proof.Machine
end

section
/-! Distributary messages (O39). -/

namespace Sys2Proof.Machine

open Sys2Proof

/-! ### A message that is delivered -/

theorem State.onArrival_of_delivered {s u : State} {k kind a b : Nat} {e : Envelope} {nums : List Nat} {bytes : List Byte} (f : State → State)
    (here : s.delivered k kind e a b nums bytes = some u) : s.onArrival k kind e a b nums bytes f = f u := by
  unfold State.delivered at here
  simp only [State.onArrival, here]

/-- A message of a step that runs here lands on its die. -/
theorem State.withMsg_of_step {s : State} {k : Nat} {e : Envelope} {t : Step} (f : Step → State → State) (step : s.stepFor e = some t) :
    s.withMsg k e false f = f t s := by
  simp [State.withMsg, step]

theorem State.withMsg_of_gen {s : State} {k : Nat} {e : Envelope} {t : Step} (f : Step → State → State) (step : s.stepFor e = some t)
    (gen : e.pgen = (s.placeOf t).gen % 65536) : s.withMsg k e true f = f t s := by
  simp [State.withMsg, step, gen]

/-! ### Counts before their context -/

/-- A message behind an empty hold moves into the early buffer if it fits. -/
theorem Die.refillEarly_of_empty {d : Die} (e : Envelope) (l : List Nat) (empty : d.heldBack = []) :
    ({ d with heldBack := d.heldBack ++ [(e, l)] } : Die).refillEarly =
      if d.earlyBytes + countBytes l ≤ 65536 then { d with early := d.early ++ [(e, l)], heldBack := [] } else { d with heldBack := [(e, l)] } := by
  simp only [Die.refillEarly, empty, List.nil_append, List.length_singleton, List.range_one, List.foldl_cons, List.foldl_nil]
  rfl

/-- A COUNT before its context waits on the die, in the early buffer or behind it. -/
theorem exec_count_early {s u : State} {k : Nat} {e : Envelope} {l : List Nat} {t : Step} (here : s.delivered k 1 e 0 0 l [] = some u)
    (step : u.stepFor e = some t) (gen : e.pgen = (u.placeOf t).gen % 65536) (none_ : (u.die k).ctx t.slot e.layer = none) :
    exec (.count k e l) s = .next (u.modDie k fun d => ({ d with heldBack := d.heldBack ++ [(e, l)] } : Die).refillEarly) := by
  refine congrArg Host.Outcome.next ((State.onArrival_of_delivered _ here).trans ((State.withMsg_of_gen _ step gen).trans ?_))
  simp only [none_]

/-- Settles O39: what is delivered lands for the step of its envelope. -/
theorem distributaryMessages : Obligations.DistributaryMessages := by
  unfold Obligations.DistributaryMessages
  refine ⟨?early, ?held, ?counted, ?notYet, ?grant, ?row, ?returned, ?record, ?qrow, ?kvrow, ?round⟩
  case early =>
    intro s u k e l t here step gen none hk empty fits
    refine ⟨_, exec_count_early here step gen none, ?_⟩
    rw [State.die_modDie _ _ _ hk, Die.refillEarly_of_empty e l empty, if_pos fits]
    exact ⟨rfl, rfl⟩
  case held =>
    intro s u k e l t here step gen none hk empty full
    refine ⟨_, exec_count_early here step gen none, ?_⟩
    rw [State.die_modDie _ _ _ hk, Die.refillEarly_of_empty e l empty, if_neg (Nat.not_le.mpr full)]
    exact ⟨rfl, rfl⟩
  case counted =>
    intro s u k e l t c here step gen ctx own first
    refine congrArg Host.Outcome.next ((State.onArrival_of_delivered _ here).trans ((State.withMsg_of_gen _ step gen).trans ?_))
    simp [ctx, own, first]
  case notYet =>
    intro s k e l away
    refine congrArg Host.Outcome.next ?_
    unfold State.delivered at away
    simp only [State.onArrival, away]
  case grant =>
    intro s u k r e off cr t here step
    refine congrArg Host.Outcome.next ((State.onArrival_of_delivered _ (by simpa using here)).trans ((State.withMsg_of_step _ step).trans ?_))
    simp
  case row =>
    intro s u k q e x t c b here step gen ctx block new ctr
    refine congrArg Host.Outcome.next ((State.onArrival_of_delivered _ here).trans ((State.withMsg_of_gen _ step gen).trans ?_))
    have first : (c.arrivedRows.any fun r => r.qslot == q) = false := by simpa using new
    simp only [ctx, block, first, Bool.false_eq_true, if_false, State.rowIn, ctr]
  case returned =>
    intro s u k a c e x t here step
    exact congrArg Host.Outcome.next ((State.onArrival_of_delivered _ here).trans (State.withMsg_of_step _ step))
  case record =>
    intro s u k n p e x t m here step merge part
    refine congrArg Host.Outcome.next ((State.onArrival_of_delivered _ here).trans ((State.withMsg_of_step _ step).trans ?_))
    simp [merge, Nat.not_le.mpr part]
  case qrow =>
    intro s u k a c e x t here step
    exact congrArg Host.Outcome.next ((State.onArrival_of_delivered _ here).trans (State.withMsg_of_step _ step))
  case kvrow =>
    intro s u k a c e x t here step
    exact congrArg Host.Outcome.next ((State.onArrival_of_delivered _ here).trans (State.withMsg_of_step _ step))
  case round =>
    intro s k i l g v c t ctx step later own sent rem
    change execNextRound k i l s = _
    have all : (c.blocks.all fun b => b.sent) = true := by simpa using sent
    simp [execNextRound, ctx, step, later, own, all, rem]

end Sys2Proof.Machine
end

section
/-! Spilled pages (O40). -/

namespace Sys2Proof.Machine

open Sys2Proof

@[simp] theorem State.dropSpill_steps (s : State) (i g : Nat) : (s.dropSpill i g).steps = s.steps :=
  eq_of_outside (State_dropSpill_fr i g Frame.rfl Sub.rfl).steps (by decide)

@[simp] theorem State.modPage_steps (s : State) (i g : Nat) (f : PageDesc → PageDesc) : (s.modPage i g f).steps = s.steps := by simp [State.modPage]

/-- A demand list of spilled pages stays as it is. -/
theorem Pool.demand_of_spilled {p : Pool} (spilled : ∀ x ∈ p.demand, (p.page x).state = .spilled) :
    (p.demand.filter fun id => (p.page id).state == .spilled) = p.demand :=
  List.filter_eq_self.mpr fun x hx => by simp [spilled x hx]

/-- Settles O40: a page goes out, comes back or is judged when its pool, its tier and its pins allow. -/
theorem spilledPages : Obligations.SpilledPages := by
  unfold Obligations.SpilledPages
  refine ⟨?start, ?written, ?returns, ?good, ?again, ?quota⟩
  case start =>
    intro s i p pool target runs low
    change execSpillStart i s = _
    simp [execSpillStart, pool, target, runs, low]
  case written =>
    intro s u i g tier loc o p obj pool dest act ready free used live wrote
    change execSpillWriteDone i g s = _
    have able : (tier == 2 && (!s.flash.ready || !s.flash.paused.isEmpty)) = false := by
      by_cases flash : tier = 2
      · simp [ready flash]
      · simp [flash]
    simp [execSpillWriteDone, obj, pool, dest, act, able, free, used, live, wrote]
  case returns =>
    intro s u i g f p pool spilled next chosen
    change execPageReturnStart i g s = _
    simp only [execPageReturnStart, pool, Pool.demand_of_spilled spilled, next, chosen]
    simp
  case good =>
    intro s i g o p b obj pool arriving used read crc none
    change execPageReturnDone i g true s = _
    simp [execPageReturnDone, obj, pool, arriving, used, read, crc, none]
  case again =>
    intro s i g o p b obj pool arriving used read first
    change execPageReturnDone i g false s = _
    simp [execPageReturnDone, obj, pool, arriving, used, read, first]
  case quota =>
    intro s i p pool stalled target ready takes
    change execQuotaReturn i s = _
    simp [execQuotaReturn, pool, stalled, target, ready, takes]

end Sys2Proof.Machine
end

section
/-! Object commands (O1). -/

namespace Sys2Proof.Machine

open Sys2Proof

/-! ### What taking a COMMANDS slot leaves as it was -/

section
variable (s : State) (src : Src) (op : Nat) (b : List Byte)

@[simp] theorem State.obj_started (id : Nat) : (s.started src op b).obj id = s.obj id := rfl

@[simp] theorem State.die_started (k : Nat) : (s.started src op b).die k = s.die k := rfl

@[simp] theorem State.flash_started : (s.started src op b).flash = s.flash := rfl

@[simp] theorem State.down_started (p : Port) : (s.started src op b).down p = s.down p := rfl

@[simp] theorem State.hostMem_started (p : Port) : (s.started src op b).hostMem p = s.hostMem p := by cases p <;> rfl

@[simp] theorem State.poolInUse_started (id : Nat) : (s.started src op b).poolInUse id = s.poolInUse id := rfl

@[simp] theorem State.hostSrcOk_started (tiles size s0 s1 sp : Nat) (program : Bool) :
    (s.started src op b).hostSrcOk tiles size s0 s1 sp program = s.hostSrcOk tiles size s0 s1 sp program := rfl

@[simp] theorem State.copyFits_started (id size : Nat) : (s.started src op b).copyFits id size = s.copyFits id size := rfl

@[simp] theorem State.occPool_started (k : Nat) : (s.started src op b).occPool k = s.occPool k := rfl

@[simp] theorem State.objBody_started (o : Obj) : (s.started src op b).objBody o = s.objBody o := rfl

@[simp] theorem State.freeObjSlot_started : (s.started src op b).freeObjSlot = s.freeObjSlot := rfl

end

theorem State.obj_id {s : State} {id : Nat} {o : Obj} (found : s.obj id = some o) : o.id = id := by
  simpa using List.find?_some found

/-- The ring of a command whose turn has come is a live ring of a port that is up. -/
theorem State.turn_up {s : State} {src : Src} (turn : s.turn src = true) : s.down src.port = false := by
  simp only [State.turn, State.takes, Bool.and_eq_true, Bool.not_eq_true'] at turn
  obtain ⟨⟨⟨⟨-, ⟨-, up⟩, -⟩, -⟩, -⟩, -⟩ := turn
  exact up

theorem State.hostWrite_up {s : State} {p : Port} (up : s.down p = false) (a : Nat) (x : List Byte) :
    s.hostWrite p a x = (s.setHostMem p (Memory.write (s.hostMem p) a x), false) := by
  simp [State.hostWrite, up]

theorem State.withMovable_of_kept {s : State} {id : Nat} {o : Obj} (r : Ref) (f : Obj → State → State) (found : s.obj id = some o)
    (movable : o.movable = true) (kept : o.lost = false) : s.withMovable r id f = f o s := by
  simp [State.withMovable, found, movable, kept]

theorem State.meetArrival_of_absent {s : State} {id : Nat} {o : Obj} (r : Ref) (source : LoadSrc) (found : s.obj id = some o) (absent : o.res = .absent) :
    s.meetArrival (some r) id source = s.startArrival id source [{ ref := r, alt := stOK }] := by
  simp [State.meetArrival, found, absent]

/-- Settles O1: each object command runs at once when its turn has come. -/
theorem objectCommandsTakeEffect : Obligations.ObjectCommandsTakeEffect := by
  unfold Obligations.ObjectCommandsTakeEffect
  intro s src b turn len
  refine ⟨fun bad => ?_, fun bad => ?_, fun bad => ?_, fun bad => ?_, fun bad => ?_, fun bad => ?_, fun bad => ?_,
    ?pin, ?unpin, ?query, ?evictNowhere, ?evict, ?loadHost, ?promote, ?stage, ?create⟩
  · exact (exec_of_turn turn len 0x11 rfl rfl (.inl (by decide))).trans (congrArg Host.Outcome.next (if_pos (by simp [bad])))
  · exact (exec_of_turn turn len 0x12 rfl rfl (.inl (by decide))).trans (congrArg Host.Outcome.next (if_pos (by simp [bad])))
  · exact (exec_of_turn turn len 0x13 rfl rfl (.inl (by decide))).trans (congrArg Host.Outcome.next (if_pos (by simp [bad])))
  · exact (exec_of_turn turn len 0x14 rfl rfl (.inl (by decide))).trans (congrArg Host.Outcome.next (if_pos (by simp [bad])))
  · exact (exec_of_turn turn len 0x15 rfl rfl (.inl (by decide))).trans (congrArg Host.Outcome.next (if_pos (by simp [bad])))
  · exact (exec_of_turn turn len 0x16 rfl rfl (.inl (by decide))).trans (congrArg Host.Outcome.next (if_pos (by simp [bad])))
  · exact (exec_of_turn turn len 0x17 rfl rfl (.inl (by decide))).trans (congrArg Host.Outcome.next (if_pos (by simp [bad])))
  case pin =>
    intro o formed found kept present unreleased few
    have id := State.obj_id found
    refine (exec_of_turn turn len 0x15 rfl rfl (.inl (by decide))).trans (congrArg Host.Outcome.next ?_)
    change opObjPin _ b _ = _
    have here : (o.res == .absent || (o.res == .departing && o.released)) = false := by
      by_cases departing : o.res = .departing
      · simp [departing, unreleased departing]
      · simp [present, departing]
    simp only [opObjPin, formed, State.obj_started, found, kept, here, few, id, Bool.not_true, Bool.false_eq_true, if_false]
  case unpin =>
    intro o formed found pinned
    have id := State.obj_id found
    refine (exec_of_turn turn len 0x16 rfl rfl (.inl (by decide))).trans (congrArg Host.Outcome.next ?_)
    change opObjUnpin _ b _ = _
    simp [opObjUnpin, formed, found, pinned, id]
  case query =>
    intro o formed found
    refine (exec_of_turn turn len 0x17 rfl rfl (.inl (by decide))).trans (congrArg Host.Outcome.next ?_)
    change opObjQuery _ b _ = _
    have wrote := State.hostWrite_up (s := s.started src 0x17 b) (p := src.port) (by rw [State.down_started, State.turn_up turn]) (fld b 8 8) o.entry
    simp only [opObjQuery, formed, State.obj_started, found]
    rw [State.hostMem_started] at wrote
    simp [State.refFor, wrote]
  case evictNowhere =>
    intro o formed nowhere found unpinned noArrival noDeparture unused
    have id := State.obj_id found
    refine (exec_of_turn turn len 0x14 rfl rfl (.inl (by decide))).trans (congrArg Host.Outcome.next ?_)
    change opObjEvict _ b _ = _
    rw [id] at unused
    simp [opObjEvict, formed, nowhere, found, unpinned, noArrival, noDeparture, unused, id]
  case evict =>
    intro o formed dest found movable kept resident unpinned copied
    have id := State.obj_id found
    refine (exec_of_turn turn len 0x14 rfl rfl (.inl (by decide))).trans (congrArg Host.Outcome.next ?_)
    change opObjEvict _ b _ = _
    have known : ¬ 2 < fld b 4 1 := by omega
    have moves : fld b 4 1 ≠ 2 := by omega
    simp [opObjEvict, formed, known, moves, State.withMovable_of_kept, found, movable, kept, resident, unpinned, copied, id]
  case loadHost =>
    intro o formed found movable kept absent sources
    have id := State.obj_id found
    refine (exec_of_turn turn len 0x11 rfl rfl (.inl (by decide))).trans (congrArg Host.Outcome.next ?_)
    change opObjLoadHost _ b _ = _
    simp [opObjLoadHost, formed, State.withMovable_of_kept, found, movable, kept, sources, State.meetArrival_of_absent, absent, id]
  case promote =>
    intro o formed flash found movable kept absent copied ready
    have id := State.obj_id found
    refine (exec_of_turn turn len 0x13 rfl rfl (.inl (by decide))).trans (congrArg Host.Outcome.next ?_)
    change opObjPromote _ b _ = _
    simp [opObjPromote, formed, flash, State.withMovable_of_kept, found, movable, kept, copied, ready, State.meetArrival_of_absent, absent, id]
  case stage =>
    intro o formed own found movable kept resident ready bare fits free
    have id := State.obj_id found
    refine (exec_of_turn turn len 0x12 rfl rfl (.inl (by decide))).trans (congrArg Host.Outcome.next ?_)
    change opObjStageFlash _ b _ = _
    rw [id] at fits
    simp [opObjStageFlash, formed, own, State.withMovable_of_kept, found, movable, kept, resident, ready, bare, fits, free, id]
  case create =>
    intro off formed named kind die noGroup new present room
    refine (exec_of_turn turn len 0x10 rfl rfl (.inl (by decide))).trans (congrArg Host.Outcome.next ?_)
    change opObjCreate _ b _ = _
    have buffer : kindOf (bitsOf 4 3 0) = some .buffer := rfl
    have plain : bitOf 4 4 = false := rfl
    have noBits : bitsOf 4 7 5 = 0 := rfl
    simp [opObjCreate, kind, buffer, plain, noBits, formed, named, die, noGroup, new, present, room, obj0]

end Sys2Proof.Machine
end

section
/-! Model commands (O2). -/

namespace Sys2Proof.Machine

open Sys2Proof

theorem State.pfEnts_started (s : State) (src : Src) (op : Nat) (b : List Byte) : (s.started src op b).pfEnts = s.pfEnts := rfl

/-- PREFETCH_SCHED without entries is refused while the entries of the sequences are too many already. -/
theorem exec_prefetchSched_of_full {s : State} {src : Src} {b : List Byte} {m : Model} (turn : s.turn src = true) (len : b.length = 112)
    (formed : onlyUses b [(0, 3), (4, 12)] = true) (drop : fld b 2 1 = 0) (none : fld b 4 4 = 0) (found : s.model (fld b 0 2) = some m)
    (bound : m.releasing = .none) (full : 65536 < (s.pfEnts.filter fun e => e.kind == 3).length) :
    exec (.prefetchSched src b) s = .next ((s.started src 0x45 b).finish (s.refFor src 0x45) stNoSpace) := by
  refine (exec_of_turn turn len 0x45 rfl rfl (.inl (by decide))).trans (congrArg Host.Outcome.next ?_)
  change opPrefetchSched _ b _ = _
  have up : s.down (s.refFor src 0x45).src.port = false := State.turn_up turn
  have found : (s.started src 0x45 b).model (fld b 0 2) = some m := found
  simp [opPrefetchSched, formed, drop, none, found, bound, State.hostRead, up, chunks, State.pfEnts_started, full]

theorem State.finish_pfEnts (s : State) (r : Ref) (status : Nat) (result : List Byte) : (s.finish r status result).pfEnts = s.pfEnts :=
  eq_of_outside (State_finish_fr r status result Frame.rfl Sub.rfl).pfEnts (by decide)

/-- A prefetch entry of a sequence. -/
def seqEntry : PfEnt :=
  { kind := 3, model := 0, layer := 0, obj := 0, fromLp := false, tile0 := 0, nTiles := 0, die := 0, stageObj := 0, stageOff := 0, stepId := 0, sliceH := 0 }

/-- A prefetch entry of model 1. -/
def modelEntry : PfEnt := { seqEntry with kind := 0, model := 1 }

/-- A table of 65537 entries of sequences and the one of model 1. -/
def crowdedTable : List PfEnt := List.replicate 65537 seqEntry ++ [modelEntry]

theorem crowdedTable_full : 65536 < (crowdedTable.filter fun e => e.kind == 3).length := by
  rw [crowdedTable, List.filter_append, List.filter_replicate_of_pos rfl, List.length_append, List.length_replicate]
  omega

theorem modelEntry_mem_crowdedTable : modelEntry ∈ crowdedTable := List.mem_append_right _ (List.mem_singleton_self _)

/-- A module that runs, with port A up and its ring live. -/
def ringUp : State :=
  { State.reset with
    clk := { State.reset.clk with inReset := false, stage := 5 }
    pa := { State.port0 with
      linkUp := true
      ring := some { sqAddr := 0, cqAddr := 0x10000, sqLog2 := 4, cqLog2 := 4, vec := 0, coalUs := 0, fetch := 0, tail := 0, post := 0, head := 0,
                     phase := true, live := true } } }

/-- The module with model 1 bound and the crowded table. -/
def overfullSchedule : State :=
  { ringUp with
    models := [{ h := 1, slotNo := 0, dead := false, member := 0, cur := 0, nextView := 1, views := [], releasing := none, releaseAction := 0, swap := none,
                 swaps := [] }]
    pfEnts := crowdedTable }

def ringA : Src := { port := .a, mailbox := false, tag := 0, fence := false, sqIndex := 0 }

/-- The body of PREFETCH_SCHED for model 1 without entries. -/
def emptySchedule : List Byte := 1 :: List.replicate 111 0

theorem pfEnts_overfullSchedule : overfullSchedule.pfEnts = crowdedTable := rfl

theorem exec_prefetchSched_overfullSchedule :
    exec (.prefetchSched ringA emptySchedule) overfullSchedule =
      .next ((overfullSchedule.started ringA 0x45 emptySchedule).finish (overfullSchedule.refFor ringA 0x45) stNoSpace) := by
  have full : 65536 < (overfullSchedule.pfEnts.filter fun e => e.kind == 3).length := by
    rw [pfEnts_overfullSchedule]
    exact crowdedTable_full
  exact exec_prefetchSched_of_full rfl rfl (by decide +kernel) (by decide) (by decide) rfl rfl full

/-- Refutes O2: PREFETCH_SCHED without entries answers NO_SPACE and keeps the model's schedule while the table holds more than 65536 entries of sequences
(`overfullSchedule`), and its clause does not exclude that. -/
theorem not_modelCommandsTakeEffect : ¬ Obligations.ModelCommandsTakeEffect := by
  unfold Obligations.ModelCommandsTakeEffect
  intro holds
  obtain ⟨-, -, -, -, -, -, -, -, -, prefetch⟩ := holds overfullSchedule ringA emptySchedule rfl rfl
  obtain ⟨t, ran, dropped⟩ := prefetch _ (by decide +kernel) (by decide) (by decide) rfl rfl
  obtain rfl := Host.Outcome.next.inj (ran.symm.trans exec_prefetchSched_overfullSchedule)
  have kept : modelEntry ∈ crowdedTable.filter fun e => e.kind == 3 || e.model != fld emptySchedule 0 2 := by
    rw [← pfEnts_overfullSchedule, ← dropped, State.finish_pfEnts, State.pfEnts_started]
    exact modelEntry_mem_crowdedTable
  have spared := (List.mem_filter.mp kept).2
  exact absurd spared (by decide)

end Sys2Proof.Machine
end

section
/-! Slice and fabric commands (O3). -/

namespace Sys2Proof.Machine

open Sys2Proof

/-! ### What taking a COMMANDS slot leaves as it was -/

section
variable (s : State) (src : Src) (op : Nat) (b : List Byte)

@[simp] theorem State.coord_started : (s.started src op b).coord = s.coord := rfl

@[simp] theorem State.slc_started (h : Nat) : (s.started src op b).slc h = s.slc h := rfl

@[simp] theorem State.model_started (h : Nat) : (s.started src op b).model h = s.model h := rfl

@[simp] theorem State.steps_started : (s.started src op b).steps = s.steps := rfl

@[simp] theorem State.seqsIn_started (h : Nat) : (s.started src op b).seqsIn h = s.seqsIn h := rfl

@[simp] theorem State.router_started : (s.started src op b).router = s.router := rfl

@[simp] theorem State.link_started (i : Nat) : (s.started src op b).link i = s.link i := rfl

@[simp] theorem State.bundleW_started : (s.started src op b).bundleW = s.bundleW := rfl

@[simp] theorem State.tx_started : (s.started src op b).tx = s.tx := rfl

@[simp] theorem State.slices_started : (s.started src op b).slices = s.slices := rfl

end

/-- A handle that is filled reads as what filled it. -/
theorem State.slc_modSlc_const {s : State} {h : Nat} (known : h < s.slices.length) (x : Slice) : (s.modSlc h fun _ => x).slc h = x := by
  simp [State.slc, State.modSlc, List.getD_eq_getElem?_getD, known]

theorem State.state_modSlc_joins (s : State) (h : Nat) (l : List SliceMsg) :
    ((s.modSlc h fun x => { x with joins := l }).slc h).state = (s.slc h).state := by
  by_cases known : h < s.slices.length <;> simp [State.slc, State.modSlc, List.getD_eq_getElem?_getD, known]

/-- The slice that a SLICE_JOIN puts into its handle. -/
def State.joiningSlice (s : State) (r : Ref) (b : List Byte) (v : View) (rt : RTable) : Slice :=
  { sliceOfBody b with
    master := if fld b 8 1 = 0xFF then 0 else fld b 8 1
    palDig := (sliceOfBody b).palset.map fun p => ((s.pals.find? fun q => q.id == p).map (·.digest)).getD []
    manHdr := v.man.hdrDigest
    count := ((sliceOfBody b).members s.coord.dims).length
    member := (((sliceOfBody b).members s.coord.dims).findIdx? fun c => c == s.coord.coord).getD 0
    rt := [some { rt with rgen := fld b 40 4 }, none]
    ref := some r }

/-- The state with a slice in its handle; a master takes the JOINs that came early with it. -/
def State.takeHandle (s : State) (h : Nat) (x : Slice) : State :=
  let filled : State := { s.modSlc h fun _ => x with joinQ := s.joinQ.filter fun m => m.tag != x.tag }
  if x.isMaster then filled.modSlc h fun y => { y with joins := s.joinQ.filter fun m => m.tag == x.tag } else filled

theorem State.takeHandle_tx (s : State) (h : Nat) (x : Slice) : (s.takeHandle h x).tx = s.tx := by
  rw [State.takeHandle]
  split <;> rfl

theorem State.takeHandle_state {s : State} {h : Nat} (known : h < s.slices.length) (x : Slice) : ((s.takeHandle h x).slc h).state = x.state := by
  have filled : ((s.modSlc h fun _ => x).slc h).state = x.state := by rw [State.slc_modSlc_const known]
  rw [State.takeHandle]
  split
  · rw [State.state_modSlc_joins]
    exact filled
  · exact filled

theorem State.sendSlice_tx {s u : State} (same : u.tx = s.tx) (k : SlcKind) (c : Nat) (m : SliceMsg) :
    (u.sendSlice k [c] m).tx = s.tx ++ [.slice k c m (sliceMsgBytes k m)] := by
  rw [← same]
  rfl

/-- SLICE_JOIN of a well-formed slice of a bound model fills its handle and sends JOIN. -/
theorem opSliceJoin_of_wellFormed {s : State} {r : Ref} {b tb : List Byte} {v : View} {tag : Nat} {rt : RTable}
    (formed : onlyUses b [(0, 19), (20, 24)] = true) (handle : fld b 0 1 ≤ 7) (valid : s.coord.valid = true) (free : (s.slc (fld b 0 1)).state = .free)
    (view : (s.model (sliceOfBody b).model).bind Model.curView = some v) (bound : (s.model (sliceOfBody b).model).bind (·.releasing) = none)
    (joins : s.joinOk b (sliceOfBody b) v.man.members = true) (gen : fld b 40 4 ≠ 0)
    (read : s.hostRead r.src.port (fld b 32 8) 128 = some tb) (parsed : parseRoute tb = some (tag, rt))
    (routes : s.routeOk (sliceOfBody b) tag rt = true) :
    opSliceJoin r b s =
      let u := s.takeHandle (fld b 0 1) (s.joiningSlice r b v rt)
      u.sendSlice .join [u.masterCoord (fld b 0 1)] (u.slcMsg (fld b 0 1) 0 0) := by
  have handle : ¬ 7 < fld b 0 1 := by omega
  simp [opSliceJoin, formed, handle, valid, free, view, bound, joins, gen, read, parsed, routes]
  rfl

/-- Settles O3: each slice or fabric command runs at once when its turn has come. -/
theorem sliceCommandsTakeEffect : Obligations.SliceCommandsTakeEffect := by
  unfold Obligations.SliceCommandsTakeEffect
  intro s src b turn len
  refine ⟨fun bad => ?_, fun bad => ?_, fun bad => ?_, fun bad valid => ?_, ?join, ?leave, ?transit, ?bundle⟩
  · exact (exec_of_turn turn len 0x30 rfl rfl (.inl (by decide))).trans (congrArg Host.Outcome.next (if_pos (by simp [bad])))
  · exact (exec_of_turn turn len 0x31 rfl rfl (.inl (by decide))).trans (congrArg Host.Outcome.next (if_pos (by simp [bad])))
  · exact (exec_of_turn turn len 0x32 rfl rfl (.inl (by decide))).trans (congrArg Host.Outcome.next (if_pos (by simp [bad])))
  · exact (exec_of_turn turn len 0x33 rfl rfl (.inr valid)).trans (congrArg Host.Outcome.next (if_pos (by simp [bad])))
  case join =>
    intro v tb tag rt formed handle valid free view bound joins gen read parsed routes known
    have eq := opSliceJoin_of_wellFormed (s := s.started src 0x30 b) (r := s.refFor src 0x30) formed handle valid free view bound joins gen read parsed routes
    refine ⟨_, _, _, (exec_of_turn turn len 0x30 rfl rfl (.inl (by decide))).trans (congrArg Host.Outcome.next eq), State.sendSlice_tx (State.takeHandle_tx ..) .join _ _,
      State.takeHandle_state (s := s.started src 0x30 b) known _⟩
  case leave =>
    intro formed handle stopped unused noSeq
    refine (exec_of_turn turn len 0x31 rfl rfl (.inl (by decide))).trans (congrArg Host.Outcome.next ?_)
    change opSliceLeave _ b _ = _
    have handle : ¬ 7 < fld b 0 1 := by omega
    simp [opSliceLeave, formed, handle, stopped, unused, noSeq]
  case transit =>
    intro tb formed kind aligned size read wellFormed distinct
    refine (exec_of_turn turn len 0x32 rfl rfl (.inl (by decide))).trans (congrArg Host.Outcome.next ?_)
    change opRouteLoad _ b _ = _
    have size : ¬ 256 < fld b 24 4 := by omega
    simp [opRouteLoad, formed, kind, aligned, size, State.refFor, read, wellFormed, distinct]
  case bundle =>
    intro formed valid same assigned few mask fold
    refine (exec_of_turn turn len 0x33 rfl rfl (.inr valid)).trans (congrArg Host.Outcome.next ?_)
    change opBundleSet _ b _ = _
    have none : ((List.range 28).filter fun i => fld b i 1 != (s.link i).bundle || (fld b i 1 == 6 && fld b 28 1 != s.coord.foldMask)) = [] := by
      refine List.filter_eq_nil_iff.mpr fun i known => ?_
      have known : i < 28 := List.mem_range.mp known
      by_cases optical : fld b i 1 = 6
      · simp [← same i known, optical, fold i known optical]
      · simp [← same i known, optical]
    have valued : ((List.range 28).any fun i => !(decide (fld b i 1 ≤ 6) || fld b i 1 == 15)) = false := by
      simpa [or_iff_not_imp_left] using assigned
    have sized : (((List.range 7).map fun d => ((List.range 28).filter fun i => fld b i 1 == d).length).any fun n => decide (8 < n)) = false := by
      simpa using few
    rw [mask] at none ⊢
    simp only [opBundleSet, formed, State.link_started, State.coord_started, none, valued, sized, mask, Bool.not_true, bne_self_eq_false, Bool.or_false,
      Bool.false_eq_true, if_false, List.any_nil, List.foldl_nil]
    rfl

end Sys2Proof.Machine
end

section
/-! Step and sequence commands (O4). -/

namespace Sys2Proof.Machine

open Sys2Proof

/-- STEP_SUBMIT that uses a reserved byte is refused, and its completion names the step. -/
theorem exec_stepSubmit_of_reserved {s : State} {src : Src} {b : List Byte} (turn : s.turn src = true) (len : b.length = 112)
    (bad : onlyUses b [(0, 15), (16, 4), (24, 40)] = false) :
    exec (.stepSubmit src b) s = .next ((s.started src 0x40 b).finish (s.refFor src 0x40) stBadField (leBytes 8 (fld b 0 8))) :=
  (exec_of_turn turn len 0x40 rfl rfl (.inl (by decide))).trans (congrArg Host.Outcome.next (if_pos (by simp [bad])))

/-- The body of STEP_SUBMIT of step 77 with a nonzero byte in a reserved field. -/
def reservedSubmit : List Byte := 77 :: List.replicate 14 0 ++ [1] ++ List.replicate 96 0

/-- The first 8 bytes of the result in the completion at the start of the ring. -/
def postedStep (s : State) : Nat := Memory.nat s.hostA (0x10000 + 16) 8

/-- Refutes O4: a STEP_SUBMIT refused for a reserved byte completes with its STEP_ID in the result (`reservedSubmit` in `ringUp`); its clause states a
completion without a result. -/
theorem not_stepCommandsTakeEffect : ¬ Obligations.StepCommandsTakeEffect := by
  unfold Obligations.StepCommandsTakeEffect
  intro ⟨holds, _⟩
  have bad : onlyUses reservedSubmit [(0, 15), (16, 4), (24, 40)] = false := by decide +kernel
  obtain ⟨refused, -⟩ := holds ringUp ringA reservedSubmit rfl rfl
  have claimed := (exec_stepSubmit_of_reserved (s := ringUp) (src := ringA) rfl rfl bad).symm.trans (refused bad)
  have same := congrArg postedStep (Host.Outcome.next.inj claimed)
  exact absurd same (by decide +kernel)

end Sys2Proof.Machine
end

section
/-! Palette, readback and security commands (O5). -/

namespace Sys2Proof.Machine

open Sys2Proof

section
variable (s : State) (src : Src) (op : Nat) (b : List Byte)

@[simp] theorem State.sec_started : (s.started src op b).sec = s.sec := rfl

@[simp] theorem State.clk_started : (s.started src op b).clk = s.clk := rfl

@[simp] theorem State.snap_started : (s.started src op b).snap = s.snap := rfl

@[simp] theorem State.pals_started : (s.started src op b).pals = s.pals := rfl

@[simp] theorem State.palUsed_started (id : Nat) : (s.started src op b).palUsed id = s.palUsed id := rfl

@[simp] theorem State.rptTotal_started : (s.started src op b).rptTotal = s.rptTotal := rfl

@[simp] theorem State.rptBody_started (nonce : List Byte) : (s.started src op b).rptBody nonce = s.rptBody nonce := rfl

end

@[simp] theorem State.finish_pals (s : State) (r : Ref) (st : Nat) (x : List Byte) : (s.finish r st x).pals = s.pals :=
  eq_of_outside (State_finish_fr r st x Frame.rfl Sub.rfl).pals (by decide)

theorem length_withBit (b : List Byte) (i : Nat) : (withBit b i).length = 112 := by
  simp [withBit, length_padTo]

/-- A dump through a port that is up reaches host memory and completes. -/
theorem State.dumpTo_of_up {s : State} {r : Ref} (up : s.down r.src.port = false) (dst : Nat) (x more : List Byte) :
    s.dumpTo r dst x more =
      (s.setHostMem r.src.port (Memory.write (s.hostMem r.src.port) dst x)).finishWith r stOK (leBytes 4 x.length ++ more) false := by
  simp [State.dumpTo, State.hostWrite_up up]

/-- Settles O5: each of these commands runs at once when its turn has come. -/
theorem storeCommandsTakeEffect : Obligations.StoreCommandsTakeEffect := by
  unfold Obligations.StoreCommandsTakeEffect
  intro s src b turn len
  refine ⟨fun bad => ?_, fun bad => ?_, fun bad => ?_, fun bad => ?_, fun bad => ?_, ?load, ?remove, ?removeReserved, ?dump, ?snap, ?update, ?attest⟩
  · exact (exec_of_turn turn len 0x50 rfl rfl (.inl (by decide))).trans (congrArg Host.Outcome.next (if_pos (by simp [bad])))
  · exact (exec_of_turn turn len 0x60 rfl rfl (.inl (by decide))).trans (congrArg Host.Outcome.next (if_pos (by simp [bad])))
  · exact (exec_of_turn turn len 0x61 rfl rfl (.inl (by decide))).trans (congrArg Host.Outcome.next (if_pos (by simp [bad])))
  · exact (exec_of_turn turn len 0x70 rfl rfl (.inl (by decide))).trans (congrArg Host.Outcome.next (if_pos (by simp [bad])))
  · exact (exec_of_turn turn len 0x71 rfl rfl (.inl (by decide))).trans (congrArg Host.Outcome.next (if_pos (by simp [bad])))
  case load =>
    intro img sig formed keep reserved size sigSize readImage readSig wellFormed admitted
    refine (exec_of_turn turn len 0x50 rfl rfl (.inl (by decide))).trans (congrArg Host.Outcome.next ?_)
    change opPaletteLoad _ b _ = _
    have size : ¬ 32832 < fld b 8 4 := by omega
    have sigOk : (fld b 24 4 != 0 && fld b 24 4 != 29856) = false := by rcases sigSize with none | full <;> simp [*]
    simp only [opPaletteLoad, formed, keep, reserved, size, sigOk, State.refFor, readImage, readSig, wellFormed, State.sec_started, admitted]
    rfl
  case remove =>
    intro formed removes noData noSig unused held
    refine ⟨_, exec_of_turn turn (length_withBit b 12) 0x50 rfl rfl (.inl (by decide)), ?_⟩
    change (opPaletteLoad _ (withBit b 12) _).pals = _
    simp [opPaletteLoad, formed, removes, State.removePalette, noData, noSig, unused, held]
  case removeReserved =>
    intro reserved
    exact (exec_of_turn turn (length_withBit b 12) 0x50 rfl rfl (.inl (by decide))).trans (congrArg Host.Outcome.next (if_pos (by simp [reserved])))
  case dump =>
    intro formed aperture aligned size
    refine (exec_of_turn turn len 0x60 rfl rfl (.inl (by decide))).trans (congrArg Host.Outcome.next ?_)
    change opStateDump _ b _ = _
    have aperture : ¬ 15 < fld b 0 1 := by omega
    have size : ¬ 16777216 < fld b 24 4 := by omega
    have up : (s.started src 0x60 b).down (s.refFor src 0x60).src.port = false := State.turn_up (s := s) turn
    simp [opStateDump, formed, aperture, aligned, size, State.dumpTo_of_up up]
    rfl
  case snap =>
    intro formed
    refine (exec_of_turn turn len 0x61 rfl rfl (.inl (by decide))).trans (congrArg Host.Outcome.next ?_)
    change opSnapRead _ b _ = _
    have up : (s.started src 0x61 b).down (s.refFor src 0x61).src.port = false := State.turn_up (s := s) turn
    simp [opSnapRead, formed, State.dumpTo_of_up up]
    rfl
  case update =>
    intro img formed slot act free other read wellFormed
    refine ⟨_, exec_of_turn turn len 0x70 rfl rfl (.inl (by decide)), ?_⟩
    change if _ then (opFwUpdate _ b _).sec.upd = _ ∧ (opFwUpdate _ b _).sec.imgA = _ ∧ (opFwUpdate _ b _).sec.imgB = _ else opFwUpdate _ b _ = _
    have slot : ¬ 1 < fld b 12 1 := by omega
    have act : ¬ 1 < fld b 13 1 := by omega
    by_cases verified : s.sec.verifies (parseImage img) = true
    · simp [opFwUpdate, formed, slot, act, free, other, State.refFor, read, wellFormed, verified]
    · simp [opFwUpdate, formed, slot, act, free, other, State.refFor, read, wellFormed, verified]
  case attest =>
    intro formed room free
    refine ⟨_, exec_of_turn turn len 0x71 rfl rfl (.inl (by decide)), ?_⟩
    change (opAttest _ b _).sec.rpts = _
    have room : ¬ fld b 40 4 < s.rptTotal := by omega
    simp [opAttest, formed, room, free, State.askReport]

end Sys2Proof.Machine
end

section
/-! Commands on the module itself (O6). -/

namespace Sys2Proof.Machine

open Sys2Proof

section
variable (s : State) (src : Src) (op : Nat) (b : List Byte)

@[simp] theorem State.devInfo_started : (s.started src op b).devInfo = s.devInfo := rfl

@[simp] theorem State.power_started : (s.started src op b).power = s.power := rfl

@[simp] theorem State.flashIdle_started : (s.started src op b).flashIdle = s.flashIdle := rfl

@[simp] theorem slotsUsed_started : slotsUsed (s.started src op b) = slotsUsed s := rfl

end

section
variable (s : State) (r : Ref) (st : Nat) (x : List Byte)

@[simp] theorem State.finish_clk : (s.finish r st x).clk = s.clk :=
  eq_of_outside (State_finish_fr r st x Frame.rfl Sub.rfl).clk (by decide)

@[simp] theorem State.finish_power : (s.finish r st x).power = s.power :=
  eq_of_outside (State_finish_fr r st x Frame.rfl Sub.rfl).power (by decide)

end

theorem State.turn_ring {s : State} {src : Src} (turn : s.turn src = true) : src.mailbox = false := by
  simp only [State.turn, Bool.and_eq_true, Bool.not_eq_true'] at turn
  obtain ⟨⟨⟨⟨ring, -⟩, -⟩, -⟩, -⟩ := turn
  exact ring

/-- Settles O6: each command on the module runs at once when its turn has come, and RING_SETUP also from the mailbox. -/
theorem deviceCommandsTakeEffect : Obligations.DeviceCommandsTakeEffect := by
  unfold Obligations.DeviceCommandsTakeEffect
  refine ⟨fun s src b turn len => ⟨fun bad => ?_, fun bad => ?_, fun bad => ?_, ?info, ?module, ?die, ?flash, ?ring, ?takeover, ?takeoverReserved, ?policy⟩,
    ?mailbox⟩
  · exact (exec_of_turn turn len 0x01 rfl rfl (.inl (by decide))).trans (congrArg Host.Outcome.next (if_pos (by simp [bad])))
  · exact (exec_of_turn turn len 0x02 rfl rfl (.inl (by decide))).trans (congrArg Host.Outcome.next (if_pos (by simp [bad])))
  · exact (exec_of_turn turn len 0x80 rfl rfl (.inl (by decide))).trans (congrArg Host.Outcome.next (if_pos (by simp [bad])))
  case info =>
    intro formed
    exact (exec_of_turn turn len 0x01 rfl rfl (.inl (by decide))).trans (congrArg Host.Outcome.next (if_neg (by simp [formed])))
  case module =>
    intro formed code
    refine ⟨_, exec_of_turn turn len 0x02 rfl rfl (.inl (by decide)), ?_⟩
    change (opResetScope _ b _).clk = _
    simp [opResetScope, formed, code, State.modClk]
  case die =>
    intro k formed known code present idle
    refine (exec_of_turn turn len 0x02 rfl rfl (.inl (by decide))).trans (congrArg Host.Outcome.next ?_)
    change opResetScope _ b _ = _
    have notModule : 16 + k ≠ 1 := by omega
    have aDie : 16 + k < 24 := by omega
    simp [opResetScope, formed, code, notModule, aDie, present, idle]
  case flash =>
    intro formed code idle
    refine ⟨_, exec_of_turn turn len 0x02 rfl rfl (.inl (by decide)), ?_⟩
    change (opResetScope _ b _).clk.flsRst = _ ∧ (opResetScope _ b _).flash.ready = _
    simp [opResetScope, formed, code, idle, State.modClk, State.modFlash]
  case ring =>
    intro formed setUp
    refine (exec_of_turn turn len 0x03 rfl rfl (.inl (by decide))).trans (congrArg Host.Outcome.next ?_)
    change opRingSetup _ b _ = _
    simp [opRingSetup, formed, setUp, State.refFor, State.turn_ring turn]
  case takeover =>
    intro formed adopts vector down
    refine (exec_of_turn turn (length_withBit b 19) 0x03 rfl rfl (.inl (by decide))).trans (congrArg Host.Outcome.next ?_)
    change opRingSetup _ (withBit b 19) _ = _
    have vector : ¬ 63 < fld (withBit b 19) 18 1 := by omega
    simp [opRingSetup, formed, adopts, vector, State.refFor, down]
  case takeoverReserved =>
    intro reserved
    exact (exec_of_turn turn (length_withBit b 19) 0x03 rfl rfl (.inl (by decide))).trans (congrArg Host.Outcome.next (if_pos (by simp [reserved])))
  case policy =>
    intro formed keep low high fast slow fill
    refine ⟨_, exec_of_turn turn len 0x80 rfl rfl (.inl (by decide)), ?_⟩
    change (opPowerPolicy _ b _).power = _
    have noBit (i : Nat) : bitOf 0 i = false := by simp [bitOf]
    have lo : fld b 4 4 ≠ 4294967295 := by omega
    have hi : fld b 8 4 ≠ 4294967295 := by omega
    have slew : fld b 12 4 ≠ 4294967295 := by omega
    have bounds : ¬ 4400 < fld b 4 4 ∧ ¬ 4400 < fld b 8 4 ∧ ¬ fld b 8 4 < fld b 4 4 ∧ ¬ fld b 12 4 < 100 ∧ ¬ 5000 < fld b 12 4 := by omega
    obtain ⟨loMax, hiMax, ordered, slewMin, slewMax⟩ := bounds
    simp [opPowerPolicy, formed, keep, fill, lo, hi, slew, loMax, hiMax, ordered, slewMin, slewMax, State.modPower, noBit]
  case mailbox =>
    intro s src b mailbox serve up idle len formed setUp vector form empty
    obtain ⟨-, -, alive⟩ := State.up_iff.mp up
    have vector : ¬ 63 < fld b 18 1 := by omega
    have runs : exec (.ringSetup src b) s = .next (s.mailbox src 0x03 (padTo 112 b)) :=
      congrArg Host.Outcome.next ((if_pos mailbox).trans (if_pos (by simp [serve])))
    rw [padTo_112 b len, State.mailbox_runs up idle (by simp [opcodeOk, mailboxOk]) rfl rfl len] at runs
    refine ⟨_, runs, ?_⟩
    change (State.port (opRingSetup _ b _) src.port).ring = _ ∧ (State.port (opRingSetup _ b _) src.port).mbDone = _ ∧
      (State.port (opRingSetup _ b _) src.port).mbBusy = _ ∧ (State.port (opRingSetup _ b _) src.port).taken = _
    simp [opRingSetup, formed, setUp, vector, mailbox, form, State.installRing, State.finish_of_mailbox, alive, empty, State.flushHeld]

end Sys2Proof.Machine
end
